-- ==== Sys2Proof/Word.lean ====
section
/-! DEFINITION. The words of the Y25 (R12, R14, R105): 32-bit register words, bytes, tagged words, and the one
shape every sparse piece of state has: a list of key and value pairs. -/

namespace Sys2Proof

/-- A register word (R14) or residue word (R105). -/
abbrev Word := BitVec 32
/-- One byte of device memory. -/
abbrev Byte := BitVec 8
/-- A 64-bit quantity: a register pair (R20), the fabric counter, a lane pair. -/
abbrev DWord := BitVec 64
/-- One Enevead bundle (R139). -/
abbrev Bundle := BitVec 256

/-- A sparse table: keys strictly rising, no entry equal to what an unlisted key reads as. -/
abbrev Tbl (α : Type) := List (Nat × α)

/-- A 32-bit word with its poison tag (R132). -/
structure TWord where
  val : Word
  tag : Bool
  deriving DecidableEq, Repr

/-- The untagged zero word. -/
def TWord.zero : TWord := ⟨0, false⟩

end Sys2Proof
end

