-- ==== Sys2Proof/Syntax.lean ====
section
/-! DEFINITION. The commands of the Y25 (opcode_table.json): one constructor per row, with the operands that the event
brings with it. -/

namespace Sys2Proof

/-- A processor or port that can reach an EIC. -/
inductive Proc where
  | dieSeq (d : Nat)
  | ioSeq (i : Nat)
  | keeper (i : Nat)
  | host
  | sideband
  deriving DecidableEq, Repr

/-- Who makes a register access: the host through the BAR0 of a function, or a processor. -/
inductive Master where
  | bar0 (f : Nat)
  | proc (p : Proc)
  deriving DecidableEq, Repr

/-- A flit (Table 13.2), its crc already checked by the port. -/
structure Flit where
  typ : Nat
  vc : Nat
  seq : Nat
  ack : Nat
  crVc : Nat
  crCount : Nat
  dst : Nat
  ttl : Nat
  first : Bool
  last : Bool
  gen : Nat
  src : Nat
  msgId : Nat
  payload : List Byte
  deriving DecidableEq, Repr

/-- Where a register access falls: its byte offset in BAR0 and its width in bytes (R19). -/
structure RegSpan where
  off : Nat
  width : Nat
  deriving DecidableEq, Repr

/-- What a memory finds in the words that it reads: nothing, one correctable error, or an uncorrectable word at a byte
offset of the access; a GDDR7 link may exhaust its CRC retries (Tables 10.4 and 10.6). -/
inductive MemErr where
  | none
  | ce (off : Nat)
  | ue (off : Nat)
  | linkCrc
  deriving DecidableEq, Repr

/-- A burst that the fetch unit of an IOD serves, with the error that its read meets (R287, R296). -/
structure BurstRead where
  iod : Nat
  err : MemErr
  deriving DecidableEq, Repr

/-- A slot of patrol scrub: an address in the line or unit, and the core-domain cycle of its memory (R354). -/
structure ScrubSlot where
  addr : Nat
  cyc : Nat
  deriving DecidableEq, Repr

/-- Outcome of programming a Daymark record: done, a failed program, verify or erase step, or an uncorrectable error of
the staging ring in the record that was to be programmed (R530). -/
inductive FlashResult where
  | ok | program | verify | erase | stagingRam
  deriving DecidableEq, Repr

/-- What the boot ROMs and the flash reads of a Keeper boot find (R508, R509, R533, R582): for the Keeper of IOD0 and that
of IOD1 the failed self-test step (0 none, 1 to 3) and the image that passes (0 A, 1 B, 2 neither); the outcome of the
test programming of a degraded Daymark; the state of the two copies of the in-field map (0 valid, 1 bad magic, 2 bad crc). -/
structure BootReport where
  fail0 : Nat
  image0 : Nat
  fail1 : Nat
  image1 : Nat
  retry : FlashResult
  copyA : Nat
  copyB : Nat
  deriving DecidableEq, Repr

/-- A row remap record (Table 17.5). -/
structure Remap where
  /-- 1 Core Store, 2 Tile Bank -/
  kind : Nat
  unit : Nat
  bank : Nat
  spare : Nat
  row : Nat
  deriving DecidableEq, Repr

/-- What the start phase that ends has taken and found (Tables 17.1 and 17.2): its duration, a rail out of tolerance
(phase 2), controllers that did not train (phase 3), cores and tiles that failed and rows to repair (phase 4), failed
self-tests (phase 6). -/
structure PhaseReport where
  ms : Nat
  railBad : Bool
  badCtls : List Nat
  badCores : List Nat
  badTiles : List Nat
  remaps : List Remap
  pcieFail : Bool
  pkeFail : Bool
  deriving DecidableEq, Repr

/-- One 100 µs sample (R512): 128 temperatures in °C, 64 voltages in mV, 64 currents in units of 10 mA. -/
structure Sample where
  temps : List Int
  volts : List Int
  amps : List Int
  deriving DecidableEq, Repr

/-- How a maintenance activity ends: whether it succeeded; cores that a retest found failing and whether the tile's shared
parts failed; rows that it remapped; lanes that a retrained port runs on. -/
structure MntReport where
  ok : Bool
  badCores : List Nat
  shared : Bool
  remaps : List Remap
  lanes : Nat
  deriving DecidableEq, Repr

/-- How a Public-Key Engine job ends (R551, R553): it is over; a produced signature fails the check before release; or no
attempt of an ML-DSA block was accepted. -/
inductive PkeResult where
  | done | selfFail | extend
  deriving DecidableEq, Repr
/-- The commands (rows of opcode_table.json). -/
inductive Instr where
  /-- POWER_APPLIED (R575) -/
  | powerApplied (vin : Nat) (rep : BootReport)
  /-- START_PHASE_END (R575) -/
  | startPhaseEnd (rep : PhaseReport)
  /-- PHASE_TIMEOUT (R576) -/
  | phaseTimeout
  /-- PERST_DEASSERT (R577) -/
  | perstDeassert
  /-- PERST_ASSERT (R590) -/
  | perstAssert
  /-- WAKE_RELEASE (R610) -/
  | wakeRelease
  /-- CONFIG_REQUEST (R392) -/
  | configRequest (f : Nat) (off : Nat) (write : Bool) (v : Word)
  /-- MODULE_WITHDRAWAL (R608) -/
  | moduleWithdrawal (vin : Nat)
  /-- POWER_FAIL (R519) -/
  | powerFail (vin : Nat)
  /-- HW_THERMAL_TRIP (R517) -/
  | hwThermalTrip (sensor : Nat)
  /-- KEEPER_WATCHDOG (R509) -/
  | keeperWatchdog (rep : BootReport)
  /-- KEEPER_SAMPLE (R513) -/
  | keeperSample (smp : Sample)
  /-- OP_SECONDS_SAVE (R511) -/
  | opSecondsSave
  /-- PLL_UNLOCK (R489) -/
  | pllUnlock (die : Nat) (dom : Nat)
  /-- PLL_RELOCK (R489) -/
  | pllRelock (die : Nat) (dom : Nat) (ok : Bool)
  /-- SMBUS_ARP (R520) -/
  | smbusArp (cmd : Nat)
  /-- MCTP_CONTROL (R520) -/
  | mctpControl (pecOk : Bool) (cmd : Nat) (data : List Byte)
  /-- PLDM_SET_EVENT_RECEIVER (R521) -/
  | pldmSetEventReceiver (eid : Nat)
  /-- PLDM_EVENT_ACK (R521) -/
  | pldmEventAck
  /-- PLDM_GET_SENSOR_READING (R521) -/
  | pldmGetSensorReading (id : Nat)
  /-- PLDM_FRU_READ (R521) -/
  | pldmFruRead (off : Nat) (n : Nat)
  /-- PLDM_POWER_ON (R518) -/
  | pldmPowerOn
  /-- PLDM_POWER_OFF (R590) -/
  | pldmPowerOff
  /-- PLDM_WARM_RESET (R590) -/
  | pldmWarmReset
  /-- PLDM_COLD_RESET (R590) -/
  | pldmColdReset
  /-- RESET_GRACE_EXPIRY (R591) -/
  | resetGraceExpiry
  /-- PLDM_SET_CAP_WATTS (R523) -/
  | pldmSetCapWatts (d : Nat) (w : Nat)
  /-- PLDM_SET_CAP_PACE (R515) -/
  | pldmSetCapPace (d : Nat) (p : Nat)
  /-- REG_READ (R522) -/
  | regRead (off : Nat) (count : Nat)
  /-- REG_WRITE (R522) -/
  | regWrite (off : Nat) (ws : List Word)
  /-- DAY_LOAD (R522) -/
  | dayLoad (seq : Nat)
  /-- DAY_HOLD_FREEZE (R529) -/
  | dayHoldFreeze
  /-- DAY_HOLD_THAW (R529) -/
  | dayHoldThaw
  /-- LATCH_READ (R522) -/
  | latchRead
  /-- DAYMARK_PROGRAM (R526) -/
  | daymarkProgram (res : FlashResult)
  /-- FREEZE_LIMIT_EXPIRY (R529) -/
  | freezeLimitExpiry (m : Nat)
  /-- DAY_CMD_LOAD (R528) -/
  | dayCmdLoad
  /-- DAY_CMD_NEXT (R528) -/
  | dayCmdNext
  /-- DAY_CMD_FREEZE (R529) -/
  | dayCmdFreeze
  /-- DAY_CMD_THAW (R529) -/
  | dayCmdThaw
  /-- DAY_CMD_RETRY (R533) -/
  | dayCmdRetry (res : FlashResult)
  /-- DAY_CMD_CLEAR_LATCH (R533) -/
  | dayCmdClearLatch
  /-- EIC_CLAIM (R536) -/
  | eicClaim (e : Nat) (t : Nat) (who : Proc)
  /-- EIC_COMPLETE (R537) -/
  | eicComplete (e : Nat) (t : Nat) (src : Nat)
  /-- EIC_SWSET (R539) -/
  | eicSwset (e : Nat) (src : Nat) (who : Proc)
  /-- EIC_LOCK (R539) -/
  | eicLock (e : Nat) (v : Word)
  /-- HUB_WAKE (R541) -/
  | hubWake (d : Nat)
  /-- REGISTER_WRITE (R15) -/
  | registerWrite (m : Master) (off : Nat) (width : Nat) (v : Nat)
  /-- RC_READ (R18) -/
  | rcRead (m : Master) (r : RegSpan) (coincident : Nat)
  /-- PAIR_LO_READ (R20) -/
  | pairLoRead (m : Master) (r : RegSpan)
  /-- PAIR_HI_WRITE (R20) -/
  | pairHiWrite (m : Master) (off : Nat) (v : Word)
  /-- PAIR_LO_WRITE (R20) -/
  | pairLoWrite (m : Master) (off : Nat) (v : Word)
  /-- JOB_OBJ_POLICY_WRITE (R619) -/
  | jobObjPolicyWrite (f : Nat) (v : Word)
  /-- HIF_FN_RESET_GO (R415) -/
  | hifFnResetGo (f : Nat)
  /-- FUNCTION_LEVEL_RESET (R415) -/
  | functionLevelReset (f : Nat)
  /-- VF_ENABLE_CLEAR (R415) -/
  | vfEnableClear
  /-- RING_ENABLE (R427) -/
  | ringEnable (f : Nat) (r : Nat) (v : Word)
  /-- RING_DISABLE (R427) -/
  | ringDisable (f : Nat) (r : Nat) (v : Word)
  /-- BAR2_ACCESS (R397) -/
  | bar2Access (off : Nat) (n : Nat) (write : Bool) (data : List Byte)
  /-- BELL_POLL (R399) -/
  | bellPoll (f : Nat) (bell : List Byte) (fetched : List (List Byte))
  /-- INPUT_SEGMENT_ARRIVAL (R422) -/
  | inputSegmentArrival (f : Nat) (x : Nat) (gen : Nat) (off : Nat) (data : List Byte) (poison : Bool) (bad : Bool)
  /-- SEGMENT_TIMEOUT (R422) -/
  | segmentTimeout (x : Nat)
  /-- READ_COMPLETION_TIMEOUT (R422) -/
  | readCompletionTimeout (x : Nat) (off : Nat) (n : Nat)
  /-- LOAD_PARAMS (R70) -/
  | loadParams (f : Nat) (r : Nat) (idx : Nat)
  /-- LOAD_KEYS (R87) -/
  | loadKeys (f : Nat) (r : Nat) (idx : Nat)
  /-- LOAD_MODEL (R222) -/
  | loadModel (f : Nat) (r : Nat) (idx : Nat)
  /-- SUBMIT_CIRCUIT (R57) -/
  | submitCircuit (f : Nat) (r : Nat) (idx : Nat)
  /-- DIRECT_OP (R96) -/
  | directOp (f : Nat) (r : Nat) (idx : Nat)
  /-- RAW_SECTOR (R404) -/
  | rawSector (f : Nat) (r : Nat) (idx : Nat)
  /-- COPY (R404) -/
  | copy (f : Nat) (r : Nat) (idx : Nat)
  /-- FENCE (R406) -/
  | fence (f : Nat) (r : Nat) (idx : Nat)
  /-- FREE_BUFFER (R362) -/
  | freeBuffer (f : Nat) (r : Nat) (idx : Nat)
  /-- FREE_SLOT (R405) -/
  | freeSlot (f : Nat) (r : Nat) (idx : Nat)
  /-- QUERY_DEVICE (R424) -/
  | queryDevice (f : Nat) (r : Nat) (idx : Nat)
  /-- QUERY_FUNCTION (R424) -/
  | queryFunction (f : Nat) (r : Nat) (idx : Nat)
  /-- QUERY_SECTOR (R424) -/
  | querySector (f : Nat) (r : Nat) (idx : Nat)
  /-- QUERY_MODEL (R424) -/
  | queryModel (f : Nat) (r : Nat) (idx : Nat)
  /-- QUERY_BUILTIN (R424) -/
  | queryBuiltin (f : Nat) (r : Nat) (idx : Nat)
  /-- QUERY_ATTEST (R569) -/
  | queryAttest (f : Nat) (r : Nat) (idx : Nat)
  /-- QUERY_IDENTITY (R561) -/
  | queryIdentity (f : Nat) (r : Nat) (idx : Nat)
  /-- CANCEL (R407) -/
  | cancel (f : Nat) (r : Nat) (idx : Nat)
  /-- SCHEDULE (R476) -/
  | schedule (f : Nat) (r : Nat) (idx : Nat)
  /-- ALLOC (R360) -/
  | alloc (f : Nat) (r : Nat) (idx : Nat)
  /-- SECTOR_FORM (R404) -/
  | sectorForm (f : Nat) (r : Nat) (idx : Nat)
  /-- SECTOR_RELEASE (R404) -/
  | sectorRelease (f : Nat) (r : Nat) (idx : Nat)
  /-- SET_QUOTA (R414) -/
  | setQuota (f : Nat) (r : Nat) (idx : Nat)
  /-- SET_EXPERT (R413) -/
  | setExpert (f : Nat) (r : Nat) (idx : Nat)
  /-- DIRECT_OP_BATCH_WINDOW (R293) -/
  | directOpBatchWindow (f : Nat) (r : Nat)
  /-- PROGRAM_LOAD (R181) -/
  | programLoad (sec : Nat)
  /-- OPERATION_ISSUE (R96) -/
  | operationIssue (sec : Nat)
  /-- RECV_TIMEOUT (R449) -/
  | recvTimeout (sec : Nat) (op : Nat)
  /-- ADMISSION_WALK (R497) -/
  | admissionWalk
  /-- STRIDE_END (R154) -/
  | strideEnd (sec : Nat) (k : Nat)
  /-- JOB_COMPLETE (R57) -/
  | jobComplete (sec : Nat)
  /-- DENSE_FLOOR_EXPIRY (R228) -/
  | denseFloorExpiry (sec : Nat)
  /-- SECTOR_ZEROING_END (R239) -/
  | sectorZeroingEnd (t : Nat)
  /-- SWAP_IN (R240) -/
  | swapIn (sec : Nat)
  /-- STAGE_GROUP (R229) -/
  | stageGroup (sec : Nat) (grp : Nat)
  /-- WEIGHT_RELOAD (R241) -/
  | weightReload (sec : Nat)
  /-- REFRESH_TABLE_COPY (R318) -/
  | refreshTableCopy (sec : Nat)
  /-- ENCODE_REQUEST_START (R205) -/
  | encodeRequestStart (fe : Nat)
  /-- ENCODE_REQUEST_DONE (R204) -/
  | encodeRequestDone (fe : Nat)
  /-- KEY_PASS_ACTIVATE (R287) -/
  | keyPassActivate (iod : Nat)
  /-- KEY_BURST (R287) -/
  | keyBurst (b : BurstRead)
  /-- KEY_SLICE_LANDED (R285) -/
  | keySliceLanded (p : Nat) (mem : Nat)
  /-- KEY_PASS_END (R284) -/
  | keyPassEnd (p : Nat)
  /-- QUANTUM_EXPIRY (R419) -/
  | quantumExpiry (sec : Nat)
  /-- SLICE_SUSPEND (R420) -/
  | sliceSuspend (sec : Nat)
  /-- REST_DELAY_EXPIRY (R492) -/
  | restDelayExpiry (sec : Nat)
  /-- START_SLOT (R500) -/
  | startSlot
  /-- PACE_CHANGE_END (R493) -/
  | paceChangeEnd (t : Nat)
  /-- SYNC_IN_EDGE (R470) -/
  | syncInEdge (dt : Nat)
  /-- LOCAL_TICK (R469) -/
  | localTick (dt : Nat)
  /-- TICK_WATCHDOG_EXPIRY (R475) -/
  | tickWatchdogExpiry (dt : Nat)
  /-- RING_HOLD (R476) -/
  | ringHold (n : Nat)
  /-- RING_RELEASE (R476) -/
  | ringRelease (n : Nat)
  /-- CAPTURE (R482) -/
  | capture (n : Nat)
  /-- CAPTURE_GATHER_END (R484) -/
  | captureGatherEnd (n : Nat)
  /-- PACE (R476) -/
  | pace (n : Nat)
  /-- CHECKPOINT (R461) -/
  | checkpoint (n : Nat)
  /-- MAINTENANCE (R598) -/
  | maintenance (n : Nat)
  /-- MARK (R476) -/
  | mark (n : Nat)
  /-- MAINTENANCE_ACTIVITY_BEGIN (R594) -/
  | maintenanceActivityBegin (a : Nat)
  /-- MAINTENANCE_ACTIVITY_END (R598) -/
  | maintenanceActivityEnd (a : Nat) (rep : MntReport)
  /-- MNT_IDLE_TIMEOUT (R594) -/
  | mntIdleTimeout (a : Nat)
  /-- PATROL_SCRUB (R354) -/
  | patrolScrub (p : ScrubSlot) (err : MemErr)
  /-- DRAM_REFRESH (R331) -/
  | dramRefresh (ctl : Nat)
  /-- DEVICE_MEMORY_RESPONSE (R331) -/
  | deviceMemoryResponse (ctl : Nat) (err : MemErr)
  /-- MEMORY_REQUEST_TIMEOUT (R335) -/
  | memoryRequestTimeout (ctl : Nat)
  /-- HARDWARE_CHECK (R585) -/
  | hardwareCheck (g : Nat) (unit : Nat)
  /-- SECTOR_REFORM (R587) -/
  | sectorReform (sec : Nat)
  /-- MODEL_TILE_REPLACE (R588) -/
  | modelTileReplace (f : Nat) (slot : Nat) (u : Nat)
  /-- FEN_CMD_FENCE (R584) -/
  | fenCmdFence
  /-- FEN_CMD_UNFENCE (R589) -/
  | fenCmdUnfence
  /-- FEN_CMD_READ (R601) -/
  | fenCmdRead
  /-- PKE_YIELD (R549) -/
  | pkeYield (cyc : Nat)
  /-- PKE_JOB_END (R550) -/
  | pkeJobEnd (j : Nat) (res : PkeResult)
  /-- DRBG_HEALTH_FAIL (R554) -/
  | drbgHealthFail (test : Nat)
  /-- CURVE_LOAD (R557) -/
  | curveLoad (slot : Nat)
  /-- CURVE_CHECK_END (R557) -/
  | curveCheckEnd
  /-- CURVE_CLEAR (R557) -/
  | curveClear (slot : Nat)
  /-- CURVE_READ (R573) -/
  | curveRead (slot : Nat)
  /-- SIGNER_WRITE (R564) -/
  | signerWrite (f : Nat) (slot : Nat)
  /-- SIGNER_CLEAR (R564) -/
  | signerClear (f : Nat) (slot : Nat)
  /-- SIGNER_READ (R573) -/
  | signerRead (f : Nat) (slot : Nat)
  /-- ROLE_COMMIT (R446) -/
  | roleCommit (m : Master) (v : Word)
  /-- ROLE_READ (R466) -/
  | roleRead (m : Master) (v : Word)
  /-- PAIR_RESYNC (R458) -/
  | pairResync
  /-- PAIR_HANDOVER (R464) -/
  | pairHandover
  /-- PAIR_TAKEOVER_WRITE (R462) -/
  | pairTakeoverWrite
  /-- PORT_LOCK_LOSS (R432) -/
  | portLockLoss (p : Nat)
  /-- PORT_TRAINING_END (R436) -/
  | portTrainingEnd (p : Nat) (ok : Bool) (lanes : Nat)
  /-- FLIT_TRANSMIT (R435) -/
  | flitTransmit (p : Nat)
  /-- REPLAY_TIMEOUT (R436) -/
  | replayTimeout (p : Nat)
  /-- IDLE (R435) -/
  | idle (p : Nat) (fl : Flit) (good : Bool)
  /-- LNAK (R436) -/
  | lnak (p : Nat) (fl : Flit) (good : Bool)
  /-- DATA (R450) -/
  | data (p : Nat) (fl : Flit) (good : Bool)
  /-- MESSAGE_INPUT_TIMEOUT (R452) -/
  | messageInputTimeout (slot : Nat) (pool : Nat)
  /-- ACK (R453) -/
  | ack (p : Nat) (fl : Flit) (good : Bool)
  /-- NACK (R453) -/
  | nack (p : Nat) (fl : Flit) (good : Bool)
  /-- ACK_TIMEOUT (R453) -/
  | ackTimeout (idx : Nat)
  /-- RESEND_WAIT_EXPIRY (R453) -/
  | resendWaitExpiry (idx : Nat)
  /-- BUSY_RETRY_EXPIRY (R453) -/
  | busyRetryExpiry (idx : Nat)
  /-- PROBE (R462) -/
  | probe (p : Nat) (fl : Flit) (good : Bool)
  /-- PROBE_ACK (R462) -/
  | probeAck (p : Nat) (fl : Flit) (good : Bool)
  /-- TAKEOVER (R462) -/
  | takeover (p : Nat) (fl : Flit) (good : Bool)
  /-- HEARTBEAT_MISS (R462) -/
  | heartbeatMiss
  /-- PROBE_TIMEOUT (R462) -/
  | probeTimeout
  /-- TICK (R471) -/
  | tick (p : Nat) (fl : Flit) (good : Bool) (dt : Nat)
  /-- HEARTBEAT (R460) -/
  | heartbeat (p : Nat) (fl : Flit) (good : Bool)
  /-- STATE (R460) -/
  | state (p : Nat) (fl : Flit) (good : Bool)
  /-- JOURNAL (R460) -/
  | journal (p : Nat) (fl : Flit) (good : Bool)
  /-- MIRROR (R460) -/
  | mirror (p : Nat) (fl : Flit) (good : Bool)
  /-- COMMIT (R460) -/
  | commit (p : Nat) (fl : Flit) (good : Bool)
  /-- DIGEST (R461) -/
  | digest (p : Nat) (fl : Flit) (good : Bool)
  /-- BUNDLE_ISSUE (R140) -/
  | bundleIssue (g : Nat) (n : Nat)
  /-- PROGRAM_FAULT (R172) -/
  | programFault (sec : Nat)
  /-- WAIT_TIMEOUT (R173) -/
  | waitTimeout (g : Nat) (k : Nat) (n : Nat)
  /-- SIGNAL_ACTION (R145) -/
  | signalAction (g : Nat) (n : Nat)
  /-- BARRIER_COMPLETE (R149) -/
  | barrierComplete (sec : Nat) (ch : Nat) (n : Nat)
  /-- ARRAY_RESULT_READY (R115) -/
  | arrayResultReady (g : Nat) (n : Nat)
  /-- CORE_STORE_LOAD_SERVICE (R135) -/
  | coreStoreLoadService (g : Nat) (n : Nat) (err : MemErr)
  /-- CORE_STORE_STORE_SERVICE (R135) -/
  | coreStoreStoreService (g : Nat) (n : Nat)
  /-- LOAD_DATA_RETURN (R130) -/
  | loadDataReturn (g : Nat) (k : Nat) (n : Nat)
  /-- SEGLD_COMPLETE (R165) -/
  | segldComplete (g : Nat) (n : Nat)
  /-- STREAM_PORT_SERVICE (R380) -/
  | streamPortService (g : Nat) (n : Nat) (err : MemErr)
  /-- TILE_BANK_SERVICE (R339) -/
  | tileBankService (t : Nat) (n : Nat) (err : MemErr)
  /-- CREDIT_GRANT (R346) -/
  | creditGrant (g : Nat)
  /-- STREAM_REQUEST_ISSUE (R375) -/
  | streamRequestIssue (g : Nat)
  /-- CHUNK_LANDED (R376) -/
  | chunkLanded (g : Nat) (k : Nat)
  /-- OUT_CHUNK_ACK (R377) -/
  | outChunkAck (g : Nat) (k : Nat)
  /-- STREAM_END (R378) -/
  | streamEnd (g : Nat) (k : Nat)
  /-- PAIR_MIRROR_DONE (R458) -/
  | pairMirrorDone
  /-- INPUT_PROTECTION_TRIP (R607) -/
  | inputProtectionTrip
  /-- ELEMENT_RESULT_WRITE (R123) -/
  | elementResultWrite (g : Nat) (n : Nat)
  /-- TRANSFORM_ASSIST_RESULT (R119) -/
  | transformAssistResult (g : Nat) (n : Nat)
  /-- HASH_LANE_DIGEST_DONE (R556) -/
  | hashLaneDigestDone (lane : Nat)
  /-- WARM_RESET_ZEROING_END (R590) -/
  | warmResetZeroingEnd
  deriving DecidableEq, Repr

end Sys2Proof
end

