-- ==== Sys2Proof/Machine/Table.lean ====
section
/-! DEFINITION. Sparse tables and bit fields: the one pair of operations (tget, tset) through which every sparse
piece of state is read and written, and the field extraction used by every layout table of the spec. -/

namespace Sys2Proof.Machine

/-- What key k reads as; an unlisted key reads as d. -/
def tget {α : Type} (d : α) : Tbl α → Nat → α
  | [], _ => d
  | (j, v) :: t, k => if j = k then v else tget d t k

/-- Put an entry in its place in a table with rising keys. -/
def tput {α : Type} : Tbl α → Nat → α → Tbl α
  | [], k, v => [(k, v)]
  | (j, w) :: t, k, v =>
    if k < j then (k, v) :: (j, w) :: t
    else if k = j then (k, v) :: t
    else (j, w) :: tput t k v

/-- Take a key out of a table. -/
def tdel {α : Type} : Tbl α → Nat → Tbl α
  | [], _ => []
  | (j, w) :: t, k => if j = k then t else (j, w) :: tdel t k

/-- Write key k: an entry equal to the default is removed. -/
def tset {α : Type} [DecidableEq α] (d : α) (t : Tbl α) (k : Nat) (v : α) : Tbl α :=
  if v = d then tdel t k else tput t k v

/-- Keys strictly rise and all lie above b. -/
def keysAbove {α : Type} (b : Nat) : Tbl α → Bool
  | [] => true
  | (j, _) :: t => decide (b < j) && keysAbove j t

/-- The canonical form of a table: keys strictly rising, no entry equal to the default. -/
def twf {α : Type} [DecidableEq α] (d : α) : Tbl α → Bool
  | [] => true
  | (j, v) :: t => decide (v ≠ d) && keysAbove j t && twf d t

/-- The canonical form of a table whose default depends on the key (the registers and their reset values). -/
def kwf {α : Type} [DecidableEq α] (d : Nat → α) : Tbl α → Bool
  | [] => true
  | (j, v) :: t => decide (v ≠ d j) && keysAbove j t && kwf d t

/-- Values under consecutive keys from k. -/
def numbered {α : Type} (k : Nat) : List α → Tbl α
  | [] => []
  | v :: vs => (k, v) :: numbered (k + 1) vs

/-- Write a run of consecutive keys from k: what lay there goes, and the values that are not the default come in. -/
def tsetRun {α : Type} [DecidableEq α] (d : α) (t : Tbl α) (k : Nat) (vs : List α) : Tbl α :=
  let e := k + vs.length
  t.filter (fun p => decide (p.1 < k)) ++ ((numbered k vs).filter (fun p => decide (p.2 ≠ d)) ++ t.filter (fun p => decide (e ≤ p.1)))

/-- Change every value; an entry that becomes the default is removed. -/
def tmap {α : Type} [DecidableEq α] (d : α) (f : α → α) (t : Tbl α) : Tbl α :=
  (t.map fun p => (p.1, f p.2)).filter fun p => decide (p.2 ≠ d)

/-- Read a run of consecutive keys. -/
def tgetRun {α : Type} (d : α) (t : Tbl α) (k n : Nat) : List α :=
  (List.range n).map fun i => tget d t (k + i)

/-- Bits [hi:lo] of a number. -/
def bits (w hi lo : Nat) : Nat := (w >>> lo) % 2 ^ (hi + 1 - lo)

/-- Bit i of a number. -/
def bit (w i : Nat) : Bool := (w >>> i) % 2 == 1

/-- A number read as n-bit two's complement. -/
def sext (w n : Nat) : Int :=
  if w % 2 ^ n < 2 ^ (n - 1) then (w % 2 ^ n : Nat) else ((w % 2 ^ n : Nat) : Int) - (2 ^ n : Nat)

/-- Low 32 bits of an integer (two's complement). -/
def wordOfInt (x : Int) : Word := BitVec.ofInt 32 x

/-- The number that little-endian bytes spell (R12). -/
def leNat : List Byte → Nat
  | [] => 0
  | b :: bs => b.toNat + 256 * leNat bs

/-- n little-endian bytes of a number. -/
def leBytes (n v : Nat) : List Byte :=
  (List.range n).map fun i => BitVec.ofNat 8 (v >>> (8 * i))

/-- The number at byte offset o of an object, n bytes wide; bytes past the end read as zero. -/
def fieldAt (bs : List Byte) (o n : Nat) : Nat := leNat ((bs.drop o).take n)

/-- Replace n bytes at offset o of an object by the little-endian bytes of v. -/
def setField (bs : List Byte) (o n v : Nat) : List Byte :=
  bs.take o ++ leBytes n v ++ bs.drop (o + n)

/-- Add 1 to a 32-bit counter that saturates at 0xFFFF_FFFF. -/
def satAdd (w : Word) (n : Nat) : Word := BitVec.ofNat 32 (Nat.min (w.toNat + n) 0xFFFFFFFF)

/-- Split a list into pieces of n. -/
def chunksOf {α : Type} (n : Nat) (l : List α) : List (List α) :=
  (List.range ((l.length + n - 1) / n)).map fun i => (l.drop (i * n)).take n

/-- Floor of log2 (0 for 0). -/
def log2 (n : Nat) : Nat := Nat.log2 n

/-- Division rounding up. -/
def ceilDiv (a b : Nat) : Nat := (a + b - 1) / b

/-- Reverse the low n bits. -/
def bitRev (n x : Nat) : Nat :=
  (List.range n).foldl (fun acc i => acc * 2 + (x >>> i) % 2) 0

end Sys2Proof.Machine
end

