-- ==== Sys2Proof/Machine/Arith.lean ====
section
/-! DEFINITION. Residue arithmetic of the Y25: Barrett reduction (R108), powers, the lane operations of Table 3.6
and 3.9, digit reversal and the automorphism index maps (R125, R254, R264, R265). -/

namespace Sys2Proof.Machine

/-- μ = floor(2^78 / q) (R108). -/
def barrettMu (q : Nat) : Nat := 2 ^ 78 / q

/-- Reduction of R108, lazy (full = false) or full. -/
def barrett (x q mu : Nat) (full : Bool) : Nat :=
  let t := x * mu / 2 ^ 78
  let r := x - t * q
  if full then (if q ≤ r then r - q else r) else r

/-- Powers modulo q, by squaring over the bits of the exponent from the top (R119: 18 steps cover exponents mod 2N). -/
def powMod (nbits b e q : Nat) : Nat :=
  ((List.range nbits).reverse).foldl
    (fun acc i => let sq := acc * acc % q; if (e >>> i) % 2 = 1 then sq * b % q else sq) (1 % q)

/-- Inverse modulo a prime (Fermat). -/
def invMod (a q : Nat) : Nat := powMod 32 (a % q) (q - 2) q

/-- The operand replacement of R124: at or above 2q becomes canonical. -/
def fold2q (a q : Nat) : Nat := if 2 * q ≤ a then a % q else a

/-- MADD (Table 3.6). -/
def lMadd (a b q : Nat) : Nat :=
  let s := fold2q a q + fold2q b q
  if 2 * q ≤ s then s - 2 * q else s

/-- MSUB (Table 3.6). -/
def lMsub (a b q : Nat) : Nat :=
  let s := fold2q a q + 2 * q - fold2q b q
  if 2 * q ≤ s then s - 2 * q else s

/-- MNEG (Table 3.6). -/
def lMneg (a q : Nat) : Nat :=
  let a := fold2q a q
  if a = 0 then 0 else 2 * q - a

/-- MCAN (Table 3.6). -/
def lMcan (a q : Nat) : Nat :=
  let a := fold2q a q
  if q ≤ a then a - q else a

/-- SGNNEG (Table 3.6): MNEG where bit 31 of b is 1; the residue operand a is folded in every lane. -/
def lSgnneg (a b q : Nat) : Nat :=
  if bit b 31 then lMneg a q else fold2q a q

/-- Signed value of a 32-bit word. -/
def s32 (a : Nat) : Int := sext a 32

/-- A lane operation of two 32-bit operands by its element opcode (Table 4.11), for the opcodes that R155 allows in
element programs except VPERM, MMUL's form bit and CVT; shifts take their amount from b mod 32. -/
def laneOp (op : Nat) (a b q mu : Nat) (full : Bool) : Nat :=
  match op with
  | 1 => lMadd a b q
  | 2 => lMsub a b q
  | 3 => barrett (a * b) q mu full
  | 4 => lMneg a q
  | 5 => lMcan a q
  | 6 => (a + b) % 2 ^ 32
  | 7 => (a + 2 ^ 32 - b) % 2 ^ 32
  | 8 => a &&& b
  | 9 => a ||| b
  | 10 => a ^^^ b
  | 11 => (a <<< (b % 32)) % 2 ^ 32
  | 12 => a >>> (b % 32)
  | 13 => (BitVec.sshiftRight (BitVec.ofNat 32 a) (b % 32)).toNat
  | 14 => if s32 a ≤ s32 b then a else b
  | 15 => if s32 a ≤ s32 b then b else a
  | 17 => lSgnneg a b q
  | _ => a

/-- The modular operations of Table 3.6, which name a modulus-table entry. -/
def isModular (op : Nat) : Bool := op == 1 || op == 2 || op == 3 || op == 4 || op == 5 || op == 17

/-- Opcodes that read only their first operand. -/
def isUnary (op : Nat) : Bool := op == 4 || op == 5

/-! Digit order of the transform domain (Table 7.2, R254). -/

/-- log2 of the radices ρ_1 to ρ_L. -/
def radixLogs (logN : Nat) : List Nat :=
  List.replicate (logN / 4) 4 ++ (if logN % 4 = 0 then [] else [logN % 4])

/-- rev(i): the digits of i, most significant first, taken with weights A_l. -/
def revIndex (logN i : Nat) : Nat :=
  ((radixLogs logN).foldl (fun (acc : Nat × Nat × Nat) r =>
    -- acc: remaining low bits, weight A_l, sum
    let lo := acc.1 - r
    (lo, acc.2.1 * 2 ^ r, acc.2.2 + ((i >>> lo) % 2 ^ r) * acc.2.1)) (logN, 1, 0)).2.2

/-- rev^-1: the position whose reversed index is j. -/
def revInv (logN j : Nat) : Nat :=
  ((radixLogs logN).foldl (fun (acc : Nat × Nat × Nat) r =>
    let lo := acc.1 - r
    (lo, acc.2.1 + r, acc.2.2 + ((j >>> acc.2.1) % 2 ^ r) * 2 ^ lo)) (logN, 0, 0)).2.2

/-- AUTIDX of index i (R125): coefficient mode (R264) or transform mode (R265). -/
def autIdx (logN g i : Nat) (transform : Bool) : Nat :=
  let n := 2 ^ logN
  if transform then
    let e := 2 * revIndex logN (i % n) + 1
    revInv logN (((g * e) % (2 * n) - 1) / 2 % n)
  else
    let j := (g * i) % (2 * n)
    if n ≤ j then j - n + 2 ^ 31 else j

/-! CRC-32C (R68). -/

/-- One bit of the reflected Castagnoli polynomial. -/
def crcBit (c : Nat) : Nat := if c % 2 = 1 then (c / 2) ^^^ 0x82F63B78 else c / 2
/-- One byte. -/
def crcByte (c : Nat) (b : Byte) : Nat :=
  crcBit (crcBit (crcBit (crcBit (crcBit (crcBit (crcBit (crcBit (c ^^^ b.toNat))))))))
/-- CRC-32C of bytes in ascending address order (R68). -/
def crc32c (bs : List Byte) : Nat := (bs.foldl crcByte 0xFFFFFFFF) ^^^ 0xFFFFFFFF

end Sys2Proof.Machine
end

