-- ==== Sys2Proof/Machine/State.lean ====
section
/-! DEFINITION. The state of the Y25 as plain data: every register, memory, queue, table and mode the spec gives the
module, and the queue of commands that wait. Sparse pieces are tables (Word.lean) read through one pair of operations
(Machine/Table.lean); an unlisted key reads as the piece's reset value. -/

namespace Sys2Proof.Machine

/-- Why a command stops the model with a fault. No command of this model stops so: every event the spec describes has an
effect, and an event whose precondition does not hold changes nothing. -/
inductive Fault where
  /-- kept for a command the spec gives no effect at all; raised by nothing (safe) -/
  | noEffect
  deriving DecidableEq, Repr

/-- Why a command is refused. -/
inductive Refusal where
  /-- a command that has no meaning yet, by its mnemonic; raised by the arms of exec that name it (safe) -/
  | notModelled (mnemonic : String)
  deriving DecidableEq, Repr

/-! ### Cores (R104, Table 3.1) -/

/-- One modulus-table entry (Table 3.2). -/
structure ModEntry where
  q : Word
  mu : DWord
  psi : Word
  psiInv : Word
  nInv : Word
  valid : Bool
  /-- bit length of q, 21 to 31 -/
  qBits : Nat
  deriving DecidableEq, Repr

/-- An entry that R110 writes invalid. -/
def ModEntry.invalid : ModEntry := ⟨0, 0, 0, 0, 0, false, 0⟩

/-- One accumulator element: 78 bits with its poison tag (R106, R132). -/
structure AccEl where
  val : BitVec 78
  tag : Bool
  deriving DecidableEq, Repr

/-- Whether a context issues (R129, R154, R171). -/
inductive CtxRun where
  | halted | running | halting | faulted
  deriving DecidableEq, Repr

/-- One hardware context (Table 3.1). -/
structure Ctx where
  /-- running, halting or faulted -/
  run : CtxRun
  /-- instruction-store index of the next bundle -/
  pc : Nat
  /-- stride-table index of the stride it runs -/
  stride : Nat
  /-- first core-domain cycle in which it may issue (R130, R151) -/
  readyFrom : Nat
  /-- the outstanding miss it is parked on (R130) -/
  miss : Option Nat
  /-- the remote store whose credit it waits for (R166) -/
  creditWait : Option Nat
  /-- fabric time since which the wait of its next bundle has failed on every cycle (R173) -/
  waitSince : Option Nat
  /-- S0 to S15 -/
  s : Tbl TWord
  /-- LC0 to LC3 -/
  lc : Tbl TWord
  /-- CP0 to CP3 -/
  cp : Tbl Bool
  /-- E0 to E15, lane l of register r at key 32r + l -/
  e : Tbl TWord
  /-- compress staging (R126) -/
  cmps : List TWord
  /-- expand staging (R127) -/
  expd : List TWord
  /-- SFPM rounding mode (R193) -/
  rm : Nat
  /-- sticky flags of Table 5.7: invalid 3, overflow 2, underflow 1, inexact 0 (R194) -/
  flags : BitVec 4
  deriving DecidableEq, Repr

/-- A context after program load (R181, R193, R194). -/
def Ctx.fresh : Ctx :=
  ⟨.halted, 0, 0, 0, none, none, none, [], [], [], [], [], [], 0, 0⟩

/-- One word of a register that an engine writes. -/
inductive RegRef where
  | s (ctx i : Nat)
  | e (ctx r lane : Nat)
  | op (r w : Nat)
  | kb (w : Nat)
  deriving DecidableEq, Repr

/-- The engine whose result is pending, lowest priority of R141 first. -/
inductive Engine where
  | array | ta | eu | load
  deriving DecidableEq, Repr

/-- What a pending result does when it lands. -/
inductive Effect where
  /-- register words (OA, OB, E, KB, S) -/
  | regs (ws : List (RegRef × TWord))
  /-- accumulate 16 product sums into AC c; zero replaces instead of adding (R112, R115) -/
  | accAdd (c : Nat) (zero : Bool) (vs : List AccEl)
  /-- the 16 elements of AC c take new values -/
  | accSet (c : Nat) (vs : List AccEl)
  /-- TA_SEED: the 16 lanes, the step factor and the held modulus (R119, R120) -/
  | taSeed (lanes : List TWord) (step : TWord) (q : Word) (mu : DWord)
  /-- TA_MAT: the 256-word matrix buffer (R121) -/
  | taMat (ws : List TWord)
  /-- TA_TWR: one row of the transpose tile (R122) -/
  | taRow (r : Nat) (ws : List TWord)
  deriving DecidableEq, Repr

/-- A result on its way: its cycle, its engine, its context and the issue cycle of its bundle. -/
structure Pend where
  due : Nat
  eng : Engine
  ctx : Nat
  iss : Nat
  eff : Effect
  deriving DecidableEq, Repr

/-- Where the data of a load go. -/
structure PLoad where
  id : Nat
  ctx : Nat
  /-- device address, or scalar-table index for LDS LOCAL -/
  addr : Nat
  bytes : Nat
  /-- 6-bit destination register code -/
  dst : Nat
  /-- local loads: the service cycle of R135; misses: none -/
  service : Option Nat
  /-- a miss whose data (or fault) have come back -/
  back : Option (List TWord)
  /-- the returned miss met an address fault (R170) -/
  bad : Bool
  /-- reads the scalar table (R163) -/
  scalarTable : Bool
  /-- instruction-store index of the bundle that issued it, and its issue cycle -/
  idx : Nat
  iss : Nat
  deriving DecidableEq, Repr

/-- A captured store that is not yet served or acknowledged. -/
structure PStore where
  id : Nat
  ctx : Nat
  addr : Nat
  words : List TWord
  /-- local stores: the service cycle of R135; others wait for an acknowledgement -/
  service : Option Nat
  /-- issue cycle of its bundle -/
  iss : Nat
  deriving DecidableEq, Repr

/-- A signal action waiting for its cycle (R145): the operations it still waits for and the latest cycle so far. -/
structure PSig where
  ctx : Nat
  kind : Nat
  sel : Nat
  deps : List Nat
  at_ : Nat
  /-- issue cycle of the bundle, from which a barrier completion counts (R149) -/
  issued : Nat
  deriving DecidableEq, Repr

/-- A segment load in progress (R165). -/
structure SegLoad where
  half : Nat
  seg : Nat
  /-- cycle in which it ends -/
  ends : Nat
  /-- the context that issued it -/
  ctx : Nat
  deriving DecidableEq, Repr

/-- Gang mode of a core (R116). -/
inductive GangMode where
  | off | square | row
  deriving DecidableEq, Repr

/-- The array slot's fields (Table 4.14). -/
structure ArOp where
  op : Nat
  zero : Bool
  c : Nat
  a : Nat
  b : Nat
  full : Bool
  redReg : Bool
  redDst : Nat
  m : Nat
  sIb : Nat
  sOb : Nat
  sPar : Nat
  rsv : Nat
  deriving DecidableEq, Repr

/-- A GANG or ganged array operation held until the other members issue (R116, R117). -/
structure HeldGang where
  ctx : Nat
  pc : Nat
  op : ArOp
  /-- CONV's ib, ob and parameter word as read at issue (R114), and whether one of them is tagged (R132) -/
  par : List Nat
  parTag : Bool
  id : Nat
  /-- issue cycle; the context and the accumulator's count as the bundle found them, and the cycle from which the context
  was ready after it: what a gang fault restores (R118, R169) -/
  iss : Nat
  undo : Ctx
  cnt0 : Nat
  next : Nat
  deriving DecidableEq, Repr

/-- Transform Assist state (R119 to R122). -/
structure TaState where
  mat : Tbl TWord
  tr : Tbl TWord
  lanes : Tbl TWord
  step : TWord
  q : Word
  mu : DWord
  deriving DecidableEq, Repr

/-- Transform Assist state after program load (R120, R121). -/
def TaState.fresh : TaState := ⟨[], [], [], TWord.zero, 0, 0⟩

/-- One byte on its way between memories, with its poison tag. -/
structure TByte where
  b : Byte
  tag : Bool
  deriving DecidableEq, Repr

/-- A request of a stream (R374): one piece of one chunk. -/
structure StrReq where
  id : Nat
  chunk : Nat
  /-- stream offset of its first byte -/
  off : Nat
  len : Nat
  deriving DecidableEq, Repr

/-- The decoded stream descriptor (Table 11.1). -/
structure StrDesc where
  out : Bool
  esz : Nat
  burst : Nat
  sigCnt : Nat
  ackCnt : Nat
  space : Nat
  depth : Nat
  recEn : Bool
  ringCore : Nat
  /-- chunk size in bytes -/
  cb : Nat
  ringBase : Nat
  start : Nat
  counts : List Nat
  strides : List Int
  recOff : Nat
  deriving DecidableEq, Repr

/-- The state of a chunk of a stream (R376, R383). -/
structure Chunk where
  n : Nat
  /-- device address of its ring slot -/
  base : Nat
  landed : Bool
  counted : Bool
  touched : Bool
  released : Bool
  deriving DecidableEq, Repr

/-- One active stream slot (R370 to R385). -/
structure Stream where
  desc : StrDesc
  /-- the context that issued STRS (R389) -/
  ctx : Nat
  /-- bases b_sig and b_ack -/
  bSig : BitVec 16
  bAck : BitVec 16
  /-- stream offset of the next byte to request -/
  nextOff : Nat
  /-- requests issued and not complete -/
  reqs : List StrReq
  /-- chunks issued and not retired, in order -/
  chunks : List Chunk
  /-- chunks counted on sig_cnt -/
  sigma : Nat
  /-- fabric time of STRS -/
  started : Nat
  issued : Nat
  used : Nat
  evicted : Nat
  late : Nat
  short : Nat
  deriving DecidableEq, Repr

/-- One enabled core (Table 3.1, R153, R345). -/
structure Core where
  /-- contexts 0 to 3 -/
  ctx : Tbl Ctx
  /-- OA0 to OA7 and OB0 to OB7: word w of 4-bit code r at key 16r + w -/
  op : Tbl TWord
  /-- AC0 to AC3: element i of accumulator c at key 16c + i -/
  acc : Tbl AccEl
  /-- product counts of the accumulators, in issue order (R107) -/
  accCnt : Tbl Nat
  kb : Tbl TWord
  modTab : Tbl ModEntry
  /-- log2 N of the bound parameter set, and of its RGSW ring (0: none) -/
  logN : Nat
  rgswLogN : Nat
  ta : TaState
  /-- step i of element program p at key 16p + i -/
  eprog : Tbl Word
  flags : Tbl Bool
  cnt : Tbl (BitVec 16)
  /-- the cycle whose updates were applied last, the flags and counters at its start, and those updates: a later update of
  the same cycle is applied together with them (R146) -/
  sigCyc : Nat
  sigFlags : Tbl Bool
  sigCnt : Tbl (BitVec 16)
  sigDone : List PSig
  /-- active stream slots -/
  streams : Tbl (Option Stream)
  /-- the slot last served by the stream engine (R375) -/
  strTurn : Nat
  /-- the instruction store: 128 bundles (R153) -/
  istore : Tbl Bundle
  segld : List SegLoad
  gang : GangMode
  held : Option HeldGang
  pend : List Pend
  loads : List PLoad
  stores : List PStore
  sigs : List PSig
  /-- next operation number -/
  opSeq : Nat
  /-- the current context of R129 and the cycle in which it last issued or stalled -/
  cur : Nat
  prefCyc : Option Nat
  /-- the context of the last issued bundle (for CNT_CORE_SWITCH) -/
  issuer : Option Nat
  /-- first core-domain cycle that has not issued yet -/
  cyc : Nat
  /-- first cycle in which the Element Unit and the Transform Assist accept an operation (R131) -/
  euFree : Nat
  taFree : Nat
  /-- the array's activity ramp (R501): cycle of its first operation, cycle of the last, budget b after it -/
  ramp : Option (Nat × Nat × Nat)
  /-- receive credit in 32-byte lines (R345) -/
  credits : Nat
  /-- the class last served by the stream port (R380) -/
  portTurn : Nat
  /-- the sector the core is loaded for and its logical number (R45) -/
  sector : Option Nat
  lcore : Nat
  /-- the image class it runs -/
  cls : Nat
  /-- first cycle in which patrol may scrub a line of the Core Store again (Table 10.7) -/
  scrubFrom : Nat
  deriving DecidableEq, Repr

/-- A core before any program load. -/
def Core.fresh : Core where
  ctx := []
  op := []
  acc := []
  accCnt := []
  kb := []
  modTab := []
  logN := 0
  rgswLogN := 0
  ta := TaState.fresh
  eprog := []
  flags := []
  cnt := []
  sigCyc := 0
  sigFlags := []
  sigCnt := []
  sigDone := []
  streams := []
  strTurn := 7
  istore := []
  segld := []
  gang := .off
  held := none
  pend := []
  loads := []
  stores := []
  sigs := []
  opSeq := 0
  cur := 0
  prefCyc := none
  issuer := none
  cyc := 0
  euFree := 0
  taFree := 0
  ramp := none
  credits := 1024
  portTurn := 2
  sector := none
  lcore := 0
  cls := 0
  scrubFrom := 0

/-! ### Memory requests (R331, R339, R345, R380) -/

/-- The queue a request waits in. -/
inductive Port where
  /-- HBM pseudo-channel 32s + p of stack HBs (0 to 255), or GDDR7 device 256 + n -/
  | dram (ctl : Nat)
  /-- Tile Bank of a tile: 0 local read, 1 remote read, 2 local write, 3 remote write (Table 10.5) -/
  | bank (tile cls : Nat)
  /-- waiting for room in a full class of a Tile Bank (R339) -/
  | bankWait (tile cls : Nat)
  /-- stream port of a core: 0 remote write with credit, 1 remote read, 2 own engine, 3 key slice (R380) -/
  | stream (core cls : Nat)
  /-- waiting for credit of a core (R346) -/
  | credit (core : Nat)
  deriving DecidableEq, Repr

/-- Who asked, and so what is done when the request ends. -/
inductive Origin where
  /-- a miss: load id of a core -/
  | miss (core id : Nat)
  /-- a remote or device store, or RSIG: store id of a core -/
  | store (core id : Nat)
  /-- a stream request reading its source; the write of the destination follows -/
  | strRead (core slot req : Nat)
  /-- a stream request writing its destination -/
  | strWrite (core slot req : Nat)
  /-- a stream record (R385), or the write of an OUT stream that was cancelled (R387): nobody waits for it -/
  | host
  /-- the read and the write side of a move (COPY, BAR2): the move, and the offset in it -/
  | moveRead (mv off : Nat)
  | moveWrite (mv : Nat)
  /-- coefficients that a Plaintext Encoder front end lands in a core for a job (R204, R205) -/
  | land (fe req core : Nat)
  /-- a scrub read that found no idle cycle of its controller (R355) -/
  | scrub
  /-- a key slice for a member of a pass (R284, R288) -/
  | keySlice (pass member slice : Nat)
  /-- a request whose stream was cancelled: its data enter the drain sink (R387) -/
  | drain
  deriving DecidableEq, Repr

/-- One request to a memory. -/
structure MemReq where
  id : Nat
  /-- the access that it is a part of, whole: number, first byte and length (an access of device memory has one part for
  each 2 KiB unit, R327, R328) -/
  acc : Nat
  base : Nat
  total : Nat
  /-- cycle in which a remote write asked for credit (R346) -/
  cyc : Nat
  port : Port
  write : Bool
  /-- device address -/
  addr : Nat
  len : Nat
  /-- bytes to write -/
  data : List TByte
  /-- 64-byte Tile Bank lines, or 32-byte Core Store lines, still to be served -/
  linesLeft : List Nat
  /-- Tile Bank lines of a partial write that have been read and wait for their write step (R341) -/
  merged : List Nat
  /-- bytes of the access read so far, keyed by offset -/
  got : Tbl (Option TByte)
  origin : Origin
  deriving DecidableEq, Repr

/-- Who moves bytes between memories for the host: a COPY descriptor (R404) or an access through BAR2 (R397). -/
inductive MoveOwner where
  | copy (fn ring index : Nat)
  | bar2
  deriving DecidableEq, Repr

/-- A move under way: where its bytes go (none: out of the module), how many requests have still to end, and the bytes that
have come back. -/
structure Move where
  id : Nat
  owner : MoveOwner
  dst : Option Nat
  left : Nat
  got : Tbl (Option TByte)
  total : Nat
  poisoned : Bool
  deriving DecidableEq, Repr

/-- One entry of a poison list (R351). -/
inductive PoisonEntry where
  /-- a 64-byte granule, by its number (address / 64) -/
  | granule (n : Nat)
  /-- an aligned 2 MiB block of a pseudo-channel's or device's own bytes, with the granules cleared since -/
  | block (ctl n : Nat) (cleared : List Nat)
  /-- a whole pseudo-channel or device, with the granules cleared since -/
  | device (ctl : Nat) (cleared : List Nat)
  deriving DecidableEq, Repr

/-! ### Objects of a function: parameter sets, key sets, table sets, models, buffers -/

/-- A range of device memory charged to an object. -/
structure Extent where
  base : Nat
  len : Nat
  deriving DecidableEq, Repr

/-- A parameter-set slot (R67, R74). -/
structure ParamSlot where
  /-- the generation the slot last held (R74, R405) -/
  lastGen : Nat
  loaded : Bool
  /-- the 1,024-byte object -/
  obj : List Byte
  belowFloor : Bool
  /-- conversion block copies: the die (0, 1) and its extent (R275, R279) -/
  conv : List (Nat × Extent)
  deriving DecidableEq, Repr

def ParamSlot.empty : ParamSlot := ⟨0, false, [], false, []⟩

/-- A key-set slot (R83, R278): the object as loaded, its placement, and its poisoned entries. -/
structure KeySlot where
  loaded : Bool
  obj : List Byte
  /-- slot of the parameter set it names -/
  param : Nat
  /-- 0 SPLIT, 1 IOD0, 2 IOD1 (R279) -/
  placement : Nat
  extents : List (Nat × Extent)
  poisoned : List Nat
  deriving DecidableEq, Repr

def KeySlot.empty : KeySlot := ⟨false, [], 0, 0, [], []⟩

/-- A table-set slot (R315). -/
structure TableSlot where
  loaded : Bool
  obj : List Byte
  /-- as of a key set (R315) -/
  placement : Nat
  extents : List (Nat × Extent)
  poisoned : List Nat
  deriving DecidableEq, Repr

def TableSlot.empty : TableSlot := ⟨false, [], 0, [], []⟩

/-- A model slot (R214 to R218): the clear blob, the home copy and the sector. -/
structure ModelSlot where
  loaded : Bool
  confidential : Bool
  /-- the clear blob (Table 6.1) -/
  blob : List Byte
  /-- bytes of the object as received -/
  received : Nat
  /-- home copy in GDDR7 (R216) -/
  home : Extent
  /-- SHA-384 of the clear blob -/
  hash : List Byte
  sector : Nat
  /-- global tile number of model tile u, in order (R215) -/
  tiles : List Nat
  /-- poisoned 2 KiB units awaiting reload: (model tile, unit) (R241) -/
  poisoned : List (Nat × Nat)
  /-- its tiles were named under expert control (R588) -/
  named : Bool
  /-- model tiles lost to a field fence, waiting for R588 -/
  fencedTiles : List Nat
  /-- model tiles that have a new tile, still to be written from the home copy -/
  refill : List Nat
  deriving DecidableEq, Repr

def ModelSlot.empty : ModelSlot := ⟨false, false, [], 0, ⟨0, 0⟩, [], 0, [], [], false, [], []⟩

/-- One index of a function's buffer table (R359 to R363). -/
structure Buf where
  gen : Nat
  live : Bool
  base : Nat
  size : Nat
  deriving DecidableEq, Repr

def Buf.free : Buf := ⟨1, false, 0, 0⟩

/-! ### Rings, descriptors and transfers (R398 to R423) -/

/-- How far a fetched descriptor has come. -/
inductive DescPhase where
  /-- fetched, before its stage-3 checks -/
  | fetched
  /-- its object is being read from the host -/
  | reading (xfer : Nat)
  /-- its object has arrived -/
  | arrived (xfer : Nat)
  /-- it runs as the job with this number -/
  | job (id : Nat)
  /-- held in a schedule entry -/
  | scheduled (entry : Nat)
  /-- its work goes on in another unit -/
  | working
  /-- in the security unit: pieces of work outstanding, and the first failing status (0 none) -/
  | security (left bad : Nat)
  deriving DecidableEq, Repr

/-- A fetched descriptor that has not completed. -/
structure Desc where
  fn : Nat
  ring : Nat
  index : Nat
  bytes : List Byte
  /-- position in the function's fetch order (R406) -/
  order : Nat
  /-- fabric time of the fetch -/
  fetchTick : Nat
  phase : DescPhase
  /-- KSE_FN_CTRL.placement as it stood when its load started (R279) -/
  placement : Nat
  deriving DecidableEq, Repr

/-- A host object on its way in (R422). -/
structure Xfer where
  id : Nat
  gen : Nat
  fn : Nat
  ring : Nat
  index : Nat
  length : Nat
  /-- bytes held so far, keyed by offset -/
  got : Tbl (Option TByte)
  deriving DecidableEq, Repr

/-- One PCIe function (R49, R50). -/
structure Fn where
  params : Tbl ParamSlot
  keys : Tbl KeySlot
  tables : Tbl TableSlot
  models : Tbl ModelSlot
  bufs : Tbl Buf
  /-- descriptors fetched and not completed, in fetch order -/
  descs : List Desc
  /-- next fetch-order number -/
  order : Nat
  /-- events written and events dropped since the last (R411) -/
  evWritten : Nat
  evLost : Nat
  /-- ev_head as last read from the bell block -/
  evHead : Nat
  /-- tick of the last STALE_HANDLE Daymark record (Table 10.11) -/
  staleMark : Option Nat
  /-- signer slots (R564): algorithm and identity digest of each valid slot -/
  signers : Tbl (Option (Nat × List Byte))
  /-- a reset is under way (R416), waiting for these tiles to be zeroed -/
  resetting : Bool
  resetTiles : List Nat
  deriving DecidableEq, Repr

def Fn.fresh : Fn where
  params := []
  keys := []
  tables := []
  models := []
  bufs := []
  descs := []
  order := 0
  evWritten := 0
  evLost := 0
  evHead := 0
  staleMark := none
  signers := []
  resetting := false
  resetTiles := []

/-! ### Program images (R174 to R179) -/

structure ImgClass where
  first : Nat
  last : Nat
  firstSeg : Nat
  eprogSet : Nat
  segCount : Nat
  deriving DecidableEq, Repr

structure ImgStride where
  opIndex : Nat
  ctx : Nat
  entry : Nat
  cost : Nat
  deriving DecidableEq, Repr

structure ImgOp where
  op : Nat
  first : Nat
  count : Nat
  dst : Nat
  srcA : Nat
  srcB : Nat
  galois : Nat
  tensor : Nat
  target : Nat
  deriving DecidableEq, Repr

structure ImgChan where
  channel : Nat
  mode : Nat
  src : Nat
  dst : Nat
  first : Nat
  last : Nat
  deriving DecidableEq, Repr

/-- A checked program image (Table 4.26). -/
structure Image where
  bytes : Nat
  coreCount : Nat
  bindingCount : Nat
  paramCrc : Nat
  waitLimit : Nat
  publicBase : Nat
  publicBytes : Nat
  classes : List ImgClass
  strides : List ImgStride
  ops : List ImgOp
  chans : List ImgChan
  scalar : List Word
  /-- element program sets, 128 words each -/
  eprogs : List (List Word)
  /-- segments of 64 bundles -/
  segs : List (List Bundle)
  /-- the public section; none when pub_off = 0 -/
  pub : Option (List Byte)
  deriving DecidableEq, Repr

/-! ### Jobs (R57, R75, R408, R409) -/

/-- A resolved binding (Table 12.8). -/
structure Binding where
  handle : Nat
  offset : Nat
  kind : Nat
  layout : Nat
  domain : Nat
  output : Bool
  length : Nat
  /-- device address of the object, raw region or conversion block -/
  addr : Nat
  deriving DecidableEq, Repr

/-- An object header as fields (Table 2.5). -/
structure Header where
  kind : Nat
  param : Nat
  level : Nat
  limbs : Nat
  layout : Nat
  domain : Nat
  poison : Bool
  valid : Bool
  scale : Nat
  noise : Nat
  status : Nat
  gen : Nat
  owner : Nat
  logN : Nat
  dataBytes : Nat
  items : Nat
  lweDim : Nat
  tagLo : Nat
  tagHi : Nat
  deriving DecidableEq, Repr

/-- The counts of the job statistics record (Table 12.9). -/
structure JobStats where
  fetch : Nat
  firstAdmit : Nat
  /-- end of the fill, and the completion of the latest encode request (R232) -/
  fillEnd : Option Nat
  steadyEnd : Option Nat
  loadEnd : Nat
  /-- ticks of swap-ins that count as fill (R240), taken from the steady phase and from the drain -/
  swapSteady : Nat
  swapDrain : Nat
  creditWait : Nat
  strides : Nat
  suspensions : Nat
  fLevel : Nat
  fNoise : Nat
  fParam : Nat
  fKeyMissing : Nat
  fKeyPoisoned : Nat
  fOther : Nat
  poisonedOut : Nat
  refreshes : Nat
  refreshTicks : Nat
  flags : BitVec 4
  passes : Nat
  served : Nat
  abandoned : Nat
  /-- issued, used, evicted, wasted, late, short -/
  streams : List Nat
  faults : Nat
  heldTicks : Nat
  deriving DecidableEq, Repr

def JobStats.zero : JobStats :=
  ⟨0, 0, none, none, 0, 0, 0, 0, 0, 0, 0, 0, 0, 0, 0, 0, 0, 0, 0, 0, 0, 0, 0, [0, 0, 0, 0, 0, 0], 0, 0⟩

/-- A core fault record (Table 4.25). -/
structure FaultRec where
  mask : Nat
  first : Nat
  ctx : Nat
  lcore : Nat
  gcore : Nat
  stride : Nat
  index : Nat
  addr : Nat
  ftime : Nat
  deriving DecidableEq, Repr

/-! ### Plaintext Encoder and Key Stream Engine (R199 to R210, R281 to R299) -/

/-- A queued encode request (Table 5.8), with its job and operation. -/
structure EncReq where
  job : Nat
  sector : Nat
  opIndex : Nat
  fn : Nat
  srcFormat : Nat
  block16 : Bool
  cplx : Bool
  path : Nat
  rm : Nat
  logN : Nat
  count : Nat
  scale : Nat
  wBits : Int
  landing : Nat
  src : Nat
  mask : Nat
  /-- global cores that take the coefficients, by logical number -/
  cores : List Nat
  /-- its number, by which its requests for credit and its landings are known, and the cores that have granted credit -/
  id : Nat
  granted : List Nat
  started : Bool
  dropped : Bool
  deriving DecidableEq, Repr

/-- One key pass (R281, R284). -/
structure Pass where
  id : Nat
  job : Nat
  sector : Nat
  fn : Nat
  key : Nat
  /-- directory entry -/
  entry : Nat
  level : Nat
  logN : Nat
  /-- layout groups and their size (R282) -/
  groups : Nat
  width : Nat
  krBase : Nat
  krDepth : Nat
  krWidth : Nat
  /-- number of its first slice and slices in all -/
  first : Nat
  slices : Nat
  /-- bursts served per fetch unit -/
  bursts : Tbl Nat
  active : Bool
  /-- slices landed in each logical core: (member, slice) still uncounted, and the count so far -/
  landed : List (Nat × Nat)
  counted : Tbl Nat
  /-- the directory entry is uncorrectable: every word is delivered tagged zero (R296) -/
  dead : Bool
  /-- operation-table entries that it serves -/
  members : List Nat
  /-- compute dies whose expanders make its a-limbs (R286) -/
  exps : List Nat
  /-- expanders that became unavailable during the pass: the die, and the slices that the fetch units had read by then -/
  lost : List (Nat × Nat × Nat)
  /-- requested by a built-in program, which returns every slice at once (log entry 27) -/
  builtin : Bool
  dropped : Bool
  deriving DecidableEq, Repr

inductive JobKind where
  | circuit | direct | raw
  deriving DecidableEq, Repr

/-- Where a job stands in Table 1.6. -/
inductive JobPhase where
  /-- stage 3 is done; it waits to enter stage 4 (a held ring, or a model that waits for a tile) -/
  | stage4
  /-- stage 4: queued at its sector -/
  | queued
  /-- stages 6 and 7 -/
  | running
  /-- suspended under time-slicing (R420) -/
  | suspended
  /-- stopped; nothing more of it is admitted (R59, R100, R172) -/
  | stopping
  /-- stage 8 done, waiting for the dense floor (R228) -/
  | dense (until_ : Nat)
  deriving DecidableEq, Repr

/-- A refresh batch that uses a table of the bound set (R318): its table entry, its operations, whether its slot holds the
table. -/
structure TabBatch where
  table : Nat
  ops : List Nat
  copied : Bool
  deriving DecidableEq, Repr

/-- One job. -/
structure Job where
  id : Nat
  fn : Nat
  ring : Nat
  index : Nat
  kind : JobKind
  phase : JobPhase
  sector : Nat
  param : Nat
  key : Option Nat
  table : Option Nat
  model : Option Nat
  autoRefresh : Bool
  continue_ : Bool
  /-- key ring: base, depth, width, batch (Table 8.4) -/
  kr : List Nat
  ways : Nat
  imageBuf : Nat
  statsBuf : Nat
  /-- the memory of the image and statistics buffers, kept until the job's completion (R363) -/
  imageAt : Extent
  statsAt : Extent
  bindings : List Binding
  image : Option Image
  /-- predicted headers of destinations, by binding number or 0x8000 + n (R93, R178) -/
  hdrs : Tbl (Option Header)
  /-- the header that each passed entry will write, by operation index (R79, R93) -/
  outHdr : Tbl (Option Header)
  /-- destinations whose headers have been written -/
  written : List Nat
  /-- next operation-table entry to issue -/
  opNext : Nat
  /-- entries whose strides may be admitted -/
  opsIssued : List Nat
  /-- strides ended -/
  stridesDone : List Nat
  /-- active stride of each context -/
  active : Tbl (Option Nat)
  /-- the failure statuses in the order they arose: (status, operation index) -/
  fails : List (Nat × Nat)
  poisoned : Bool
  /-- a status that R24 ranks above failures: FUNCTION_RESET, CANCELLED or INTERNAL_FAULT -/
  endAs : Option Nat
  late : Bool
  fault : Option FaultRec
  stats : JobStats
  /-- dense floor tick, once the first stride is admitted (R228) -/
  floor : Option Nat
  denseTicks : Nat
  /-- next slice number of the job's passes (R284) -/
  sliceNext : Nat
  /-- the batch under way: key, entries still to come (R290) -/
  batch : List Nat
  /-- refresh batches that use a table of the bound set, in order, and the table in each refresh slot (R318) -/
  tabBatches : List TabBatch
  refreshSlots : Tbl (Option Nat)
  /-- streamed groups staged in each half (group + 1, 0 for none), entries whose encode requests are queued, and entries
  encoded (R229) -/
  staged : List Nat
  encQueued : List Nat
  encoded : List Nat
  /-- entries whose messages are acknowledged or claimed, so that their strides may be admitted (R448, R449) -/
  messaged : List Nat
  /-- entries that were not executed -/
  skipped : List Nat
  /-- key passes to be requested as the stride with this index is admitted (R291) -/
  passDue : List (Nat × Pass)
  /-- key passes that the built-in program of the batch has still to request, in order, and those that have ended -/
  passLeft : List Pass
  passEnded : List Pass
  /-- refresh batches, whose members are written together (R319) -/
  lock : List (List Nat)
  /-- input digests: 0 not begun, 1 running, 2 done; receipt the same (R570, R571) -/
  inHash : Nat
  receipt : Nat
  /-- digest items of R571, 51 bytes each: inputs as they stood, then outputs -/
  digests : List (List Byte)
  /-- digest of the image as it stood at stage 5 (R571); empty before it, and for DIRECT_OP -/
  imageHash : List Byte
  /-- the fabric time at which a receipt's body was complete -/
  sealed : Nat
  /-- last digest of the output items -/
  ioDone : Bool
  /-- work units of the security unit that the job waits for -/
  secWait : Nat
  /-- fabric time at which the job queued, and refreshes in progress: (operation, tick) -/
  queuedAt : Nat
  refreshing : List (Nat × Nat)
  /-- operands that a refresh has been inserted for: (operation, binding) (R98) -/
  refreshed : List (Nat × Nat)
  /-- the first job of its DIRECT_OP batch, and whether a member of the batch has requested the pass (R293) -/
  group : Option Nat
  passed : Bool
  deriving DecidableEq, Repr

/-! ### Sectors (R44 to R48, R147, R418) -/

/-- A barrier channel's arrivals: cores that have arrived and what they brought, and the completion due (R147 to R149). -/
structure Chan where
  arrived : List (Nat × Nat)
  due : Option (Nat × Nat)
  deriving DecidableEq, Repr

def Chan.idle : Chan := ⟨[], none⟩

structure Sector where
  owner : Nat
  tiles : List Nat
  /-- global core number of each logical core (R45) -/
  lcores : List Nat
  /-- λ of R149 -/
  lambda : Nat
  model : Option Nat
  /-- formed for a job (R404) -/
  transient : Bool
  /-- asked to be released once its jobs have completed -/
  releasing : Option Nat
  /-- jobs at stage 4, oldest first, and the job that has the sector -/
  queue : List Nat
  running : Option Nat
  /-- program installed by R181 -/
  image : Option Image
  scalar : List Word
  chans : List ImgChan
  chanSt : Tbl Chan
  /-- shares its tile set with these sectors under time-slicing, itself included (R418) -/
  shared : List Nat
  /-- it holds the tiles (R419) and since which tick -/
  holder : Bool
  heldSince : Nat
  /-- a suspension is due at the next suspension point -/
  passDue : Bool
  /-- saved state of a suspended job: buffer extent and the cores and tiles saved -/
  saved : Option Extent
  savedCores : List (Nat × Core)
  savedBytes : Tbl Byte
  savedPoison : Tbl Bool
  /-- groups to restage at swap-in and whether a swap-in is due (R240) -/
  swapDue : Bool
  /-- tick since which the sector has no job (R492) -/
  idleSince : Option Nat
  /-- a core was fenced in the field; form again before the next job (R587) -/
  reform : Bool
  deriving DecidableEq, Repr

/-- Memory of a freed buffer that jobs still reference (R363). -/
structure Zombie where
  fn : Nat
  ext : Extent
  jobs : List Nat
  deriving DecidableEq, Repr

/-- Who makes an access that R55 and R56 check: a job's engine or a descriptor of function fn. -/
structure Agent where
  fn : Nat
  sector : Option Nat
  job : Option Nat
  deriving DecidableEq, Repr

/-! ### Daymark and the Keeper (R507 to R533) -/

/-- One Daymark record (Table 15.8), without its crc. -/
structure DayRec where
  seq : Nat
  code : Nat
  die : Nat
  unit : Nat
  opSeconds : Nat
  cycles : Nat
  ftime : Nat
  rep : Nat
  last : Nat
  /-- d0 to d5 -/
  d : List Nat
  /-- staging time in operating seconds (the 60 s rule of R526; not part of the record) -/
  stagedAt : Nat
  deriving DecidableEq, Repr

/-- The recorder: flash slots by sequence number mod 8,192, the staging ring, and what a freeze has missed. -/
structure Daymark where
  flash : Tbl (Option DayRec)
  staged : List DayRec
  /-- next sequence number -/
  next : Nat
  /-- operating second at which each master's freeze began: 0 host, 1 sideband -/
  freezes : Tbl (Option Nat)
  missed : Nat
  firstMissed : Nat
  lastMissed : Nat
  frozenSince : Nat
  /-- events dropped since the staging ring was full (R526) -/
  dropped : Nat
  /-- a record that failed its first programming try (R530) -/
  retried : Bool
  /-- first record held only in RAM while degraded -/
  ramFrom : Nat
  deriving DecidableEq, Repr

def Daymark.init : Daymark := ⟨[], [], 0, [], 0, 0, 0, 0, 0, false, 0⟩

/-- One filtered quantity (R513): the five latest samples, newest first, and y in 1/256 of its reporting unit. -/
structure Quantity where
  last5 : List Int
  y : Int
  deriving DecidableEq, Repr

def Quantity.none : Quantity := ⟨[], 0⟩

/-- One condition of Table 15.4 on one sensor, rail or input: in force, and for how many samples its lifting or holding
condition has held. -/
structure Cond where
  active : Bool
  samples : Nat
  deriving DecidableEq, Repr

def Cond.off : Cond := ⟨false, 0⟩

/-- State of the module as PLDM sensor 0x0600 and KPR_STATUS show it (Tables 15.14 and 17.3). -/
inductive ModState where
  /-- no 48 V -/
  | off
  /-- 48 V applied, Keeper not running -/
  | dead
  | standby | starting | ready | resetting | failed | shutdown
  deriving DecidableEq, Repr

structure Keeper where
  state : ModState
  /-- active Keeper: 0 none, 1 IOD0, 2 IOD1 -/
  active : Nat
  /-- quantities by KPR_SENSOR_IDX -/
  q : Tbl Quantity
  /-- conditions by row × 256 + sensor, rail or die -/
  conds : Tbl Cond
  /-- samples since the last whole operating second -/
  samples : Nat
  /-- operating seconds at the Keeper's restarts within the last hour (R509) -/
  restarts : List Nat
  /-- the watchdog restart is under way: grants are zero -/
  restarting : Bool
  /-- saved counts (R511) -/
  savedSeconds : Nat
  savedCycles : Nat
  /-- event receiver (R521) and unacknowledged alerts -/
  receiver : Option Nat
  smbalert : Bool
  deriving DecidableEq, Repr

def Keeper.init : Keeper := ⟨.off, 0, [], [], 0, [], false, 0, 0, none, false⟩

/-! ### Start-up, fences, maintenance (R575 to R601) -/

/-- The in-field map of flash (Table 17.4). -/
structure FieldMap where
  seq : Nat
  cores : List Nat
  tiles : List Nat
  remaps : List Remap
  deriving DecidableEq, Repr

def FieldMap.empty : FieldMap := ⟨0, [], [], []⟩

structure Startup where
  /-- phase under way, 1 to 7; 0 none; 8 device ready -/
  phase : Nat
  /-- a reset waiting for the end of the phase, or of the grace period: 2 warm, 3 cold, 4 main rails off (R592) -/
  pendingReset : Option Nat
  /-- depth of the reset in progress: 0 none, 2 warm, 3 cold, 4 power cycle -/
  depth : Nat
  /-- the reset grace period runs (R591) -/
  grace : Bool
  perst : Bool
  /-- WAKE# is driven low (R610) -/
  wake : Bool
  /-- input voltage in units of 0.1 V -/
  vin : Nat
  /-- the main rails are up -/
  rails : Bool
  /-- the input protection has tripped (R607) -/
  tripped : Bool
  /-- PRSNT48# is open (R608) -/
  withdrawn : Bool
  /-- second try of phase 2 (Table 17.2) -/
  railRetry : Bool
  fuseCores : List Nat
  fuseTiles : List Nat
  /-- the copy of the in-field map in use, the other copy, and whether the one in use is copy B (R582) -/
  field : FieldMap
  other : FieldMap
  useB : Bool
  /-- what phase 4 found in this start: failing cores, failing tiles (R581) -/
  badCores : List Nat
  badTiles : List Nat
  /-- the start was caused by PERST# (R610) -/
  byPerst : Bool
  /-- map-out marks in flash (R334) -/
  mapOut : List Nat
  /-- cores with a first hardware check in this start (R585) -/
  hwChecked : List Nat
  /-- rows of a controller with an uncorrectable error since the start (Table 10.4): controller × 2^32 + row -/
  ueRows : List Nat
  /-- a warm reset zeroes memory and retrains the ports; phases 5 to 7 follow (R590) -/
  warm : Bool
  deriving DecidableEq, Repr

def Startup.init : Startup where
  phase := 0
  pendingReset := none
  depth := 0
  grace := false
  perst := true
  wake := false
  vin := 0
  rails := false
  tripped := false
  withdrawn := false
  railRetry := false
  fuseCores := []
  fuseTiles := []
  field := FieldMap.empty
  other := FieldMap.empty
  useB := false
  badCores := []
  badTiles := []
  byPerst := false
  mapOut := []
  hwChecked := []
  ueRows := []
  warm := false

/-- Who asked for a maintenance activity: a descriptor in a schedule entry (fn, ring, index, entry), or the Y25. -/
structure MntReq where
  cls : Nat
  /-- arg[31:8] -/
  target : Nat
  /-- (fn, ring, index, entry) of the SCHEDULE descriptor -/
  desc : Option (Nat × Nat × Nat × Nat)
  /-- comes from the pending list -/
  item : Bool
  deriving DecidableEq, Repr

structure MntRun where
  id : Nat
  req : MntReq
  granted : Nat
  begun : Bool
  deriving DecidableEq, Repr

structure Maint where
  running : List MntRun
  queued : List MntReq
  pending : Tbl (List Nat)
  /-- all-pending requests that run: class, descriptor, items left -/
  sweeps : List (MntReq × Nat)
  nextId : Nat
  deriving DecidableEq, Repr

def Maint.init : Maint := ⟨[], [], [], [], 0⟩

/-! ### Schedule, capture, paces, admission (R468 to R500) -/

structure SchedEnt where
  fn : Nat
  ring : Nat
  index : Nat
  action : Nat
  arg : Nat
  t : Nat
  lateDrop : Bool
  /-- write time, and whether the entry was late then (R477) -/
  written : Nat
  late : Bool
  /-- due at the tick that is being worked on, or fired and not complete -/
  due : Bool
  fired : Bool
  /-- counter at firing -/
  firedAt : Nat
  deriving DecidableEq, Repr

/-- A shadow bank of counters (R483) and the captures that gather from it. -/
structure CapBank where
  tick : Nat
  counters : Tbl Word
  users : List Nat
  /-- tiles that each capture gathers, by schedule entry, as of its firing -/
  tiles : Tbl (List Nat)
  deriving DecidableEq, Repr

/-- A tile that changes its pace (R493). -/
structure PaceMove where
  goal : Nat
  /-- waits for its start slot -/
  waits : Bool
  deriving DecidableEq, Repr

/-- A stride that waits for admission (R496, R497). -/
structure WaitStride where
  tick : Nat
  sector : Nat
  ctx : Nat
  stride : Nat
  /-- declared cost (R177), and whether the contexts run the image's code: a built-in program's stride runs none of it -/
  cost : Nat
  runs : Bool
  deriving DecidableEq, Repr

structure Sched where
  entries : Tbl (Option SchedEnt)
  /-- held job rings, fn × 16 + ring -/
  holds : List Nat
  banks : Tbl (Option CapBank)
  /-- a strobe has been taken, or refused, for the tick that is being worked on -/
  strobe : Option (Option Nat)
  /-- step 5 of the tick has still to run -/
  walkDue : Bool
  moves : Tbl (Option PaceMove)
  startQ : List Nat
  waiting : List WaitStride
  /-- the FT_LOCAL interval of the running local interval (R469) -/
  localInt : Nat
  /-- compute dies whose hub is at Slate, and those with a wake request (R494, R541) -/
  slateHubs : List Nat
  hubWakes : List Nat
  /-- power settings as of the last tick, by register offset (R506) -/
  latched : Tbl Word
  /-- energy credit of each compute die, nJ; a signed value without a width (R495, R497) -/
  credit : Tbl Int
  /-- PLLs that have lost lock: die, with relock attempts -/
  unlocked : Tbl Nat
  deriving DecidableEq, Repr

def Sched.init : Sched := ⟨[], [], [], none, false, [], [], [], 100, [], [], [], [], []⟩

/-! ### Public-Key Engine, hash lanes, curves (R547 to R571) -/

/-- Who waits for public-key or hash work. -/
inductive SecOwner where
  /-- a descriptor: LOAD_KEYS, LOAD_MODEL, QUERY ATTEST -/
  | desc (fn ring index : Nat)
  /-- the input digests of a job (R571) -/
  | jobInput (job : Nat)
  /-- the output digests and signatures of a job's receipt (R570) -/
  | jobOutput (job : Nat)
  /-- a swap-in or reload of a confidential model (R568): function and model slot -/
  | model (fn slot : Nat)
  /-- the check of a curve record (R557) -/
  | curve
  /-- nobody any more: the requester was cancelled or reset -/
  | nobody
  deriving DecidableEq, Repr

/-- A job of the Public-Key Engine (R548, R549). -/
structure PkeJob where
  id : Nat
  owner : SecOwner
  /-- row of Table 16.1, from 1, and its curve or parameter-set column -/
  op : Nat
  col : Nat
  remaining : Nat
  /-- holds an execution context -/
  context : Bool
  /-- curve slot that it names, if any -/
  curve : Option Nat
  deriving DecidableEq, Repr

/-- A digest that runs on a lane or waits for one (R556). -/
structure HashTask where
  owner : SecOwner
  size : Nat
  deriving DecidableEq, Repr

structure Pke where
  jobs : List PkeJob
  /-- the job that executes -/
  current : Option Nat
  nextId : Nat
  /-- requesters that wait for room in the queue -/
  overflow : List PkeJob
  lanes : Tbl (Option HashTask)
  hashQ : List HashTask
  /-- curve records of slots 4 to 7, as the 128 words of PKE_CURVE_DATA -/
  curves : Tbl (List Word)
  /-- the record under check, and its slot -/
  checking : Option (Nat × List Word)
  /-- requests to the DRBG since it was seeded (R554) -/
  drbg : Nat
  deriving DecidableEq, Repr

def Pke.init : Pke := ⟨[], none, 0, [], [], [], [], none, 0⟩

/-! ### Fabric (R430 to R466) -/

/-- A flit that waits at a port, with the receive buffer (port, VC) that it came through, none for an own one. -/
structure QFlit where
  flit : Flit
  from_ : Option (Nat × Nat)
  deriving DecidableEq, Repr

/-- The link state of a port (R434 to R436). -/
structure LinkPort where
  /-- send credits per VC -/
  credits : Tbl Nat
  txSeq : Nat
  rxExp : Nat
  /-- sequenced flits are ignored until the expected one arrives -/
  ignoring : Bool
  lnakDue : Bool
  /-- held sequenced flits, oldest first, and how many of them have been sent since the last replay began -/
  replay : List Flit
  resend : Nat
  /-- replays without progress, trainings failed in a row -/
  stuck : Nat
  trainFails : Nat
  started : Bool
  tick : Option Flit
  xctrl : List QFlit
  pair : List QFlit
  data0 : List QFlit
  data1 : List QFlit
  dataTurn : Bool
  /-- credits owed to the other side, per VC -/
  owed : Tbl Nat
  deriving DecidableEq, Repr

def LinkPort.init : LinkPort :=
  ⟨[], 0, 0, false, false, [], 0, 0, 0, false, none, [], [], [], [], false, []⟩

/-- A role entry (Table 13.6). -/
structure Role where
  w0 : Word
  w1 : Word
  w2 : Word
  w3 : Word
  deriving DecidableEq, Repr

def Role.empty : Role := ⟨0, 0, 0, 0⟩

/-- A pool slot of a RECV entry that is not free (R450 to R452). -/
inductive Pool where
  | free
  | landing (src msgId gen port got : Nat) (since : Nat) (bytes : List Byte)
  | full
  | claimed (job : Nat)
  deriving DecidableEq, Repr

/-- Where a message that this device sends stands (Table 13.9). -/
inductive SendPhase where
  | waitAck | waitEpoch | waitBusy
  deriving DecidableEq, Repr

/-- A SEND under way (R448, R453). -/
structure SendMsg where
  job : Nat
  op : Nat
  slot : Nat
  pool : Nat
  msgId : Nat
  gen : Nat
  epoch : Nat
  /-- resent once after a stale or missing role -/
  resent : Bool
  phase : SendPhase
  firstTx : Nat
  lastTx : Nat
  /-- message bytes: header, object header, data -/
  bytes : List Byte
  deriving DecidableEq, Repr

/-- A RECEIVE that waits for its message (R449). -/
structure RecvWait where
  job : Nat
  op : Nat
  slot : Nat
  pool : Nat
  since : Nat
  deriving DecidableEq, Repr

/-- A forwarded message whose output port is chosen (R440). -/
structure FwdPath where
  src : Nat
  msgId : Nat
  gen : Nat
  port : Nat
  deriving DecidableEq, Repr

/-- A journaled item (R460). -/
structure JEntry where
  fn : Nat
  ring : Nat
  index : Nat
  bytes : List Byte
  deriving DecidableEq, Repr

structure Fabric where
  routes : Tbl Word
  roles : Tbl Role
  pools : Tbl Pool
  ports : Tbl LinkPort
  paths : List FwdPath
  msgNext : Nat
  sends : List SendMsg
  recvs : List RecvWait
  /-- bytes that the next checkpoint digests (R461) -/
  commitLog : List Byte
  journal : List JEntry
  /-- rear: this module serves service_id -/
  serving : Bool
  /-- tick of the last HEARTBEAT, and of a PROBE that is unanswered -/
  heard : Nat
  probe : Option Nat
  /-- front: a handover waits for running jobs (R464) -/
  handover : Bool
  /-- rear: journal entries that are being rerun, completions held for rings that are not enabled -/
  rerun : List JEntry
  heldCpl : List (Nat × Nat × List Byte)
  /-- device ID of the other member, from its heartbeats -/
  peer : Nat
  /-- bytes of the PAIR item that arrives at a port -/
  pairIn : Tbl (List Byte)
  /-- how a rear that serves took over: 1 after lost heartbeats, 2 by a write (R463) -/
  tookOver : Nat
  deriving DecidableEq, Repr

def Fabric.init : Fabric :=
  ⟨[], [], [], [], [], 0, [], [], [], [], false, 0, none, false, [], [], 0xFFFFF, [], 0⟩

/-! ### DIRECT_OP batches (R293) -/

/-- DIRECT_OPs of one ring held for a batch window: their descriptor indexes, the tick at which the window closes. -/
structure Batch where
  fn : Nat
  ring : Nat
  members : List Nat
  closes : Nat
  deriving DecidableEq, Repr

/-! ### The whole machine -/

/-- Something the module sends out: to the host, a port, the sideband or a pin. -/
inductive Output where
  /-- a posted write to host memory -/
  | hostWrite (fn addr : Nat) (data : List Byte)
  /-- a read request to host memory -/
  | hostRead (fn addr len tag : Nat)
  /-- a completion entry in the ring's completion ring (R410) -/
  | completion (fn ring addr : Nat) (entry : List Byte)
  /-- an event entry (R411) -/
  | event (fn addr : Nat) (entry : List Byte)
  | msix (fn vector : Nat)
  /-- the value a register read returns -/
  | value (v : Word)
  /-- the bytes a read returns (zero bytes for a read of a bad width) -/
  | bytes (bs : List Byte)
  /-- a flit on a Nguhi Link port -/
  | flit (port : Nat) (f : Flit)
  /-- an answer on the sideband port: status byte and data (R520 to R522) -/
  | sideband (status : Nat) (bs : List Byte)
  /-- a sideband alert (R521): sent as a PlatformEventMessage to the receiver, if one is set -/
  | alert (receiver : Option Nat)
  /-- a configuration request answered: 0 with data, 1 Request Retry Status -/
  | config (retry : Bool) (v : Nat)
  /-- a pulse on SYNC_OUT (R472) -/
  | syncOut
  /-- WAKE# and SMBALERT# levels -/
  | wakePin (low : Bool)
  | alertPin (low : Bool)
  deriving DecidableEq, Repr

/-- The machine. -/
structure State where
  /-- registers of the Registers region by offset (R329); unlisted: the reset value of the register map -/
  regs : Tbl Word
  /-- read shadows and write holding registers of pairs: master * 2^32 + offset of the _HI register (R20) -/
  shadows : Tbl Word
  holds : Tbl Word
  /-- device memories by device address (R52): HBM, GDDR7, Core Store and Tile Bank windows -/
  mem : List Host.Cell
  /-- poisoned Core Store words and Tile Bank double words, by address of the granule (R350) -/
  sramPoison : Tbl Bool
  /-- poison list of each I/O die (R351) -/
  poison0 : List PoisonEntry
  poison1 : List PoisonEntry
  /-- requests waiting in memory queues, oldest first, and the next request number -/
  memq : List MemReq
  memSeq : Nat
  /-- moves under way, and the next move number -/
  moves : List Move
  moveSeq : Nat
  /-- first core-domain cycle in which patrol may scrub a Tile Bank again, by tile, and the fabric tick of the last scrub
  unit of a controller (Table 10.7) -/
  bankScrub : Tbl Nat
  dramScrub : Tbl Nat
  /-- memory events on buffers of the running fabric tick, which adjacent granules share (R357): function, handle, offset,
  extent -/
  bufEvents : List (Nat × Nat × Nat × Nat)
  cores : Tbl Core
  fns : Tbl Fn
  sectors : Tbl (Option Sector)
  jobs : Tbl (Option Job)
  jobSeq : Nat
  /-- freed buffers not yet reclaimed (R363) -/
  zombies : List Zombie
  /-- allocated ranges of GDDR7 that are no buffers: home copies, save buffers, input areas -/
  gddrUsed : List Extent
  /-- allocated ranges of HBM, by die (R279) -/
  hbmUsed : List (Nat × Extent)
  /-- encode requests of the two front ends, oldest first (R199, R205) -/
  encQ : Tbl (List EncReq)
  /-- key passes, in the order queued, and the next pass number (R281) -/
  passes : List Pass
  passSeq : Nat
  /-- the fetch units' round-robin turns (R287) -/
  kseTurn : Tbl Nat
  /-- host objects on their way in (R422) -/
  xfers : List Xfer
  xferSeq : Nat
  batches : List Batch
  /-- tiles that are being zeroed (R239, R343) -/
  zeroing : List Nat
  day : Daymark
  keeper : Keeper
  /-- claim stacks: EIC × 4 + interface, top first: (source, priority) (R534) -/
  eicStack : Tbl (List (Nat × Nat))
  start : Startup
  maint : Maint
  sched : Sched
  pke : Pke
  fab : Fabric
  /-- the 64-bit count of fabric ticks (R468) -/
  ftime : DWord
  /-- what the module has sent out, newest last -/
  outputs : List Output
  /-- how many free values have been drawn (the model's own counter) -/
  free : Nat
  /-- the commands that wait, first in, first out -/
  pending : List Instr
  deriving DecidableEq, Repr

/-- The machine right after reset: no 48 V, nothing started, every register at its reset value (log entry 12). -/
def State.reset : State where
  regs := []
  shadows := []
  holds := []
  mem := []
  sramPoison := []
  poison0 := []
  poison1 := []
  memq := []
  memSeq := 0
  moves := []
  moveSeq := 0
  bankScrub := []
  dramScrub := []
  bufEvents := []
  cores := []
  fns := []
  sectors := []
  jobs := []
  jobSeq := 0
  zombies := []
  gddrUsed := []
  hbmUsed := []
  encQ := []
  passes := []
  passSeq := 0
  kseTurn := []
  xfers := []
  xferSeq := 0
  batches := []
  zeroing := []
  day := Daymark.init
  keeper := Keeper.init
  eicStack := []
  start := Startup.init
  maint := Maint.init
  sched := Sched.init
  pke := Pke.init
  fab := Fabric.init
  ftime := 0
  outputs := []
  free := 0
  pending := []

end Sys2Proof.Machine
end

