-- ==== Sys2Proof/Machine/BundleDecode.lean ====
section
/-! DEFINITION. The Enevead bundle layout (R139, Tables 4.1 to 4.23): field extraction and the ENCODING checks of
R168 that depend on the bits of the bundle alone (R180). -/

namespace Sys2Proof.Machine

/-- Control field (Table 4.3). -/
structure Ctl where
  waitKind : Nat
  waitSel : Nat
  waitVal : Nat
  sigKind : Nat
  sigSel : Nat
  sigOn : Nat
  rsv : Nat
  deriving DecidableEq, Repr

/-- Scalar slot (Table 4.8). -/
structure ScOp where
  op : Nat
  d : Nat
  a : Nat
  b : Nat
  imm : Nat
  deriving DecidableEq, Repr

/-- Element slot (Table 4.10). -/
structure ElOp where
  op : Nat
  vd : Nat
  va : Nat
  vb : Nat
  mask : Nat
  zero : Bool
  m : Nat
  aux : Nat
  deriving DecidableEq, Repr

/-- Transform assist slot (Table 4.16). -/
structure TaOp where
  op : Nat
  inv : Bool
  m : Nat
  dst : Nat
  sE0 : Nat
  sD : Nat
  idx : Nat
  src : Nat
  deriving DecidableEq, Repr

/-- Load slot (Table 4.18); reg is dst. -/
structure LdOp where
  op : Nat
  dst : Nat
  mode : Nat
  base : Nat
  off : Nat
  size : Nat
  aux : Nat
  rsv : Nat
  deriving DecidableEq, Repr

/-- Store slot (Table 4.21). -/
structure StOp where
  op : Nat
  src : Nat
  mode : Nat
  base : Nat
  off : Nat
  size : Nat
  variant : Nat
  par : Nat
  rsv : Nat
  deriving DecidableEq, Repr

/-- A bundle taken apart (Table 4.1). -/
structure Bun where
  ctl : Ctl
  sc : ScOp
  el : ElOp
  ar : ArOp
  ta : TaOp
  ld : LdOp
  st : StOp
  deriving DecidableEq, Repr

/-- Control field of a bundle. -/
def decCtl (w : Nat) : Ctl :=
  ⟨bits w 31 29, bits w 28 23, bits w 22 16, bits w 15 13, bits w 12 7, bits w 6 4, bits w 3 0⟩

/-- Scalar slot of a bundle. -/
def decSc (w : Nat) : ScOp := ⟨bits w 31 26, bits w 25 22, bits w 21 18, bits w 17 14, bits w 13 0⟩

/-- Element slot of a bundle. -/
def decEl (w : Nat) : ElOp :=
  ⟨bits w 39 34, bits w 33 30, bits w 29 26, bits w 25 22, bits w 21 18, bit w 17, bits w 16 10, bits w 9 0⟩

/-- Array slot of a bundle (Table 4.14). -/
def decAr (w : Nat) : ArOp :=
  ⟨bits w 39 35, bit w 34, bits w 33 32, bits w 31 29, bits w 28 26, bit w 25, bit w 24, bits w 23 20,
    bits w 19 13, bits w 12 9, bits w 8 5, bits w 4 1, bits w 0 0⟩

/-- Transform assist slot of a bundle. -/
def decTa (w : Nat) : TaOp :=
  ⟨bits w 31 28, bit w 27, bits w 26 20, bits w 19 16, bits w 15 12, bits w 11 8, bits w 7 4, bits w 3 0⟩

/-- Load slot of a bundle. -/
def decLd (w : Nat) : LdOp :=
  ⟨bits w 39 35, bits w 34 29, bits w 28 27, bits w 26 23, bits w 22 14, bits w 13 11, bits w 10 8, bits w 7 0⟩

/-- Store slot of a bundle. -/
def decSt (w : Nat) : StOp :=
  ⟨bits w 39 35, bits w 34 29, bits w 28 27, bits w 26 23, bits w 22 14, bits w 13 11, bits w 10 8, bits w 7 4,
    bits w 3 0⟩

/-- Take a bundle apart (Table 4.1). -/
def decodeBundle (b : Bundle) : Bun :=
  let w := b.toNat
  ⟨decCtl (bits w 255 224), decSc (bits w 223 192), decEl (bits w 191 152), decAr (bits w 151 112),
    decTa (bits w 111 80), decLd (bits w 79 40), decSt (bits w 39 0)⟩

/-- What a 6-bit register code names (Table 4.2). -/
inductive RegCode where
  | e (n : Nat) | oa (n : Nat) | ob (n : Nat) | ac (n : Nat) | kb | s (n : Nat) | reserved
  deriving DecidableEq, Repr

/-- Table 4.2. -/
def regCode (c : Nat) : RegCode :=
  if c < 16 then .e c else if c < 24 then .oa (c - 16) else if c < 32 then .ob (c - 24)
  else if c < 36 then .ac (c - 32) else if c = 36 then .kb else if c < 48 then .reserved else .s (c - 48)

/-- Bytes of a size code (Table 4.18): 4 to 256. -/
def sizeBytes (c : Nat) : Nat := 4 * 2 ^ c

/-- Wait field use (R143, R144). -/
def okWait (c : Ctl) : Bool :=
  match c.waitKind with
  | 0 => c.waitSel == 0 && c.waitVal == 0
  | 1 => c.waitSel < 32 && c.waitVal == 0
  | 2 => c.waitSel < 32 && c.waitVal == 0
  | 3 => decide (c.waitSel < 8)
  | 4 => c.waitSel < 8 && c.waitVal < 16
  | 5 => c.waitVal == 0
  | _ => false

/-- Signal field use (R145); sig_on must not name a slot that holds NOP (Table 4.6). -/
def okSig (b : Bun) : Bool :=
  let c := b.ctl
  (match c.sigKind with
    | 0 => c.sigSel == 0 && c.sigOn == 0
    | 1 => decide (c.sigSel < 32)
    | 2 => decide (c.sigSel < 32)
    | 3 => decide (c.sigSel < 8)
    | 4 => decide (c.sigSel < 8)
    | 5 => true
    | 6 => decide (c.sigSel < 8)
    | _ => false) &&
  (match c.sigOn with
    | 0 => true
    | 1 => b.ar.op != 0
    | 2 => b.el.op != 0
    | 3 => b.ta.op != 0
    | 4 => b.ld.op != 0
    | 5 => b.st.op != 0
    | 6 => true
    | _ => false)

/-- Scalar slot: defined operation, rel and rounding mode, and zero in every field it does not use (R150). -/
def okSc (s : ScOp) : Bool :=
  match s.op with
  | 0 => s.d == 0 && s.a == 0 && s.b == 0 && s.imm == 0
  | 1 => s.imm == 0 | 2 => s.imm == 0 | 3 => s.imm == 0 | 4 => s.imm == 0 | 5 => s.imm == 0
  | 6 => s.imm == 0 | 7 => s.imm == 0 | 8 => s.imm == 0 | 9 => s.imm == 0
  | 10 => s.b == 0
  | 11 => s.a == 0 && s.b == 0
  | 12 => s.b == 0 && s.imm < 32
  | 13 => s.b == 0
  | 14 => s.a < 4 && s.b == 0 && s.imm == 0
  | 15 => s.d < 4 && s.b == 0 && s.imm == 0
  | 16 => s.d < 4 && s.a == 0 && s.b == 0
  | 17 => s.d < 4 && s.imm < 6
  | 18 => s.d < 4 && s.b == 0 && s.imm % 8 < 6
  | 19 => s.a == 0 && s.b == 0 && s.imm < 128
  | 20 => s.d < 4 && s.a == 0 && s.b == 0 && s.imm < 128
  | 21 => s.d == 0 && s.a == 0 && s.b == 0 && s.imm == 0
  | 22 => s.d == 0 && s.a == 0 && s.b == 0 && s.imm < 5
  | 23 => s.a == 0 && s.b == 0 && s.imm < 4
  | _ => false

/-- Block formats of Table 4.13. -/
def isBlockFmt (f : Nat) : Bool := f == 5 || f == 6 || f == 7

/-- Element slot (R155, R156, R195): m is ignored by non-modular operations, so its bits are free; mask and zero belong to
every operation (R123; log entry 32). -/
def okEl (e : ElOp) : Bool :=
  match e.op with
  | 0 => e.vd == 0 && e.va == 0 && e.vb == 0 && e.mask == 0 && !e.zero && e.m == 0 && e.aux == 0
  | 3 => decide (e.aux < 2)
  | 11 => okShift e | 12 => okShift e | 13 => okShift e
  | 18 => e.aux % 16 < 2 && e.aux < 256
  | 19 => e.vb == 0 && e.aux == 0
  | 20 => e.vb == 0 && bits e.aux 9 6 < 10 && bits e.aux 5 2 < 10 &&
      (!bit e.aux 0 || isBlockFmt (bits e.aux 9 6) || isBlockFmt (bits e.aux 5 2))
  | 21 => e.vb == 0 && e.aux == 0
  | 22 => e.va == 0 && e.vb == 0 && e.aux == 0
  | 23 => e.vd == 0 && e.vb == 0 && e.aux == 0
  | 24 => e.va == 0 && e.vb == 0 && e.aux == 0
  | 25 => bits e.aux 3 3 == 0 && e.aux < 256
  | n => n < 26 && e.aux == 0
where
  /-- SHL, SHR, SRA: aux[5] selects the immediate; aux[9:6] is unused. -/
  okShift (e : ElOp) : Bool :=
    if bit e.aux 5 then e.vb == 0 && e.aux < 64 else e.aux == 0

/-- Array slot (R159): fields that an operation does not use must be zero. -/
def okAr (a : ArOp) : Bool :=
  let noRed := !a.redReg && a.redDst == 0
  let noConv := a.sIb == 0 && a.sOb == 0 && a.sPar == 0
  a.rsv == 0 &&
  (match a.op with
    | 0 => !a.zero && a.c == 0 && a.a == 0 && a.b == 0 && !a.full && noRed && a.m == 0 && noConv
    | 1 => !a.full && noRed && a.m == 0 && noConv
    | 2 => !a.full && noRed && a.m == 0 && noConv
    | 3 => !a.zero && noRed && noConv
    | 4 => a.b == 0 && !a.full && noRed && a.m == 0
    | 5 => !a.zero && a.a == 0 && a.b == 0 && noConv && (a.redReg || a.redDst == 0)
    | 6 => !a.zero && a.a == 0 && a.b == 0 && !a.full && noRed && a.m == 0 && noConv
    | 7 => !a.zero && a.c == 0 && a.a % 2 == 0 && a.a < 6 && a.b == 0 && !a.full && noRed && a.m == 0 && noConv
    | _ => false)

/-- Transform assist slot (R160). -/
def okTa (t : TaOp) : Bool :=
  match t.op with
  | 0 => !t.inv && t.m == 0 && t.dst == 0 && t.sE0 == 0 && t.sD == 0 && t.idx == 0 && t.src == 0
  | 1 => t.dst == 0 && t.idx == 0 && t.src == 0
  | 2 => !t.inv && t.m == 0 && t.sE0 == 0 && t.sD == 0 && t.idx == 0 && t.src == 0
  | 3 => t.dst == 0 && t.idx == 0 && t.src == 0
  | 4 => !t.inv && t.m == 0 && t.sE0 == 0 && t.sD == 0 && t.src == 0
  | 5 => t.m == 0 && t.dst == 0 && t.sE0 == 0 && t.sD == 0
  | 6 => !t.inv && t.m == 0 && t.sE0 == 0 && t.sD == 0 && t.src == 0
  | _ => false

/-- Register and size agree (R163 for LD, R166 for ST). -/
def okRegSize (code size : Nat) (store : Bool) : Bool :=
  match regCode code with
  | .e _ => decide (size < 7)
  | .oa _ => 4 ≤ size && size < 7
  | .ob _ => 4 ≤ size && size < 7
  | .ac _ => size == 4
  | .kb => !store && size == 6
  | .s _ => false
  | .reserved => false

/-- Load slot, ENCODING cases (R161 to R165). -/
def okLd (l : LdOp) : Bool :=
  l.rsv == 0 &&
  (match l.op with
    | 0 => l.dst == 0 && l.mode == 0 && l.base == 0 && l.off == 0 && l.size == 0 && l.aux == 0
    | 1 => l.aux == 0 && okRegSize l.dst l.size false && (l.mode != 2 || l.base % 2 == 0)
    | 2 => l.aux == 0 && 48 ≤ l.dst && l.size < 7
    | 3 => l.dst == 0 && l.mode == 0 && l.size == 0
    | 4 => l.dst == 0 && l.mode == 0 && l.base == 0 && l.off == 0 && l.size == 0
    | 5 => l.dst == 0 && l.mode == 0 && l.size == 0 && l.aux < 2
    | _ => false)

/-- LDS cases that raise SCALAR_SOURCE whatever the registers hold (R163). -/
def ldsFormOk (l : LdOp) : Bool := l.op != 2 || ((l.mode == 0 || l.mode == 3) && l.size == 0)

/-- Store slot, ENCODING cases that depend on the bundle alone (R166, R167). -/
def okSt (s : StOp) (ta : TaOp) : Bool :=
  s.rsv == 0 &&
  (match s.op with
    | 0 => s.src == 0 && s.mode == 0 && s.base == 0 && s.off == 0 && s.size == 0 && s.variant == 0 && s.par == 0
    | 1 =>
      (s.mode != 2 || s.base % 2 == 0) &&
      (match s.variant with
        | 0 => okRegSize s.src s.size true && s.par == 0
        | 1 => okRegSize s.src s.size true
        | 2 => okRegSize s.src s.size true && s.par == 0 && (s.size == 2 || s.size == 4 || s.size == 6)
        | 3 => okRegSize s.src s.size true && s.par == 0 && s.size == 4 && 16 ≤ s.src && ta.op != 5 && ta.op != 6
        | 4 => s.src == 0 && s.size == 4 && ta.op != 5 && ta.op != 6
        | _ => false)
    | 2 => s.src < 8 && s.mode == 1 && s.off == 0 && s.size == 0 && s.variant == 0 && s.par == 0
    | _ => false)

/-- Every ENCODING check that needs only the bits of the bundle. -/
def encodingOk (b : Bun) : Bool :=
  b.ctl.rsv == 0 && okWait b.ctl && okSig b && okSc b.sc && okEl b.el && okAr b.ar && okTa b.ta && okLd b.ld &&
  okSt b.st b.ta

end Sys2Proof.Machine
end

