-- ==== Sys2Proof/Machine/Formats.lean ====
section
/-! DEFINITION. The ten number formats and every conversion between them (R182 to R193): exact dyadic values, one
rounding, saturation, flushing and the flags of Table 5.7. -/

namespace Sys2Proof.Machine

/-- An exact value: NaN (with its signalling bit), an infinity, or ±m × 2^e. -/
inductive XVal where
  | nan (signalling : Bool)
  | inf (neg : Bool)
  | fin (neg : Bool) (m : Nat) (e : Int)
  deriving DecidableEq, Repr

/-- An integer as an exact value. -/
def XVal.ofInt (x : Int) : XVal := .fin (x < 0) x.natAbs 0

/-- The flags of Table 5.7 as bits: invalid 3, overflow 2, underflow 1, inexact 0. -/
abbrev Flags := BitVec 4

def flInvalid : Flags := 8
def flOverflow : Flags := 4
def flUnderflow : Flags := 2
def flInexact : Flags := 1

/-- Rounding of a magnitude m / 2^s (s > 0) to an integer under a mode of Table 5.6; neg is the sign. -/
def roundShift (neg : Bool) (m s mode : Nat) : Nat :=
  let q := m >>> s
  let r := m % 2 ^ s
  let half := 2 ^ (s - 1)
  if r = 0 then q
  else match mode with
    | 0 => if half < r || (r == half && q % 2 == 1) then q + 1 else q
    | 1 => q
    | 2 => if neg then q else q + 1
    | 3 => if neg then q + 1 else q
    | 4 => if half ≤ r then q + 1 else q
    | _ => if half < r || (r == half && q % 2 == 1) then q + 1 else q

/-- The magnitude of m × 2^e in units of 2^u, rounded. -/
def roundTo (neg : Bool) (m : Nat) (e u : Int) (mode : Nat) : Nat :=
  if u ≤ e then m <<< (e - u).toNat else roundShift neg m (u - e).toNat mode

/-- Whether m × 2^e is a multiple of 2^u. -/
def exactAt (m : Nat) (e u : Int) : Bool :=
  if u ≤ e then true else m % 2 ^ (u - e).toNat == 0

/-- A binary float format: total width, fraction bits. -/
structure FloatFmt where
  width : Nat
  frac : Nat
  deriving DecidableEq, Repr

def fp64 : FloatFmt := ⟨64, 52⟩
def fp32 : FloatFmt := ⟨32, 23⟩
def bf16 : FloatFmt := ⟨16, 7⟩

/-- Exponent field width. -/
def FloatFmt.ebits (f : FloatFmt) : Nat := f.width - f.frac - 1
/-- Exponent bias. -/
def FloatFmt.bias (f : FloatFmt) : Nat := 2 ^ (f.ebits - 1) - 1
/-- Smallest normal exponent. -/
def FloatFmt.emin (f : FloatFmt) : Int := 1 - (f.bias : Int)
/-- Exponent of the least significant bit of a subnormal. -/
def FloatFmt.eulp (f : FloatFmt) : Int := f.emin - (f.frac : Int)
/-- Bits of the canonical quiet NaN (R190). -/
def FloatFmt.qnan (f : FloatFmt) : Nat := (2 ^ f.ebits - 1) * 2 ^ f.frac + 2 ^ (f.frac - 1)
/-- Bits of an infinity. -/
def FloatFmt.infBits (f : FloatFmt) (neg : Bool) : Nat :=
  (2 ^ f.ebits - 1) * 2 ^ f.frac + (if neg then 2 ^ (f.width - 1) else 0)
/-- Bits of the largest finite magnitude. -/
def FloatFmt.maxBits (f : FloatFmt) (neg : Bool) : Nat :=
  (2 ^ f.ebits - 1) * 2 ^ f.frac - 1 + (if neg then 2 ^ (f.width - 1) else 0)
/-- Bits of a zero. -/
def FloatFmt.zeroBits (f : FloatFmt) (neg : Bool) : Nat := if neg then 2 ^ (f.width - 1) else 0

/-- The value of a float; fast mode flushes subnormals to zero, keeping the sign (R193). -/
def decodeFloat (f : FloatFmt) (w : Nat) (fast : Bool) : XVal :=
  let neg := bit w (f.width - 1)
  let ex := bits w (f.width - 2) f.frac
  let fr := w % 2 ^ f.frac
  if ex = 2 ^ f.ebits - 1 then
    (if fr = 0 then .inf neg else .nan (!bit w (f.frac - 1)))
  else if ex = 0 then
    (if fast then .fin neg 0 0 else .fin neg fr f.eulp)
  else .fin neg (2 ^ f.frac + fr) ((ex : Int) - (f.bias : Int) - (f.frac : Int))

/-- Encode a finite value with one rounding (R190, R193): bits and flags. Tininess is detected after rounding. -/
def encodeFin (f : FloatFmt) (neg : Bool) (m : Nat) (e : Int) (mode : Nat) (fast : Bool) : Nat × Flags :=
  if m = 0 then (f.zeroBits neg, 0)
  else
    let top : Int := (log2 m : Int) + e
    -- rounding with unbounded exponent, for tininess
    let u0 : Int := top - (f.frac : Int)
    let r0 := roundTo neg m e u0 mode
    let tiny : Bool := decide (((log2 r0 : Int) + u0) < f.emin)
    let u : Int := if u0 < f.eulp then f.eulp else u0
    let r := roundTo neg m e u mode
    let inexact := !exactAt m e u
    let sgn := f.zeroBits neg
    -- a rounding that carries into the next binade keeps r × 2^u exact
    let u' : Int := if r = 2 ^ (f.frac + 1) then u + 1 else u
    let r' := if r = 2 ^ (f.frac + 1) then 2 ^ f.frac else r
    let exField : Int := if r' < 2 ^ f.frac then 0 else u' + (f.frac : Int) + (f.bias : Int)
    if (2 ^ f.ebits - 1 : Int) ≤ exField then
      let toInf : Bool := match mode with
        | 1 => false
        | 2 => !neg
        | 3 => neg
        | _ => true
      ((if toInf then f.infBits neg else f.maxBits neg), flOverflow ||| flInexact)
    else if fast && r' < 2 ^ f.frac then (sgn, 0)
    else
      (sgn + exField.toNat * 2 ^ f.frac + r' % 2 ^ f.frac,
        (if inexact then flInexact else 0) ||| (if tiny && inexact then flUnderflow else 0))

/-- Encode any exact value into a float format; fast mode raises no flag. -/
def encodeFloat (f : FloatFmt) (x : XVal) (mode : Nat) (fast : Bool) : Nat × Flags :=
  match x with
  | .nan s => (f.qnan, if s then flInvalid else 0)
  | .inf neg => (f.infBits neg, 0)
  | .fin neg m e => encodeFin f neg m e mode fast

/-- Round a value to an integer and saturate to lo..hi (R188, R190). -/
def toIntSat (lo hi : Int) (x : XVal) (mode : Nat) : Int × Flags :=
  match x with
  | .nan _ => (0, flInvalid)
  | .inf neg => ((if neg then lo else hi), flInvalid)
  | .fin neg m e =>
    let r : Int := roundTo neg m e 0 mode
    let v := if neg then -r else r
    if v < lo then (lo, flInvalid)
    else if hi < v then (hi, flInvalid)
    else (v, if exactAt m e 0 then 0 else flInexact)

/-- The range of Z64. -/
def z64lo : Int := -(2 ^ 63)
def z64hi : Int := 2 ^ 63 - 1

/-- The value of a B8F element (Table 5.2), as magnitude and exponent. -/
def b8fVal (w : Nat) : Nat × Int :=
  let ex := bits w 6 3
  let f := w % 8
  if ex = 0 then (f, -9) else (8 + f, (ex : Int) - 10)

/-- One element of a block (R184): c is the exponent code. -/
def decodeBlockElt (fmt w c : Nat) : XVal :=
  if c = 0 then .fin false 0 0
  else
    let sc : Int := (c : Int) - 127
    match fmt with
    | 5 => let v := b8fVal w; .fin (bit w 7) v.1 (v.2 + sc)
    | 6 => let v := sext w 8; .fin (v < 0) v.natAbs sc
    | _ => let v := sext w 4; .fin (v < 0) v.natAbs sc

/-- Shift offset k of Table 5.3. -/
def blockK (fmt : Nat) : Int := match fmt with | 5 => 7 | 6 => 6 | _ => 2

/-- Round y = ±m × 2^e onto the B8F grid (R191) and saturate; element bits and flags. -/
def b8fRound (neg : Bool) (m : Nat) (e : Int) (mode : Nat) : Nat × Flags :=
  if m = 0 then (0, 0)
  else
    let top : Int := (log2 m : Int) + e
    let u0 : Int := top - 3
    let u : Int := if u0 < -9 then -9 else u0
    let r := roundTo neg m e u mode
    let inexact := !exactAt m e u
    let u' : Int := if r = 16 then u + 1 else u
    let r' := if r = 16 then 8 else r
    let tiny : Bool := decide (((log2 (roundTo neg m e u0 mode) : Int) + u0) < -6)
    let ex : Int := if r' < 8 then 0 else u' + 10
    let sg := if neg then 128 else 0
    if 15 < ex then (sg + 127, flOverflow ||| flInexact)
    else if r' = 0 then (0, flInexact ||| flUnderflow)
    else (sg + ex.toNat * 8 + r' % 8,
      (if inexact then flInexact else 0) ||| (if tiny && inexact then flUnderflow else 0))

/-- Round y onto the integer grid of B8I or B4I and saturate to ±hi. -/
def blkIntRound (width : Nat) (neg : Bool) (m : Nat) (e : Int) (mode : Nat) : Nat × Flags :=
  let hi := 2 ^ (width - 1) - 1
  let r := roundTo neg m e 0 mode
  let v := Nat.min r hi
  ((if neg then (2 ^ width - v) % 2 ^ width else v),
    (if hi < r || !exactAt m e 0 then flInexact else 0))

/-- A value as R190 takes it into a block: NaN is zero, an infinity the largest finite magnitude of its source. -/
def blockVal (srcFmt : FloatFmt) (x : XVal) : XVal × Flags :=
  match x with
  | .nan _ => (.fin false 0 0, flInvalid)
  | .inf neg => (decodeFloat srcFmt (srcFmt.maxBits neg) false, flInvalid)
  | .fin n m e => (.fin n m e, 0)

/-- |a| compared with |b| for finite values: is a the larger? -/
def magLt (ma : Nat) (ea : Int) (mb : Nat) (eb : Int) : Bool :=
  if ea ≤ eb then decide (ma < mb <<< (eb - ea).toNat) else decide (ma <<< (ea - eb).toNat < mb)

/-- Result of packing one block: code, element bits, flags, dominated. -/
structure Packed where
  code : Nat
  elts : List Nat
  flags : Flags
  dominated : Bool
  deriving DecidableEq, Repr

/-- pack_block (R191, R192) of finite values given as (neg, m, e). -/
def packBlock (fmt : Nat) (xs : List (Bool × Nat × Int)) (mode : Nat) : Packed :=
  let mx := xs.foldl (fun (acc : Nat × Int) x => if magLt acc.1 acc.2 x.2.1 x.2.2 then (x.2.1, x.2.2) else acc) (0, 0)
  if mx.1 = 0 then ⟨0, xs.map (fun _ => 0), 0, false⟩
  else
    let e : Int := (log2 mx.1 : Int) + mx.2
    let c0 : Int := e - blockK fmt + 127
    let c : Int := if c0 < 1 then 1 else if 255 < c0 then 255 else c0
    let rs := xs.map fun x =>
      match fmt with
      | 5 => b8fRound x.1 x.2.1 (x.2.2 - (c - 127)) mode
      | 6 => blkIntRound 8 x.1 x.2.1 (x.2.2 - (c - 127)) mode
      | _ => blkIntRound 4 x.1 x.2.1 (x.2.2 - (c - 127)) mode
    ⟨c.toNat, rs.map (·.1), rs.foldl (fun a r => a ||| r.2) 0,
      (xs.zip rs).any fun p => p.1.2.1 != 0 && p.2.1 == 0⟩

/-- The float format of a code of Table 4.13. -/
def floatFmt (fmt : Nat) : FloatFmt := match fmt with | 2 => fp64 | 4 => bf16 | _ => fp32

/-- Centred lift of a Q32 word (R189). -/
def centredLift (w q : Nat) : Int :=
  let r := if q = 0 then w else w % q
  if r ≤ (q - 1) / 2 then r else (r : Int) - (q : Int)

/-- Elements of a register form (Table 5.4) as raw numbers; e1 is the second register of a pair. -/
def readElts (fmt : Nat) (blk16 : Bool) (e0 e1 : List Nat) : List (Nat × Nat) :=
  let lane (l : List Nat) (i : Nat) := l.getD i 0
  (List.range 32).map fun i =>
    match fmt with
    | 1 => (let r := if i < 16 then e0 else e1; lane r (2 * (i % 16)) + lane r (2 * (i % 16) + 1) * 2 ^ 32, 0)
    | 2 => (let r := if i < 16 then e0 else e1; lane r (2 * (i % 16)) + lane r (2 * (i % 16) + 1) * 2 ^ 32, 0)
    | 4 => (bits (lane e0 (i / 2)) (16 * (i % 2) + 15) (16 * (i % 2)), 0)
    | 8 => (bits (lane e0 (i / 2)) (16 * (i % 2) + 15) (16 * (i % 2)), 0)
    | 5 => (bits (lane e0 (i / 4)) (8 * (i % 4) + 7) (8 * (i % 4)), blkCode (lane e0 8) blk16 i)
    | 6 => (bits (lane e0 (i / 4)) (8 * (i % 4) + 7) (8 * (i % 4)), blkCode (lane e0 8) blk16 i)
    | 7 => (bits (lane e0 (i / 8)) (4 * (i % 8) + 3) (4 * (i % 8)), blkCode (lane e0 4) blk16 i)
    | _ => (lane e0 i, 0)
where
  /-- The exponent code of element i's block (R158). -/
  blkCode (w : Nat) (blk16 : Bool) (i : Nat) : Nat :=
    if blk16 && 16 ≤ i then bits w 15 8 else bits w 7 0

/-- Decode one element to its exact value (R188, Table 5.5). -/
def decodeElt (fmt q : Nat) (x : Nat × Nat) (fast : Bool) : XVal :=
  match fmt with
  | 0 => .ofInt (centredLift x.1 q)
  | 1 => .ofInt (sext x.1 64)
  | 2 => decodeFloat fp64 x.1 fast
  | 3 => decodeFloat fp32 x.1 fast
  | 4 => decodeFloat bf16 x.1 fast
  | 8 => .ofInt (sext x.1 16)
  | 9 => .ofInt (sext x.1 32)
  | f => decodeBlockElt f x.1 x.2

/-- x mod q, canonical, of an integer. -/
def modQ (x : Int) (q : Nat) : Nat := if q = 0 then 0 else (x % (q : Int)).toNat

/-- Source formats whose values are integers (R188). -/
def isIntFmt (fmt : Nat) : Bool := fmt == 0 || fmt == 1 || fmt == 8 || fmt == 9

/-- Encode one element into a target that is no block format: its bits and flags (R188, Table 5.5). -/
def encodeElt (src dst q : Nat) (x : XVal) (mode : Nat) (fast : Bool) : Nat × Flags :=
  let wrapN (w : Nat) (p : Int × Flags) : Nat × Flags := ((p.1 % (2 ^ w : Nat)).toNat, p.2)
  match dst with
  | 0 =>
    if isIntFmt src then
      (match x with
        | .fin neg m _ => (modQ (if neg then -(m : Int) else m) q, 0)
        | _ => (0, 0))
    else let p := toIntSat z64lo z64hi x mode; (modQ p.1 q, p.2)
  | 1 => wrapN 64 (toIntSat z64lo z64hi x mode)
  | 2 => encodeFloat fp64 x mode fast
  | 3 => encodeFloat fp32 x mode fast
  | 4 => encodeFloat bf16 x mode fast
  | 8 => wrapN 16 (toIntSat (-(2 ^ 15)) (2 ^ 15 - 1) x mode)
  | _ => wrapN 32 (toIntSat (-(2 ^ 31)) (2 ^ 31 - 1) x mode)

/-- The lanes of one or two registers that hold 32 elements (Table 5.4), with lanes left over zero (R187). -/
def placeElts (fmt : Nat) (xs : List Nat) : List Nat × List Nat :=
  let e (i : Nat) := xs.getD i 0
  match fmt with
  | 1 => placePair e
  | 2 => placePair e
  | 4 => placeHalf e
  | 8 => placeHalf e
  | _ => ((List.range 32).map e, [])
where
  placePair (e : Nat → Nat) : List Nat × List Nat :=
    let reg (r : Nat) := (List.range 32).map fun l => bits (e (16 * r + l / 2)) (32 * (l % 2) + 31) (32 * (l % 2))
    (reg 0, reg 1)
  placeHalf (e : Nat → Nat) : List Nat × List Nat :=
    ((List.range 32).map fun l => if l < 16 then e (2 * l) + e (2 * l + 1) * 2 ^ 16 else 0, [])

/-- The lanes of a packed block register (R158). -/
def placeBlocks (fmt : Nat) (ps : List Packed) : List Nat :=
  let es := ps.flatMap (·.elts)
  let codes := (ps.getD 0 ⟨0, [], 0, false⟩).code + (if ps.length = 2 then (ps.getD 1 ⟨0, [], 0, false⟩).code * 256 else 0)
  let e (i : Nat) := es.getD i 0
  (List.range 32).map fun l =>
    if fmt == 7 then
      (if l < 4 then (List.range 8).foldl (fun a i => a + e (8 * l + i) * 16 ^ i) 0 else if l = 4 then codes else 0)
    else
      (if l < 8 then (List.range 4).foldl (fun a i => a + e (4 * l + i) * 256 ^ i) 0 else if l = 8 then codes else 0)

/-- What one CVT yields: the lanes of the destination register(s), its flags, and how many dominated blocks. -/
structure CvtOut where
  r0 : List Nat
  r1 : List Nat
  flags : Flags
  dominated : Nat
  deriving DecidableEq, Repr

/-- CVT of 32 elements (R188 to R193). Strict mode rounds under mode and keeps flags; fast mode rounds to nearest
even, flushes subnormals and raises nothing. -/
def cvt (src dst : Nat) (strict blk16 : Bool) (mode q : Nat) (e0 e1 : List Nat) : CvtOut :=
  let fast := !strict
  let mode := if fast then 0 else mode
  let raw := readElts src blk16 e0 e1
  let xs := raw.map fun x => decodeElt src q x fast
  if isBlockFmtCode dst then
    let bs := if blk16 then 16 else 32
    let vals := xs.map fun x => blockVal (floatFmt src) x
    let fin := vals.map fun v => match v.1 with
      | .fin n m e => (n, m, e)
      | _ => (false, 0, 0)
    let ps := (chunksOf bs fin).map fun b => packBlock dst b mode
    let fl := ps.foldl (fun a p => a ||| p.flags) (vals.foldl (fun a v => a ||| v.2) 0)
    let sn := if xs.any (fun x => x == .nan true) then flInvalid else 0
    ⟨placeBlocks dst ps, [], if fast then 0 else fl ||| sn,
      if fast then 0 else ((ps.zip (chunksOf bs xs)).filter fun p => p.1.dominated).length⟩
  else if src == 0 && dst == 0 then
    ⟨raw.map (fun x => if q = 0 then x.1 else x.1 % q), [], 0, 0⟩
  else
    let rs := xs.map fun x => encodeElt src dst q x mode fast
    let p := placeElts dst (rs.map (·.1))
    ⟨p.1, p.2, if fast then 0 else rs.foldl (fun a r => a ||| r.2) 0, 0⟩
where
  isBlockFmtCode (f : Nat) : Bool := f == 5 || f == 6 || f == 7

/-- Issue interval and latency of a CVT (Table 3.7, R195): block size plays no part. -/
def cvtTiming (src dst : Nat) (strict : Bool) : Nat × Nat :=
  if strict then (4, 10)
  else
    let wide := src == 1 || src == 2 || dst == 1 || dst == 2
    let unpack := src == 5 || src == 6 || src == 7
    let pack := dst == 5 || dst == 6 || dst == 7
    let mx (a b : Nat × Nat) : Nat × Nat := (Nat.max a.1 b.1, Nat.max a.2 b.2)
    let t0 := if wide || unpack || pack then (0, 0) else (1, 3)
    let t1 := if wide then mx t0 (2, 5) else t0
    let t2 := if unpack then mx t1 (1, 4) else t1
    if pack then mx t2 (2, 6) else t2

end Sys2Proof.Machine
end

