-- ==== Sys2Proof/Config.lean ====
section
/-! DEFINITION. What the spec leaves open, as constants with no body: free values, the cryptographic functions that the
spec names by standard, figures of an implementation. Nothing can be proved of a value of one of these. -/

namespace Sys2Proof.Config

/-- The free values, by number: a step that needs a value the spec does not give takes the next one. -/
opaque freeValue : Nat → Nat

/-- The clear blob of a model envelope, if every chunk authenticates under the device's keys (R567). -/
opaque openEnvelope : List Byte → Option (List Byte)
/-- Does the signature of a signed key set verify (R565, step 5), and is its signer's key valid (step 4)? -/
opaque signatureValid : List Byte → Bool
opaque signerKeyValid : List Byte → Bool
/-- Is the ephemeral key of an envelope valid for the key agreement (R552, R567)? -/
opaque ephValid : List Byte → Bool
/-- Does a loaded curve record pass check 2 of R557, with bases that are drawn from its digest in a way the spec does not give? -/
opaque curvePrimes : List Word → Bool
/-- Public halves of the four identity keys, ID-S, ID-E, ID-K, ID-Q, and digests that the device holds (R560, R562, R569). -/
opaque identityKey : Nat → List Byte
opaque bootRomDigest : List Byte
opaque firmwareDigest : List Byte
/-- λ of R149 for a sector's tiles, before its bound of 180. -/
opaque lambdaOf : List Nat → Nat
/-- Layout group size, kr_base, kr_depth, kr_width and kr_batch of the built-in programs for a sector's tiles and a
parameter set (R283, Table 12.12). -/
opaque builtinRing : Nat → List Nat → List Nat
/-- Nominal voltage of a rail in mV, and its current limit in units of 10 mA (R514: fixed by the firmware image). -/
opaque railNominal : Nat → Nat
opaque railLimit : Nat → Nat
/-- Firmware version that KPR_STATUS shows (Table 15.14). -/
opaque firmwareVersion : Nat
/-- What the fuses of the package hold (R558, R562): the serial number, whether FK0 is revoked, whether JTAG is locked; and
the security version of the running image. -/
opaque serial : Nat
opaque fk0Revoked : Bool
opaque jtagLocked : Bool
opaque firmwareSvn : Nat

/-- Does content of the system area that an uncorrectable error has hit, and that cannot be rebuilt, fail a job (Table 10.8)?
By draw number and job. -/
opaque systemLost : Nat → Nat → Bool

/-- Where the spec leaves a rounding or an error term of an arithmetic step open, one of two neighbouring values is taken:
by draw number, the numbers that are rounded, and coefficient (R64, R302 to R309). -/
opaque freeBit : Nat → List Nat → Nat → Bool
/-- Declared cost of the one stride of a built-in program (R99): operation code, log N, tiles of the sector. -/
opaque builtinCost : Nat → Nat → List Nat → Nat

/-! The built-in refresh programs (R305 to R309), which the spec gives by their stages and leaves otherwise to the firmware. -/

/-- Baby steps and giant steps of a layer of the homomorphic transform, each as the rotations by ±2^a slots that it composes
(negative, a): log N, to slots or from them, layer. -/
opaque dftBabies : Nat → Bool → Nat → List (List (Bool × Nat))
opaque dftGiants : Nat → Bool → Nat → List (List (Bool × Nat))
/-- Coefficient i of the plaintext diagonal of giant step g and baby step b of a layer, as a scaled integer: log N, to slots or
from them, layer, g, b, what the scaling takes in (the diagonal's scale, then the quantities that the layers normalise by). -/
opaque dftDiag : Nat → Bool → Nat → Nat → Nat → List Nat → Nat → Int
/-- Coefficients of the built-in table (R307) as FP64 words: d_e, K, index. -/
opaque builtinSeries : Nat → Nat → Nat → Nat
/-- The digits of an LWE sample's word, and of a ring element's coefficient, in the decompositions of Table 9.2: modulus,
digits, base bits, word, digit. -/
opaque lweDigit : Nat → Nat → Nat → Nat → Nat → Int
opaque rgswDigit : Nat → Nat → Nat → Nat → Nat → Int
/-- Coefficient i of limb j of polynomial p of the packing of LWE samples into a ciphertext of the CKKS ring (R309, repack):
parameter object, key-set object, samples (a, then b), p, j, i. -/
opaque repack : List (BitVec 8) → List (BitVec 8) → List (List Nat) → Nat → Nat → Nat → Nat

end Sys2Proof.Config
end

