-- ==== Sys2Proof/Machine/RegMap.lean ====
section
/-! DEFINITION. The register map: every register of the spec with its offset, fields, access types and reset values
(Tables 2.12 to 17.16), block by block, and the two places where a register address is taken apart. A reset value that
the spec calls "start", "boot" or "fuse" is 0 here and written by the start (log entry 12). -/

namespace Sys2Proof.Machine

/-- Access types of Table 0.3. -/
inductive Acc where
  | rw | ro | wo | w1c | w1s | rc
  deriving DecidableEq, Repr

/-- One field: bits [hi:lo], access, reset value. -/
structure Fld where
  hi : Nat
  lo : Nat
  acc : Acc
  reset : Nat
  deriving DecidableEq, Repr

/-- Half of a pair that a register is (R20). -/
inductive PairHalf where
  | no | lo | hi
  deriving DecidableEq, Repr

/-- A register, or a row of count registers stride bytes apart. -/
structure RegDef where
  off : Nat
  stride : Nat
  count : Nat
  name : String
  pair : PairHalf
  flds : List Fld
  deriving DecidableEq, Repr

/-- Host-interface block of a function (Tables 12.13 to 12.17). -/
def fnHifRegs : List RegDef := [
  ⟨0x0, 0, 1, "HIF_FN_CTRL", .no, [⟨8, 8, .ro, 0x0⟩, ⟨0, 0, .rw, 0x0⟩]⟩,
  ⟨0x4, 0, 1, "HIF_ERR_STATUS", .no, [⟨4, 4, .ro, 0x0⟩, ⟨3, 3, .w1c, 0x0⟩, ⟨2, 2, .ro, 0x0⟩, ⟨1, 1, .w1c, 0x0⟩, ⟨0, 0, .w1c, 0x0⟩]⟩,
  ⟨0x8, 0, 1, "HIF_FN_BELL_LO", .lo, [⟨31, 6, .rw, 0x0⟩]⟩,
  ⟨0xc, 0, 1, "HIF_FN_BELL_HI", .hi, [⟨31, 0, .rw, 0x0⟩]⟩,
  ⟨0x10, 0, 1, "HIF_FN_POLL", .no, [⟨31, 31, .rw, 0x0⟩, ⟨9, 0, .rw, 0xa⟩]⟩,
  ⟨0x14, 0, 1, "HIF_FN_EVQ_LO", .lo, [⟨31, 12, .rw, 0x0⟩]⟩,
  ⟨0x18, 0, 1, "HIF_FN_EVQ_HI", .hi, [⟨31, 0, .rw, 0x0⟩]⟩,
  ⟨0x1c, 0, 1, "HIF_FN_EVQ_CFG", .no, [⟨24, 24, .rw, 0x0⟩, ⟨21, 16, .rw, 0x0⟩, ⟨8, 8, .rw, 0x0⟩, ⟨3, 0, .rw, 0x4⟩]⟩,
  ⟨0x20, 0, 1, "HIF_FN_SLICE", .no, [⟨31, 31, .rw, 0x0⟩, ⟨30, 30, .rw, 0x0⟩, ⟨19, 0, .rw, 0x2710⟩]⟩,
  ⟨0x24, 0, 1, "HIF_FN_RESET", .no, [⟨0, 0, .wo, 0x0⟩]⟩,
  ⟨0x28, 0, 1, "HIF_FN_INPUT", .no, [⟨13, 0, .rw, 0x64⟩]⟩,
  ⟨0x2c, 0, 1, "HIF_FN_LAST_RESET", .no, [⟨31, 16, .ro, 0x0⟩, ⟨1, 0, .ro, 0x0⟩]⟩,
  ⟨0x40, 0, 1, "CNT_HIF_DESC", .no, [⟨31, 0, .rc, 0x0⟩]⟩,
  ⟨0x44, 0, 1, "CNT_HIF_TRUNCATED", .no, [⟨31, 0, .rc, 0x0⟩]⟩,
  ⟨0x48, 0, 1, "CNT_HIF_ORPHAN", .no, [⟨31, 0, .rc, 0x0⟩]⟩,
  ⟨0x4c, 0, 1, "CNT_HIF_EVENT_LOST", .no, [⟨31, 0, .rc, 0x0⟩]⟩,
  ⟨0x50, 0, 1, "CNT_HIF_SUSPEND", .no, [⟨31, 0, .rc, 0x0⟩]⟩,
  ⟨0x54, 0, 1, "CNT_HIF_BAR2_FAULT", .no, [⟨31, 0, .rc, 0x0⟩]⟩]

/-- Job-ring block (Table 12.16), ring 16 being the admin ring. -/
def fnRingRegs : List RegDef := [
  ⟨0x1000, 32, 17, "JOB_RINGn_BASE_LO", .lo, [⟨31, 12, .rw, 0x0⟩]⟩,
  ⟨0x1004, 32, 17, "JOB_RINGn_BASE_HI", .hi, [⟨31, 0, .rw, 0x0⟩]⟩,
  ⟨0x1008, 32, 17, "JOB_RINGn_CPL_LO", .lo, [⟨31, 12, .rw, 0x0⟩]⟩,
  ⟨0x100c, 32, 17, "JOB_RINGn_CPL_HI", .hi, [⟨31, 0, .rw, 0x0⟩]⟩,
  ⟨0x1010, 32, 17, "JOB_RINGn_CFG", .no, [⟨25, 24, .rw, 0x0⟩, ⟨21, 16, .rw, 0x0⟩, ⟨8, 8, .rw, 0x0⟩, ⟨3, 0, .rw, 0x4⟩]⟩,
  ⟨0x1014, 32, 17, "JOB_RINGn_STATUS", .no, [⟨31, 16, .ro, 0x0⟩, ⟨0, 0, .ro, 0x0⟩]⟩,
  ⟨0x1018, 32, 17, "JOB_RINGn_DONE", .no, [⟨15, 0, .ro, 0x0⟩]⟩]

/-- Object-policy block (Tables 2.12 to 2.16). -/
def fnPolicyRegs : List RegDef := [
  ⟨0x2000, 4, 1, "JOB_OBJ_POLICY", .no, [⟨5, 5, .w1s, 0x0⟩, ⟨4, 4, .w1s, 0x0⟩, ⟨3, 3, .rw, 0x0⟩, ⟨2, 2, .rw, 0x0⟩, ⟨1, 1, .rw, 0x0⟩, ⟨0, 0, .rw, 0x0⟩]⟩,
  ⟨0x2004, 4, 1, "JOB_PARAM_STATUS", .no, [⟨31, 16, .ro, 0x0⟩, ⟨15, 0, .ro, 0x0⟩]⟩,
  ⟨0x2008, 4, 1, "JOB_KEYSET_LOADED_LO", .lo, [⟨31, 0, .ro, 0x0⟩]⟩,
  ⟨0x200c, 4, 1, "JOB_KEYSET_LOADED_HI", .hi, [⟨31, 0, .ro, 0x0⟩]⟩,
  ⟨0x2010, 4, 8, "JOB_PARAM_GENn", .no, [⟨31, 16, .ro, 0x0⟩, ⟨15, 0, .ro, 0x0⟩]⟩,
  ⟨0x2030, 4, 1, "CNT_LEVEL_EXHAUSTED", .no, [⟨31, 0, .rc, 0x0⟩]⟩,
  ⟨0x2034, 4, 1, "CNT_NOISE_EXHAUSTED", .no, [⟨31, 0, .rc, 0x0⟩]⟩,
  ⟨0x2038, 4, 1, "CNT_AUTO_REFRESH", .no, [⟨31, 0, .rc, 0x0⟩]⟩,
  ⟨0x203c, 4, 1, "CNT_PARAM_REJECT", .no, [⟨31, 0, .rc, 0x0⟩]⟩,
  ⟨0x2040, 4, 1, "CNT_HEADER_INVALID", .no, [⟨31, 0, .rc, 0x0⟩]⟩,
  ⟨0x2044, 4, 1, "CNT_BELOW_FLOOR", .no, [⟨31, 0, .rc, 0x0⟩]⟩]

/-- Plaintext Encoder block (Tables 5.12 to 5.15). -/
def fnPenRegs : List RegDef := [
  ⟨0x2100, 0, 1, "PEN_FN_CTRL", .no, [⟨6, 4, .rw, 0x0⟩, ⟨1, 0, .rw, 0x0⟩]⟩,
  ⟨0x2104, 0, 1, "PEN_FN_FLAGS", .no, [⟨3, 3, .w1c, 0x0⟩, ⟨2, 2, .w1c, 0x0⟩, ⟨1, 1, .w1c, 0x0⟩, ⟨0, 0, .w1c, 0x0⟩]⟩,
  ⟨0x2108, 0, 1, "CNT_BLOCK_UNDERFLOW", .no, [⟨31, 0, .rc, 0x0⟩]⟩,
  ⟨0x210c, 0, 1, "CNT_PEN_ENCODES", .no, [⟨31, 0, .rc, 0x0⟩]⟩,
  ⟨0x2110, 0, 1, "CNT_PEN_SATURATE", .no, [⟨31, 0, .rc, 0x0⟩]⟩,
  ⟨0x2114, 0, 1, "CNT_PEN_WAIT", .no, [⟨31, 0, .rc, 0x0⟩]⟩]

/-- Weight block (Tables 6.6 to 6.8). -/
def fnWeightRegs : List RegDef := [
  ⟨0x2200, 0, 1, "TB_FN_MODEL_STATUS", .no, [⟨23, 16, .ro, 0x0⟩, ⟨15, 8, .ro, 0x0⟩, ⟨7, 0, .ro, 0x0⟩]⟩,
  ⟨0x2204, 0, 1, "CNT_WEIGHT_LATE", .no, [⟨31, 0, .rc, 0x0⟩]⟩,
  ⟨0x2208, 0, 1, "CNT_DENSE_OVERRUN", .no, [⟨31, 0, .rc, 0x0⟩]⟩,
  ⟨0x220c, 0, 1, "CNT_WEIGHT_RELOAD", .no, [⟨31, 0, .rc, 0x0⟩]⟩,
  ⟨0x2210, 0, 1, "CNT_SWAP_IN", .no, [⟨31, 0, .rc, 0x0⟩]⟩]

/-- KSE block (Tables 8.9 to 8.12). -/
def fnKseRegs : List RegDef := [
  ⟨0x2300, 0, 1, "KSE_FN_CTRL", .no, [⟨25, 16, .rw, 0x0⟩, ⟨8, 4, .rw, 0x10⟩, ⟨1, 0, .rw, 0x0⟩]⟩,
  ⟨0x2304, 0, 1, "KSE_FN_HBM_USED", .no, [⟨31, 0, .ro, 0x0⟩]⟩,
  ⟨0x2308, 0, 1, "KSE_FN_POISONED_LO", .lo, [⟨31, 0, .ro, 0x0⟩]⟩,
  ⟨0x230c, 0, 1, "KSE_FN_POISONED_HI", .hi, [⟨31, 0, .ro, 0x0⟩]⟩,
  ⟨0x2310, 0, 1, "CNT_KSE_PASSES", .no, [⟨31, 0, .rc, 0x0⟩]⟩,
  ⟨0x2314, 0, 1, "CNT_KSE_CIPHERTEXTS", .no, [⟨31, 0, .rc, 0x0⟩]⟩,
  ⟨0x2318, 0, 1, "CNT_KSE_BYTES_LO", .lo, [⟨31, 0, .ro, 0x0⟩]⟩,
  ⟨0x231c, 0, 1, "CNT_KSE_BYTES_HI", .hi, [⟨31, 0, .ro, 0x0⟩]⟩,
  ⟨0x2320, 0, 1, "CNT_KSE_CREDIT_WAIT", .no, [⟨31, 0, .rc, 0x0⟩]⟩,
  ⟨0x2324, 0, 1, "CNT_KSE_QUEUE_WAIT", .no, [⟨31, 0, .rc, 0x0⟩]⟩,
  ⟨0x2328, 0, 1, "CNT_KEY_MISSING", .no, [⟨31, 0, .rc, 0x0⟩]⟩,
  ⟨0x232c, 0, 1, "CNT_KEY_POISONED", .no, [⟨31, 0, .rc, 0x0⟩]⟩,
  ⟨0x2330, 0, 1, "CNT_KSE_ABANDONED", .no, [⟨31, 0, .rc, 0x0⟩]⟩,
  ⟨0x2334, 0, 1, "CNT_KEY_REPAIR", .no, [⟨31, 0, .rc, 0x0⟩]⟩]

/-- Refresh block (Tables 9.6 to 9.8). -/
def fnRefreshRegs : List RegDef := [
  ⟨0x2400, 0, 1, "JOB_TABLE_STATUS", .no, [⟨15, 8, .ro, 0x0⟩, ⟨7, 0, .ro, 0x0⟩]⟩,
  ⟨0x2404, 0, 1, "CNT_FULL_REFRESH", .no, [⟨31, 0, .rc, 0x0⟩]⟩,
  ⟨0x2408, 0, 1, "CNT_LOOKUP_REFRESH", .no, [⟨31, 0, .rc, 0x0⟩]⟩,
  ⟨0x240c, 0, 1, "CNT_LOOKUP_VALUES", .no, [⟨31, 0, .rc, 0x0⟩]⟩,
  ⟨0x2410, 0, 1, "CNT_REFRESH_INSERTED", .no, [⟨31, 0, .rc, 0x0⟩]⟩,
  ⟨0x2414, 0, 1, "CNT_TABLE_MISSING", .no, [⟨31, 0, .rc, 0x0⟩]⟩]

/-- Function memory block (Table 10.18). -/
def fnMemRegs : List RegDef := [
  ⟨0x2500, 0, 1, "MEM_FN_QUOTA", .no, [⟨31, 0, .ro, 0xffffffff⟩]⟩,
  ⟨0x2504, 0, 1, "MEM_FN_USED", .no, [⟨31, 0, .ro, 0x0⟩]⟩,
  ⟨0x2508, 0, 1, "MEM_FN_BUFFERS", .no, [⟨15, 0, .ro, 0x0⟩]⟩,
  ⟨0x250c, 0, 1, "CNT_STALE_HANDLE", .no, [⟨31, 0, .rc, 0x0⟩]⟩,
  ⟨0x2510, 0, 1, "CNT_NOT_OWNER", .no, [⟨31, 0, .rc, 0x0⟩]⟩,
  ⟨0x2514, 0, 1, "CNT_POISON_EVENT", .no, [⟨31, 0, .rc, 0x0⟩]⟩]

/-- MEM block (Tables 10.12 to 10.17). -/
def devMemRegs : List RegDef := [
  ⟨0x0, 4, 1, "MEM_HBM0_SIZE", .no, [⟨31, 0, .ro, 0x0⟩]⟩,
  ⟨0x4, 4, 1, "MEM_HBM1_SIZE", .no, [⟨31, 0, .ro, 0x0⟩]⟩,
  ⟨0x8, 4, 1, "MEM_GDDR_SIZE", .no, [⟨31, 0, .ro, 0x0⟩]⟩,
  ⟨0xc, 4, 1, "MEM_GDDR_ALLOC", .no, [⟨31, 0, .ro, 0x0⟩]⟩,
  ⟨0x10, 4, 1, "MEM_GDDR_DEV", .no, [⟨31, 16, .ro, 0x0⟩, ⟨15, 0, .ro, 0x0⟩]⟩,
  ⟨0x14, 4, 1, "MEM_SCRUB_CTRL", .no, [⟨31, 31, .rw, 0x1⟩, ⟨30, 30, .rw, 0x1⟩, ⟨29, 29, .rw, 0x1⟩, ⟨7, 0, .rw, 0x10⟩]⟩,
  ⟨0x18, 4, 1, "MEM_POISON_STATUS", .no, [⟨31, 31, .w1c, 0x0⟩, ⟨29, 16, .ro, 0x0⟩, ⟨15, 15, .w1c, 0x0⟩, ⟨13, 0, .ro, 0x0⟩]⟩,
  ⟨0x20, 4, 8, "MEM_HBM_PC_ENABLEDs", .no, [⟨31, 0, .ro, 0x0⟩]⟩,
  ⟨0x40, 4, 8, "MEM_HBM_PC_PENDINGs", .no, [⟨31, 0, .ro, 0x0⟩]⟩,
  ⟨0x60, 4, 1, "CNT_MEM_CE", .no, [⟨31, 0, .rc, 0x0⟩]⟩,
  ⟨0x64, 4, 1, "CNT_MEM_UE", .no, [⟨31, 0, .rc, 0x0⟩]⟩,
  ⟨0x68, 4, 1, "CNT_MEM_SCRUB_UE", .no, [⟨31, 0, .rc, 0x0⟩]⟩,
  ⟨0x6c, 4, 1, "CNT_MEM_REMAP", .no, [⟨31, 0, .rc, 0x0⟩]⟩,
  ⟨0x70, 4, 1, "CNT_MEM_TIMEOUT", .no, [⟨31, 0, .rc, 0x0⟩]⟩,
  ⟨0x74, 4, 1, "CNT_MEM_SHORT", .no, [⟨31, 0, .rc, 0x0⟩]⟩]

/-- FAB block (Tables 13.15 to 13.17). -/
def devFabRegs : List RegDef := [
  ⟨0x0, 4, 1, "FAB_DEV_ID", .no, [⟨19, 0, .rw, 0xfffff⟩]⟩,
  ⟨0x4, 4, 1, "FAB_ROUTE_DIMS", .no, [⟨29, 24, .rw, 0x1f⟩, ⟨15, 12, .rw, 0x0⟩, ⟨11, 8, .rw, 0x0⟩, ⟨7, 4, .rw, 0x0⟩, ⟨3, 0, .rw, 0x0⟩]⟩,
  ⟨0x8, 4, 1, "FAB_ROUTE_IDX", .no, [⟨13, 12, .rw, 0x0⟩, ⟨11, 0, .rw, 0x0⟩]⟩,
  ⟨0xc, 4, 1, "FAB_ROUTE_DATA", .no, [⟨15, 0, .rw, 0x0⟩]⟩,
  ⟨0x10, 4, 1, "FAB_ROLE_IDX", .no, [⟨11, 0, .rw, 0x0⟩]⟩,
  ⟨0x14, 4, 4, "FAB_ROLE_Ww", .no, [⟨31, 0, .rw, 0x0⟩]⟩,
  ⟨0x24, 4, 1, "FAB_ROLE_CMD", .no, [⟨1, 1, .wo, 0x0⟩, ⟨0, 0, .wo, 0x0⟩]⟩,
  ⟨0x28, 4, 1, "FAB_ROLE_STATUS", .no, [⟨31, 16, .ro, 0x0⟩, ⟨0, 0, .ro, 0x0⟩]⟩,
  ⟨0x2c, 4, 1, "FAB_XPORT_CFG0", .no, [⟨31, 16, .rw, 0x2710⟩, ⟨15, 0, .rw, 0x3e8⟩]⟩,
  ⟨0x30, 4, 1, "FAB_XPORT_CFG1", .no, [⟨31, 16, .rw, 0x100⟩, ⟨15, 0, .rw, 0x64⟩]⟩,
  ⟨0x34, 4, 1, "FAB_PAIR_CTRL", .no, [⟨31, 31, .rw, 0x0⟩, ⟨30, 30, .rw, 0x0⟩, ⟨28, 24, .rw, 0x1f⟩, ⟨20, 16, .rw, 0x1e⟩, ⟨2, 2, .wo, 0x0⟩, ⟨1, 1, .wo, 0x0⟩, ⟨0, 0, .wo, 0x0⟩]⟩,
  ⟨0x38, 4, 1, "FAB_PAIR_CFG", .no, [⟨19, 0, .rw, 0xfffff⟩]⟩,
  ⟨0x3c, 4, 1, "FAB_PAIR_TIMING", .no, [⟨25, 16, .rw, 0x64⟩, ⟨9, 0, .rw, 0x32⟩]⟩,
  ⟨0x40, 4, 1, "FAB_PAIR_STATUS", .no, [⟨31, 16, .ro, 0x0⟩, ⟨2, 0, .ro, 0x0⟩]⟩,
  ⟨0x100, 8, 32, "FAB_PORTp_CTRL", .no, [⟨1, 1, .rw, 0x0⟩, ⟨0, 0, .rw, 0x0⟩]⟩,
  ⟨0x104, 8, 32, "FAB_PORTp_STATUS", .no, [⟨7, 4, .ro, 0x0⟩, ⟨1, 0, .ro, 0x0⟩]⟩,
  ⟨0x200, 4, 1, "CNT_FAB_CRC", .no, [⟨31, 0, .rc, 0x0⟩]⟩,
  ⟨0x204, 4, 1, "CNT_FAB_REPLAY", .no, [⟨31, 0, .rc, 0x0⟩]⟩,
  ⟨0x208, 4, 1, "CNT_FAB_RETRAIN", .no, [⟨31, 0, .rc, 0x0⟩]⟩,
  ⟨0x20c, 4, 1, "CNT_FAB_LINK_DOWN", .no, [⟨31, 0, .rc, 0x0⟩]⟩,
  ⟨0x210, 4, 1, "CNT_FAB_DROP_ROUTE", .no, [⟨31, 0, .rc, 0x0⟩]⟩,
  ⟨0x214, 4, 1, "CNT_FAB_STALE_ROLE", .no, [⟨31, 0, .rc, 0x0⟩]⟩,
  ⟨0x218, 4, 1, "CNT_FAB_REJECT", .no, [⟨31, 0, .rc, 0x0⟩]⟩,
  ⟨0x21c, 4, 1, "CNT_FAB_ORPHAN", .no, [⟨31, 0, .rc, 0x0⟩]⟩,
  ⟨0x220, 4, 1, "CNT_FAB_TRUNCATED", .no, [⟨31, 0, .rc, 0x0⟩]⟩,
  ⟨0x224, 4, 1, "CNT_FAB_MSG_SENT", .no, [⟨31, 0, .rc, 0x0⟩]⟩,
  ⟨0x228, 4, 1, "CNT_FAB_MSG_RECV", .no, [⟨31, 0, .rc, 0x0⟩]⟩,
  ⟨0x22c, 4, 1, "CNT_FAB_PAIR_MISMATCH", .no, [⟨31, 0, .rc, 0x0⟩]⟩]

/-- FT block (Tables 14.12 and 14.13). -/
def devFtRegs : List RegDef := [
  ⟨0x0, 0, 1, "FT_CTRL", .no, [⟨17, 17, .rw, 0x1⟩, ⟨16, 16, .rw, 0x1⟩, ⟨12, 8, .rw, 0x0⟩, ⟨1, 0, .rw, 0x2⟩]⟩,
  ⟨0x4, 0, 1, "FT_STATUS", .no, [⟨5, 5, .ro, 0x0⟩, ⟨4, 4, .w1c, 0x0⟩, ⟨3, 3, .w1c, 0x0⟩, ⟨2, 2, .w1c, 0x0⟩, ⟨1, 1, .ro, 0x0⟩, ⟨0, 0, .w1c, 0x0⟩]⟩,
  ⟨0x8, 0, 1, "FT_NOW_LO", .lo, [⟨31, 0, .ro, 0x0⟩]⟩,
  ⟨0xc, 0, 1, "FT_NOW_HI", .hi, [⟨31, 0, .ro, 0x0⟩]⟩,
  ⟨0x10, 0, 1, "FT_SET_LO", .lo, [⟨31, 0, .rw, 0x0⟩]⟩,
  ⟨0x14, 0, 1, "FT_SET_HI", .hi, [⟨31, 0, .rw, 0x0⟩]⟩,
  ⟨0x18, 0, 1, "FT_LOCAL", .no, [⟨16, 0, .rw, 0x64⟩]⟩,
  ⟨0x1c, 0, 1, "FT_WATCHDOG", .no, [⟨15, 0, .rw, 0x7d0⟩]⟩,
  ⟨0x20, 0, 1, "FT_LAST_INTERVAL", .no, [⟨19, 0, .ro, 0x0⟩]⟩,
  ⟨0x24, 0, 1, "FT_TICK_FWD", .no, [⟨31, 0, .rw, 0x0⟩]⟩,
  ⟨0x28, 0, 1, "FT_SCHED_IDX", .no, [⟨5, 0, .rw, 0x0⟩]⟩,
  ⟨0x2c, 0, 1, "FT_SCHED_INFO", .no, [⟨31, 31, .ro, 0x0⟩, ⟨29, 24, .ro, 0x0⟩, ⟨23, 16, .ro, 0x0⟩, ⟨8, 8, .ro, 0x0⟩]⟩,
  ⟨0x30, 0, 1, "FT_SCHED_T_LO", .lo, [⟨31, 0, .ro, 0x0⟩]⟩,
  ⟨0x34, 0, 1, "FT_SCHED_T_HI", .hi, [⟨31, 0, .ro, 0x0⟩]⟩,
  ⟨0x40, 0, 1, "CNT_FT_GLITCH", .no, [⟨31, 0, .rc, 0x0⟩]⟩,
  ⟨0x44, 0, 1, "CNT_FT_STALE", .no, [⟨31, 0, .rc, 0x0⟩]⟩,
  ⟨0x48, 0, 1, "CNT_FT_JUMP", .no, [⟨31, 0, .rc, 0x0⟩]⟩,
  ⟨0x4c, 0, 1, "CNT_FT_LATE", .no, [⟨31, 0, .rc, 0x0⟩]⟩,
  ⟨0x50, 0, 1, "CNT_FT_DROPPED", .no, [⟨31, 0, .rc, 0x0⟩]⟩,
  ⟨0x54, 0, 1, "CNT_FT_FALLBACK", .no, [⟨31, 0, .rc, 0x0⟩]⟩]

/-- PWR block (Tables 14.14 and 14.15). -/
def devPwrRegs : List RegDef := [
  ⟨0x0, 4, 1, "PWR_CTRL", .no, [⟨6, 4, .rw, 0x3⟩, ⟨0, 0, .rw, 0x0⟩]⟩,
  ⟨0x4, 4, 1, "PWR_RAMP", .no, [⟨31, 16, .ro, 0x0⟩, ⟨9, 0, .ro, 0x12c⟩]⟩,
  ⟨0x40, 4, 12, "PWR_DIEd_LIMIT", .no, [⟨15, 8, .rw, 0x8⟩, ⟨7, 0, .rw, 0x5a⟩]⟩,
  ⟨0x80, 4, 12, "PWR_DIEd_CREDIT", .no, [⟨31, 0, .ro, 0x0⟩]⟩,
  ⟨0xc0, 4, 12, "PWR_DIEd_STATUS", .no, [⟨31, 16, .ro, 0x0⟩, ⟨2, 0, .ro, 0x0⟩]⟩,
  ⟨0x100, 4, 64, "PWR_SECTORs", .no, [⟨31, 16, .rw, 0x3e8⟩, ⟨14, 12, .rw, 0x2⟩, ⟨10, 8, .rw, 0x0⟩]⟩,
  ⟨0x200, 4, 51, "PWR_TILE_PACEn", .no, [⟨30, 28, .ro, 0x0⟩, ⟨26, 24, .ro, 0x0⟩, ⟨22, 20, .ro, 0x0⟩, ⟨18, 16, .ro, 0x0⟩, ⟨14, 12, .ro, 0x0⟩, ⟨10, 8, .ro, 0x0⟩, ⟨6, 4, .ro, 0x0⟩, ⟨2, 0, .ro, 0x0⟩]⟩,
  ⟨0x300, 4, 1, "CNT_PWR_WAIT", .no, [⟨31, 0, .rc, 0x0⟩]⟩,
  ⟨0x304, 4, 1, "CNT_PWR_OVERCAP", .no, [⟨31, 0, .rc, 0x0⟩]⟩,
  ⟨0x308, 4, 1, "CNT_PWR_CEILING", .no, [⟨31, 0, .rc, 0x0⟩]⟩]

/-- CLK block (Table 14.16). -/
def devClkRegs : List RegDef := [
  ⟨0x0, 0, 1, "CLK_STATUS", .no, [⟨16, 16, .ro, 0x0⟩, ⟨13, 0, .ro, 0x0⟩]⟩,
  ⟨0x4, 0, 1, "CLK_GATE", .no, [⟨0, 0, .rw, 0x0⟩]⟩,
  ⟨0x8, 0, 1, "CNT_CLK_UNLOCK", .no, [⟨31, 0, .rc, 0x0⟩]⟩]

/-- CNT block (Table 14.16). -/
def devCntRegs : List RegDef := [
  ⟨0x0, 0, 1, "CNT_CAP_STATUS", .no, [⟨1, 0, .ro, 0x0⟩]⟩,
  ⟨0x4, 0, 1, "CNT_CAP_TIME_LO", .lo, [⟨31, 0, .ro, 0x0⟩]⟩,
  ⟨0x8, 0, 1, "CNT_CAP_TIME_HI", .hi, [⟨31, 0, .ro, 0x0⟩]⟩,
  ⟨0xc, 0, 1, "CNT_CAP_BUSY", .no, [⟨31, 0, .rc, 0x0⟩]⟩]

/-- KPR block (Tables 15.13 to 15.15). -/
def devKprRegs : List RegDef := [
  ⟨0x0, 4, 1, "KPR_STATUS", .no, [⟨31, 16, .ro, 0x0⟩, ⟨9, 8, .ro, 0x0⟩, ⟨4, 4, .ro, 0x0⟩, ⟨2, 0, .ro, 0x0⟩]⟩,
  ⟨0x4, 4, 1, "KPR_SHUT_CAUSE", .no, [⟨15, 8, .ro, 0x0⟩, ⟨7, 0, .ro, 0x0⟩]⟩,
  ⟨0x8, 4, 1, "KPR_SENSOR_IDX", .no, [⟨7, 0, .rw, 0x0⟩]⟩,
  ⟨0xc, 4, 1, "KPR_SENSOR_DATA", .no, [⟨31, 16, .ro, 0x0⟩, ⟨15, 0, .ro, 0x0⟩]⟩,
  ⟨0x10, 4, 1, "KPR_FILTER", .no, [⟨7, 4, .rw, 0x2⟩, ⟨3, 0, .rw, 0x4⟩]⟩,
  ⟨0x14, 4, 1, "KPR_INPUT", .no, [⟨15, 0, .rw, 0x5aa⟩]⟩,
  ⟨0x18, 4, 1, "KPR_SB_CFG", .no, [⟨22, 16, .ro, 0x4c⟩]⟩,
  ⟨0x20, 4, 1, "KPR_LIMIT0", .no, [⟨23, 16, .rw, 115⟩, ⟨15, 8, .rw, 105⟩, ⟨7, 0, .rw, 95⟩]⟩,
  ⟨0x24, 4, 1, "KPR_LIMIT1", .no, [⟨23, 16, .rw, 115⟩, ⟨15, 8, .rw, 105⟩, ⟨7, 0, .rw, 95⟩]⟩,
  ⟨0x28, 4, 1, "KPR_LIMIT2", .no, [⟨23, 16, .rw, 105⟩, ⟨15, 8, .rw, 95⟩, ⟨7, 0, .rw, 85⟩]⟩,
  ⟨0x2c, 4, 1, "KPR_LIMIT3", .no, [⟨23, 16, .rw, 50⟩, ⟨15, 8, .rw, 45⟩, ⟨7, 0, .rw, 40⟩]⟩,
  ⟨0x30, 4, 1, "KPR_LIMIT4", .no, [⟨23, 16, .rw, 70⟩, ⟨15, 8, .rw, 65⟩, ⟨7, 0, .rw, 60⟩]⟩,
  ⟨0x34, 4, 1, "KPR_LIMIT5", .no, [⟨23, 16, .rw, 125⟩, ⟨15, 8, .rw, 110⟩, ⟨7, 0, .rw, 100⟩]⟩,
  ⟨0x38, 4, 1, "KPR_LIMIT6", .no, [⟨23, 16, .rw, 110⟩, ⟨15, 8, .rw, 100⟩, ⟨7, 0, .rw, 90⟩]⟩,
  ⟨0x40, 4, 12, "KPR_SB_CAPd", .no, [⟨10, 8, .ro, 0x0⟩, ⟨7, 0, .ro, 0xff⟩]⟩,
  ⟨0x80, 4, 1, "KPR_OP_SECONDS", .no, [⟨31, 0, .ro, 0x0⟩]⟩,
  ⟨0x84, 4, 1, "KPR_POWER_CYCLES", .no, [⟨31, 0, .ro, 0x0⟩]⟩,
  ⟨0x100, 4, 1, "CNT_KPR_ALERT", .no, [⟨31, 0, .rc, 0x0⟩]⟩,
  ⟨0x104, 4, 1, "CNT_KPR_SB_DENIED", .no, [⟨31, 0, .rc, 0x0⟩]⟩,
  ⟨0x108, 4, 1, "CNT_KPR_SB_PEC", .no, [⟨31, 0, .rc, 0x0⟩]⟩,
  ⟨0x10c, 4, 1, "CNT_KPR_HOLD", .no, [⟨31, 0, .rc, 0x0⟩]⟩]

/-- DAY block (Table 15.16). -/
def devDayRegs : List RegDef := [
  ⟨0x0, 4, 1, "DAY_CTRL", .no, [⟨15, 0, .rw, 0x1e⟩]⟩,
  ⟨0x4, 4, 1, "DAY_STATUS", .no, [⟨31, 24, .ro, 0x0⟩, ⟨2, 2, .ro, 0x0⟩, ⟨1, 1, .ro, 0x0⟩, ⟨0, 0, .ro, 0x0⟩]⟩,
  ⟨0x8, 4, 1, "DAY_OLDEST", .no, [⟨31, 0, .ro, 0x0⟩]⟩,
  ⟨0xc, 4, 1, "DAY_NEWEST", .no, [⟨31, 0, .ro, 0x0⟩]⟩,
  ⟨0x10, 4, 1, "DAY_CURSOR", .no, [⟨31, 0, .rw, 0x0⟩]⟩,
  ⟨0x14, 4, 1, "DAY_CMD", .no, [⟨5, 5, .wo, 0x0⟩, ⟨4, 4, .wo, 0x0⟩, ⟨3, 3, .wo, 0x0⟩, ⟨2, 2, .wo, 0x0⟩, ⟨1, 1, .wo, 0x0⟩, ⟨0, 0, .wo, 0x0⟩]⟩,
  ⟨0x18, 4, 1, "DAY_WSTATUS", .no, [⟨1, 0, .ro, 0x0⟩]⟩,
  ⟨0x40, 4, 16, "DAY_WINDOWw", .no, [⟨31, 0, .ro, 0x0⟩]⟩,
  ⟨0x80, 4, 4, "DAY_LASTGASPn", .no, [⟨31, 0, .ro, 0x0⟩]⟩,
  ⟨0x90, 4, 1, "DAY_LASTGASP_OVF", .no, [⟨15, 0, .ro, 0x0⟩]⟩,
  ⟨0xa0, 4, 1, "CNT_DAY_FROZEN", .no, [⟨31, 0, .rc, 0x0⟩]⟩,
  ⟨0xa4, 4, 1, "CNT_DAY_LOST", .no, [⟨31, 0, .rc, 0x0⟩]⟩]

/-- An Event Interrupt Controller, less its source configuration (Table 15.17). -/
def eicRestRegs : List RegDef := [
  ⟨0x800, 4, 16, "EIC_PENDINGw", .no, [⟨31, 0, .ro, 0x0⟩]⟩,
  ⟨0x840, 4, 1, "EIC_SWSET", .no, [⟨8, 0, .wo, 0x0⟩]⟩,
  ⟨0x844, 4, 1, "EIC_LOCK", .no, [⟨0, 0, .w1s, 0x0⟩]⟩,
  ⟨0x900, 64, 4, "EIC_CLAIMt", .no, [⟨8, 0, .rc, 0x0⟩]⟩,
  ⟨0x904, 64, 4, "EIC_COMPLETEt", .no, [⟨8, 0, .wo, 0x0⟩]⟩,
  ⟨0x908, 64, 4, "EIC_STACKt", .no, [⟨20, 16, .ro, 0x0⟩, ⟨12, 9, .ro, 0x0⟩, ⟨8, 0, .ro, 0x0⟩]⟩,
  ⟨0x90c, 64, 4, "EIC_FAULTt", .no, [⟨24, 16, .ro, 0x0⟩, ⟨8, 0, .ro, 0x0⟩]⟩,
  ⟨0x910, 64, 4, "CNT_EIC_FAULTt", .no, [⟨31, 0, .rc, 0x0⟩]⟩,
  ⟨0xa00, 4, 1, "EIC_SUMMARY", .no, [⟨13, 0, .ro, 0x0⟩]⟩]

/-- PKE block (Table 16.12). -/
def devPkeRegs : List RegDef := [
  ⟨0x0, 4, 1, "PKE_STATUS", .no, [⟨31, 31, .ro, 0x0⟩, ⟨22, 16, .ro, 0x0⟩, ⟨11, 8, .ro, 0x0⟩, ⟨0, 0, .ro, 0x0⟩]⟩,
  ⟨0x4, 4, 1, "PKE_CURVE_IDX", .no, [⟨2, 0, .rw, 0x0⟩]⟩,
  ⟨0x8, 4, 1, "PKE_CURVE_CMD", .no, [⟨2, 2, .wo, 0x0⟩, ⟨1, 1, .wo, 0x0⟩, ⟨0, 0, .wo, 0x0⟩]⟩,
  ⟨0xc, 4, 1, "PKE_CURVE_STATUS", .no, [⟨31, 24, .ro, 0xf⟩, ⟨16, 16, .ro, 0x0⟩, ⟨15, 0, .ro, 0x0⟩]⟩,
  ⟨0x100, 4, 128, "PKE_CURVE_DATAw", .no, [⟨31, 0, .rw, 0x0⟩]⟩,
  ⟨0x300, 4, 1, "CNT_PKE_JOBS", .no, [⟨31, 0, .rc, 0x0⟩]⟩,
  ⟨0x304, 4, 1, "CNT_PKE_REJECT", .no, [⟨31, 0, .rc, 0x0⟩]⟩,
  ⟨0x308, 4, 1, "CNT_PKE_YIELD", .no, [⟨31, 0, .rc, 0x0⟩]⟩,
  ⟨0x30c, 4, 1, "CNT_PKE_SELF_FAIL", .no, [⟨31, 0, .rc, 0x0⟩]⟩,
  ⟨0x310, 4, 1, "CNT_PKE_DSA_EXTEND", .no, [⟨31, 0, .rc, 0x0⟩]⟩,
  ⟨0x314, 4, 1, "CNT_PKE_QUEUE_WAIT", .no, [⟨31, 0, .rc, 0x0⟩]⟩]

/-- SEC block (Table 16.12). -/
def devSecRegs : List RegDef := [
  ⟨0x0, 4, 1, "SEC_STATUS", .no, [⟨31, 16, .ro, 0x0⟩, ⟨3, 3, .ro, 0x0⟩, ⟨2, 2, .ro, 0x0⟩, ⟨1, 1, .ro, 0x0⟩, ⟨0, 0, .ro, 0x0⟩]⟩,
  ⟨0x4, 4, 1, "SEC_SERIAL_LO", .lo, [⟨31, 0, .ro, 0x0⟩]⟩,
  ⟨0x8, 4, 1, "SEC_SERIAL_HI", .hi, [⟨31, 0, .ro, 0x0⟩]⟩,
  ⟨0x10, 4, 1, "SEC_SIGNER_IDX", .no, [⟨13, 8, .rw, 0x0⟩, ⟨1, 0, .rw, 0x0⟩]⟩,
  ⟨0x14, 4, 1, "SEC_SIGNER_ALG", .no, [⟨7, 0, .rw, 0x0⟩]⟩,
  ⟨0x18, 4, 1, "SEC_SIGNER_CMD", .no, [⟨2, 2, .wo, 0x0⟩, ⟨1, 1, .wo, 0x0⟩, ⟨0, 0, .wo, 0x0⟩]⟩,
  ⟨0x1c, 4, 1, "SEC_SIGNER_STATUS", .no, [⟨31, 31, .ro, 0x0⟩, ⟨0, 0, .w1c, 0x0⟩]⟩,
  ⟨0x40, 4, 12, "SEC_SIGNER_Dw", .no, [⟨31, 0, .rw, 0x0⟩]⟩,
  ⟨0x100, 4, 64, "SEC_FNf_CTRL", .no, [⟨8, 8, .w1s, 0x0⟩, ⟨7, 4, .ro, 0x0⟩, ⟨1, 0, .rw, 0x0⟩]⟩,
  ⟨0x200, 4, 1, "CNT_SEC_SIG_REJECT", .no, [⟨31, 0, .rc, 0x0⟩]⟩,
  ⟨0x204, 4, 1, "CNT_SEC_ENV_OPEN", .no, [⟨31, 0, .rc, 0x0⟩]⟩,
  ⟨0x208, 4, 1, "CNT_SEC_AUTH_FAIL", .no, [⟨31, 0, .rc, 0x0⟩]⟩,
  ⟨0x20c, 4, 1, "CNT_SEC_ATTEST", .no, [⟨31, 0, .rc, 0x0⟩]⟩,
  ⟨0x210, 4, 1, "CNT_SEC_RECEIPT", .no, [⟨31, 0, .rc, 0x0⟩]⟩]

/-- MNT block (Table 17.15). -/
def devMntRegs : List RegDef := [
  ⟨0x0, 4, 1, "MNT_CTRL", .no, [⟨31, 16, .rw, 0x2710⟩, ⟨15, 6, .rw, 0x0⟩, ⟨5, 0, .rw, 0x3f⟩]⟩,
  ⟨0x4, 4, 1, "MNT_STATUS", .no, [⟨29, 24, .ro, 0x0⟩, ⟨17, 0, .ro, 0x0⟩]⟩,
  ⟨0x10, 4, 6, "MNT_PENDINGc", .no, [⟨8, 0, .ro, 0x0⟩]⟩,
  ⟨0x30, 4, 1, "MNT_LAST", .no, [⟨31, 16, .ro, 0x0⟩, ⟨7, 0, .ro, 0x0⟩]⟩,
  ⟨0x34, 4, 1, "MNT_LAST_TARGET", .no, [⟨23, 0, .ro, 0x0⟩]⟩,
  ⟨0x40, 4, 1, "MNT_START_STATUS", .no, [⟨31, 28, .ro, 0x0⟩, ⟨15, 0, .ro, 0x0⟩]⟩,
  ⟨0x44, 4, 7, "MNT_START_MSp", .no, [⟨15, 0, .ro, 0x0⟩]⟩,
  ⟨0x80, 4, 1, "CNT_MNT_GRANTED", .no, [⟨31, 0, .rc, 0x0⟩]⟩,
  ⟨0x84, 4, 1, "CNT_MNT_DEFERRED", .no, [⟨31, 0, .rc, 0x0⟩]⟩,
  ⟨0x88, 4, 1, "CNT_MNT_REFUSED", .no, [⟨31, 0, .rc, 0x0⟩]⟩,
  ⟨0x8c, 4, 1, "CNT_MNT_FAILED", .no, [⟨31, 0, .rc, 0x0⟩]⟩,
  ⟨0x90, 4, 1, "CNT_MNT_PENDING_LOST", .no, [⟨31, 0, .rc, 0x0⟩]⟩]

/-- FEN block (Table 17.16). -/
def devFenRegs : List RegDef := [
  ⟨0x0, 4, 1, "FEN_STATUS", .no, [⟨31, 31, .ro, 0x0⟩, ⟨24, 16, .ro, 0x0⟩, ⟨14, 0, .ro, 0x0⟩]⟩,
  ⟨0x4, 4, 1, "FEN_IDX", .no, [⟨31, 31, .rw, 0x0⟩, ⟨14, 0, .rw, 0x0⟩]⟩,
  ⟨0x8, 4, 1, "FEN_CMD", .no, [⟨2, 2, .wo, 0x0⟩, ⟨1, 1, .wo, 0x0⟩, ⟨0, 0, .wo, 0x0⟩]⟩,
  ⟨0xc, 4, 1, "FEN_CMD_STATUS", .no, [⟨31, 30, .ro, 0x0⟩, ⟨16, 16, .w1c, 0x0⟩]⟩,
  ⟨0x100, 4, 816, "FEN_CORE_MAPw", .no, [⟨31, 0, .ro, 0x0⟩]⟩,
  ⟨0xe00, 4, 13, "FEN_TILE_MAPw", .no, [⟨31, 0, .ro, 0x0⟩]⟩,
  ⟨0xf00, 4, 1, "CNT_FEN_FIELD", .no, [⟨31, 0, .rc, 0x0⟩]⟩,
  ⟨0xf04, 4, 1, "CNT_FEN_HWCHECK", .no, [⟨31, 0, .rc, 0x0⟩]⟩]

/-- Core counter block (Tables 3.14 and 3.15). -/
def coreBlkRegs : List RegDef := [
  ⟨0x0, 0, 1, "CNT_CORE_BUNDLES", .no, [⟨31, 0, .rc, 0x0⟩]⟩,
  ⟨0x4, 0, 1, "CNT_CORE_IDLE", .no, [⟨31, 0, .rc, 0x0⟩]⟩,
  ⟨0x8, 0, 1, "CNT_CORE_SWITCH", .no, [⟨31, 0, .rc, 0x0⟩]⟩,
  ⟨0xc, 0, 1, "CNT_CORE_MISS", .no, [⟨31, 0, .rc, 0x0⟩]⟩,
  ⟨0x10, 0, 1, "CNT_CORE_STALL", .no, [⟨31, 0, .rc, 0x0⟩]⟩,
  ⟨0x14, 0, 1, "CNT_CORE_FAULT", .no, [⟨31, 0, .rc, 0x0⟩]⟩]

/-- Tile block (Tables 10.13, 11.4 and 11.5). -/
def tileBlkRegs : List RegDef := [
  ⟨0x0, 4, 1, "TB_SPARE_LO", .lo, [⟨31, 28, .ro, 0x0⟩, ⟨27, 24, .ro, 0x0⟩, ⟨23, 20, .ro, 0x0⟩, ⟨19, 16, .ro, 0x0⟩, ⟨15, 12, .ro, 0x0⟩, ⟨11, 8, .ro, 0x0⟩, ⟨7, 4, .ro, 0x0⟩, ⟨3, 0, .ro, 0x0⟩]⟩,
  ⟨0x4, 4, 1, "TB_SPARE_HI", .hi, [⟨31, 28, .ro, 0x0⟩, ⟨27, 24, .ro, 0x0⟩, ⟨23, 20, .ro, 0x0⟩, ⟨19, 16, .ro, 0x0⟩, ⟨15, 12, .ro, 0x0⟩, ⟨11, 8, .ro, 0x0⟩, ⟨7, 4, .ro, 0x0⟩, ⟨3, 0, .ro, 0x0⟩]⟩,
  ⟨0x8, 4, 1, "CNT_TB_CE", .no, [⟨31, 0, .rc, 0x0⟩]⟩,
  ⟨0xc, 4, 1, "CNT_TB_UE", .no, [⟨31, 0, .rc, 0x0⟩]⟩,
  ⟨0x10, 4, 1, "CNT_TB_GATHER", .no, [⟨31, 0, .rc, 0x0⟩]⟩,
  ⟨0x14, 4, 1, "CNT_CS_CE", .no, [⟨31, 0, .rc, 0x0⟩]⟩,
  ⟨0x18, 4, 1, "CNT_CS_UE", .no, [⟨31, 0, .rc, 0x0⟩]⟩,
  ⟨0x20, 4, 1, "CNT_STR_ISSUED", .no, [⟨31, 0, .rc, 0x0⟩]⟩,
  ⟨0x24, 4, 1, "CNT_STR_USED", .no, [⟨31, 0, .rc, 0x0⟩]⟩,
  ⟨0x28, 4, 1, "CNT_STR_EVICTED", .no, [⟨31, 0, .rc, 0x0⟩]⟩,
  ⟨0x2c, 4, 1, "CNT_STR_WASTED", .no, [⟨31, 0, .rc, 0x0⟩]⟩,
  ⟨0x30, 4, 1, "CNT_STR_LATE", .no, [⟨31, 0, .rc, 0x0⟩]⟩,
  ⟨0x34, 4, 1, "CNT_STR_SHORT", .no, [⟨31, 0, .rc, 0x0⟩]⟩,
  ⟨0x100, 4, 64, "CS_SPAREc", .no, [⟨15, 14, .ro, 0x0⟩, ⟨13, 12, .ro, 0x0⟩, ⟨11, 10, .ro, 0x0⟩, ⟨9, 8, .ro, 0x0⟩, ⟨7, 6, .ro, 0x0⟩, ⟨5, 4, .ro, 0x0⟩, ⟨3, 2, .ro, 0x0⟩, ⟨1, 0, .ro, 0x0⟩]⟩]
/-- Source configuration reset of an EIC (R542, Table 15.11): enable, priority and target of source n on EIC e
(0 to 11 compute dies, 12 and 13 I/O dies). Target codes are those of EIC_SRCn_CFG. -/
def eicSrcReset (e n : Nat) : Nat :=
  let cfg (en pri tgt : Nat) := en * 2 ^ 31 + pri * 2 ^ 16 + tgt * 2 ^ 8
  -- targets: 0 the local Die Sequencer, 1 I/O Sequencer of IOD0, 2 I/O Sequencer of IOD1, 3 Keeper (R534)
  let loc := if e = 12 then 1 else if e = 13 then 2 else 0
  if n = 1 then cfg 1 15 3
  else if 256 ≤ n then cfg 0 4 loc
  else if e < 12 then
    (if 2 ≤ n ∧ n ≤ 35 then cfg 1 8 0
     else if 36 ≤ n ∧ n ≤ 69 then cfg 1 6 0
     else if n = 70 then cfg 1 14 3
     else if n = 71 then cfg 1 10 0
     else if n = 72 then cfg 1 6 0
     else 0)
  else
    (if 2 ≤ n ∧ n ≤ 13 then cfg 1 6 loc
     else if 14 ≤ n ∧ n ≤ 29 then cfg 1 7 loc
     else if n = 30 then (if e = 12 then cfg 1 9 1 else 0)
     else if n = 31 then (if e = 12 then cfg 1 5 1 else 0)
     else if n = 32 ∨ n = 33 then cfg 1 6 loc
     else if n = 34 then cfg 1 12 3
     else if n = 35 then cfg 1 13 loc
     else if n = 36 then cfg 1 13 3
     else if n = 37 then cfg 1 14 3
     else if n = 38 then cfg 1 11 1
     else if n = 39 then cfg 1 12 loc
     else 0)

/-- Fields of EIC_SRCn_CFG (Table 15.17). -/
def eicSrcFlds (e n : Nat) : List Fld :=
  let r := eicSrcReset e n
  [⟨31, 31, .rw, bits r 31 31⟩, ⟨19, 16, .rw, bits r 19 16⟩, ⟨9, 8, .rw, bits r 9 8⟩]

/-- The blocks of the device register space (Table 12.4); block 8 is the EICs. -/
def devBlock (b : Nat) : List RegDef :=
  match b with
  | 1 => devMemRegs | 2 => devFabRegs | 3 => devFtRegs | 4 => devPwrRegs | 5 => devClkRegs | 6 => devKprRegs
  | 7 => devDayRegs | 9 => devPkeRegs | 10 => devSecRegs | 11 => devMntRegs | 12 => devFenRegs | 13 => devCntRegs
  | _ => []

/-- MSI-X table and pending bits (R394; PRESUMED layout of the PCIe specification: address, data, vector control with
the mask bit set at reset, log entry 13). -/
def fnMsixRegs : List RegDef := [
  ⟨0x30000, 16, 64, "MSIX_ADDR_LO", .no, [⟨31, 2, .rw, 0⟩]⟩,
  ⟨0x30004, 16, 64, "MSIX_ADDR_HI", .no, [⟨31, 0, .rw, 0⟩]⟩,
  ⟨0x30008, 16, 64, "MSIX_DATA", .no, [⟨31, 0, .rw, 0⟩]⟩,
  ⟨0x3000C, 16, 64, "MSIX_CTRL", .no, [⟨0, 0, .rw, 1⟩]⟩,
  ⟨0x38000, 4, 2, "MSIX_PBA", .no, [⟨31, 0, .ro, 0⟩]⟩]

/-- BAR2 aperture registers of the PF (R428). -/
def fnApertureRegs : List RegDef := [
  ⟨0x3000, 8, 16, "HIF_APERa_CFG", .no, [⟨1, 0, .rw, 0⟩]⟩,
  ⟨0x3004, 8, 16, "HIF_APERa_TARGET", .no, [⟨31, 0, .rw, 0⟩]⟩]

/-- The blocks of a function's register space (Table 12.3). -/
def fnBlock (f off : Nat) : List RegDef :=
  if off < 0x1000 then fnHifRegs
  else if off < 0x2000 then fnRingRegs
  else if off < 0x2100 then fnPolicyRegs
  else if off < 0x2200 then fnPenRegs
  else if off < 0x2300 then fnWeightRegs
  else if off < 0x2400 then fnKseRegs
  else if off < 0x2500 then fnRefreshRegs
  else if off < 0x2600 then fnMemRegs
  else if 0x3000 ≤ off ∧ off < 0x3080 then (if f = 0 then fnApertureRegs else [])
  else if 0x30000 ≤ off then fnMsixRegs
  else []

/-- The register definition that covers an offset of a block. -/
def findReg (rs : List RegDef) (off : Nat) : Option RegDef :=
  rs.find? fun r =>
    r.off ≤ off && (if r.stride = 0 then off == r.off
      else (off - r.off) % r.stride == 0 && (off - r.off) / r.stride < r.count)

/-- First offset of function f's register space (Table 10.2). -/
def fnBase (f : Nat) : Nat := 0x04000000 + f * 0x40000
/-- First offset of a core's counter block. -/
def coreBase (g : Nat) : Nat := 0x10000000 + g * 0x40
/-- First offset of a tile's block. -/
def tileBase (t : Nat) : Nat := 0x11000000 + t * 0x1000
/-- First offset of EIC e in the EIC block (log entry 14). -/
def eicBase (e : Nat) : Nat := 0x80000 + e * 0x1000

/-- The register at an offset of the Registers region: its fields and which half of a pair it is (R329, R394, R395). -/
def regAt (o : Nat) : Option (List Fld × PairHalf) :=
  let ans (r : Option RegDef) := r.map fun d => (d.flds, d.pair)
  if o < 0x04000000 then
    let b := o / 0x10000
    let x := o % 0x10000
    if b = 8 then
      (if x / 0x1000 < 14 then
        (if x % 0x1000 < 0x800 then
          (if x % 4 = 0 then some (eicSrcFlds (x / 0x1000) (x % 0x1000 / 4), .no) else none)
         else ans (findReg eicRestRegs (x % 0x1000)))
       else none)
    else ans (findReg (devBlock b) x)
  else if o < 0x05000000 then
    let f := (o - 0x04000000) / 0x40000
    let x := (o - 0x04000000) % 0x40000
    ans (findReg (fnBlock f x) x)
  else if 0x10000000 ≤ o ∧ o < 0x10000000 + 26112 * 0x40 then ans (findReg coreBlkRegs (o % 0x40))
  else if 0x11000000 ≤ o ∧ o < 0x11000000 + 408 * 0x1000 then ans (findReg tileBlkRegs (o % 0x1000))
  else none

/-- The word that a list of fields spells at reset. -/
def fldsReset (fs : List Fld) : Nat := fs.foldl (fun a f => a + f.reset % 2 ^ (f.hi + 1 - f.lo) * 2 ^ f.lo) 0

/-- Reset value of the register at an offset; 0 where there is none. -/
def regReset (o : Nat) : Word :=
  match regAt o with
  | some (fs, _) => BitVec.ofNat 32 (fldsReset fs)
  | none => 0

end Sys2Proof.Machine
end

