-- ==== Sys2Proof/Machine/Ops.lean ====
section
/-! DEFINITION. The named operations over the state: one accessor pair per table, registers and counters, what the
module sends out, and free values. -/

namespace Sys2Proof.Machine

/-- Core g. -/
def getCore (s : State) (g : Nat) : Core := tget Core.fresh s.cores g
/-- Replace core g. -/
def setCore (s : State) (g : Nat) (c : Core) : State := { s with cores := tset Core.fresh s.cores g c }
/-- Change core g. -/
def modCore (s : State) (g : Nat) (f : Core → Core) : State := setCore s g (f (getCore s g))

/-- Function f. -/
def getFn (s : State) (f : Nat) : Fn := tget Fn.fresh s.fns f
/-- Replace function f. -/
def setFn (s : State) (f : Nat) (x : Fn) : State := { s with fns := tset Fn.fresh s.fns f x }
/-- Change function f. -/
def modFn (s : State) (f : Nat) (g : Fn → Fn) : State := setFn s f (g (getFn s f))

/-- Sector n, if it exists. -/
def getSector (s : State) (n : Nat) : Option Sector := tget none s.sectors n
/-- Replace or remove sector n. -/
def setSector (s : State) (n : Nat) (x : Option Sector) : State := { s with sectors := tset none s.sectors n x }
/-- Change sector n if it exists. -/
def modSector (s : State) (n : Nat) (f : Sector → Sector) : State := setSector s n ((getSector s n).map f)

/-- Job j, if it exists. -/
def getJob (s : State) (j : Nat) : Option Job := tget none s.jobs j
/-- Replace or remove job j. -/
def setJob (s : State) (j : Nat) (x : Option Job) : State := { s with jobs := tset none s.jobs j x }
/-- Change job j if it exists. -/
def modJob (s : State) (j : Nat) (f : Job → Job) : State := setJob s j ((getJob s j).map f)

/-- The job that has sector n. -/
def runningJob (s : State) (n : Nat) : Option Job :=
  match getSector s n with
  | some x => x.running.bind (getJob s)
  | none => none

/-- A register as it stands. -/
def regGet (s : State) (o : Nat) : Word := tget (regReset o) s.regs o
/-- Give a register a value (hardware's own write: no access type applies). -/
def regSet (s : State) (o : Nat) (v : Word) : State := { s with regs := tset (regReset o) s.regs o v }
/-- Bits [hi:lo] of a register. -/
def regFld (s : State) (o hi lo : Nat) : Nat := bits (regGet s o).toNat hi lo
/-- A word with bits [hi:lo] replaced. -/
def putBits (w : Word) (hi lo v : Nat) : Word :=
  let m := (2 ^ (hi + 1 - lo) - 1) * 2 ^ lo
  (w &&& ~~~(BitVec.ofNat 32 m)) ||| (BitVec.ofNat 32 (v * 2 ^ lo) &&& BitVec.ofNat 32 m)
/-- Give bits [hi:lo] of a register a value. -/
def regSetFld (s : State) (o hi lo v : Nat) : State := regSet s o (putBits (regGet s o) hi lo v)
/-- Advance a saturating counter by n. -/
def bumpN (s : State) (o n : Nat) : State := if n = 0 then s else regSet s o (satAdd (regGet s o) n)
/-- Advance a saturating counter by 1. -/
def bump (s : State) (o : Nat) : State := bumpN s o 1

/-- Send something out. -/
def emit (s : State) (o : Output) : State := { s with outputs := s.outputs ++ [o] }

/-- The number of a fresh free value, and the state that has drawn it. -/
def drawFree (s : State) : Nat × State := (s.free, { s with free := s.free + 1 })

/-- Compute die of a global tile (Table 1.4). -/
def dieOfTile (t : Nat) : Nat := t / 34
/-- Global tile of a global core (Table 1.4). -/
def tileOfCore (g : Nat) : Nat := g / 64
/-- Compute die of a global core. -/
def dieOfCore (g : Nat) : Nat := dieOfTile (tileOfCore g)
/-- How many cores, tiles and compute dies there are (Table 0.1). -/
def nCores : Nat := 26112
def nTiles : Nat := 408
def nDies : Nat := 12

/-- First device address of a core's Core Store window (Table 1.5). -/
def csBase (g : Nat) : Nat := 0x100000000000 + g * 2 ^ 16
/-- First device address of a tile's Tile Bank window (Table 1.5). -/
def tbBase (t : Nat) : Nat := 0x200000000000 + t * 2 ^ 22
/-- Bases of the GDDR7 and Registers regions. -/
def gddrBase : Nat := 0x008000000000
def regsBase : Nat := 0xF00000000000

/-- Has the I/O engine domain of an I/O die lost its PLL (R489): its front end, fetch unit, sequencer and fabric-time logic
stop? -/
def ioStopped (s : State) (i : Nat) : Bool := tget 0 s.sched.unlocked (8 * (12 + i) + 4) != 0

end Sys2Proof.Machine
end

