-- ==== Sys2Proof/Machine/Eic.lean ====
section
/-! DEFINITION. The Event Interrupt Controllers (R534 to R545): raising, claiming and completing sources, software
sources, the lock, and the lines of the summary register. -/

namespace Sys2Proof.Machine

/-- A step that ends in a next state. -/
abbrev StepOut := Host.Outcome State Fault Refusal

/-- EIC_SRCn_CFG of EIC e, and its fields (Table 15.17). -/
def eicCfg (s : State) (e n : Nat) : Nat := (regGet s (eicBase e + 4 * n)).toNat
def eicEnabled (s : State) (e n : Nat) : Bool := bit (eicCfg s e n) 31
def eicPriority (s : State) (e n : Nat) : Nat := bits (eicCfg s e n) 19 16
def eicTarget (s : State) (e n : Nat) : Nat := bits (eicCfg s e n) 9 8
/-- The pending bit of source n. -/
def eicPending (s : State) (e n : Nat) : Bool := bit (regGet s (eicBase e + 0x800 + 4 * (n / 32))).toNat (n % 32)
/-- Claim stack of interface t, top first. -/
def eicStack (s : State) (e t : Nat) : List (Nat × Nat) := tget [] s.eicStack (4 * e + t)
/-- Replace the claim stack of interface t. -/
def setEicStack (s : State) (e t : Nat) (l : List (Nat × Nat)) : State :=
  { s with eicStack := tset [] s.eicStack (4 * e + t) l }

/-- Is source n eligible for interface t (R535)? An empty stack has priority −1. -/
def eicEligible (s : State) (e t n : Nat) : Bool :=
  eicPending s e n && eicEnabled s e n && eicTarget s e n == t &&
    (match eicStack s e t with
      | [] => true
      | (_, p) :: _ => decide (p < eicPriority s e n))

/-- The sources that can pend (R534). -/
def eicSources : List Nat := (List.range 511).map (· + 1)

/-- Is the request line of interface t of EIC e asserted (R535)? None is while the die's hub is at Slate (R541). -/
def eicLine (s : State) (e t : Nat) : Bool := !s.sched.slateHubs.contains e && eicSources.any (eicEligible s e t)

/-- The eligible source of highest priority; among equals the highest number (R536). -/
def eicBest (s : State) (e t : Nat) : Option Nat :=
  eicSources.foldl (fun acc n =>
    if eicEligible s e t n then
      (match acc with
        | some m => if eicPriority s e m ≤ eicPriority s e n then some n else acc
        | none => some n)
    else acc) none

/-- Set or clear a pending bit. -/
def setPendingBit (s : State) (e n : Nat) (v : Bool) : State :=
  let o := eicBase e + 0x800 + 4 * (n / 32)
  let m := BitVec.ofNat 32 (2 ^ (n % 32))
  regSet s o (if v then regGet s o ||| m else regGet s o &&& ~~~m)

/-- A raise sets the pending bit of source n of EIC e, enabled or not (R535); source 0 never pends (R534). At a hub in
Slate an eligible source also asks for a wake (R541). -/
def raiseSrc (s : State) (e n : Nat) : State :=
  if n = 0 ∨ 512 ≤ n then s
  else
    let s1 := setPendingBit s e n true
    if s1.sched.slateHubs.contains e && eicEligible s1 e (eicTarget s1 e n) n && !s1.sched.hubWakes.contains e then
      { s1 with sched := { s1.sched with hubWakes := s1.sched.hubWakes ++ [e] } }
    else s1

/-- The processor of interface t of EIC e (R534): code 0 the Die Sequencer of the die, 1 and 2 the I/O Sequencers,
3 the active Keeper. Interface 0 of an I/O die is reserved. -/
def procOf (s : State) (e t : Nat) : Option Proc :=
  match t with
  | 0 => if e < 12 then some (.dieSeq e) else none
  | 1 => some (.ioSeq 0)
  | 2 => some (.ioSeq 1)
  | 3 => if s.keeper.active = 0 then none else some (.keeper (s.keeper.active - 1))
  | _ => none

/-- Lines that EIC_SUMMARY of EIC e shows (Table 15.17): bits 13:0 for the die's own sequencer, bits 29:16 for the
Keeper on its die. -/
def eicSummary (s : State) (e : Nat) : Nat :=
  let lines (t : Nat) (es : List Nat) : Nat := es.foldl (fun a i => a + (if eicLine s i t then 2 ^ i else 0)) 0
  if e < 12 then lines 0 [e]
  else
    lines (e - 11) (List.range 14) +
      (if s.keeper.active = e - 11 then lines 3 (List.range 14) * 2 ^ 16 else 0)

/-- What EIC_STACKt reads as. -/
def eicStackWord (s : State) (e t : Nat) : Nat :=
  match eicStack s e t with
  | [] => 0
  | (n, p) :: r => (r.length + 1) * 2 ^ 16 + p * 2 ^ 9 + n

end Sys2Proof.Machine
end

