-- ==== Sys2Proof/Machine/Daymark.lean ====
section
/-! DEFINITION. Daymark records, their staging, freezes and lookup (R524 to R530), and the sideband alert (R521). -/

namespace Sys2Proof.Machine

/-- A sideband alert: counted, sent to the event receiver, with SMBALERT# asserted while one is set (R521). -/
def sbAlert (s : State) : State :=
  let s1 := emit (bump s 0x60100) (.alert s.keeper.receiver)
  if s.keeper.receiver.isSome then emit { s1 with keeper := { s1.keeper with smbalert := true } } (.alertPin true) else s1

/-- Operating seconds and power cycles (R511). -/
def opSeconds (s : State) : Nat := (regGet s 0x60080).toNat
def powerCycles (s : State) : Nat := (regGet s 0x60084).toNat

/-- The records that can be read: in flash or staged (R528). -/
def dayRecords (s : State) : List DayRec := (s.day.flash.filterMap fun p => p.2) ++ s.day.staged

/-- DAY_STATUS, DAY_OLDEST and DAY_NEWEST follow the recorder (Table 15.16). -/
def dayRegs (s : State) : State :=
  let seqs := (dayRecords s).map (·.seq)
  let s1 := regSetFld s 0x70004 31 24 s.day.staged.length
  let s2 := regSet s1 0x70008 (BitVec.ofNat 32 (match seqs with | [] => s.day.next | a :: r => r.foldl Nat.min a))
  regSet s2 0x7000C (BitVec.ofNat 32 (match seqs with | [] => 0xFFFFFFFF | a :: r => r.foldl Nat.max a))

/-- Is a freeze held (R529)? -/
def dayFrozen (s : State) : Bool := (tget none s.day.freezes 0).isSome || (tget none s.day.freezes 1).isSome
/-- Is the recorder degraded (R530)? -/
def dayDegraded (s : State) : Bool := bit (regGet s 0x70004).toNat 2

/-- Stage a record with the next sequence number (R524, R526). In DEGRADED mode a full ring loses its oldest record;
otherwise a full ring drops the event. -/
def dayAppend (s : State) (code die unit : Nat) (d : List Nat) : State :=
  let now := opSeconds s
  let r : DayRec := {
    seq := s.day.next
    code := code
    die := die
    unit := unit
    opSeconds := now
    cycles := powerCycles s
    ftime := if s.start.rails then s.ftime.toNat else 0
    rep := 0
    last := now
    d := (List.range 6).map fun i => d.getD i 0 % 2 ^ 32
    stagedAt := now }
  if 64 ≤ s.day.staged.length ∧ !dayDegraded s then
    bump { s with day := { s.day with dropped := s.day.dropped + 1 } } 0x700A4
  else
    let old := if 64 ≤ s.day.staged.length then s.day.staged.drop 1 else s.day.staged
    dayRegs { s with day := { s.day with staged := old ++ [r], next := (s.day.next + 1) % 2 ^ 32 } }

/-- An event of Table 15.9 reaches the Keeper (R526, R529): counted as missed while a freeze is held, absorbed as a
repeat of the newest staged record, or staged. -/
def dayEvent (s : State) (code die unit : Nat) (d : List Nat) : State :=
  let d6 := (List.range 6).map fun i => d.getD i 0 % 2 ^ 32
  if s.keeper.active = 0 then s
  else if dayFrozen s then
    let mark := code * 2 ^ 16 + die * 2 ^ 8
    bump { s with day := { s.day with
      missed := s.day.missed + 1
      firstMissed := if s.day.missed = 0 then mark else s.day.firstMissed
      lastMissed := mark } } 0x700A0
  else match s.day.staged.getLast? with
    | some r =>
      if r.code = code ∧ r.die = die ∧ r.unit = unit ∧ r.d = d6 then
        { s with day := { s.day with
          staged := s.day.staged.dropLast ++ [{ r with rep := Nat.min (r.rep + 1) 0xFFFF, last := opSeconds s }] } }
      else dayAppend s code die unit d
    | none => dayAppend s code die unit d

/-- The 64 bytes of a record, with its crc (Table 15.8). -/
def dayBytes (r : DayRec) : List Byte :=
  let w := leBytes 4
  let body := w r.seq ++ w (r.code * 2 ^ 16 + r.die * 2 ^ 8 + r.unit) ++ w r.opSeconds ++ w r.cycles ++ leBytes 8 r.ftime ++
    w r.rep ++ w r.last ++ (List.range 6).flatMap (fun i => w (r.d.getD i 0)) ++ w 0
  body ++ w (crc32c body)

/-- Look a record up: its status as DAY_WSTATUS (1 VALID, 2 GONE, 3 NOT_YET) and its 64 bytes (R528). -/
def dayLookup (s : State) (seq : Nat) : Nat × List Byte :=
  match (dayRecords s).find? fun r => r.seq == seq with
  | some r => (1, dayBytes r)
  | none => (if s.day.next ≤ seq then 3 else 2, List.replicate 64 0)

/-- Take a master's freeze (R529): 0 the host, 1 the sideband. A master that holds one keeps it. -/
def dayFreeze (s : State) (m : Nat) : State :=
  if (tget none s.day.freezes m).isSome then s
  else
    let s1 := if dayFrozen s then s
      else { s with day := { s.day with missed := 0, firstMissed := 0, lastMissed := 0, frozenSince := opSeconds s } }
    regSetFld { s1 with day := { s1.day with freezes := tset none s1.day.freezes m (some (opSeconds s)) } } 0x70004 m m 1

/-- Release a master's freeze (R529); with the last one gone a THAW_SUMMARY record is staged. -/
def dayThaw (s : State) (m : Nat) : State :=
  if (tget none s.day.freezes m).isNone then s
  else
    let s1 := regSetFld { s with day := { s.day with freezes := tset none s.day.freezes m none } } 0x70004 m m 0
    if dayFrozen s1 then s1
    else dayEvent s1 0x0801 0xFF 0 [s.day.missed, s.day.firstMissed, s.day.lastMissed, opSeconds s - s.day.frozenSince]

/-- End every freeze: at a power-fail and at a shutdown (R529). -/
def dayEndFreezes (s : State) : State := dayThaw (dayThaw s 0) 1

end Sys2Proof.Machine
end

