-- ==== Sys2Proof/Machine/Mem.lean ====
section
/-! DEFINITION. Device memory: bytes, poison (R349 to R352), the decode of a device address (R52 to R54, R327, R328)
and the checks of R54 to R56. -/

namespace Sys2Proof.Machine

/-- The one canonical form of device memory: addresses strictly rising, no byte listed that an unlisted address reads as. -/
def Memory.wf (m : List Host.Cell) : Bool := twf 0 m

/-- One byte; an address that nothing has written reads as zero (log entry 3). -/
def memByte (s : State) (a : Nat) : Byte := tget 0 s.mem a
/-- Write one byte. -/
def setByte (s : State) (a : Nat) (b : Byte) : State := { s with mem := tset 0 s.mem a b }

/-- n bytes from an address. -/
def memBytes (s : State) (a n : Nat) : List Byte := (List.range n).map fun i => memByte s (a + i)
/-- Write bytes from an address up. -/
def setBytes (s : State) (a : Nat) (bs : List Byte) : State := { s with mem := tsetRun 0 s.mem a bs }

/-- Where a device address lies (Table 1.5). -/
inductive Region where
  | hbm | gddr
  | cs (core off : Nat)
  | tb (tile off : Nat)
  | regs | none
  deriving DecidableEq, Repr

/-- Reported size of the HBM region in bytes. -/
def hbmBytes (s : State) : Nat := ((regGet s 0x10000).toNat + (regGet s 0x10004).toNat) * 2 ^ 20
/-- Reported size of the GDDR7 region in bytes, and of its allocatable part. -/
def gddrBytes (s : State) : Nat := (regGet s 0x10008).toNat * 2 ^ 20
def gddrAlloc (s : State) : Nat := (regGet s 0x1000C).toNat * 2 ^ 20

/-- The region of an address; reserved offsets and parts beyond a reported size lie in none (R54). -/
def regionOf (s : State) (a : Nat) : Region :=
  if a < 0x008000000000 then (if a < hbmBytes s then .hbm else .none)
  else if a < 0x100000000000 then (if a - gddrBase < gddrBytes s then .gddr else .none)
  else if a < 0x200000000000 then
    (let g := (a - 0x100000000000) / 2 ^ 16
     let o := (a - 0x100000000000) % 2 ^ 16
     if g < nCores ∧ o < 0x8000 then .cs g o else .none)
  else if a < regsBase then
    (let t := (a - 0x200000000000) / 2 ^ 22
     let o := (a - 0x200000000000) % 2 ^ 22
     if t < nTiles ∧ o < 0x300000 then .tb t o else .none)
  else if a < regsBase + 2 ^ 32 then .regs
  else .none

/-- FEN_CORE_MAPw and FEN_TILE_MAPw hold the fence map (R43, R601). -/
def coreFenced (s : State) (g : Nat) : Bool := bit (regGet s (0xC0100 + 4 * (g / 32))).toNat (g % 32)
def tileFenced (s : State) (t : Nat) : Bool := bit (regGet s (0xC0E00 + 4 * (t / 32))).toNat (t % 32)

/-- The sector that holds a tile, if any (R44, R419). -/
def sectorOfTile (s : State) (t : Nat) : Option (Nat × Sector) :=
  s.sectors.findSome? fun p => match p.2 with
    | some x => if x.holder && x.tiles.contains t then some (p.1, x) else none
    | none => none

/-- Does the sector belong to a confidential model (R55, R237)? -/
def confidentialSector (s : State) (x : Sector) : Bool :=
  match x.model with
  | some m => (tget ModelSlot.empty (getFn s x.owner).models m).confidential
  | none => false

/-- Areas of a model tile that only LOAD_MODEL, staging, swap-in and reload may write (R223, R224), and the refresh
area (R318): ranges of Tile Bank offsets. -/
def protectedAreas (s : State) (x : Sector) : List (Nat × Nat) :=
  let refresh := (0x2FC000, 0x300000)
  match x.model with
  | some m =>
    let b := (tget ModelSlot.empty (getFn s x.owner).models m).blob
    let f (o : Nat) := bits (fieldAt b o 4) 21 0
    [refresh, (f 0x14, f 0x14 + f 0x18), (f 0x1C, f 0x1C + f 0x20), (f 0x24, f 0x24 + 2 * f 0x28)]
  | none =>
    match x.image with
    | some i => [refresh, (i.publicBase, i.publicBase + i.publicBytes)]
    | none => [refresh]

/-- Two ranges of bytes meet. -/
def overlaps (a alen b bend : Nat) : Bool := decide (a < bend) && decide (b < a + alen) && decide (b < bend) && decide (0 < alen)

/-- A live buffer of function f that covers a range (R56, R359). -/
def bufCovers (s : State) (f a len : Nat) : Bool :=
  (getFn s f).bufs.any fun p => p.2.live && decide (p.2.base ≤ a) && decide (a + len ≤ p.2.base + p.2.size)

/-- A freed buffer that job j still references and that covers a range (R363). -/
def zombieCovers (s : State) (j a len : Nat) : Bool :=
  s.zombies.any fun z => z.jobs.contains j && decide (z.ext.base ≤ a) && decide (a + len ≤ z.ext.base + z.ext.len)

/-- A copy of the conversion block of the parameter set that job j binds covers a range (R56, R275). -/
def convCovers (s : State) (j a len : Nat) : Bool :=
  match getJob s j with
  | some jb => (tget ParamSlot.empty (getFn s jb.fn).params jb.param).conv.any fun c =>
      decide (c.2.base ≤ a) && decide (a + len ≤ c.2.base + c.2.len)
  | none => false

/-- May an agent make this access (R54 to R56, R224)? A false answer is an address fault. -/
def accessOk (s : State) (g : Agent) (a len : Nat) (write : Bool) : Bool :=
  let a := a % 2 ^ 52
  match regionOf s a with
  | .hbm => !write && (match g.job with | some j => convCovers s j a len | none => false)
  | .gddr => bufCovers s g.fn a len || (match g.job with | some j => zombieCovers s j a len | none => false)
  | .cs c o => decide (o + len ≤ 0x8000) && !coreFenced s c &&
      (match sectorOfTile s (tileOfCore c) with
        | some (n, x) => x.owner == g.fn && (!confidentialSector s x || g.sector == some n)
        | none => false)
  | .tb t o => decide (o + len ≤ 0x300000) && !tileFenced s t &&
      (match sectorOfTile s t with
        | some (n, x) => x.owner == g.fn && (!confidentialSector s x || g.sector == some n) &&
            (!write || (protectedAreas s x).all fun p => !overlaps o len p.1 p.2)
        | none => false)
  | .regs => false
  | .none => false

/-! Poison (R349 to R352). -/

/-- I/O die of an HBM or GDDR7 address (R327, R328), and the controller that serves it: pseudo-channel 32s + p of stack
HBs, or GDDR7 device 256 + n. -/
def enabledPcs (s : State) (h : Nat) : List Nat :=
  -- E_h: ascending order x = 4p + s_local
  (List.range 128).filterMap fun x =>
    let st := 4 * h + x % 4
    let p := x / 4
    if bit (regGet s (0x10020 + 4 * st)).toNat p then some (32 * st + p) else none

/-- List D of R328. -/
def enabledGddr (s : State) : List Nat :=
  (List.range 16).filterMap fun i =>
    let n := if i % 2 = 0 then i / 2 else 8 + i / 2
    if bit (regGet s 0x10010).toNat n then some n else none

/-- Where an HBM or GDDR7 address lies (R327, R328): the controller that serves it, and the byte inside its pseudo-channel or
device. -/
def placeOf (s : State) (a : Nat) : Nat × Nat :=
  let at_ (l : List Nat) (o : Nat) : Nat × Nat :=
    let n := if l.length = 0 then 1 else l.length
    (l.getD (o / 2048 % n) 0, o / 2048 / n * 2048 + o % 2048)
  if a < gddrBase then
    let h0 := (regGet s 0x10000).toNat * 2 ^ 20
    if a < h0 then at_ (enabledPcs s 0) a else at_ (enabledPcs s 1) (a - h0)
  else at_ ((enabledGddr s).map (256 + ·)) (a - gddrBase)
/-- The controller of an HBM or GDDR7 address. -/
def controllerOf (s : State) (a : Nat) : Nat := (placeOf s a).1
/-- The 2 MiB block of its pseudo-channel or device that an address lies in. -/
def blockOf (s : State) (a : Nat) : Nat := (placeOf s a).2 / 2 ^ 21

/-- I/O die of a controller. -/
def dieOfCtl (c : Nat) : Nat := if c < 256 then (if c < 128 then 0 else 1) else (if c - 256 < 8 then 0 else 1)

/-- Poison list of an I/O die. -/
def poisonList (s : State) (die : Nat) : List PoisonEntry := if die = 0 then s.poison0 else s.poison1
/-- Replace the poison list of an I/O die; MEM_POISON_STATUS.used follows it (Table 10.16). -/
def setPoisonList (s : State) (die : Nat) (l : List PoisonEntry) : State :=
  if die = 0 then regSetFld { s with poison0 := l } 0x10018 13 0 l.length
  else regSetFld { s with poison1 := l } 0x10018 29 16 l.length

/-- Does an entry cover granule n (address / 64)? A 2 MiB block is one of the pseudo-channel's or device's own bytes, so that
every entry belongs to one controller (R351; log entry 65; DEDUCED). -/
def entryCovers (s : State) (e : PoisonEntry) (n : Nat) : Bool :=
  match e with
  | .granule m => m == n
  | .block d b cl => controllerOf s (64 * n) == d && blockOf s (64 * n) == b && !cl.contains n
  | .device d cl => controllerOf s (64 * n) == d && !cl.contains n

/-- Is the word or granule at an address poisoned? -/
def poisonedAt (s : State) (a : Nat) : Bool :=
  match regionOf s a with
  | .cs _ _ => tget false s.sramPoison (a / 4 * 4)
  | .tb _ _ => tget false s.sramPoison (a / 8 * 8)
  | .hbm => (poisonList s (dieOfCtl (controllerOf s a))).any fun e => entryCovers s e (a / 64)
  | .gddr => (poisonList s (dieOfCtl (controllerOf s a))).any fun e => entryCovers s e (a / 64)
  | _ => false

/-- Poison granule of an address: its size (Table 10.6). -/
def granuleSize (s : State) (a : Nat) : Nat :=
  match regionOf s a with
  | .cs _ _ => 4
  | .tb _ _ => 8
  | _ => 64

/-- The controller that an entry's memory belongs to. -/
def entryCtl (s : State) : PoisonEntry → Nat
  | .granule n => controllerOf s (n * 64)
  | .block d _ _ => d
  | .device d _ => d

/-- First coarsening step of R351: every 64-byte entry becomes its 2 MiB block, and coincident entries merge into the whole
block. -/
def coarsen1 (s : State) (l : List PoisonEntry) : List PoisonEntry :=
  l.foldl (fun acc e =>
    let e' := match e with
      | .granule n => PoisonEntry.block (controllerOf s (n * 64)) (blockOf s (n * 64)) []
      | e => e
    let same (x : PoisonEntry) : Bool := match x, e' with
      | .block d b _, .block d' b' _ => d == d' && b == b'
      | _, _ => false
    if acc.any same then acc.map fun x => match x with
      | .block d b cl => if same x then .block d b [] else .block d b cl
      | x => x
    else acc ++ [e']) []

/-- Second coarsening step of R351: the controller with the most entries becomes one entry. -/
def coarsen2 (s : State) (l : List PoisonEntry) : List PoisonEntry × Nat :=
  let cs := l.map (entryCtl s)
  let best := cs.foldl (fun (acc : Nat × Nat) c =>
    let k := (cs.filter (· == c)).length
    if acc.2 < k then (c, k) else acc) (0, 0)
  (l.filter (fun e => entryCtl s e != best.1) ++ [.device best.1 []], best.1)

/-- Interrupt source of a controller's stack or device on its I/O die's EIC (Table 15.11). -/
def ctlSource (c : Nat) : Nat := if c < 256 then 2 + c / 32 % 4 else 6 + (c - 256) % 8

/-- Mark a controller for map-out by a row of Table 10.4 (0: a list coarsened under R351): in flash, in Daymark, by an
alert, and then in MEM_HBM_PC_PENDINGs or MEM_GDDR_DEV.pending (R334). -/
def markMapOut (s : State) (c row : Nat) : State :=
  if s.start.mapOut.contains c then s
  else
    let s1 : State := { s with start := { s.start with mapOut := s.start.mapOut ++ [c] } }
    let s2 := dayEvent s1 0x0301 (12 + dieOfCtl c) 0 [if c < 256 then 1 else 2, if c < 256 then c else c - 256, row]
    let s3 := raiseSrc (sbAlert s2) (12 + dieOfCtl c) (ctlSource c)
    if c < 256 then
      let o := 0x10040 + 4 * (c / 32)
      regSet s3 o (regGet s3 o ||| BitVec.ofNat 32 (2 ^ (c % 32)))
    else regSet s3 0x10010 (regGet s3 0x10010 ||| BitVec.ofNat 32 (2 ^ (16 + (c - 256))))

/-- Enter a granule in its die's list, coarsening a full list (R351): each step sets the die's coarse bit and writes a
Daymark record. -/
def enterPoison (s : State) (a : Nat) : State :=
  let c := controllerOf s a
  let die := dieOfCtl c
  let l := poisonList s die
  if l.any fun e => entryCovers s e (a / 64) then s
  else if l.length < 8192 then setPoisonList s die (l ++ [.granule (a / 64)])
  else
    let l1 := coarsen1 s l
    let coarse (s : State) (step : Nat) : State :=
      dayEvent (regSetFld s 0x10018 (if die = 0 then 15 else 31) (if die = 0 then 15 else 31) 1) 0x0302 (12 + die) 0 [step]
    if l1.length < 8192 then coarse (setPoisonList s die (l1 ++ [.granule (a / 64)])) 1
    else
      let l2 := coarsen2 s l1
      let s := coarse (coarse (markMapOut (setPoisonList s die l2.1) l2.2 0) 1) 2
      setPoisonList s die (l2.1 ++ [.granule (a / 64)])

/-- Take a granule out of a list or out of a coarse entry's coverage (R352). -/
def clearEntry (s : State) (n : Nat) (l : List PoisonEntry) : List PoisonEntry :=
  (l.filter fun e => e != .granule n).map fun e =>
    if entryCovers s e n then match e with
      | .block d b cl => .block d b (n :: cl)
      | .device d cl => .device d (n :: cl)
      | e => e
    else e

/-- Set or clear the poison of the whole granule at an address. -/
def setPoison (s : State) (a : Nat) (p : Bool) : State :=
  match regionOf s a with
  | .cs _ _ => { s with sramPoison := tset false s.sramPoison (a / 4 * 4) p }
  | .tb _ _ => { s with sramPoison := tset false s.sramPoison (a / 8 * 8) p }
  | _ =>
    if p then enterPoison s a
    else if poisonedAt s a then
      let c := controllerOf s a
      setPoisonList s (dieOfCtl c) (clearEntry s (a / 64) (poisonList s (dieOfCtl c)))
    else s

/-- A read of n bytes with their poison tags. -/
def readT (s : State) (a n : Nat) : List TByte := (List.range n).map fun i => ⟨memByte s (a + i), poisonedAt s (a + i)⟩

/-- Poison of k granules after a write (R350, R352): g is the first byte of the next, size their size, [a, a + n) the range
written, bs its bytes from g on. A granule written whole takes the tags of the data; one written in part stays poisoned if it
was, and becomes so if tagged words reach it. -/
def poisonRun (size a n : Nat) : Nat → State → Nat → List TByte → State
  | 0, s, _, _ => s
  | k + 1, s, g, bs =>
    let m := Nat.min (g + size) (a + n) - Nat.max g a
    let inside := (bs.take m).map (·.tag)
    let s1 := if inside.any id then setPoison s g true else if inside.length = size then setPoison s g false else s
    poisonRun size a n k s1 (g + size) (bs.drop m)

/-- A write of tagged bytes: the bytes, then the poison of every granule they touch. -/
def writeT (s : State) (a : Nat) (bs : List TByte) : State :=
  let n := bs.length
  let s1 := setBytes s a (bs.map (·.b))
  if n = 0 then s1
  else
    let size := granuleSize s a
    let g0 := a / size * size
    poisonRun size a n ((a + n - 1) / size - g0 / size + 1) s1 g0 bs

/-- Bytes of a tagged word. -/
def wordTBytes (w : TWord) : List TByte := (leBytes 4 w.val.toNat).map fun b => ⟨b, w.tag⟩
/-- Tagged words of bytes: a word is tagged when any of its bytes is. -/
def tbytesWords (bs : List TByte) : List TWord :=
  (chunksOf 4 bs).map fun c => ⟨BitVec.ofNat 32 (leNat (c.map (·.b))), c.any (·.tag)⟩

/-- n words with tags from an address. -/
def readWords (s : State) (a n : Nat) : List TWord := tbytesWords (readT s a (4 * n))
/-- Write words with tags. -/
def writeWords (s : State) (a : Nat) (ws : List TWord) : State := writeT s a (ws.flatMap wordTBytes)

/-- A poison list after granules g0 to g1 - 1 have been written whole (R352). -/
def clearRange (s : State) (g0 g1 : Nat) (l : List PoisonEntry) : List PoisonEntry :=
  let hit (e : PoisonEntry) : List Nat := ((List.range (g1 - g0)).map (g0 + ·)).filter (entryCovers s e)
  l.filterMap fun e => match e with
    | .granule m => if g0 ≤ m ∧ m < g1 then none else some e
    | .block d b cl => some (.block d b (cl ++ hit e))
    | .device d cl => some (.device d (cl ++ hit e))

/-- Zero a range of memory; whole granules lose their poison (R364). -/
def zeroRange (s : State) (a n : Nat) : State :=
  let outside (k : Nat) : Bool := !(decide (a ≤ k) && decide (k < a + n))
  let s1 : State := { s with
    mem := s.mem.filter fun c => outside c.1
    sramPoison := s.sramPoison.filter fun c => outside c.1 }
  let l0 := clearRange s1 ((a + 63) / 64) ((a + n) / 64) s1.poison0
  let l1 := clearRange s1 ((a + 63) / 64) ((a + n) / 64) s1.poison1
  let s2 := if l0 = s1.poison0 then s1 else setPoisonList s1 0 l0
  if l1 = s1.poison1 then s2 else setPoisonList s2 1 l1

end Sys2Proof.Machine
end

