-- ==== Sys2Proof/Machine/CoreRegs.lean ====
section
/-! DEFINITION. The registers of a core (Table 3.1): reading them, landing results in them, identity values, gangs,
the raise of an interrupt source (R535) and the record of a core fault (R169 to R171). -/

namespace Sys2Proof.Machine

/-- Context k of a core. -/
def getCtx (c : Core) (k : Nat) : Ctx := tget Ctx.fresh c.ctx k
/-- Replace context k. -/
def setCtx (c : Core) (k : Nat) (x : Ctx) : Core := { c with ctx := tset Ctx.fresh c.ctx k x }
/-- Change context k. -/
def modCtx (c : Core) (k : Nat) (f : Ctx → Ctx) : Core := setCtx c k (f (getCtx c k))

/-- S[i]. -/
def rdS (x : Ctx) (i : Nat) : TWord := tget TWord.zero x.s (i % 16)
/-- Value of S[i]. -/
def sVal (x : Ctx) (i : Nat) : Nat := (rdS x i).val.toNat
/-- Write S[i]. -/
def wrS (x : Ctx) (i : Nat) (w : TWord) : Ctx := { x with s := tset TWord.zero x.s i w }
/-- Lane l of E[r]. -/
def rdE (x : Ctx) (r l : Nat) : TWord := tget TWord.zero x.e (32 * (r % 16) + l)
/-- The 32 lanes of E[r]. -/
def rdEs (x : Ctx) (r : Nat) : List TWord := (List.range 32).map (rdE x r)
/-- Word w of the operand register with 4-bit code r. -/
def rdOp (c : Core) (r w : Nat) : TWord := tget TWord.zero c.op (16 * r + w)
/-- Element i of accumulator a. -/
def rdAcc (c : Core) (a i : Nat) : AccEl := tget ⟨0, false⟩ c.acc (16 * a + i)
/-- Modulus-table entry m; entries from 96 up are invalid. -/
def modEntry (c : Core) (m : Nat) : ModEntry := if m < 96 then tget ModEntry.invalid c.modTab m else ModEntry.invalid

/-- Write one register word. -/
def wrReg (c : Core) : RegRef → TWord → Core
  | .s k i, w => modCtx c k fun x => wrS x i w
  | .e k r l, w => modCtx c k fun x => { x with e := tset TWord.zero x.e (32 * r + l) w }
  | .op r w, v => { c with op := tset TWord.zero c.op (16 * r + w) v }
  | .kb w, v => { c with kb := tset TWord.zero c.kb w v }

/-- Write elements of accumulator a from element i up. -/
def setAcc (c : Core) (a : Nat) (vs : List AccEl) : Core :=
  { c with acc := tsetRun ⟨0, false⟩ c.acc (16 * a) vs }

/-- Land one result (R112 to R123, R140). -/
def applyEffect (c : Core) : Effect → Core
  | .regs ws => ws.foldl (fun c p => wrReg c p.1 p.2) c
  | .accAdd a zero vs =>
    setAcc c a ((List.range 16).map fun i =>
      let v := vs.getD i ⟨0, false⟩
      if zero then v
      else let o := rdAcc c a i; ⟨o.val + v.val, o.tag || v.tag⟩)
  | .accSet a vs => setAcc c a vs
  | .taSeed lanes step q mu =>
    { c with ta := { c.ta with lanes := tsetRun TWord.zero [] 0 lanes, step := step, q := q, mu := mu } }
  | .taMat ws => { c with ta := { c.ta with mat := tsetRun TWord.zero [] 0 ws } }
  | .taRow r ws => { c with ta := { c.ta with tr := tsetRun TWord.zero c.ta.tr (16 * r) ws } }

/-- Rank of an engine's write in R141, lowest first. -/
def Engine.rank : Engine → Nat
  | .array => 0 | .ta => 1 | .eu => 2 | .load => 3

/-- Land every pending result of one engine that is due in cycle n, oldest first. -/
def landEngine (c : Core) (n : Nat) (e : Engine) : Core :=
  let now := c.pend.filter fun p => p.due == n && p.eng == e
  let c1 := now.foldl (fun c p => applyEffect c p.eff) c
  { c1 with pend := c1.pend.filter fun p => !(p.due == n && p.eng == e) }

/-- The sector that core g is loaded for. -/
def coreSector (s : State) (g : Nat) : Option (Nat × Sector) :=
  match (getCore s g).sector with
  | some n => (getSector s n).map fun x => (n, x)
  | none => none

/-- Logical core count of a sector (R45). -/
def lcoreCount (x : Sector) : Nat := x.lcores.length

/-- The agent that a core acts as. -/
def coreAgent (s : State) (g : Nat) : Agent :=
  match coreSector s g with
  | some (n, x) =>
    match x.running.bind (getJob s) with
    | some j => ⟨j.fn, some n, some j.id⟩
    | none => ⟨x.owner, some n, none⟩
  | none => ⟨64, none, none⟩

/-- Row and column of a core in its tile's 8 by 8 grid (Table 1.4: core = 8 × row + column). -/
def coreRow (g : Nat) : Nat := g % 64 / 8
def coreCol (g : Nat) : Nat := g % 8

/-- The members of the gang that core g would join, in core order (R40). -/
def gangMembers (g : Nat) (m : GangMode) : List Nat :=
  let t := g / 64 * 64
  match m with
  | .off => [g]
  | .square =>
    let r := coreRow g / 2 * 2
    let q := coreCol g / 2 * 2
    [t + 8 * r + q, t + 8 * r + q + 1, t + 8 * (r + 1) + q, t + 8 * (r + 1) + q + 1]
  | .row => (List.range 4).map fun i => t + 8 * coreRow g + coreCol g / 4 * 4 + i

/-- Mode of a GANG operation (Table 4.14); 0b11 is reserved and refused by okAr. -/
def gangModeOf (a : ArOp) : GangMode :=
  match a.a / 2 with
  | 1 => .square
  | 2 => .row
  | _ => .off

/-- Fault codes of Table 4.24. -/
def fEncoding : Nat := 1
def fIstore : Nat := 2
def fScalarSource : Nat := 3
def fSync : Nat := 4
def fAlignment : Nat := 5
def fAddress : Nat := 6
def fModulus : Nat := 7
def fAccLimit : Nat := 8
def fGang : Nat := 9
def fStaging : Nat := 10
def fEprog : Nat := 11
def fWaitTimeout : Nat := 12
def fStream : Nat := 13

/-- Distinct codes, lowest first. -/
def codesOf (l : List Nat) : List Nat := (List.range 14).filter fun c => l.contains c

/-- Fault context k of core g (R169 to R171): it stops, the counter advances once for each code, the Die Sequencer's
source is raised, and the job's first record is kept. -/
def faultCtx (s : State) (g k idx : Nat) (codes : List Nat) (addr : Nat) : State :=
  let cs := codesOf codes
  let x := getCtx (getCore s g) k
  let s1 := modCore s g fun c => modCtx c k fun x => { x with run := .faulted }
  let s2 := bumpN s1 (coreBase g + 0x14) cs.length
  let s3 := raiseSrc s2 (dieOfCore g) (2 + tileOfCore g % 34)
  match (coreSector s3 g).bind fun p => p.2.running with
  | some j => modJob s3 j fun jb =>
      let rec_ : FaultRec := {
        mask := cs.foldl (fun a c => a + 2 ^ c) 0
        first := cs.headD 0
        ctx := k
        lcore := (getCore s3 g).lcore
        gcore := g
        stride := x.stride
        index := idx % 128
        addr := addr
        ftime := s3.ftime.toNat }
      { jb with
        stats := { jb.stats with faults := jb.stats.faults + cs.length }
        fault := match jb.fault with
          | some f => some f
          | none => some rec_ }
  | none => s3

end Sys2Proof.Machine
end

