-- ==== Sys2Proof/Machine/CoreElement.lean ====
section
/-! DEFINITION. The scalar slot (R150, R151) and the element slot (R123 to R128, R155 to R158, R186 to R197). -/

namespace Sys2Proof.Machine

/-- rel of Table 4.9. -/
def relHolds (rel : Nat) (a b : Word) : Bool :=
  match rel with
  | 0 => a == b
  | 1 => a != b
  | 2 => decide (a.toNat < b.toNat)
  | 3 => decide (b.toNat ≤ a.toNat)
  | 4 => decide (a.toInt < b.toInt)
  | _ => decide (b.toInt ≤ a.toInt)

/-- Identity value of SID (Table 4.9). -/
def sidValue (s : State) (g k i : Nat) : Nat :=
  match i with
  | 0 => (getCore s g).lcore
  | 1 => match coreSector s g with
    | some (_, x) => lcoreCount x
    | none => 0
  | 2 => k
  | _ => g

/-- The scalar operation of a bundle: the context after it, and whether a branch or LOOP was taken. A result is tagged
when an operand word is (R132). -/
def execScalar (s : State) (g k : Nat) (x : Ctx) (o : ScOp) : Ctx × Bool :=
  let a := rdS x o.a
  let b := rdS x o.b
  let bin (v : Word) : Ctx × Bool := (wrS x o.d ⟨v, a.tag || b.tag⟩, false)
  let un (v : Word) : Ctx × Bool := (wrS x o.d ⟨v, a.tag⟩, false)
  let sh := b.val.toNat % 32
  let simm := wordOfInt (sext o.imm 14)
  let lc (i : Nat) : TWord := tget TWord.zero x.lc i
  let setLc (x : Ctx) (i : Nat) (w : TWord) : Ctx := { x with lc := tset TWord.zero x.lc i w }
  let setCp (i : Nat) (v : Bool) : Ctx := { x with cp := tset false x.cp i v }
  match o.op with
  | 1 => bin (a.val + b.val)
  | 2 => bin (a.val - b.val)
  | 3 => bin (a.val &&& b.val)
  | 4 => bin (a.val ||| b.val)
  | 5 => bin (a.val ^^^ b.val)
  | 6 => bin (a.val <<< sh)
  | 7 => bin (a.val >>> sh)
  | 8 => bin (BitVec.sshiftRight a.val sh)
  | 9 => bin (a.val * b.val)
  | 10 => un (a.val + simm)
  | 11 => (wrS x o.d ⟨simm, false⟩, false)
  | 12 => un (a.val <<< (o.imm % 32))
  | 13 => un (a.val ||| BitVec.ofNat 32 o.imm)
  | 14 => (wrS x o.d (lc (o.a % 4)), false)
  | 15 => (setLc x (o.d % 4) a, false)
  | 16 => (setLc x (o.d % 4) ⟨BitVec.ofNat 32 o.imm, false⟩, false)
  | 17 => (setCp (o.d % 4) (relHolds (o.imm % 8) a.val b.val), false)
  | 18 => (setCp (o.d % 4) (relHolds (o.imm % 8) a.val (wordOfInt (sext (o.imm / 8) 11))), false)
  | 19 => (x, bit o.d 2 || (tget false x.cp (o.d % 4) == bit o.d 3))
  | 20 =>
    let w := lc (o.d % 4)
    if w.val = 0 then (x, false)
    else (setLc x (o.d % 4) ⟨w.val - 1, w.tag⟩, w.val != 1)
  | 22 => ({ x with rm := o.imm % 8 }, false)
  | 23 => (wrS x o.d ⟨BitVec.ofNat 32 (sidValue s g k (o.imm % 4)), false⟩, false)
  | _ => (x, false)

/-- The lanes that a mask operand makes active (R123). -/
def maskOf (x : Ctx) (m : Nat) : Nat := if m = 0 then 2 ^ 32 - 1 else sVal x m

/-- Is the mask register tagged? The mask contributes to every lane that is written under it (R132). -/
def maskTag (x : Ctx) (m : Nat) : Bool := m != 0 && (rdS x m).tag

/-- Register writes of 32 lane results under a mask (R123): an inactive lane keeps its value, or becomes zero. -/
def maskedWrite (k r : Nat) (mask : Nat) (mt zero : Bool) (ws : List TWord) : List (RegRef × TWord) :=
  (List.range 32).filterMap fun l =>
    if bit mask l then (ws[l]?).map fun w => (.e k (r % 16) l, ⟨w.val, w.tag || mt⟩)
    else if zero then some (.e k (r % 16) l, ⟨0, mt⟩)
    else none

/-- What an element operation does: its register writes (landing after lat cycles), the context with its staging and
flags, and how many dominated blocks it counted (R192). -/
structure ElOut where
  ws : List (RegRef × TWord)
  ctx : Ctx
  dominated : Nat
  deriving DecidableEq, Repr

/-- A lane operation with its tags. -/
def laneT (op : Nat) (a b : TWord) (e : ModEntry) (full : Bool) : TWord :=
  ⟨BitVec.ofNat 32 (laneOp op a.val.toNat b.val.toNat e.q.toNat e.mu.toNat full),
    a.tag || (b.tag && !isUnary op)⟩

/-- Tag of element i of a register form (Table 5.4). -/
def eltTag (fmt : Nat) (e0 e1 : List TWord) (i : Nat) : Bool :=
  let t (l : List TWord) (n : Nat) := (l.getD n TWord.zero).tag
  match fmt with
  | 1 => wide t e0 e1 i
  | 2 => wide t e0 e1 i
  | 4 => t e0 (i / 2)
  | 8 => t e0 (i / 2)
  | 5 => t e0 (i / 4) || t e0 8
  | 6 => t e0 (i / 4) || t e0 8
  | 7 => t e0 (i / 8) || t e0 4
  | _ => t e0 i
where
  wide (t : List TWord → Nat → Bool) (e0 e1 : List TWord) (i : Nat) : Bool :=
    let r := if i < 16 then e0 else e1
    t r (2 * (i % 16)) || t r (2 * (i % 16) + 1)

/-- Tag of lane l of register r (0 or 1) of a destination form. -/
def dstTag (dst : Nat) (blk16 : Bool) (tags : List Bool) (r l : Nat) : Bool :=
  let t (i : Nat) := tags.getD i false
  let blk (i : Nat) : Bool := if blk16 then ((tags.drop (i / 16 * 16)).take 16).any id else tags.any id
  match dst with
  | 1 => t (16 * r + l / 2)
  | 2 => t (16 * r + l / 2)
  | 4 => l < 16 && (t (2 * l) || t (2 * l + 1))
  | 8 => l < 16 && (t (2 * l) || t (2 * l + 1))
  | 5 => if l < 8 then blk (4 * l) else l == 8 && tags.any id
  | 6 => if l < 8 then blk (4 * l) else l == 8 && tags.any id
  | 7 => if l < 4 then blk (8 * l) else l == 4 && tags.any id
  | _ => t l

/-- CVT (R186 to R195): the writes, the sticky flags and the dominated blocks. -/
def execCvt (x : Ctx) (k : Nat) (e : ElOp) (q : Nat) : ElOut :=
  let src := bits e.aux 9 6
  let dst := bits e.aux 5 2
  let strict := bit e.aux 1
  let blk16 := bit e.aux 0
  let e0 := rdEs x e.va
  let e1 := rdEs x (e.va + 1)
  let o := cvt src dst strict blk16 x.rm q (e0.map (·.val.toNat)) (e1.map (·.val.toNat))
  let tags := (List.range 32).map (eltTag src e0 e1)
  let word (r : Nat) (vs : List Nat) : List TWord :=
    (List.range 32).map fun l => ⟨BitVec.ofNat 32 (vs.getD l 0), dstTag dst blk16 tags r l⟩
  let mask := maskOf x e.mask
  let wideDst := dst == 1 || dst == 2
  -- mask bit i governs element i, lanes 2i and 2i + 1, of both registers of a wide destination (R187)
  let laneMask := if wideDst then (List.range 32).foldl (fun a l => if bit mask (l / 2) then a + 2 ^ l else a) 0 else mask
  let mt := maskTag x e.mask
  let w0 := maskedWrite k e.vd laneMask mt e.zero (word 0 o.r0)
  let w1 := if wideDst then maskedWrite k (e.vd + 1) laneMask mt e.zero (word 1 o.r1) else []
  ⟨w0 ++ w1, { x with flags := x.flags ||| o.flags }, o.dominated⟩

/-! Element programs (R128, Tables 3.8 and 3.9). -/

/-- Step i of element program p. -/
def eprogStep (c : Core) (p i : Nat) : Nat := (tget 0 c.eprog (16 * p + i)).toNat

/-- The steps of program p up to and including its end step; none when no step has the end bit. -/
def eprogSteps (c : Core) (p : Nat) : Option (List Nat) :=
  let all := (List.range 16).map (eprogStep c p)
  match all.findIdx? fun w => bit w 25 with
  | some i => some (all.take (i + 1))
  | none => none

/-- The two operand codes that a step reads. -/
def stepReads (w : Nat) : List Nat :=
  let op := bits w 31 26
  let a := bits w 19 15
  let b := bits w 14 10
  if op == 4 || op == 5 || op == 20 || op == 11 || op == 12 || op == 13 then [a] else [a, b]

/-- A step opcode that R155 allows, with the CVT pairs of R196. -/
def stepOk (w : Nat) : Bool :=
  let op := bits w 31 26
  let i := bits w 9 0
  let f (x : Nat) : Bool := x == 0 || x == 3 || x == 9
  (1 ≤ op && op ≤ 17) || (op == 20 && i % 4 == 0 && f (bits i 9 6) && f (bits i 5 2))

/-- Does a step use the bound modulus? -/
def stepModular (w : Nat) : Bool :=
  let op := bits w 31 26
  isModular op || (stepReads w).contains 17 ||
    (op == 20 && (bits w 9 6 == 0 || bits w 5 2 == 0))

/-- Every step is allowed, reads defined operands, and reads no temporary before it is written (R128). -/
def eprogOk (steps : List Nat) : Bool :=
  (steps.foldl (fun (acc : Bool × List Nat) w =>
    let ok := (stepReads w).all fun o => (8 ≤ o && o ≤ 17) || acc.2.contains o
    (acc.1 && ok && stepOk w, (bits w 23 20 % 8) :: acc.2)) (true, [])).1

/-- Cycles of a program: one per step, two per MMUL step. -/
def eprogCost (steps : List Nat) : Nat :=
  steps.foldl (fun a w => a + (if bits w 31 26 = 3 then 2 else 1)) 0

/-- Run the steps over 32 lanes; the result is what the last step writes. -/
def runEprog (steps : List Nat) (ins ks : List (List TWord)) (e : ModEntry) : List TWord :=
  let zeros := List.replicate 32 TWord.zero
  let operand (ts : Tbl (List TWord)) (o : Nat) : List TWord :=
    if o < 8 then tget zeros ts o
    else if o < 12 then ins.getD (o - 8) zeros
    else if o < 16 then ks.getD (o - 12) zeros
    else if o = 17 then List.replicate 32 ⟨e.q, false⟩
    else zeros
  (steps.foldl (fun (acc : Tbl (List TWord) × List TWord) w =>
    let op := bits w 31 26
    let a := operand acc.1 (bits w 19 15)
    let b := operand acc.1 (bits w 14 10)
    let full := bit w 24
    let imm := bits w 9 0
    let lane (i : Nat) : TWord :=
      let x := a.getD i TWord.zero
      let y := b.getD i TWord.zero
      if op == 11 || op == 12 || op == 13 then
        ⟨(laneT op x ⟨BitVec.ofNat 32 (imm % 32), false⟩ e full).val, x.tag⟩
      else if op == 16 then
        let z := a.getD (y.val.toNat % 32) TWord.zero
        ⟨z.val, z.tag || y.tag⟩
      else laneT op x y e full
    let r : List TWord :=
      if op == 20 then
        let o := cvt (bits imm 9 6) (bits imm 5 2) false false 0 e.q.toNat (a.map (·.val.toNat)) []
        (List.range 32).map fun i => ⟨BitVec.ofNat 32 (o.r0.getD i 0), (a.getD i TWord.zero).tag⟩
      else (List.range 32).map lane
    (tput acc.1 (bits w 23 20 % 8) r, r)) ([], zeros)).2

/-- Issue interval and latency of an element operation (Tables 3.6 and 3.7, R128). -/
def elTiming (c : Core) (e : ElOp) : Nat × Nat :=
  match e.op with
  | 3 => (2, 6)
  | 16 => (1, 3)
  | 18 => (1, 3)
  | 20 => cvtTiming (bits e.aux 9 6) (bits e.aux 5 2) (bit e.aux 1)
  | 21 => (1, 3)
  | 22 => (1, 3)
  | 23 => (1, 3)
  | 24 => (1, 3)
  | 25 =>
    let t := match eprogSteps c (e.aux % 8) with
      | some st => eprogCost st
      | none => 0
    (t, t + 4)
  | _ => (1, 2)

/-- Number of active lanes. -/
def popMask (m : Nat) : Nat := ((List.range 32).filter (bit m)).length

/-- Fault codes of an element operation that depend on registers and tables (R111, R127, R128). An EPRUN names its entry
"for all modular steps": an invalid entry faults only where a step of the program uses the modulus (log entry 63;
DEDUCED). -/
def elFaults (c : Core) (x : Ctx) (e : ElOp) : List Nat :=
  let modBad : List Nat := if (modEntry c e.m).valid then [] else [fModulus]
  if isModular e.op then modBad
  else match e.op with
  | 20 => if bits e.aux 9 6 == 0 || bits e.aux 5 2 == 0 then modBad else []
  | 23 => if 32 < x.expd.length then [fStaging] else []
  | 24 => if x.expd.length < popMask (maskOf x e.mask) then [fStaging] else []
  | 25 =>
    match eprogSteps c (e.aux % 8) with
    | none => [fEprog]
    | some st => (if eprogOk st then [] else [fEprog]) ++ (if st.any stepModular then modBad else [])
  | _ => []

/-- Spread the front of a list over the active lanes. -/
def expandInto (mask : Nat) (xs : List TWord) : List TWord :=
  ((List.range 32).foldl (fun (acc : List TWord × List TWord) l =>
    if bit mask l then (acc.1 ++ [acc.2.headD TWord.zero], acc.2.tail) else (acc.1 ++ [TWord.zero], acc.2)) ([], xs)).1

/-- The element operation of a bundle (Table 3.6): nothing for NOP. -/
def execElement (c : Core) (k : Nat) (x : Ctx) (e : ElOp) : ElOut :=
  let ent := modEntry c e.m
  let mask := maskOf x e.mask
  let a (l : Nat) := rdE x e.va l
  let b (l : Nat) := rdE x e.vb l
  let mt := maskTag x e.mask
  let out (f : Nat → TWord) : ElOut := ⟨maskedWrite k e.vd mask mt e.zero ((List.range 32).map f), x, 0⟩
  match e.op with
  | 0 => ⟨[], x, 0⟩
  | 3 => out fun l => laneT 3 (a l) (b l) ent (bit e.aux 0)
  | 11 => shift e out a b
  | 12 => shift e out a b
  | 13 => shift e out a b
  | 16 => out fun l => let i := b l; let v := a (i.val.toNat % 32); ⟨v.val, v.tag || i.tag⟩
  | 18 =>
    let g := rdS x e.va
    let i0 := rdS x e.vb
    let h := rdS x (bits e.aux 7 4)
    out fun l => ⟨BitVec.ofNat 32 (autIdx c.logN g.val.toNat (i0.val.toNat + l * h.val.toNat) (bit e.aux 0)),
      g.tag || i0.tag || h.tag⟩
  | 19 => out fun _ => rdS x e.va
  | 20 => execCvt x k e ent.q.toNat
  | 21 =>
    let act := ((List.range 32).filter (bit mask)).map fun l => let w := a l; (⟨w.val, w.tag || mt⟩ : TWord)
    let st := x.cmps ++ act
    if 32 ≤ st.length then
      ⟨(List.range 32).map fun l => (.e k e.vd l, st.getD l TWord.zero), { x with cmps := st.drop 32 }, 0⟩
    else ⟨[], { x with cmps := st }, 0⟩
  | 22 =>
    let o := out fun l => x.cmps.getD l TWord.zero
    { o with ctx := { x with cmps := [] } }
  | 23 => ⟨[], { x with expd := x.expd ++ (List.range 32).map a }, 0⟩
  | 24 =>
    let ws := expandInto mask x.expd
    let o := out fun l => ws.getD l TWord.zero
    { o with ctx := { x with expd := x.expd.drop (popMask mask) } }
  | 25 =>
    match eprogSteps c (e.aux % 8) with
    | some st =>
      let s0 := bits e.aux 7 4
      let ws := runEprog st [rdEs x e.va, rdEs x e.vb, rdEs x (e.va + 1), rdEs x (e.vb + 1)]
        ((List.range 4).map fun i => List.replicate 32 (rdS x (s0 + i))) ent
      out fun l => ws.getD l TWord.zero
    | none => ⟨[], x, 0⟩
  | op => out fun l => laneT op (a l) (b l) ent false
where
  /-- SHL, SHR, SRA: by aux[4:0] when aux[5] is 1, else by each lane of E[vb] (Table 4.12). -/
  shift (e : ElOp) (out : (Nat → TWord) → ElOut) (a b : Nat → TWord) : ElOut :=
    out fun l =>
      if bit e.aux 5 then
        let v := laneT e.op (a l) ⟨BitVec.ofNat 32 (e.aux % 32), false⟩ ModEntry.invalid false
        ⟨v.val, (a l).tag⟩
      else laneT e.op (a l) (b l) ModEntry.invalid false

end Sys2Proof.Machine
end

