-- ==== Sys2Proof/Machine/CoreArray.lean ====
section
/-! DEFINITION. The Modular Array (R106 to R118, R159) and the Transform Assist (R119 to R122, R160). -/

namespace Sys2Proof.Machine

/-- The most products an accumulator element may hold (R107). -/
def accLimit : Nat := 16384

/-- Latency of an array operation (R115). -/
def arLatency (op : Nat) : Nat :=
  match op with
  | 3 => 7
  | 5 => 5
  | _ => 4

/-- The accumulator that a pending result goes to. -/
def Effect.accOf : Effect → Option Nat
  | .accAdd c _ _ => some c
  | .accSet c _ => some c
  | _ => none

/-- Latest cycle in which an earlier array result into accumulator a becomes readable (R115). -/
def accLast (c : Core) (a : Nat) : Nat :=
  c.pend.foldl (fun m p => if p.eng == .array && p.eff.accOf == some a then Nat.max m p.due else m) 0

/-- Count of accumulator a. -/
def accCount (c : Core) (a : Nat) : Nat := tget 0 c.accCnt a
/-- Set the count of accumulator a. -/
def setCount (c : Core) (a n : Nat) : Core := { c with accCnt := tset 0 c.accCnt a n }

/-- A 4 by 4 operand register, by 4-bit code. -/
def rdTile (c : Core) (r : Nat) : List TWord := (List.range 16).map (rdOp c r)

/-- Word i of a tile. -/
def tw (t : List TWord) (i : Nat) : TWord := t.getD i TWord.zero

/-- One product as an accumulator element. -/
def prodEl (a b : TWord) : AccEl := ⟨BitVec.ofNat 78 (a.val.toNat * b.val.toNat), a.tag || b.tag⟩

/-- Sum of four products: row i of a by column j of b. -/
def dotEl (a b : List TWord) (i j : Nat) : AccEl :=
  (List.range 4).foldl (fun s k => let p := prodEl (tw a (4 * i + k)) (tw b (4 * k + j)); ⟨s.val + p.val, s.tag || p.tag⟩)
    ⟨0, false⟩

/-- The 16 elements of the matrix product of two tiles. -/
def mmaTile (a b : List TWord) : List AccEl := (List.range 16).map fun e => dotEl a b (e / 4) (e % 4)
/-- The 16 element-wise products. -/
def emulTile (a b : List TWord) : List AccEl := (List.range 16).map fun e => prodEl (tw a e) (tw b e)

/-- CONV's values: input block, output block, offset, kernel length, stride (R114, Table 4.14). -/
def convPar (x : Ctx) (a : ArOp) : List Nat :=
  let p := sVal x a.sPar
  [sVal x a.sIb, sVal x a.sOb, bits p 7 0, bits p 14 8, bits p 18 16]

/-- Are CONV's values inside the ranges of R114? -/
def convOk (p : List Nat) : Bool :=
  decide (p.getD 0 0 ≤ 65535) && decide (p.getD 1 0 ≤ 65535) && decide (1 ≤ p.getD 3 0) && decide (p.getD 3 0 ≤ 64) &&
  decide (1 ≤ p.getD 4 0) && decide (p.getD 4 0 ≤ 4)

/-- The band matrix T of R114 from the kernel buffer. -/
def convTile (c : Core) (p : List Nat) : List TWord :=
  (List.range 16).map fun e =>
    let k := e / 4
    let j := e % 4
    let x : Int := (4 * p.getD 0 0 + k : Nat) - ((4 * p.getD 1 0 + j) * p.getD 4 0 : Nat) + (p.getD 2 0 : Nat)
    if 0 ≤ x ∧ x < (p.getD 3 0 : Nat) then tget TWord.zero c.kb x.toNat else TWord.zero

/-- barrett of R108 on an accumulator value, as a tagged word. -/
def reduceEl (v : AccEl) (e : ModEntry) (full : Bool) : TWord :=
  ⟨BitVec.ofNat 32 (barrett v.val.toNat e.q.toNat e.mu.toNat full), v.tag⟩

/-- A tagged word as an accumulator element. -/
def wordEl (w : TWord) : AccEl := ⟨w.val.setWidth 78, w.tag⟩

/-- Faults of an array operation that registers decide (R107, R111, R114). -/
def arFaults (c : Core) (x : Ctx) (a : ArOp) : List Nat :=
  let grow (n : Nat) : List Nat := if !a.zero && accLimit < accCount c a.c + n then [fAccLimit] else []
  match a.op with
  | 1 => grow 4
  | 2 => grow 1
  | 3 => if (modEntry c a.m).valid then [] else [fModulus]
  | 4 => (if convOk (convPar x a) then [] else [fEncoding]) ++ grow 4
  | 5 => if (modEntry c a.m).valid then [] else [fModulus]
  | _ => []

/-- The count that the operation leaves, set in its issue cycle (R107, R113). -/
def arCount (c : Core) (a : ArOp) : Core :=
  let grow (n : Nat) : Core := setCount c a.c (if a.zero then n else accCount c a.c + n)
  match a.op with
  | 1 => grow 4
  | 2 => grow 1
  | 3 => setCount c a.c 1
  | 4 => grow 4
  | 5 => if a.redReg then c else setCount c a.c 1
  | 6 => setCount c a.c 0
  | _ => c

/-- Queue a result of the array for the cycle of R115; the second component is that cycle. iss is the issue cycle of the
operation's bundle. -/
def pushAcc (c : Core) (k iss n lat acc : Nat) (f : Effect) : Core × Nat :=
  let due := Nat.max (n + lat) (accLast c acc)
  ({ c with pend := c.pend ++ [⟨due, .array, k, iss, f⟩] }, due)

/-- Execute one array operation in cycle n with operand tiles ta and tb (Table 3.3); the second component is the first
cycle in which its result is readable. A ganged operation may have issued in an earlier cycle, iss. -/
def runArray (c : Core) (k iss n : Nat) (a : ArOp) (ta tb : List TWord) : Core × Nat :=
  let e := modEntry c a.m
  match a.op with
  | 1 => pushAcc c k iss n 4 a.c (.accAdd a.c a.zero (mmaTile ta tb))
  | 2 => pushAcc c k iss n 4 a.c (.accAdd a.c a.zero (emulTile ta tb))
  | 3 => pushAcc c k iss n 7 a.c (.accSet a.c ((emulTile ta tb).map fun v => wordEl (reduceEl v e a.full)))
  | 4 => pushAcc c k iss n 4 a.c (.accAdd a.c a.zero (mmaTile ta tb))
  | 5 =>
    let rs := (List.range 16).map fun i => reduceEl (rdAcc c a.c i) e a.full
    if a.redReg then
      ({ c with pend := c.pend ++ [⟨n + 5, .array, k, iss, .regs ((List.range 16).map fun i =>
          (.op a.redDst i, rs.getD i TWord.zero))⟩] }, n + 5)
    else pushAcc c k iss n 5 a.c (.accSet a.c (rs.map wordEl))
  | 6 => pushAcc c k iss n 4 a.c (.accSet a.c (List.replicate 16 ⟨0, false⟩))
  | _ => (c, n + 1)

/-- Operand B of an array operation: OB, or CONV's T. -/
def arOperandB (c : Core) (a : ArOp) (par : List Nat) : List TWord :=
  if a.op = 4 then convTile c par else rdTile c (8 + a.b)

/-- Is one of CONV's parameter words tagged? Each contributes to every element of T (R132). -/
def parTag (x : Ctx) (a : ArOp) : Bool :=
  a.op == 4 && ((rdS x a.sIb).tag || (rdS x a.sOb).tag || (rdS x a.sPar).tag)
/-- A tile whose words take a contributing tag. -/
def tagTile (g : Bool) (t : List TWord) : List TWord := if g then t.map fun w => ⟨w.val, true⟩ else t

/-- Sub-operations that wait for the other members of a gang (R116, R117). Table 3.5 combines MMA, EMUL and CONV alone:
EMUL_RED, RED and ACZ issued while ganged act in their own core at once, and R118 does not compare them with what the other
members issue (log entry 63; DEDUCED). -/
def isGanged (c : Core) (a : ArOp) : Bool :=
  (a.op == 7 && gangModeOf a != .off) || (c.gang != .off && (a.op == 1 || a.op == 2 || a.op == 4))

/-- Is the operation held by one member the same as that of another (R116 to R118)? -/
def sameGangOp (a b : ArOp) : Bool := a.op == b.op && (a.op != 7 || a.a == b.a)

/-- Resolve a dependency of pending signals: operation id ended in cycle n (R145). -/
def resolveSig (c : Core) (id n : Nat) : Core :=
  { c with sigs := c.sigs.map fun p =>
      if p.deps.contains id then { p with deps := p.deps.filter (· != id), at_ := Nat.max p.at_ n } else p }

/-- What the members of a gang hold. -/
def heldBy (s : State) (ms : List Nat) : List HeldGang := ms.filterMap fun m => (getCore s m).held

/-- Execute the operation that every member of a gang holds, in cycle n (R117, Table 3.5). The T of a member's CONV is built
where its B operand is: from the parameters and the KB of the member that Table 3.5 names for B (log entry 63; DEDUCED). -/
def runGang (s : State) (ms : List Nat) (mode : GangMode) (n : Nat) : State :=
  let lead := getCore s (ms.headD 0)
  match lead.held with
  | none => s
  | some h0 =>
    let tileA (m : Nat) : List TWord := rdTile (getCore s m) h0.op.a
    let tileB (m : Nat) (h : HeldGang) : List TWord :=
      if h0.op.op = 4 then tagTile h.parTag (convTile (getCore s m) h.par) else rdTile (getCore s m) (8 + h0.op.b)
    let heldOf (m : Nat) : HeldGang := ((getCore s m).held).getD h0
    (ms.zip (List.range 4)).foldl (fun st p =>
      let m := p.1
      let i := p.2
      let ma := match mode with
        | .square => ms.getD (i / 2 * 2) m
        | .row => m
        | .off => m
      let mb := match mode with
        | .square => ms.getD (i % 2) m
        | .row => ms.getD 0 m
        | .off => m
      let c := getCore st m
      match c.held with
      | none => st
      | some h =>
        let r := runArray { c with held := none } h.ctx h.iss n h.op (tileA ma) (tileB mb (heldOf mb))
        setCore st m (resolveSig r.1 h.id r.2)) s

/-- Would array operation a of core g meet, in the other members of its gang, operations that differ (R118)? -/
def gangClash (s : State) (g : Nat) (a : ArOp) : Bool :=
  let c := getCore s g
  let others := (gangMembers g c.gang).filter (· != g)
  let hs := heldBy s others
  c.gang != .off && isGanged c a && hs.length == others.length && hs.any fun h => !sameGangOp h.op a

/-- After a member has issued a ganged operation in cycle n. A GANG takes effect once every member of the gang that it
names holds the same GANG (R116); any other operation executes once every member of the core's gang holds it (R117). -/
def tryGang (s : State) (g : Nat) (n : Nat) : State :=
  match (getCore s g).held with
  | none => s
  | some h =>
    if h.op.op = 7 then
      let mode := gangModeOf h.op
      let ms := gangMembers g mode
      if ms.all fun m => (getCore s m).held.any fun x => sameGangOp x.op h.op then
        ms.foldl (fun st m => modCore st m fun c =>
          match c.held with
          | some x => resolveSig { c with held := none, gang := mode } x.id (n + 1)
          | none => c) s
      else s
    else
      let mode := (getCore s g).gang
      let ms := gangMembers g mode
      if (heldBy s ms).length = ms.length then runGang s ms mode n else s

/-- Take back what the bundle of a held operation has not done yet: its pending results, loads, stores, segment loads and
signals, the count that it set, and, where its context has issued nothing since, the context's registers (R118, R169). -/
def undoHeld (s : State) (m : Nat) : State :=
  let c := getCore s m
  match c.held with
  | none => s
  | some h =>
    let mine (k i : Nat) : Bool := k == h.ctx && i == h.iss
    let gone := (c.loads.filter fun p => mine p.ctx p.iss).map (·.id) ++ (c.stores.filter fun p => mine p.ctx p.iss).map (·.id)
    let x := getCtx c h.ctx
    let y := if x.readyFrom = h.next then h.undo else x
    let c1 := { c with
      held := none
      accCnt := if h.op.op = 7 then c.accCnt else tset 0 c.accCnt h.op.c h.cnt0
      pend := c.pend.filter fun p => !mine p.ctx p.iss
      loads := c.loads.filter fun p => !mine p.ctx p.iss
      stores := c.stores.filter fun p => !mine p.ctx p.iss
      segld := c.segld.filter fun p => !mine p.ctx (p.ends - 96)
      sigs := c.sigs.filter fun p => p.kind == 9 || !mine p.ctx p.issued }
    let c2 := setCtx c1 h.ctx { y with
      run := x.run
      pc := x.pc
      miss := x.miss.filter fun i => !gone.contains i
      creditWait := x.creditWait.filter fun i => !gone.contains i }
    let drop (r : MemReq) : Bool := match r.origin with
      | .miss g i => g == m && gone.contains i
      | .store g i => g == m && gone.contains i
      | _ => false
    { setCore s m c2 with memq := s.memq.filter fun r => !drop r }

/-- The gang fault of every member but g, whose own bundle has not issued (R118). -/
def faultGang (s : State) (g : Nat) : State :=
  ((gangMembers g (getCore s g).gang).filter (· != g)).foldl (fun st m =>
    match (getCore st m).held with
    | some h => faultCtx (undoHeld st m) m h.ctx h.pc [fGang] 0
    | none => st) s

/-- GANG OFF by a member (R116): every member acts alone from now on, a held operation included. -/
def gangOff (s : State) (g n : Nat) : State :=
  let mode := (getCore s g).gang
  if mode = .off then s
  else (gangMembers g mode).foldl (fun st m => modCore st m fun c =>
    let c1 := { c with gang := .off }
    match c1.held with
    | some h =>
      if h.op.op = 7 then c1
      else
        let r := runArray { c1 with held := none } h.ctx h.iss n h.op (tagTile h.parTag (rdTile c1 h.op.a))
          (arOperandB c1 h.op h.par)
        resolveSig r.1 h.id r.2
    | none => c1) s

/-! Transform Assist. -/

/-- Ring dimension exponent that a modulus entry uses (R119). -/
def taLogN (c : Core) (m : Nat) : Nat := if m = 88 then c.rgswLogN else c.logN

/-- ψ^e mod q for an exponent mod 2N. -/
def psiPow (c : Core) (t : TaOp) (e : Nat) : Nat :=
  let ent := modEntry c t.m
  powMod 20 (if t.inv then ent.psiInv.toNat else ent.psi.toNat) (e % 2 ^ (taLogN c t.m + 1)) ent.q.toNat

/-- Faults of a Transform Assist operation (R111). -/
def taFaults (c : Core) (t : TaOp) : List Nat :=
  if (t.op == 1 || t.op == 3) && !(modEntry c t.m).valid then [fModulus] else []

/-- Cycles until the Transform Assist accepts its next operation, and its latency (Table 3.10). -/
def taTiming (op : Nat) : Nat × Nat :=
  match op with
  | 1 => (40, 40)
  | 3 => (16, 16)
  | _ => (1, 2)

/-- The Transform Assist operation of a bundle issued in cycle n by context k. -/
def execTa (c : Core) (k n : Nat) (x : Ctx) (t : TaOp) : Core :=
  let e0 := rdS x t.sE0
  let d := rdS x t.sD
  let tag := e0.tag || d.tag
  let push (due : Nat) (f : Effect) : Core := { c with pend := c.pend ++ [⟨due, .ta, k, n, f⟩] }
  let toReg (r : Nat) (ws : List TWord) : Effect := .regs ((List.range 16).map fun i => (.op r i, tw ws i))
  let ent := modEntry c t.m
  match t.op with
  | 1 =>
    let lane (l : Nat) : TWord := ⟨BitVec.ofNat 32 (psiPow c t (e0.val.toNat + l * d.val.toNat)), tag⟩
    push (n + 40) (.taSeed ((List.range 16).map lane) ⟨BitVec.ofNat 32 (psiPow c t (16 * d.val.toNat)), d.tag⟩ ent.q ent.mu)
  | 2 =>
    let ws := (List.range 16).map fun l => tget TWord.zero c.ta.lanes l
    let adv (w : TWord) : TWord :=
      ⟨BitVec.ofNat 32 (barrett (w.val.toNat * c.ta.step.val.toNat) c.ta.q.toNat c.ta.mu.toNat true), w.tag || c.ta.step.tag⟩
    let c1 := push (n + 2) (toReg t.dst ws)
    { c1 with ta := { c1.ta with lanes := tsetRun TWord.zero [] 0 (ws.map adv) } }
  | 3 =>
    let el (i : Nat) : TWord := ⟨BitVec.ofNat 32 (psiPow c t (e0.val.toNat + i / 16 * (i % 16) * d.val.toNat)), tag⟩
    push (n + 16) (.taMat ((List.range 256).map el))
  | 4 =>
    let r := t.idx / 4
    let q := t.idx % 4
    push (n + 2) (toReg t.dst ((List.range 16).map fun i => tget TWord.zero c.ta.mat (16 * (4 * r + i / 4) + 4 * q + i % 4)))
  | 5 => push (n + 2) (.taRow t.idx ((List.range 16).map fun i => rdE x t.src (if t.inv then 16 + i else i)))
  | 6 => push (n + 2) (toReg t.dst ((List.range 16).map fun i => tget TWord.zero c.ta.tr (16 * i + t.idx)))
  | _ => c

end Sys2Proof.Machine
end

