-- ==== Sys2Proof/Machine/CoreMem.lean ====
section
/-! DEFINITION. Addresses of the load and store slots (R134, R162), requests to the memories (R331, R339, R344 to R346)
and the issue of loads and stores (R130, R135, R163, R166, R167). -/

namespace Sys2Proof.Machine

/-- Lines that a request takes at its port: 64-byte lines of a Tile Bank, 32-byte lines of a Core Store. -/
def portLines (port : Port) (addr len : Nat) : List Nat :=
  let upTo (n : Nat) : List Nat :=
    if len = 0 then [] else (List.range ((addr + len - 1) / n - addr / n + 1)).map fun i => addr / n + i
  match port with
  | .bank _ _ => upTo 64
  | .stream _ _ => upTo 32
  | _ => []

/-- The parts of an access at a port: one for each 2 KiB unit of device memory (R327, R328), else the whole. -/
def portParts (port : Port) (addr len : Nat) : List (Nat × Nat) :=
  match port with
  | .dram _ =>
    if len = 0 then [(addr, 0)]
    else (List.range ((addr + len - 1) / 2048 - addr / 2048 + 1)).map fun i =>
      let lo := Nat.max addr ((addr / 2048 + i) * 2048)
      (lo, Nat.min (addr + len) ((addr / 2048 + i + 1) * 2048) - lo)
  | _ => [(addr, len)]

/-- Rank of a requester among those that ask for credit in one cycle (R346): cores, then front ends, then COPY and BAR2. -/
def creditRank : Origin → Nat
  | .store g _ => g
  | .strWrite g _ _ => g
  | .land fe _ _ => nCores + fe
  | _ => nCores + 2

/-- Put a request in its place: behind every request that arrived before it. Requests for one core's credit that arrive in
one cycle stand in the order of R346. -/
def insertReq (r : MemReq) : List MemReq → List MemReq
  | [] => [r]
  | q :: qs =>
    if (match r.port with | .credit _ => q.port == r.port | _ => false) &&
        (decide (r.cyc < q.cyc) || (r.cyc == q.cyc && decide (creditRank r.origin < creditRank q.origin))) then r :: q :: qs
    else q :: insertReq r qs

/-- Requests that wait at a port. -/
def portCount (s : State) (p : Port) : Nat := (s.memq.filter fun r => r.port == p).length

/-- Put an access in the memory queues in cycle cyc, in its parts. A requester that finds a Tile Bank class full waits for
room in it (R339). CNT_MEM_SHORT counts an access of device memory below 256 bytes (R333). -/
def pushAt (s : State) (port : Port) (write : Bool) (addr len : Nat) (data : List TByte) (o : Origin) (cyc : Nat) : State :=
  let port' := match port with
    | .bank t cls => if 256 ≤ portCount s port then Port.bankWait t cls else port
    | p => p
  let short := match port with
    | .dram _ => decide (len < 256)
    | _ => false
  let acc := s.memSeq
  (portParts port addr len).foldl (fun st p =>
    let q := match port' with
      | .dram _ => Port.dram (controllerOf st p.1)
      | x => x
    { st with
      memq := insertReq ⟨st.memSeq, acc, addr, len, cyc, q, write, p.1, p.2, (data.drop (p.1 - addr)).take p.2,
        portLines port p.1 p.2, [], [], o⟩ st.memq
      memSeq := st.memSeq + 1 }) (if short then bump s 0x10074 else s)

/-- The cycle of a request that no bundle makes: the sender's, or, from outside the cores, the receiver's. -/
def reqCycle (s : State) (port : Port) (o : Origin) : Nat :=
  match o, port with
  | .strWrite g _ _, _ => (getCore s g).cyc
  | .store g _, _ => (getCore s g).cyc
  | _, .credit h => (s.memq.filter fun r => r.port == port).foldl (fun m r => Nat.max m r.cyc) (getCore s h).cyc
  | _, _ => 0

/-- Put an access in the memory queues. -/
def pushReq (s : State) (port : Port) (write : Bool) (addr len : Nat) (data : List TByte) (o : Origin) : State :=
  pushAt s port write addr len data o (reqCycle s port o)

/-- 32-byte lines that an access touches (R345). -/
def lines32 (addr len : Nat) : Nat := (addr + len - 1) / 32 - addr / 32 + 1

/-- The queue of a read of device address a by a core or stream engine of core g (R331, R338, R344, R380). -/
def readPort (s : State) (g a : Nat) (engine : Bool) : Port :=
  match regionOf s a with
  | .cs h _ => .stream h (if engine && h == g then 2 else 1)
  | .tb t _ => .bank t (if t = tileOfCore g then 0 else 1)
  | _ => .dram (controllerOf s a)

/-- The queue of a write. -/
def writePort (s : State) (g a : Nat) (engine : Bool) : Port :=
  match regionOf s a with
  | .cs h _ => if engine && h == g then .stream h 2 else .credit h
  | .tb t _ => .bank t (if t = tileOfCore g then 2 else 3)
  | _ => .dram (controllerOf s a)

/-- Where an access goes. -/
inductive Place where
  /-- the core's own Core Store -/
  | own
  /-- any other memory, through a request -/
  | other
  deriving DecidableEq, Repr

/-- An effective address (Table 4.20): its place, its device address, and whether R162 and R54 to R56 allow it. -/
structure Ea where
  place : Place
  addr : Nat
  ok : Bool
  deriving DecidableEq, Repr

/-- A signed address on 52 bits, for the fault record. -/
def addr52 (x : Int) : Nat := (x % (2 ^ 52 : Nat)).toNat

/-- Form the address of a load or store of len bytes. S[base] + off × 32 (and the other sums of Table 4.20) are formed exactly:
a sum below zero or past the space's last byte does not wrap, and is an address fault (log entry 63; DEDUCED). -/
def effAddr (s : State) (g : Nat) (x : Ctx) (mode base off len : Nat) (write : Bool) : Ea :=
  let o : Int := sext off 9 * 32
  let b := sVal x base
  match mode with
  | 0 =>
    let a : Int := (b : Int) + o
    ⟨.own, addr52 ((csBase g : Int) + a), decide (0 ≤ a ∧ a + (len : Int) ≤ 0x8000)⟩
  | 1 =>
    let a : Int := ((b % 65536 : Nat) : Int) + o
    let l := b / 65536
    match coreSector s g with
    | some (_, sec) =>
      match sec.lcores[l]? with
      | some h =>
        ⟨if h = g then .own else .other, addr52 ((csBase h : Int) + a),
          decide (0 ≤ a ∧ a + (len : Int) ≤ 0x8000) && !coreFenced s h⟩
      | none => ⟨.other, addr52 a, false⟩
    | none => ⟨.other, addr52 a, false⟩
  | 2 =>
    let a : Int := ((sVal x (base + 1) % 2 ^ 20 * 2 ^ 32 + b : Nat) : Int) + o
    ⟨.other, addr52 a, decide (0 ≤ a ∧ a + (len : Int) ≤ (2 ^ 52 : Nat)) && accessOk s (coreAgent s g) (addr52 a) len write⟩
  | _ =>
    let a : Int := (b : Int) + o
    let t := tileOfCore g
    ⟨.other, addr52 ((tbBase t : Int) + a),
      decide (0 ≤ a ∧ a + (len : Int) ≤ 0x300000) &&
      (!write || match coreSector s g with
        | some (_, sec) => (protectedAreas s sec).all fun p => !overlaps a.toNat len p.1 p.2
        | none => true)⟩

/-- Alignment of R134: to its size up to 32 bytes, else to 32 bytes. -/
def aligned (addr len : Nat) : Bool := addr % (if len < 32 then len else 32) == 0

/-- The public region of the core's sector: base and size in every Tile Bank (R174, R223). -/
def publicRegion (s : State) (x : Sector) : Nat × Nat :=
  match x.model with
  | some m =>
    let b := (tget ModelSlot.empty (getFn s x.owner).models m).blob
    (bits (fieldAt b 0x14 4) 21 0, bits (fieldAt b 0x18 4) 21 0)
  | none =>
    match x.image with
    | some i => (i.publicBase, i.publicBytes)
    | none => (0, 0)

/-- Byte offset of an LDS in mode TILE, from the start of the public region. -/
def ldsOff (x : Ctx) (l : LdOp) : Int := (sVal x l.base : Int) + sext l.off 9 * 4
/-- Word index of an LDS in mode LOCAL. -/
def ldsIdx (x : Ctx) (l : LdOp) : Int := (sVal x l.base : Int) + sext l.off 9

/-- Is the LDS source inside its table or region (R163)? -/
def ldsOk (s : State) (g : Nat) (x : Ctx) (l : LdOp) : Bool :=
  ldsFormOk l &&
  (match coreSector s g with
    | some (_, sec) =>
      if l.mode = 0 then decide (0 ≤ ldsIdx x l ∧ ldsIdx x l < (sec.scalar.length : Int))
      else decide (0 ≤ ldsOff x l ∧ ldsOff x l + 4 ≤ ((publicRegion s sec).2 : Int))
    | none => false)

/-- Program segment that SEGLD names (R165). -/
def segIndex (x : Ctx) (l : LdOp) : Int := (sVal x l.base : Int) + sext l.off 9

/-- The image class of a core. -/
def coreClass (s : State) (g : Nat) : Option (Image × ImgClass) :=
  match coreSector s g with
  | some (_, sec) => sec.image.bind fun i => (i.classes[(getCore s g).cls]?).map fun c => (i, c)
  | none => none

/-- SEGLD cases of R165. -/
def segldOk (s : State) (g pc : Nat) (x : Ctx) (l : LdOp) : Bool :=
  match coreClass s g with
  | some (_, c) =>
    decide (0 ≤ segIndex x l ∧ segIndex x l < (c.segCount : Int)) && pc / 64 != l.aux &&
      (getCore s g).segld.all fun p => p.half != l.aux
  | none => false

/-- Register writes of loaded words (R163). -/
def loadEffect (k dst bytes : Nat) (ws : List TWord) : Effect :=
  let n := bytes / 4
  let word (i : Nat) : TWord := tw ws i
  match regCode dst with
  | .e r => .regs ((List.range n).map fun i => (.e k ((r + i / 32) % 16) (i % 32), word i))
  | .oa r => .regs ((List.range n).map fun i => (.op ((r + i / 16) % 8) (i % 16), word i))
  | .ob r => .regs ((List.range n).map fun i => (.op (8 + (r + i / 16) % 8) (i % 16), word i))
  | .ac a => .accSet a ((List.range 16).map fun i => wordEl (word i))
  | .kb => .regs ((List.range 64).map fun i => (.kb i, word i))
  | .s r => .regs [(.s k r, word 0)]
  | .reserved => .regs []

/-- The first cycle after n in phase p. -/
def nextPhase (n p : Nat) : Nat := n + 1 + (p + 4 - (n + 1) % 4) % 4

/-- Service cycle of a local load issued in cycle n (R135). -/
def loadService (c : Core) (n : Nat) : Nat :=
  let m0 := c.loads.foldl (fun m p => match p.service with | some t => Nat.max m t | none => m) n
  let m := c.stores.foldl (fun m p => match p.service with | some t => Nat.max m t | none => m) m0
  Nat.min (nextPhase m 0) (nextPhase m 1)

/-- Service cycle of a local store issued in cycle n (R135). -/
def storeService (c : Core) (n : Nat) : Nat :=
  nextPhase (c.stores.foldl (fun m p => match p.service with | some t => Nat.max m t | none => m) n) 2

/-- Words that a store takes from its source (R166). -/
def storeWords (c : Core) (x : Ctx) (src bytes : Nat) : List TWord :=
  (List.range (bytes / 4)).map fun i =>
    match regCode src with
    | .e r => rdE x (r + i / 32) (i % 32)
    | .oa r => rdOp c ((r + i / 16) % 8) (i % 16)
    | .ob r => rdOp c (8 + (r + i / 16) % 8) (i % 16)
    | .ac a => let v := rdAcc c a i; ⟨v.val.setWidth 32, v.tag⟩
    | _ => TWord.zero

/-- i with its base-4 digits reversed over d digits. -/
def rev4 (d i : Nat) : Nat := (List.range d).foldl (fun a p => a * 4 + i / 4 ^ p % 4) 0

/-- The layout variants of Table 4.23; the parameter word of ILV and TCOL contributes to every stored word (R132). -/
def variantWords (c : Core) (x : Ctx) (o : StOp) (ws : List TWord) : List TWord :=
  let n := ws.length
  let pt := (rdS x o.par).tag
  match o.variant with
  | 1 =>
    let f := 2 ^ (sVal x o.par % 8)
    tagTile pt ((List.range n).map fun i => tw ws (i % f * (n / f) + i / f))
  | 2 =>
    let d := log2 n / 2
    (List.range n).map fun i => tw ws (rev4 d i)
  | 3 => (List.range n).map fun i => tw ws (4 * (i % 4) + i / 4)
  | 4 => tagTile pt ((List.range n).map fun i => tget TWord.zero c.ta.tr (16 * i + sVal x o.par % 16))
  | _ => ws

/-- ILV's condition, the one variant condition that a register decides (R167). -/
def variantOk (x : Ctx) (o : StOp) : Bool :=
  o.op != 1 || o.variant != 1 || (sizeBytes o.size / 4) % 2 ^ (sVal x o.par % 8) == 0

/-- When the load slot's or store slot's operation ends, for signals (R145): a known cycle, or an operation number. -/
inductive EndAt where
  | none
  | at_ (n : Nat)
  | op (id : Nat)
  deriving DecidableEq, Repr

/-- Add a load whose data are not there yet. -/
def addLoad (c : Core) (k n addr bytes dst : Nat) (service : Option Nat) (back : Option (List TWord)) (bad st : Bool) :
    Core :=
  { c with
    loads := c.loads ++ [⟨c.opSeq, k, addr, bytes, dst, service, back, bad, st, (getCtx c k).pc, n⟩]
    opSeq := c.opSeq + 1 }

/-- Zero words. -/
def zeroWords (n : Nat) : List TWord := List.replicate n TWord.zero

/-- Issue a local load (or LDS from the scalar table) in cycle n. -/
def issueLocalLoad (s : State) (g k n addr bytes dst : Nat) (ok st : Bool) : State × EndAt :=
  let c := getCore s g
  let t := loadService c n
  (setCore s g (addLoad c k n addr bytes dst (some t) (if ok then none else some (zeroWords (bytes / 4))) false st),
    .at_ (t + 6))

/-- Issue a miss in cycle n: the context parks (R130), the request is queued, or the fault waits for its response. -/
def issueMiss (s : State) (g k n : Nat) (e : Ea) (bytes dst : Nat) : State × EndAt :=
  let c := getCore s g
  let id := c.opSeq
  let c1 := addLoad c k n e.addr bytes dst none (if e.ok then none else some (zeroWords (bytes / 4))) (!e.ok) false
  let c2 := modCtx c1 k fun x => { x with miss := some id }
  let s1 := bump (setCore s g c2) (coreBase g + 0xC)
  ((if e.ok then pushReq s1 (readPort s g e.addr false) false e.addr bytes [] (.miss g id) else s1), .op id)

/-- Issue the load slot's LD or LDS in cycle n; true says that the context faults with ADDRESS now. -/
def issueLoad (s : State) (g k n : Nat) (x : Ctx) (l : LdOp) : State × EndAt × Bool :=
  match l.op with
  | 1 =>
    let e := effAddr s g x l.mode l.base l.off (sizeBytes l.size) false
    match e.place with
    | .own =>
      let r := issueLocalLoad s g k n e.addr (sizeBytes l.size) l.dst e.ok false
      (r.1, r.2, !e.ok)
    | .other =>
      let r := issueMiss s g k n e (sizeBytes l.size) l.dst
      (r.1, r.2, false)
  | 2 =>
    if l.mode = 0 then
      let r := issueLocalLoad s g k n (ldsIdx x l).toNat 4 l.dst true true
      (r.1, r.2, false)
    else
      let pub := match coreSector s g with
        | some (_, sec) => (publicRegion s sec).1
        | none => 0
      let r := issueMiss s g k n ⟨.other, tbBase (tileOfCore g) + pub + (ldsOff x l).toNat, true⟩ 4 l.dst
      (r.1, r.2, false)
  | _ => (s, .none, false)

/-- Add a store that is not served or acknowledged yet. -/
def addStore (c : Core) (k n addr : Nat) (ws : List TWord) (service : Option Nat) : Core :=
  { c with stores := c.stores ++ [⟨c.opSeq, k, addr, ws, service, n⟩], opSeq := c.opSeq + 1 }

/-- Issue the store slot in cycle n; true says that the context faults with ADDRESS now (R170). -/
def issueStore (s : State) (g k n : Nat) (x : Ctx) (o : StOp) : State × EndAt × Bool :=
  let c := getCore s g
  let id := c.opSeq
  match o.op with
  | 1 =>
    let bytes := sizeBytes o.size
    let e := effAddr s g x o.mode o.base o.off bytes true
    if !e.ok then (s, .at_ n, true)
    else
      let ws := variantWords c x o (storeWords c x o.src bytes)
      match e.place with
      | .own =>
        let t := storeService c n
        (setCore s g (addStore c k n e.addr ws (some t)), .at_ t, false)
      | .other =>
        let p := writePort s g e.addr false
        let waits := match p with
          | .credit _ => true
          | _ => false
        let c1 := addStore c k n e.addr ws none
        let c2 := if waits then modCtx c1 k fun y => { y with creditWait := some id } else c1
        (pushAt (setCore s g c2) p true e.addr bytes (ws.flatMap wordTBytes) (.store g id) n, .op id, false)
  | 2 =>
    match (coreSector s g).bind fun p => p.2.lcores[sVal x o.base / 65536]? with
    | some h =>
      if coreFenced s h then (s, .at_ n, true)
      else
        let c1 := addStore c k n (csBase h) [⟨BitVec.ofNat 32 (o.src % 8), false⟩] none
        (pushAt (setCore s g c1) (.stream h 0) true (csBase h + o.src % 8) 0 [] (.store g id) n, .op id, false)
    | none => (s, .at_ n, true)
  | _ => (s, .none, false)

/-- Address that a fault record names for the load slot and the store slot. -/
def ldAddr (s : State) (g : Nat) (x : Ctx) (l : LdOp) : Nat :=
  (effAddr s g x l.mode l.base l.off (sizeBytes l.size) false).addr
def stAddr (s : State) (g : Nat) (x : Ctx) (o : StOp) : Nat :=
  if o.op = 2 then sVal x o.base else (effAddr s g x o.mode o.base o.off (sizeBytes o.size) true).addr

/-- Alignment faults of the load and store slots (R134): the codes, and the address for the record. -/
def alignFaults (s : State) (g : Nat) (x : Ctx) (l : LdOp) (o : StOp) : List (Nat × Nat) :=
  (if l.op = 1 ∧ !aligned (ldAddr s g x l) (sizeBytes l.size) then [(fAlignment, ldAddr s g x l)] else []) ++
  (if l.op = 2 ∧ l.mode = 3 ∧ (ldsOff x l) % 4 ≠ 0 then
    [(fAlignment, addr52 ((tbBase (tileOfCore g) : Int) + ldsOff x l))] else []) ++
  (if l.op = 3 ∧ !aligned (effAddr s g x 0 l.base l.off 64 false).addr 64 then
    [(fAlignment, (effAddr s g x 0 l.base l.off 64 false).addr)] else []) ++
  (if o.op = 1 ∧ !aligned (stAddr s g x o) (sizeBytes o.size) then [(fAlignment, stAddr s g x o)] else [])

end Sys2Proof.Machine
end

