-- ==== Sys2Proof/Machine/Streams.lean ====
section
/-! DEFINITION. The stream engine (R370 to R389): descriptors, requests, chunks, accounting, records, cancellation. -/

namespace Sys2Proof.Machine

/-- Element size of a format (R371). -/
def strEsz (f : Nat) : Nat :=
  match f with
  | 1 => 8 | 2 => 8 | 4 => 2 | 8 => 2 | 5 => 1 | 6 => 1 | 7 => 1 | _ => 4

/-- Take a descriptor apart (Table 11.1); none where a reserved value or bit is used or a count is zero. A rec_off that
rec_en asks for and that is no multiple of 32 counts as a reserved value (log entry 65; DEDUCED). -/
def decodeStr (bs : List Byte) : Option StrDesc :=
  let w (o : Nat) := fieldAt bs o 4
  let w0 := w 0
  let fmt := bits w0 29 26
  let counts := [bits (w 0x14) 15 0, bits (w 0x14) 31 16, bits (w 0x18) 15 0, bits (w 0x18) 31 16]
  let ok := bits w0 31 30 < 2 && fmt < 10 && bits w0 17 16 < 3 && bits w0 6 0 == 0 && bits (w 8) 31 22 == 0 &&
    bits (w 0x10) 31 20 == 0 && bits (w 0x2C) 31 15 == 0 &&
    ((bs.drop 0x30).take 16).all (· == 0) &&
    counts.all (· != 0) && bits (w 4) 15 0 != 0 && bits w0 15 8 != 0 &&
    w 8 % 32 == 0 && (!bit w0 7 || w 0x2C % 32 == 0)
  if ok then some {
    out := bit w0 30
    esz := strEsz fmt
    burst := 256 * 2 ^ bits w0 25 24
    sigCnt := bits w0 23 21
    ackCnt := bits w0 20 18
    space := bits w0 17 16
    depth := bits w0 15 8
    recEn := bit w0 7
    ringCore := bits (w 4) 31 16
    cb := 32 * bits (w 4) 15 0
    ringBase := w 8
    start := w 0xC + w 0x10 * 2 ^ 32
    counts := counts
    strides := (List.range 4).map fun k => sext (w (0x1C + 4 * k)) 32
    recOff := w 0x2C }
  else none

/-- Total bytes of a pattern (R373). -/
def strTotal (d : StrDesc) : Nat := d.counts.foldl (· * ·) 1 * d.esz

/-- Address of the element with stream index e (R373), modulo 2^52. -/
def elAddr (d : StrDesc) (e : Nat) : Nat :=
  let c (i : Nat) := d.counts.getD i 1
  let st (i : Nat) := d.strides.getD i 0
  let i0 := e % c 0
  let i1 := e / c 0 % c 1
  let i2 := e / c 0 / c 1 % c 2
  let i3 := e / c 0 / c 1 / c 2
  addr52 ((d.start : Int) + i0 * st 0 + i1 * st 1 + i2 * st 2 + i3 * st 3)

/-- Lowest and highest element addresses of a pattern. -/
def strExtent (d : StrDesc) : Int × Int :=
  ((d.counts.zip d.strides).foldl (fun (acc : Int × Int) p =>
    let x : Int := ((p.1 : Int) - 1) * p.2
    if 0 ≤ x then (acc.1, acc.2 + x) else (acc.1 + x, acc.2)) ((d.start : Int), (d.start : Int)))

/-- The region of Table 1.5 as a number, within its reported size, reserved offsets of its windows included; 9 for none. -/
def regionCode (s : State) (a : Nat) : Nat :=
  if a < gddrBase then (if a < hbmBytes s then 0 else 9)
  else if a < 0x100000000000 then (if a - gddrBase < gddrBytes s then 1 else 9)
  else if a < 0x200000000000 then (if a < csBase nCores then 2 else 9)
  else if a < regsBase then (if a < tbBase nTiles then 3 else 9)
  else if a < regsBase + 2 ^ 32 then 4
  else 9

/-- Core that holds the ring (ring_space 0b10) or whose tile does. -/
def ringHome (s : State) (g : Nat) (d : StrDesc) : Nat :=
  if d.space = 2 then
    match coreSector s g with
    | some (_, x) => (x.lcores[d.ringCore]?).getD g
    | none => g
  else g

/-- The checks of R372. -/
def strAccept (s : State) (g : Nat) (d : StrDesc) : Bool :=
  let size := d.depth * d.cb
  let ext := strExtent d
  (match coreSector s g with
    | some (_, x) =>
      decide (d.ringCore < lcoreCount x) &&
      (d.space != 1 || (protectedAreas s x).all fun p => !overlaps d.ringBase size p.1 p.2)
    | none => false) &&
  decide (d.ringBase + size ≤ (if d.space = 1 then 0x300000 else 0x8000)) &&
  d.start % d.esz == 0 && d.strides.all (fun t => t % (d.esz : Int) == 0) &&
  decide (0 ≤ ext.1 ∧ ext.2 + (d.esz : Int) ≤ (2 ^ 52 : Nat)) &&
  (let lo := regionCode s ext.1.toNat
   let hi := regionCode s (ext.2.toNat + d.esz - 1)
   lo == hi && (lo == 1 || lo == 2 || lo == 3)) &&
  (!d.recEn || decide (d.recOff + 32 ≤ 0x8000))

/-- Sync counter i of core h. -/
def syncCnt (s : State) (h i : Nat) : BitVec 16 := tget 0 (getCore s h).cnt i

/-- Start slot k of core g with an accepted descriptor. -/
def startStream (s : State) (g k ctx : Nat) (d : StrDesc) : State :=
  let h := ringHome s g d
  let st : Stream := {
    desc := { d with ringCore := h }
    ctx := ctx
    bSig := syncCnt s h d.sigCnt
    bAck := syncCnt s h d.ackCnt
    nextOff := 0
    reqs := []
    chunks := []
    sigma := 0
    started := s.ftime.toNat
    issued := 0
    used := 0
    evicted := 0
    late := 0
    short := 0 }
  modCore s g fun c => { c with streams := tset none c.streams k (some st) }

/-- Stream slot k of core g. -/
def getStr (s : State) (g k : Nat) : Option Stream := tget none (getCore s g).streams k
/-- Replace stream slot k of core g. -/
def setStr (s : State) (g k : Nat) (x : Option Stream) : State :=
  modCore s g fun c => { c with streams := tset none c.streams k x }

/-- σ and α of a stream (R376, R377). -/
def strAlpha (s : State) (st : Stream) : Nat := (syncCnt s st.desc.ringCore st.desc.ackCnt - st.bAck).toNat

/-- Device address of stream offset o in the ring. -/
def ringAddr (_s : State) (st : Stream) (o : Nat) : Nat :=
  let d := st.desc
  let off := d.ringBase + (o / d.cb % d.depth) * d.cb + o % d.cb
  if d.space = 1 then tbBase (tileOfCore d.ringCore) + off else csBase d.ringCore + off

/-- Bytes of the request that starts at stream offset o (R374): consecutive elements inside one chunk and window. -/
def reqLen (s : State) (d : StrDesc) (o : Nat) : Nat :=
  let a := elAddr d (o / d.esz)
  let win := match regionOf s a with
    | .gddr => d.burst
    | _ => 256
  let chunkEnd := Nat.min ((o / d.cb + 1) * d.cb) (strTotal d)
  let fits (i : Nat) : Bool :=
    o + (i + 1) * d.esz ≤ chunkEnd && elAddr d (o / d.esz + i) == a + i * d.esz &&
    (a + (i + 1) * d.esz - 1) / win == a / win
  let n := ((List.range (win / d.esz)).takeWhile fits).length
  (if n = 0 then 1 else n) * d.esz

/-- Is this the stager (R229), which the Die Sequencer runs, and no context? -/
def isStager (st : Stream) : Bool := st.ctx == 4

/-- May the engine issue the next request of this stream (R375 to R377)? -/
def strEligible (s : State) (st : Stream) : Bool :=
  !isStager st &&
  let n := st.nextOff / st.desc.cb
  let a := strAlpha s st
  decide (st.nextOff < strTotal st.desc) && decide (st.reqs.length < 16) &&
  (if st.desc.out then decide (1 ≤ (a + 65536 - n % 65536) % 65536 ∧ (a + 65536 - n % 65536) % 65536 ≤ st.desc.depth)
   else decide ((n % 65536 + 65536 - a) % 65536 < st.desc.depth))

/-- Requests that a core's engine has outstanding. -/
def strOutstanding (c : Core) : Nat :=
  c.streams.foldl (fun n p => match p.2 with | some st => n + st.reqs.length | none => n) 0

/-- Issued chunks that are neither released nor acknowledged. -/
def strWasted (st : Stream) : Nat := (st.chunks.filter fun c => !c.released).length

/-- Counts of a finished or cancelled stream, in the order of Table 11.2. -/
def strCounts (st : Stream) (wasted : Nat) : List Nat := [st.issued, st.used, st.evicted, wasted, st.late, st.short]

/-- Add a stream's counts to its tile's counters and its job's statistics (R385). -/
def accountStream (s : State) (g : Nat) (cs : List Nat) : State :=
  let s1 := (List.range 6).foldl (fun st i => bumpN st (tileBase (tileOfCore g) + 0x20 + 4 * i) (cs.getD i 0)) s
  match (coreSector s1 g).bind fun p => p.2.running with
  | some j => modJob s1 j fun jb =>
      { jb with stats := { jb.stats with streams := (List.range 6).map fun i => jb.stats.streams.getD i 0 + cs.getD i 0 } }
  | none => s1

/-- The stream record of Table 11.3. -/
def strRecord (s : State) (st : Stream) (k ending wasted : Nat) : List Byte :=
  (strCounts st wasted).flatMap (leBytes 4) ++ leBytes 4 (k * 256 + ending) ++
    leBytes 4 (s.ftime.toNat - st.started)

/-- Write the stream record as a local write on the stream port, when rec_en asks for it. -/
def writeRecord (s : State) (g k ending wasted : Nat) (st : Stream) : State :=
  if st.desc.recEn then
    pushReq s (.stream g 2) true (csBase g + st.desc.recOff) 32
      ((strRecord s st k ending wasted).map fun b => ⟨b, false⟩) .host
  else s

/-- What a cancellation does to one request of slot k of core g (R386, R387): what stays in its queue, and the credits
that come back. -/
def drainReq (g k : Nat) (out : Bool) (r : MemReq) : Option MemReq :=
  let mine := match r.origin with
    | .strRead h j _ => h == g && j == k
    | .strWrite h j _ => h == g && j == k
    | _ => false
  if !mine then some r
  else if !r.write then some { r with origin := .drain }
  else match r.port with
    | .dram _ => some { r with origin := if out then .host else .drain }
    | .bank _ _ => if out then some { r with origin := .host } else none
    | .bankWait _ _ => if out then some { r with origin := .host } else none
    | _ => none

/-- Credits that a cancelled, granted remote write returns: those of its lines that have not been served (R347). -/
def drainCredits (s : State) (g k : Nat) : State :=
  s.memq.foldl (fun st r =>
    match r.origin, r.port with
    | .strWrite h j _, .stream t 0 =>
      if h = g ∧ j = k then modCore st t fun c => { c with credits := c.credits + r.linesLeft.length } else st
    | _, _ => st) s

/-- Release the landed IN chunks that α has passed (R383). -/
def releaseChunks (s : State) (st : Stream) : Stream :=
  if st.desc.out || isStager st then st
  else
    let a := strAlpha s st
    -- α counts modulo 2^16: chunk n has been returned when α lies 1 to 2^15 beyond it
    let returned (n : Nat) : Bool := decide (0 < (a + 65536 - n % 65536) % 65536 ∧ (a + 65536 - n % 65536) % 65536 ≤ 32768)
    let rel (c : Chunk) : Bool := c.landed && !c.released && returned c.n
    { st with
      used := st.used + (st.chunks.filter fun c => rel c && c.touched).length
      evicted := st.evicted + (st.chunks.filter fun c => rel c && !c.touched).length
      chunks := st.chunks.map fun c => if rel c then { c with released := true } else c }

/-- A stream's chunks at its cancellation: what α has passed is released, and an OUT chunk whose writes are all acknowledged is
used although an earlier one still holds its count back (Table 11.2). -/
def settleChunks (s : State) (st : Stream) : Stream :=
  let st1 := releaseChunks s st
  if st1.desc.out then
    let done (c : Chunk) : Bool := c.landed && !c.counted
    { st1 with
      used := st1.used + (st1.chunks.filter done).length
      chunks := st1.chunks.map fun c => if done c then { c with released := true } else c }
  else st1

/-- Cancel slot k of core g (R386 to R388); a record is written only for STRX (R385). The stager is held for the whole job
(R229): a program's STRX leaves it. -/
def cancelStream (s : State) (g k : Nat) (strx : Bool) : State :=
  match getStr s g k with
  | none => s
  | some st0 =>
    if strx && isStager st0 then s else
    let st := settleChunks s st0
    let w := strWasted st
    let s1 := drainCredits s g k
    let s2 := { s1 with memq := s1.memq.filterMap (drainReq g k st.desc.out) }
    let s3 := if strx then writeRecord s2 g k 2 w st else s2
    setStr (accountStream s3 g (strCounts st w)) g k none

/-- Cancel every stream of core g (R378, R386). -/
def cancelStreams (s : State) (g : Nat) : State := (List.range 8).foldl (fun st k => cancelStream st g k false) s

/-- Release the chunks of every stream whose ring counters core g holds (R383). -/
def releaseRing (s : State) (g : Nat) : State :=
  let upd (st : Stream) : Stream := if st.desc.ringCore = g then releaseChunks s st else st
  if s.cores.any fun p => p.2.streams.any fun q => q.2.any fun st => upd st != st then
    { s with cores := tmap Core.fresh (fun c => { c with streams := tmap none (·.map upd) c.streams }) s.cores }
  else s

/-- Set the touched bits that a read of [a, a + len) sets (R383). -/
def touchRange (s : State) (a len : Nat) : State :=
  let hit (st : Stream) (c : Chunk) : Bool := c.landed && !c.released && overlaps a len c.base (c.base + st.desc.cb)
  let upd (st : Stream) : Stream :=
    if st.desc.out then st else { st with chunks := st.chunks.map fun c => if hit st c then { c with touched := true } else c }
  { s with cores := tmap Core.fresh (fun c => { c with streams := tmap none (·.map upd) c.streams }) s.cores }

/-- Report an address fault of a running stream (R389): it is cancelled, and the context of its STRS faults. -/
def streamFault (s : State) (g k addr : Nat) : State :=
  match getStr s g k with
  | none => s
  | some st =>
    let s1 := cancelStream s g k false
    faultCtx s1 g st.ctx (getCtx (getCore s1 g) st.ctx).pc [fAddress] addr

/-- The slot that the engine serves next (R375). -/
def nextSlot (s : State) (g : Nat) : Option Nat :=
  let c := getCore s g
  if 64 ≤ strOutstanding c then none
  else ((List.range 8).map fun i => (c.strTurn + 1 + i) % 8).find? fun k =>
    match getStr s g k with
    | some st => strEligible s st
    | none => false

/-- Issue one request of the stream engine of core g (R374, R375): an IN request reads its source, an OUT request its
ring. A source or destination outside the job's memory ends the stream under R389. -/
def issueStreamReq (s : State) (g : Nat) : State :=
  match nextSlot s g with
  | none => s
  | some k =>
    match getStr s g k with
    | none => s
    | some st =>
      let d := st.desc
      let o := st.nextOff
      let len := reqLen s d o
      let pat := elAddr d (o / d.esz)
      let n := o / d.cb
      let ring := ringAddr s st o
      let fenced := match regionOf s ring with
        | .cs h _ => coreFenced s h
        | .tb t _ => tileFenced s t
        | _ => true
      if !accessOk s (coreAgent s g) pat len d.out || fenced then
        streamFault s g k (if fenced then ring else pat)
      else
        let id := (getCore s g).opSeq
        let short := regionCode s pat == 1 && decide (len < 256)
        let st1 : Stream := { st with
          nextOff := o + len
          reqs := st.reqs ++ [⟨id, n, o, len⟩]
          chunks := if st.chunks.any (fun c => c.n == n) then st.chunks else st.chunks ++ [⟨n, ringAddr s st (n * d.cb), false, false, false, false⟩]
          issued := if st.chunks.any (fun c => c.n == n) then st.issued else st.issued + 1
          short := if short then st.short + 1 else st.short }
        let s1 := modCore (setStr s g k (some st1)) g fun c => { c with opSeq := c.opSeq + 1, strTurn := k }
        let src := if d.out then ring else pat
        pushReq s1 (readPort s1 g src true) false src len [] (.strRead g k id)

/-- Stream offset of request id. -/
def strReqOff (st : Stream) (id : Nat) : Nat :=
  match st.reqs.find? fun r => r.id == id with
  | some r => r.off
  | none => 0

/-- Does every request of chunk n stand issued and complete? -/
def chunkWhole (st : Stream) (n : Nat) : Bool :=
  decide ((n + 1) * st.desc.cb ≤ st.nextOff ∨ st.nextOff = strTotal st.desc) && st.reqs.all fun r => r.chunk != n

/-- A request of slot k is complete: its bytes are in place. IN chunks that are now whole have landed. -/
def strReqDone (s : State) (g k id : Nat) : State :=
  match getStr s g k with
  | none => s
  | some st =>
    let st1 := { st with reqs := st.reqs.filter fun r => r.id != id }
    let st2 := { st1 with chunks := st1.chunks.map fun c => if chunkWhole st1 c.n then { c with landed := true } else c }
    let s1 := setStr s g k (some st2)
    setStr s1 g k (some (releaseChunks s1 st2))

end Sys2Proof.Machine
end

