-- ==== Sys2Proof/Machine/CoreSync.lean ====
section
/-! DEFINITION. What happens in a core between issues, cycle by cycle: local loads and stores served (R135), results
landing in the order of R141, signals grouped under R146, barrier channels (R147 to R149), segments (R165), and contexts
that finish halting (R154). -/

namespace Sys2Proof.Machine

/-- Serve the local loads whose service cycle is t: the data are read now and land six cycles later (R135). -/
def serveLoads (s : State) (g t : Nat) : State :=
  let c := getCore s g
  let now := c.loads.filter fun p => p.service == some t
  let words (p : PLoad) : List TWord :=
    match p.back with
    | some ws => ws
    | none =>
      if p.scalarTable then
        match coreSector s g with
        | some (_, x) => [⟨x.scalar.getD p.addr 0, false⟩]
        | none => [TWord.zero]
      else readWords s p.addr (p.bytes / 4)
  let effs := now.map fun p => (⟨t + 6, .load, p.ctx, p.iss, loadEffect p.ctx p.dst p.bytes (words p)⟩ : Pend)
  let s1 := setCore s g { c with loads := c.loads.filter (fun p => p.service != some t), pend := c.pend ++ effs }
  now.foldl (fun st p => if p.scalarTable || p.back.isSome then st else touchRange st p.addr p.bytes) s1

/-- Serve the local stores whose service cycle is t (R135). -/
def serveStores (s : State) (g t : Nat) : State :=
  let c := getCore s g
  let now := c.stores.filter fun p => p.service == some t
  let s1 := setCore s g { c with stores := c.stores.filter fun p => p.service != some t }
  now.foldl (fun st p => writeWords st p.addr p.words) s1

/-- Land array and Transform Assist results that are readable from cycle t on (R115, R141). -/
def landEarly (s : State) (g t : Nat) : State :=
  modCore s g fun c => landEngine (landEngine c t .array) t .ta
/-- Land Element Unit results written in cycle t: a result of latency L is written in cycle c + L, after the reads of that
cycle's bundle (R140), as the data of a load are (log entry 63; DEDUCED). -/
def landEu (s : State) (g t : Nat) : State := modCore s g fun c => landEngine c t .eu
/-- Land load data written in cycle t. -/
def landLoad (s : State) (g t : Nat) : State := modCore s g fun c => landEngine c t .load

/-- Segment loads that end in cycle t fill their half (R165). -/
def landSegs (s : State) (g t : Nat) : State :=
  let c := getCore s g
  let now := c.segld.filter fun p => p.ends == t
  match coreClass s g with
  | some (i, cl) =>
    setCore s g (now.foldl (fun c p =>
      { c with istore := tsetRun 0 c.istore (64 * p.half) (i.segs.getD (cl.firstSeg + p.seg) (List.replicate 64 0)) })
      { c with segld := c.segld.filter fun p => p.ends != t })
  | none => setCore s g { c with segld := c.segld.filter fun p => p.ends != t }

/-- Barrier channel state of a sector. -/
def getChan (x : Sector) (ch : Nat) : Chan := tget Chan.idle x.chanSt ch

/-- Result of a channel from its contributions (Table 4.7). -/
def chanResult (mode : Nat) (cs : List Nat) : Nat :=
  match mode with
  | 1 => if cs.any (· != 0) then 1 else 0
  | 2 => if cs.all (· != 0) then 1 else 0
  | 3 => cs.foldl (· + ·) 0 % 65536
  | _ => cs.foldl Nat.max 0

/-- The channel-table entry of a channel. -/
def chanEntry (x : Sector) (ch : Nat) : Option ImgChan := x.chans.find? fun e => e.channel == ch

/-- Core g arrives at channel ch in cycle t with an ARRIVE issued in cycle n0: its contribution is sampled, and the last
arrival sets the completion in every participant (R148, R149). -/
def arrive (s : State) (g t n0 ch : Nat) : State :=
  match coreSector s g with
  | none => s
  | some (sn, x) =>
    match chanEntry x ch with
    | none => s
    | some e =>
      let c := getCore s g
      let v := match e.mode with
        | 1 => if tget false c.flags e.src then 1 else 0
        | 2 => if tget false c.flags e.src then 1 else 0
        | _ => (tget 0 c.cnt (e.src % 8)).toNat
      let st := getChan x ch
      let arr := st.arrived ++ [(g, v)]
      if arr.length < e.last + 1 - e.first then
        setSector s sn (some { x with chanSt := tset Chan.idle x.chanSt ch { st with arrived := arr } })
      else
        let due := Nat.max (n0 + x.lambda) t
        let r := chanResult e.mode (arr.map (·.2))
        let s1 := setSector s sn (some { x with chanSt := tset Chan.idle x.chanSt ch Chan.idle })
        arr.foldl (fun st p => modCore st p.1 fun c =>
          { c with sigs := c.sigs ++ [⟨0, 9, ch, [], due, r⟩] }) s1

/-- Is this core's arrival on the channel pending (R147)? A completion that has not taken effect leaves it pending. -/
def arrivalPending (s : State) (g ch : Nat) : Bool :=
  (match coreSector s g with
    | some (_, x) => (getChan x ch).arrived.any fun p => p.1 == g
    | none => false) ||
  (getCore s g).sigs.any fun p => p.kind == 9 && p.sel == ch

/-- Has this core an ARRIVE on the channel that is issued and not performed? -/
def arriveIssued (c : Core) (ch : Nat) : Bool := c.sigs.any fun p => p.kind == 5 && p.sel == ch

/-- Flag and counter updates of one signal, by the rank of R146: 0 CLEAR, ZERO and channel results, 1 increments and
decrements, 2 SET. -/
def sigRank (k : Nat) : Nat :=
  match k with
  | 2 => 0 | 6 => 0 | 9 => 0 | 3 => 1 | 4 => 1 | 1 => 2 | _ => 3

/-- Apply one signal's update to the flags and counters. -/
def applySig (s : State) (g : Nat) (p : PSig) : State :=
  let setFlag (f : Nat) (v : Bool) : State := modCore s g fun c => { c with flags := tset false c.flags (f % 32) v }
  let setCnt (i : Nat) (f : BitVec 16 → BitVec 16) : State :=
    modCore s g fun c => { c with cnt := tset 0 c.cnt (i % 8) (f (tget 0 c.cnt (i % 8))) }
  match p.kind with
  | 1 => setFlag p.sel true
  | 2 => setFlag p.sel false
  | 3 => setCnt p.sel (· + 1)
  | 4 => setCnt p.sel (· - 1)
  | 6 => setCnt p.sel fun _ => 0
  | 9 =>
    match (coreSector s g).bind fun q => chanEntry q.2 p.sel with
    | some e =>
      match e.mode with
      | 0 => s
      | 1 => setFlag e.dst (p.issued != 0)
      | 2 => setFlag e.dst (p.issued != 0)
      | _ => setCnt e.dst fun _ => BitVec.ofNat 16 p.issued
    | none => s
  | _ => s

/-- Perform the signals of cycle t that satisfy a predicate. Arrivals sample the flags and counters as they stand at the
start of the cycle; then all of the cycle's updates so far are applied together, in the order of R146, to those values. -/
def performSigs (s : State) (g t : Nat) (sel : PSig → Bool) : State :=
  let c := getCore s g
  let due (p : PSig) : Bool := p.deps.isEmpty && p.at_ == t && sel p
  let now := c.sigs.filter due
  if now.isEmpty then s
  else
    let again := c.sigCyc == t
    let fl := if again then c.sigFlags else c.flags
    let cn := if again then c.sigCnt else c.cnt
    let all := (if again then c.sigDone else []) ++ now.filter fun p => p.kind != 5
    let s1 := setCore s g { c with
      sigs := c.sigs.filter fun p => !due p
      flags := fl, cnt := cn, sigCyc := t, sigFlags := fl, sigCnt := cn, sigDone := all }
    let s2 := (now.filter fun p => p.kind == 5).foldl (fun st p => arrive st g t p.issued p.sel) s1
    let grp (r : Nat) (st : State) : State := (all.filter fun p => sigRank p.kind == r).foldl (fun st p => applySig st g p) st
    releaseRing (grp 2 (grp 1 (grp 0 s2))) g

/-- Everything that core g does in cycle t after its issue (R135, R141, R146). -/
def endCycle (s : State) (g t : Nat) : State :=
  let s1 := serveStores (serveLoads s g t) g t
  let s2 := landLoad (landEu s1 g t) g t
  let s3 := landSegs s2 g t
  performSigs s3 g t fun _ => true

/-- The cycles in which something of this core is due. -/
def dueCycles (c : Core) : List Nat :=
  c.pend.map (·.due) ++ c.loads.filterMap (·.service) ++ c.stores.filterMap (·.service) ++ c.segld.map (·.ends) ++
    c.sigs.filterMap fun p => if p.deps.isEmpty then some p.at_ else none

/-- The earliest due cycle before n. -/
def nextDue (c : Core) (n : Nat) : Option Nat :=
  (dueCycles c).foldl (fun m t => if t < n then (match m with | some u => some (Nat.min u t) | none => some t) else m) none

/-- Run a core's due cycles before n, in order. -/
def settleLoop : Nat → State → Nat → Nat → State
  | 0, s, _, _ => s
  | fuel + 1, s, g, n =>
    match nextDue (getCore s g) n with
    | some t => settleLoop fuel (endCycle (landEarly s g t) g t) g n
    | none => s

/-- More cycles than can be due in a core: every pending entry, twice for loads, and one completion per channel. -/
def settleFuel (c : Core) : Nat := (dueCycles c).length + c.loads.length + 64

/-- A halting context has ended once nothing that it issued is outstanding (R154). -/
def haltDone (c : Core) (k : Nat) : Bool :=
  (getCtx c k).run == .halting &&
  c.pend.all (fun p => p.ctx != k) && c.loads.all (fun p => p.ctx != k) && c.stores.all (fun p => p.ctx != k) &&
  (match c.held with | some h => h.ctx != k | none => true) &&
  c.segld.all fun p => p.ctx != k

/-- Contexts that have finished halting end their part of the stride. -/
def finishHalts (c : Core) : Core :=
  (List.range 4).foldl (fun c k => if haltDone c k then modCtx c k fun x => { x with run := .halted } else c) c

/-- Bring core g to the start of cycle n: everything due earlier has happened, and the array and Transform Assist
results readable in cycle n are in place. -/
def settle (s : State) (g n : Nat) : State :=
  let s1 := settleLoop (settleFuel (getCore s g)) s g n
  let s2 := landEarly s1 g n
  let c := getCore s2 g
  if finishHalts c = c then s2 else setCore s2 g (finishHalts c)

/-- Bring the arrivals of the other cores of the sector to cycle n, so that completions are known (R149). -/
def settleArrivals (s : State) (g n : Nat) : State :=
  match coreSector s g with
  | none => s
  | some (_, x) =>
    x.lcores.foldl (fun st h =>
      if h != g && (getCore st h).sigs.any (fun p => p.kind == 5 && p.deps.isEmpty && decide (p.at_ < n)) then
        settle st h n
      else st) s

/-- Cycle n of core g takes no issue any more. -/
def closeCycle (s : State) (g n : Nat) : State :=
  modCore s g fun c => { c with cyc := Nat.max c.cyc (n + 1) }

/-- Is core g loaded for a sector, and may cycle n still be acted on? -/
def coreAt (s : State) (g n : Nat) : Bool :=
  (getCore s g).sector.isSome && decide ((getCore s g).cyc ≤ n + 1)

/-- Operation id of core g ends in cycle n: signals that wait for it learn the cycle (R145). -/
def opEnded (s : State) (g id n : Nat) : State := modCore s g fun c => resolveSig c id n

/-- The returned miss of context k is written in cycle n; the context is ready in the next cycle, or faults with ADDRESS
(R130, R170). -/
def landMiss (s : State) (g k n : Nat) : State :=
  let c := getCore s g
  match (getCtx c k).miss.bind fun id => c.loads.find? fun p => p.id == id with
  | some p =>
    match p.back with
    | some ws =>
      let c1 := { c with
        loads := c.loads.filter fun q => q.id != p.id
        pend := c.pend ++ [⟨n, .load, k, p.iss, loadEffect k p.dst p.bytes ws⟩] }
      let c2 := modCtx c1 k fun x => { x with miss := none, readyFrom := Nat.max x.readyFrom (n + 1) }
      let s1 := opEnded (setCore s g c2) g p.id n
      if p.bad then faultCtx s1 g k p.idx [fAddress] p.addr else s1
    | none => s
  | none => s

/-! The commands of a core between issues. Each acts in cycle n of core g, after everything due earlier. -/

/-- ARRAY_RESULT_READY (R115): array results readable in cycle n are in place. -/
def arrayResultAt (g n : Nat) (s : State) : State :=
  if coreAt s g n then modCore (settleLoop (settleFuel (getCore s g)) s g n) g fun c => landEngine c n .array else s

/-- TRANSFORM_ASSIST_RESULT (R119, R121): the lanes, step factor or matrix buffer hold their new values in cycle n. -/
def taResultAt (g n : Nat) (s : State) : State := if coreAt s g n then settle s g n else s

/-- ELEMENT_RESULT_WRITE (R123): Element Unit results of cycle n are written to their lanes. -/
def elementWriteAt (g n : Nat) (s : State) : State :=
  if coreAt s g n then closeCycle (landEu (settle s g n) g n) g n else s

/-- CORE_STORE_LOAD_SERVICE (R133, R135): the oldest local load is served in cycle n of phase 0 or 1. -/
def loadServiceAt (g n : Nat) (s : State) : State :=
  if coreAt s g n then closeCycle (serveLoads (settle s g n) g n) g n else s

/-- CORE_STORE_STORE_SERVICE (R133, R135): the oldest local store is served in cycle n of phase 2. -/
def storeServiceAt (g n : Nat) (s : State) : State :=
  if coreAt s g n then closeCycle (serveStores (settle s g n) g n) g n else s

/-- LOAD_DATA_RETURN (R130): data of context k's miss, or of local loads, are written in cycle n, over what the other
engines write in that cycle (R141). -/
def loadReturnAt (g k n : Nat) (s : State) : State :=
  if coreAt s g n then closeCycle (landLoad (landEu (landMiss (settle s g n) g k n) g n) g n) g n else s

/-- SEGLD_COMPLETE (R165). -/
def segldEndAt (g n : Nat) (s : State) : State :=
  if coreAt s g n then closeCycle (landSegs (settle s g n) g n) g n else s

/-- SIGNAL_ACTION (R145, R146): the signals whose cycle is n are performed. -/
def signalAt (g n : Nat) (s : State) : State :=
  if coreAt s g n then closeCycle (performSigs (settle s g n) g n fun _ => true) g n else s

/-- BARRIER_COMPLETE (R148, R149): channel ch of the sector completes in cycle n in every participant. -/
def barrierAt (sn ch n : Nat) (s : State) : State :=
  match getSector s sn with
  | none => s
  | some x =>
    match chanEntry x ch with
    | none => s
    | some e =>
      ((x.lcores.drop e.first).take (e.last + 1 - e.first)).foldl (fun st g =>
        if coreAt st g n then
          closeCycle (performSigs (settle (settleArrivals st g n) g n) g n fun p => p.kind == 9 && p.sel == ch) g n
        else st) s

end Sys2Proof.Machine
end

