-- ==== Sys2Proof/Machine/CoreIssue.lean ====
section
/-! DEFINITION. The issue of bundles (R129 to R131, R139 to R145, R150 to R173) and the faults of cores. -/

namespace Sys2Proof.Machine

/-- Bundle at an index of the instruction store. -/
def bundleAt (c : Core) (i : Nat) : Bundle := tget 0 c.istore i

/-- Does a wait condition hold (R144)? -/
def waitHolds (s : State) (g : Nat) (x : Ctx) (w : Ctl) : Bool :=
  let c := getCore s g
  let cnt (i : Nat) : Nat := (tget 0 c.cnt (i % 8)).toNat
  match w.waitKind with
  | 1 => tget false c.flags (w.waitSel % 32)
  | 2 => !tget false c.flags (w.waitSel % 32)
  | 3 => decide (w.waitVal ≤ cnt w.waitSel)
  | 4 => decide (sVal x w.waitVal % 65536 ≤ cnt w.waitSel)
  | 5 => !arrivalPending s g w.waitSel
  | _ => true

/-- Is a half of the instruction store being filled (R153)? -/
def filling (c : Core) (pc : Nat) : Bool := c.segld.any fun p => p.half == pc / 64

/-- Is context k ready in cycle n (R129, R130, R151)? A fetch past index 127 is ready, and faults; a context whose next
bundle lies in a half that is being filled is taken, and its core stalls (R153). -/
def ctxReady (s : State) (g k n : Nat) : Bool :=
  let x := getCtx (getCore s g) k
  x.run == .running && x.miss.isNone && x.creditWait.isNone && decide (x.readyFrom ≤ n) &&
  (decide (127 < x.pc) || filling (getCore s g) x.pc ||
    waitHolds s g x (decCtl (bits (bundleAt (getCore s g) x.pc).toNat 255 224)))

/-- Order in which contexts are considered in cycle n (R129): the one that issued in the previous cycle comes first. -/
def ctxOrder (c : Core) (n : Nat) : List Nat :=
  let rot (i : Nat) : List Nat := (List.range 4).map fun j => (c.cur + i + j) % 4
  if c.prefCyc = some (n - 1) ∧ 0 < n then rot 0 else rot 1

/-- The context that issues in cycle n, if any is ready. -/
def chooseCtx (s : State) (g n : Nat) : Option Nat :=
  (ctxOrder (getCore s g) n).find? fun k => ctxReady s g k n

/-- Activity level of the array's ramp, in eighths, c cycles after its first operation (R501). -/
def rampRate (c : Nat) : Nat := Nat.min 8 (1 + c / 4)
/-- First cycle of the ramp and budget b at cycle n: a pause of 64 cycles, or a wake, restarts it (R501). -/
def rampAt (c : Core) (n : Nat) : Nat × Nat :=
  match c.ramp with
  | none => (n, 8)
  | some (first, last, b) =>
    if last + 64 < n then (n, 8)
    else (first, Nat.min 8 (b + ((List.range (n - 1 - last)).map fun i => rampRate (last + 1 + i - first)).sum))
/-- The ramp after an operation issued in cycle n. -/
def rampIssue (c : Core) (n : Nat) : Core :=
  let (first, b) := rampAt c n
  { c with ramp := some (first, n, Nat.min 8 (b - 8 + rampRate (n - first))) }

/-- Pace of a tile (Table 14.8, PWR_TILE_PACEn). -/
def tilePace (s : State) (t : Nat) : Nat := regFld s (0x40200 + 4 * (t / 8)) (4 * (t % 8) + 2) (4 * (t % 8))

/-- Does the bundle wait for an engine (R131, R153)? -/
def stalls (s : State) (g n : Nat) (x : Ctx) (b : Bun) : Bool :=
  let c := getCore s g
  let local_ (m : Nat) : Bool := m == 0
  let ldLocal := (b.ld.op == 1 && (effAddr s g x b.ld.mode b.ld.base b.ld.off (sizeBytes b.ld.size) false).place == .own) ||
    (b.ld.op == 2 && local_ b.ld.mode)
  let stLocal := b.st.op == 1 && (effAddr s g x b.st.mode b.st.base b.st.off (sizeBytes b.st.size) true).place == .own
  let full (p : Port) : Bool := match p with
    | .bank t cls => decide (256 ≤ portCount s (.bank t cls))
    | _ => false
  filling c x.pc ||
  (b.ar.op != 0 && (c.held.isSome || decide ((rampAt c n).2 < 8))) ||
  (b.el.op != 0 && decide (n < c.euFree)) ||
  (b.ta.op != 0 && decide (n < c.taFree)) ||
  (ldLocal && decide (4 ≤ (c.loads.filter fun p => p.service.isSome).length)) ||
  (stLocal && decide (4 ≤ (c.stores.filter fun p => p.service.isSome).length)) ||
  (b.ld.op == 1 && !ldLocal && full (readPort s g (ldAddr s g x b.ld) false)) ||
  (b.ld.op == 2 && !ldLocal && full (.bank (tileOfCore g) 0)) ||
  (b.st.op == 1 && !stLocal && full (writePort s g (stAddr s g x b.st) false))

/-- SYNC cases of an ARRIVE (R147). An ARRIVE that has issued counts as a pending arrival before its sig_on cycle: a second
one in between faults (log entry 63; DEDUCED). -/
def arriveOk (s : State) (g ch : Nat) : Bool :=
  match coreSector s g with
  | some (_, x) =>
    match chanEntry x ch with
    | some e =>
      let l := (getCore s g).lcore
      decide (e.first ≤ l ∧ l ≤ e.last) && !arrivalPending s g ch && !arriveIssued (getCore s g) ch
    | none => false
  | none => false

/-- Faults detected in the issue cycle (R169): codes with the address for the record. -/
def issueFaults (s : State) (g : Nat) (x : Ctx) (b : Bun) : List (Nat × Nat) :=
  let c := getCore s g
  if !encodingOk b then [(fEncoding, 0)]
  else
    let z (l : List Nat) : List (Nat × Nat) := l.map fun i => (i, 0)
    let str : List Nat :=
      if b.ld.op = 3 then
        let e := effAddr s g x 0 b.ld.base b.ld.off 64 false
        (if (getStr s g b.ld.aux).isSome then [fStream] else []) ++
        (if e.ok then
          match decodeStr (memBytes s e.addr 64) with
          | some d => if strAccept s g d then [] else [fStream]
          | none => [fStream]
        else [])
      else []
    let gang : List Nat :=
      if b.ar.op = 7 ∧ gangModeOf b.ar ≠ .off ∧ (gangMembers g (gangModeOf b.ar)).any (coreFenced s) then [fGang] else []
    z (arFaults c x b.ar ++ gang ++ (if gangClash s g b.ar then [fGang] else []) ++ elFaults c x b.el ++ taFaults c b.ta ++
      (if b.ld.op = 2 ∧ !ldsOk s g x b.ld then [fScalarSource] else []) ++
      (if b.ld.op = 5 ∧ !segldOk s g x.pc x b.ld then [fIstore] else []) ++
      (if variantOk x b.st then [] else [fEncoding]) ++
      (if b.ctl.sigKind = 5 ∧ !arriveOk s g b.ctl.sigSel then [fSync] else []) ++ str) ++
    alignFaults s g x b.ld b.st

/-- Cycle or operation that a slot's end stands for, added to a signal's dependencies. -/
def addEnd (e : EndAt) (p : List Nat × Nat) : List Nat × Nat :=
  match e with
  | .none => p
  | .at_ n => (p.1, Nat.max p.2 n)
  | .op id => (id :: p.1, p.2)

/-- How the operations of a bundle end. -/
structure Ends where
  ar : EndAt
  el : EndAt
  ta : EndAt
  ld : EndAt
  st : EndAt
  deriving DecidableEq, Repr

/-- Queue the bundle's signal action for its cycle (R145, Table 4.6). -/
def queueSig (s : State) (g k n : Nat) (w : Ctl) (e : Ends) : State :=
  if w.sigKind = 0 then s
  else
    let d : List Nat × Nat :=
      match w.sigOn with
      | 1 => addEnd e.ar ([], n)
      | 2 => addEnd e.el ([], n)
      | 3 => addEnd e.ta ([], n)
      | 4 => addEnd e.ld ([], n)
      | 5 => addEnd e.st ([], n)
      | 6 => addEnd e.ar (addEnd e.el (addEnd e.ta (addEnd e.ld (addEnd e.st ([], n)))))
      | _ => ([], n)
    modCore s g fun c => { c with sigs := c.sigs ++ [⟨k, w.sigKind, w.sigSel, d.1, d.2, n⟩] }

/-- Issue the array operation (R112 to R118). -/
def issueArray (s : State) (g k n pc : Nat) (x : Ctx) (a : ArOp) : State × EndAt :=
  let c := getCore s g
  if a.op = 0 then (s, .none)
  else if a.op = 7 ∧ gangModeOf a = .off then (gangOff s g n, .at_ (n + 1))
  else if isGanged c a then
    let id := c.opSeq
    let c1 := { arCount c a with
      held := some ⟨k, pc, a, convPar x a, parTag x a, id, n, x, accCount c a.c, n + 1⟩
      opSeq := id + 1 }
    (setCore s g c1, .op id)
  else
    let ta := tagTile (parTag x a) (rdTile c a.a)
    let r := runArray (arCount c a) k n n a ta (arOperandB c a (convPar x a))
    (setCore s g r.1, .at_ r.2)

/-- The load-slot operations that move no register data: STRS, STRX, SEGLD (R164, R165). True says that the context
faults with ADDRESS now. -/
def issueLdOther (s : State) (g k n : Nat) (x : Ctx) (l : LdOp) : State × EndAt × Bool :=
  match l.op with
  | 3 =>
    let e := effAddr s g x 0 l.base l.off 64 false
    if !e.ok then (s, .at_ (n + 1), true)
    else match decodeStr (memBytes s e.addr 64) with
      | some d => (startStream s g l.aux k d, .at_ (n + 1), false)
      | none => (s, .at_ (n + 1), false)
  | 4 => (cancelStream s g l.aux true, .at_ (n + 1), false)
  | 5 => (modCore s g fun c => { c with segld := c.segld ++ [⟨l.aux, (segIndex x l).toNat, n + 96, k⟩] },
      .at_ (n + 96), false)
  | _ => (s, .none, false)

/-- Count CNT_BLOCK_UNDERFLOW of the function that owns the core's sector (R192). -/
def countDominated (s : State) (g n : Nat) : State := bumpN s (fnBase (coreAgent s g).fn + 0x2108) n

/-- Issue a bundle that neither stalls nor faults (R140): every operation reads the registers as they stand. -/
def issueBundle (s : State) (g k n : Nat) (b : Bun) : State :=
  let c := getCore s g
  let x := getCtx c k
  let pc := x.pc
  let bump0 := bump s (coreBase g)
  let bump1 := if b.ar.op = 0 then bump0 else modCore bump0 g fun c => rampIssue c n
  -- scalar and element slots
  let sc := execScalar s g k x b.sc
  let elx := execElement c k x b.el
  let t := elTiming c b.el
  -- array, Transform Assist
  let ar := issueArray bump1 g k n pc x b.ar
  let s2 := modCore ar.1 g fun c =>
    let c1 := execTa c k n x b.ta
    let c2 := if b.ta.op = 0 then c1 else { c1 with taFree := n + (taTiming b.ta.op).1 }
    if b.el.op = 0 then c2
    else { c2 with
      euFree := n + t.1
      pend := if elx.ws.isEmpty then c2.pend else c2.pend ++ [⟨n + t.2, .eu, k, n, .regs elx.ws⟩] }
  let s3 := countDominated s2 g elx.dominated
  -- loads and stores
  let ld := if b.ld.op ≤ 2 then issueLoad s3 g k n x b.ld else issueLdOther s3 g k n x b.ld
  let acLoad : State → State := fun st =>
    if b.ld.op = 1 then
      match regCode b.ld.dst with
      | .ac a => modCore st g fun c => setCount c a 1
      | _ => st
    else st
  let st := issueStore (acLoad ld.1) g k n x b.st
  -- the context: scalar results, staging and flags, next bundle
  let s4 := modCore st.1 g fun c => modCtx c k fun y => { y with
    s := sc.1.s, lc := sc.1.lc, cp := sc.1.cp, rm := sc.1.rm
    cmps := elx.ctx.cmps, expd := elx.ctx.expd, flags := elx.ctx.flags
    run := if b.sc.op = 21 then .halting else y.run
    pc := if sc.2 then b.sc.imm % 128 else pc + 1
    readyFrom := if sc.2 then n + 2 else n + 1
    waitSince := none }
  let s5 := queueSig s4 g k n b.ctl {
    ar := ar.2
    el := if b.el.op = 0 then .none else .at_ (n + t.2)
    ta := if b.ta.op = 0 then .none else .at_ (n + (taTiming b.ta.op).2)
    ld := ld.2.1
    st := st.2.1 }
  let s6 := if isGanged c b.ar then
      tryGang (modCore s5 g fun c => { c with held := c.held.map fun h => { h with next := (getCtx c k).readyFrom } }) g n
    else s5
  let addr := if ld.2.2 then ldAddr s g x b.ld else stAddr s g x b.st
  if ld.2.2 || st.2.2 then faultCtx s6 g k pc [fAddress] addr else s6

/-- Track how long each context's next wait has failed (R173). -/
def trackWaits (s : State) (g : Nat) : State :=
  modCore s g fun c => (List.range 4).foldl (fun c k =>
    let x := getCtx c k
    if x.run == .running && x.pc < 128 && !filling c x.pc &&
        !waitHolds s g x (decCtl (bits (bundleAt c x.pc).toNat 255 224)) then
      (if x.waitSince.isNone then modCtx c k fun x => { x with waitSince := some s.ftime.toNat } else c)
    else if x.waitSince.isSome then modCtx c k fun x => { x with waitSince := none } else c) c

/-- Bring the cores that act with core g's array operation to cycle n: the members of its gang and of the gang that a GANG
names (R117). -/
def settleGang (s : State) (g n : Nat) (a : ArOp) : State :=
  let c := getCore s g
  if isGanged c a || a.op == 7 then
    ((gangMembers g c.gang ++ gangMembers g (gangModeOf a)).filter fun m => m != g && (getCore s m).held.isSome).foldl
      (fun st m => settle st m n) s
  else s

/-- One issue cycle of core g (R129, R131): idle, stalled, faulted or issued. -/
def issueCycle (s : State) (g n : Nat) : State :=
  match chooseCtx s g n with
  | none => bump s (coreBase g + 0x4)
  | some k =>
    let c := getCore s g
    let x := getCtx c k
    let b := decodeBundle (bundleAt c x.pc)
    let prefer (st : State) : State := modCore st g fun c => { c with cur := k, prefCyc := some n }
    if 127 < x.pc then faultCtx (prefer s) g k x.pc [fIstore] 0
    else if stalls s g n x b then bump (prefer s) (coreBase g + 0x10)
    else
      let s1 := prefer s
      let s2 := match c.issuer with
        | some j => if j = k then s1 else bump s1 (coreBase g + 0x8)
        | none => s1
      let s3 := modCore s2 g fun c => { c with issuer := some k }
      match issueFaults s g x b with
      | [] => issueBundle (settleGang s3 g n b.ar) g k n b
      | f :: fs =>
        let addr := ((f :: fs).find? fun p => p.1 == fAlignment).map (·.2)
        let s4 := if gangClash s g b.ar then faultGang s3 g else s3
        faultCtx (bump s4 (coreBase g)) g k x.pc ((f :: fs).map (·.1)) (addr.getD 0)

/-- Does a compute die's core PLL lack lock (R489)? -/
def dieUnlocked (s : State) (d : Nat) : Bool := s.sched.unlocked.any fun p => p.1 / 8 == d

/-- Is a core able to issue: loaded, its sector holding its tiles, not fenced, its tile at White or Amber (R491) and its
die clocked (R489)? -/
def coreRuns (s : State) (g : Nat) : Bool :=
  match coreSector s g with
  | some (_, x) => x.holder && !coreFenced s g && decide (tilePace s (tileOfCore g) ≤ 1) &&
      !dieUnlocked s (dieOfCore g)
  | none => false

/-- BUNDLE_ISSUE (R129, R140): cycle n of core g. A cycle that has passed, or a core that runs nothing, changes
nothing. -/
def bundleIssueAt (g n : Nat) (s : State) : State :=
  if coreRuns s g && decide ((getCore s g).cyc ≤ n) then
    let s1 := settle (settleArrivals s g n) g n
    closeCycle (issueCycle (trackWaits s1 g) g n) g n
  else s

/-- Wait limit of the image, or the value that R231 substitutes when the job names a model (R173). -/
def waitLimit (s : State) (x : Sector) : Nat :=
  match x.image with
  | some i =>
    if i.waitLimit ≠ 0 then i.waitLimit
    else match x.model with
      | some m =>
        let b := (tget ModelSlot.empty (getFn s x.owner).models m).blob
        if bits (fieldAt b 0x10 4) 31 16 = 0 then 0 else 1000000
      | none => 0
  | none => 0

/-- WAIT_TIMEOUT (R173): the next bundle of context k has failed its wait on every cycle for more than the limit. -/
def waitTimeoutAt (g k n : Nat) (s : State) : State :=
  if coreRuns s g && decide ((getCore s g).cyc ≤ n) then
    let s1 := trackWaits (settle (settleArrivals s g n) g n) g
    let x := getCtx (getCore s1 g) k
    match coreSector s1 g, x.waitSince with
    | some (_, sec), some t0 =>
      let lim := waitLimit s1 sec
      if 0 < lim ∧ lim < s1.ftime.toNat - t0 ∧ x.run = .running then faultCtx s1 g k x.pc [fWaitTimeout] 0 else s1
    | _, _ => s1
  else s

end Sys2Proof.Machine
end

