-- ==== Sys2Proof/Machine/Params.lean ====
section
/-! DEFINITION. Parameter-set objects (R67 to R74): fields, derived quantities, load checks 1 to 8 of Table 2.3, and the
conversion block of R275. -/

namespace Sys2Proof.Machine

/-- A word of an object. -/
def ow (o : List Byte) (off : Nat) : Nat := fieldAt o off 4

/-! Fields of Table 2.2. -/
def pLogN (o : List Byte) : Nat := bits (ow o 0x8) 31 24
def pK (o : List Byte) : Nat := bits (ow o 0x8) 23 16
def pS (o : List Byte) : Nat := bits (ow o 0x8) 15 8
def pDnum (o : List Byte) : Nat := bits (ow o 0x8) 7 4
def pL (o : List Byte) : Nat := bits (ow o 0xC) 31 24
def pRefreshDepth (o : List Byte) : Nat := bits (ow o 0xC) 23 16
def pLutLevel (o : List Byte) : Nat := bits (ow o 0xC) 15 8
def pSecretKind (o : List Byte) : Nat := bits (ow o 0xC) 7 4
def pWorst (o : List Byte) : Bool := bit (ow o 0xC) 3
def pBelowFloor (o : List Byte) : Bool := bit (ow o 0xC) 2
def pFreshNoise (o : List Byte) : Nat := bits (ow o 0x10) 31 16
def pKsNoise (o : List Byte) : Nat := bits (ow o 0x10) 15 0
def pRescaleNoise (o : List Byte) : Nat := bits (ow o 0x14) 31 16
def pRefreshNoise (o : List Byte) : Nat := bits (ow o 0x14) 15 0
def pLookupNoise (o : List Byte) : Nat := bits (ow o 0x18) 31 16
def pMsgBits (o : List Byte) : Int := sext (ow o 0x18) 16
def pMinPrecision (o : List Byte) : Nat := bits (ow o 0x1C) 31 16
def pLutMinPrecision (o : List Byte) : Nat := bits (ow o 0x1C) 15 0
def pDefaultScale (o : List Byte) : Nat := ow o 0x20
def pLweDim (o : List Byte) : Nat := bits (ow o 0x24) 31 16
def pLweModBits (o : List Byte) : Nat := bits (ow o 0x24) 15 8
def pRgswLogN (o : List Byte) : Nat := bits (ow o 0x24) 7 4
def pRgswPrime (o : List Byte) : Nat := ow o 0x28
def pRgswRoot (o : List Byte) : Nat := ow o 0x2C
def pSecretWeight (o : List Byte) : Nat := bits (ow o 0x3C) 15 0
def pPrime (o : List Byte) (e : Nat) : Nat := ow o (0x80 + 8 * e)
def pRoot (o : List Byte) (e : Nat) : Nat := ow o (0x84 + 8 * e)
def pCrc (o : List Byte) : Nat := ow o 0x3FC

/-- Step-map bit of level ℓ: does the step from ℓ remove two primes (Table 2.2)? -/
def pStep (o : List Byte) (l : Nat) : Bool := l ≠ 0 && bit (ow o 0x30 + ow o 0x34 * 2 ^ 32 + bits (ow o 0x38) 7 0 * 2 ^ 64) (l - 1)
/-- Primes that the step from level ℓ removes (R63). -/
def pStepCount (o : List Byte) (l : Nat) : Nat := if pStep o l then 2 else 1
/-- Primes removed by the steps from L down to above ℓ. -/
def pRemovedAbove (o : List Byte) (l : Nat) : Nat :=
  ((List.range (pL o - l)).map fun i => pStepCount o (l + 1 + i)).sum
/-- m(ℓ) (R63), as an integer so that a set with too few primes shows. -/
def pMi (o : List Byte) (l : Nat) : Int := (pK o : Int) - pRemovedAbove o l
def pM (o : List Byte) (l : Nat) : Nat := (pMi o l).toNat

/-- lq_j and lq16_j (R69): floor(256 log2 q) and round(65,536 log2 q). -/
def lq (q : Nat) : Nat := log2 (q ^ 256)
def lq16 (q : Nat) : Nat := (log2 (q ^ 131072) + 1) / 2
/-- lQ(ℓ) (R69). -/
def pLQ (o : List Byte) (l : Nat) : Nat := ((List.range (pM o l)).map fun j => lq (pPrime o j)).sum
/-- Indices of the primes that a rescale from level ℓ removes. -/
def pRescaled (o : List Byte) (l : Nat) : List Nat := (List.range (pStepCount o l)).map (pM o (l - 1) + ·)

/-- α of R69. -/
def pAlpha (o : List Byte) : Nat := ceilDiv (pK o) (if pDnum o = 0 then 1 else pDnum o)
/-- Primes of digit d among the first m ciphertext primes (R69, R272). -/
def pDigit (o : List Byte) (m d : Nat) : List Nat :=
  (List.range m).filter fun j => d * pAlpha o ≤ j ∧ j < (d + 1) * pAlpha o
/-- Present digits at m primes (R272). -/
def pDigits (o : List Byte) (m : Nat) : List Nat := List.range (ceilDiv m (if pAlpha o = 0 then 1 else pAlpha o))
/-- E_ℓ for m present primes, as entry numbers (R272). -/
def pE (o : List Byte) (m : Nat) : List Nat := List.range m ++ (List.range (pS o)).map (pK o + ·)

/-- sc8 of R91. -/
def sc8 (s : Nat) : Nat := Nat.min ((s + 0xFF) / 256) 0xFFFF
/-- 16-bit saturation of R91. -/
def sat16 (x : Int) : Nat := if x < 0 then 0 else Nat.min x.toNat 0xFFFF
/-- γ of R91. -/
def pGamma (o : List Byte) : Nat := if pWorst o then 256 * pLogN o else 128 * pLogN o + 0x300

/-- One Miller–Rabin base for odd n − 1 = d 2^r. -/
def mrBase (n a : Nat) : Bool :=
  if n ≤ a then true
  else
    let r := (List.range 32).foldl (fun (acc : Nat × Nat) _ => if acc.1 % 2 = 0 then (acc.1 / 2, acc.2 + 1) else acc) (n - 1, 0)
    let x0 := powMod 32 a r.1 n
    x0 == 1 || ((List.range r.2).foldl (fun (acc : Nat × Bool) _ =>
      (acc.1 * acc.1 % n, acc.2 || acc.1 == n - 1)) (x0, false)).2
/-- Miller–Rabin with bases 2, 3, 5 and 7 (Table 2.3, check 4). -/
def millerRabin (n : Nat) : Bool := n == 2 || (n % 2 == 1 && decide (2 < n) && [2, 3, 5, 7].all (mrBase n))

/-- Bit length. -/
def bitLen (n : Nat) : Nat := if n = 0 then 0 else log2 n + 1

/-- Table 2.4. -/
def floorBits (logN : Nat) : Nat :=
  match logN with
  | 10 => 27 | 11 => 54 | 12 => 109 | 13 => 218 | 14 => 438 | 15 => 881 | 16 => 1762 | 17 => 3524 | _ => 0

/-- All prime entries. -/
def pPrimes (o : List Byte) : List Nat := (List.range (pK o + pS o)).map (pPrime o)
/-- Total modulus bits (R72, R73). -/
def pTotalBits (o : List Byte) : Nat := ((pPrimes o).map bitLen).sum
/-- The security floor (R72). -/
def pMeetsFloor (o : List Byte) : Bool :=
  decide (pTotalBits o ≤ floorBits (pLogN o)) &&
  (pLweDim o == 0 || (decide (pLweModBits o ≤ 27 * pLweDim o / 1024) &&
    decide (bitLen (pRgswPrime o) ≤ floorBits (pRgswLogN o))))

/-- Bytes of an object that must be zero: every listed (offset, length). -/
def zeroAt (o : List Byte) (l : List (Nat × Nat)) : Bool := l.all fun p => ((o.drop p.1).take p.2).all (· == 0)

/-- Check 1 of Table 2.3. -/
def pFormat (o : List Byte) : Bool :=
  ow o 0 == 0x59505331 && ow o 4 == 0x00010400 && pCrc o == crc32c (o.take 0x3FC) && o.length == 1024 &&
  bits (ow o 8) 3 0 == 0 && bits (ow o 0xC) 1 0 == 0 && bits (ow o 0x24) 3 0 == 0 && bits (ow o 0x38) 31 8 == 0 &&
  bits (ow o 0x3C) 31 16 == 0 && zeroAt o [(0x40, 0x40), (0x340, 0xBC)] &&
  ((List.range 88).all fun e => decide (e < pK o + pS o) || (pPrime o e == 0 && pRoot o e == 0)) &&
  ((List.range 72).all fun i => decide (i + 1 ≤ pL o) || !pStep o (i + 1)) &&
  decide (12 ≤ pLogN o ∧ pLogN o ≤ 17) && decide (pSecretKind o ≤ 1) &&
  (pRgswLogN o == 0 || pRgswLogN o == 10 || pRgswLogN o == 11)

/-- Check 2. -/
def pCounts (o : List Byte) : Bool :=
  decide (1 ≤ pK o ∧ pK o ≤ 72) && decide (1 ≤ pS o ∧ pS o ≤ 16) && decide (pK o + pS o ≤ 88) &&
  decide (1 ≤ pDnum o ∧ pDnum o ≤ 8) && decide (pL o ≤ pK o - 1) &&
  (pRefreshDepth o == 0 || decide (11 ≤ pRefreshDepth o ∧ pRefreshDepth o ≤ 16)) &&
  (pLweDim o == 0 || decide (512 ≤ pLweDim o ∧ pLweDim o ≤ 1024))

/-- Check 3. -/
def pBits (o : List Byte) : Bool :=
  let ok (q : Nat) : Bool := decide (2 ^ 20 < q ∧ q < 2 ^ 31)
  (pPrimes o).all ok && (pRgswLogN o == 0 || ok (pRgswPrime o)) &&
  (pLweDim o == 0 || decide (10 ≤ pLweModBits o ∧ pLweModBits o ≤ 27))

/-- Check 4. -/
def pPrimality (o : List Byte) : Bool := (pPrimes o).all millerRabin && (pRgswLogN o == 0 || millerRabin (pRgswPrime o))

/-- Check 5 for one prime, root and ring. -/
def nttOk (logN q r : Nat) : Bool := q % 2 ^ (logN + 1) == 1 && powMod 32 r (2 ^ logN) q == q - 1
/-- Check 5. -/
def pNtt (o : List Byte) : Bool :=
  ((List.range (pK o + pS o)).all fun e => nttOk (pLogN o) (pPrime o e) (pRoot o e)) &&
  (pRgswLogN o == 0 || nttOk (pRgswLogN o) (pRgswPrime o) (pRgswRoot o))

/-- Check 7 (R71). -/
def pStructure (o : List Byte) : Bool :=
  let base : Int := (sc8 (pDefaultScale o) : Int) + pMsgBits o
  let sumLq (l : List Nat) : Nat := (l.map fun e => lq (pPrime o e)).sum
  decide (1 ≤ pMi o 0) &&
  ((List.range (pDnum o)).all fun d => (pDigit o (pK o) d) != []) &&
  ((List.range (pDnum o)).all fun d =>
    decide (sumLq (pDigit o (pK o) d) ≤ sumLq ((List.range (pS o)).map (pK o + ·)))) &&
  (pRefreshDepth o == 0 || decide ((pRefreshDepth o : Int) ≤ (pL o : Int) - 1)) &&
  decide (pLutLevel o ≤ pL o) &&
  (pRefreshDepth o == 0 || decide (base + 0x100 ≤ (pLQ o (pL o - pRefreshDepth o) : Int))) &&
  (pLweDim o == 0 || decide (base + 0x100 ≤ (pLQ o (pLutLevel o) : Int))) &&
  (pRefreshDepth o == 0 || decide (base + 0x500 ≤ (pLQ o 0 : Int))) &&
  ((pLweDim o == 0) == (pRgswLogN o == 0)) &&
  (pRgswLogN o != 0 || (pRgswPrime o == 0 && pRgswRoot o == 0)) &&
  ((pSecretWeight o != 0) == (pSecretKind o == 1))

/-- Checks 1 to 8 of Table 2.3, in order: 0, or the status of the first that fails. -/
def paramChecks (floorForbid : Bool) (o : List Byte) : Nat :=
  if !pFormat o then 0x0110
  else if !pCounts o then 0x0111
  else if !pBits o then 0x0112
  else if !pPrimality o then 0x0113
  else if !pNtt o then 0x0114
  else if !(pPrimes o).Nodup then 0x0115
  else if !pStructure o then 0x0116
  else if !pMeetsFloor o && (floorForbid || !pBelowFloor o) then 0x0117
  else 0

/-- Product of primes modulo t. -/
def prodMod (l : List Nat) (t : Nat) : Nat := l.foldl (fun a q => a * q % t) (1 % t)

/-- Record of the conversion block for m present primes (R275), as words. -/
def convRecord (o : List Byte) (m : Nat) : List Nat :=
  let q := pPrime o
  let sp := (List.range (pS o)).map (pK o + ·)
  ((pDigits o m).flatMap fun d =>
    let dg := pDigit o m d
    let others (j : Nat) : List Nat := (dg.filter (· != j)).map q
    dg.map (fun j => invMod (prodMod (others j) (q j)) (q j)) ++
    dg.flatMap fun j => ((pE o m).filter fun t => !dg.contains t).map fun t => prodMod (others j) (q t)) ++
  sp.map (fun i => invMod (prodMod ((sp.filter (· != i)).map q) (q i)) (q i)) ++
  (sp.flatMap fun i => (List.range m).map fun j => prodMod ((sp.filter (· != i)).map q) (q j)) ++
  (List.range m).map fun j => invMod (prodMod (sp.map q) (q j)) (q j)

/-- Words of the record for m present primes, without forming them. -/
def convWords (o : List Byte) (m : Nat) : Nat :=
  ((pDigits o m).map fun d => let a := (pDigit o m d).length; a + a * (m + pS o - a)).sum + pS o + pS o * m + m

/-- Round up to a multiple of 2 KiB. -/
def up2k (n : Nat) : Nat := (n + 2047) / 2048 * 2048

/-- Record offsets of levels 0 to L (Table 8.2). -/
def convOffsets (o : List Byte) : List Nat :=
  ((List.range (pL o + 1)).foldl (fun (acc : List Nat × Nat) l =>
    (acc.1 ++ [acc.2], acc.2 + up2k (4 * convWords o (pM o l)))) ([], 2048)).1
/-- Bytes of a set's conversion block. -/
def convBytes (o : List Byte) : Nat :=
  (List.range (pL o + 1)).foldl (fun a l => a + up2k (4 * convWords o (pM o l))) 2048

/-- The conversion block of a set (Table 8.2). -/
def convBlock (o : List Byte) : List Byte :=
  let pad (l : List Byte) : List Byte := l ++ List.replicate (up2k l.length - l.length) 0
  pad ((convOffsets o).flatMap (leBytes 4)) ++
    (List.range (pL o + 1)).flatMap fun l => pad ((convRecord o (pM o l)).flatMap (leBytes 4))

end Sys2Proof.Machine
end

