-- ==== Sys2Proof/Machine/Noise.lean ====
section
/-! DEFINITION. Object headers (R76 to R81) and the level, scale and noise accounting of an operation (R91 to R95). -/

namespace Sys2Proof.Machine

/-- Statuses of Table 0.4 and the sub-codes of the chapters. -/
def stDone : Nat := 0x0000
def stDonePoisoned : Nat := 0x0010
def stLevel : Nat := 0x0101
def stNoise : Nat := 0x0102
def stParam : Nat := 0x0103
def stHeader : Nat := 0x0104
def stTruncated : Nat := 0x0201
def stStale : Nat := 0x0202
def stNotOwner : Nat := 0x0203
def stMemory : Nat := 0x0204
def stNoTarget : Nat := 0x0205
def stKeyMissing : Nat := 0x0301
def stKeyPoisoned : Nat := 0x0302
def stAbandoned : Nat := 0x0306
def stCancelled : Nat := 0x0501
def stReset : Nat := 0x0502
def stPkeReject : Nat := 0x0601
def stInternal : Nat := 0x0F01
def stProgram : Nat := 0x0F02
def stHwCheck : Nat := 0x0F03

/-- A header with every field zero. -/
def Header.zero : Header := ⟨0, 0, 0, 0, 0, 0, false, false, 0, 0, 0, 0, 0, 0, 0, 0, 0, 0, 0⟩

/-- The 64 bytes of a header, with its crc (Table 2.5). -/
def hdrBytes (h : Header) : List Byte :=
  let w := leBytes 4
  let f (b : Bool) : Nat := if b then 1 else 0
  let body :=
    w (h.kind * 2 ^ 28 + h.param * 2 ^ 24 + h.level * 2 ^ 16 + h.limbs * 2 ^ 8 + h.layout * 2 ^ 4 + h.domain * 2 ^ 3 +
      f h.poison * 2 + f h.valid) ++
    w h.scale ++ w (h.noise * 2 ^ 16 + h.status) ++ w (h.gen * 2 ^ 16 + h.owner * 2 ^ 10 + h.logN * 2 ^ 5) ++
    w h.dataBytes ++ w (h.items * 2 ^ 16 + h.lweDim) ++ w h.tagLo ++ w h.tagHi ++ List.replicate 24 0 ++ w 0x01000000
  body ++ w (crc32c body)

/-- Fields of a header's bytes. -/
def hdrOf (b : List Byte) : Header :=
  let w0 := ow b 0
  let w8 := ow b 8
  let wc := ow b 0xC
  let w14 := ow b 0x14
  { kind := bits w0 31 28, param := bits w0 27 24, level := bits w0 23 16, limbs := bits w0 15 8, layout := bits w0 7 4
    domain := bits w0 3 3, poison := bit w0 1, valid := bit w0 0, scale := ow b 4, noise := bits w8 31 16
    status := bits w8 15 0, gen := bits wc 31 16, owner := bits wc 15 10, logN := bits wc 9 5, dataBytes := ow b 0x10
    items := bits w14 31 16, lweDim := bits w14 15 0, tagLo := ow b 0x18, tagHi := ow b 0x1C }

/-- Is a kind code of Table 2.6 not reserved? -/
def kindOk (k : Nat) : Bool := k == 1 || k == 2 || k == 3 || k == 4 || k == 8
/-- Check 1 of R77. -/
def hdrFormOk (b : List Byte) : Bool :=
  ow b 0x3C == crc32c (b.take 0x3C) && bits (ow b 0x38) 31 24 == 1 && kindOk (bits (ow b 0) 31 28)

/-- Data bytes of a kind (Table 2.6). -/
def kindBytes (_o : List Byte) (h : Header) : Nat :=
  match h.kind with
  | 1 => 8 * h.limbs * 2 ^ h.logN
  | 2 => 12 * h.limbs * 2 ^ h.logN
  | 3 => 4 * h.items * (h.lweDim + 1)
  | 4 => 8 * 2 ^ h.logN
  | 8 => 4 * h.limbs * 2 ^ h.logN
  | _ => 0

/-- Layout code of check 3 (R252): 0 NATURAL, 1 to 14 CORE_MAJOR, 15 EVAL. -/
def layoutOk (h : Header) : Bool :=
  if h.kind = 3 ∨ h.kind = 4 then h.layout == 0
  else if h.layout = 15 then h.domain == 1 else decide (h.layout ≤ h.logN)

/-- Shape fields of check 3 of R77. -/
def shapeOk (o : List Byte) (h : Header) : Bool :=
  layoutOk h &&
  match h.kind with
  | 3 => h.level == 0 && h.limbs == 0 && h.logN == 0 && pLweDim o != 0 && h.lweDim == pLweDim o && h.items != 0
  | 4 => h.level == 0 && h.limbs == 1 && pRgswLogN o != 0 && h.logN == pRgswLogN o && h.items == 1 && h.lweDim == 0
  | _ => h.logN == pLogN o && decide (h.level ≤ pL o) && h.limbs == pM o h.level && h.items == 1 && h.lweDim == 0

/-- Checks 2 to 4 of R77 on the fields of a header: 0, or the failing status; the second component says that check 4
substituted PARAM_MISMATCH or that another check failed, so that the failure is counted (R78). -/
def hdrChecks (o : List Byte) (fn gen : Nat) (h : Header) : Nat × Bool :=
  if h.owner ≠ fn then (stNotOwner, true)
  else if h.gen ≠ gen || h.dataBytes ≠ kindBytes o h || !shapeOk o h then (stParam, true)
  else if !h.valid then (if h.status / 256 = 0 then (stParam, true) else (h.status, false))
  else (0, true)

/-- An operand's noise bound: at least fresh_noise for ciphertexts (R80). -/
def freshened (o : List Byte) (h : Header) : Header :=
  if h.kind = 1 ∨ h.kind = 2 then { h with noise := Nat.max h.noise (pFreshNoise o) } else h

/-- inc(δ) of Table 2.10. -/
def incOf (d : Nat) : Nat :=
  if d < 0x80 then 0x100 else if d < 0x100 then 0xC6 else if d < 0x200 then 0x96 else if d < 0x300 then 0x53
  else if d < 0x400 then 0x2C else if d < 0x600 then 0x17 else if d < 0x800 then 0x06 else if d < 0x1000 then 0x02 else 0x01
/-- lse (R92), saturating. -/
def lse (a b : Nat) : Nat := sat16 ((Nat.max a b : Nat) + (incOf (Nat.max a b - Nat.min a b) : Int))
/-- Saturating sum. -/
def addQ (a b : Nat) : Nat := sat16 ((a + b : Nat) : Int)

/-- What an operation yields before the checks of R95 (R93): scale kept exact. -/
structure Pred where
  kind : Nat
  level : Nat
  scale : Int
  noise : Nat
  poison : Bool
  /-- a RESCALE at level 0 -/
  below : Bool
  deriving DecidableEq, Repr

/-- mb_x of R93. -/
def mbOf (o : List Byte) (h : Header) : Nat := sat16 ((sc8 h.scale : Int) + pMsgBits o)

/-- The form check of R94 and the result of R93; none where the form is broken. op is a code of Table 4.30. -/
def predict (o : List Byte) (op galois target : Nat) (a : Header) (b : Option Header) : Option Pred :=
  let ct (k : Nat) : Bool := k == 1 || k == 2
  let p := a.poison || (match b with | some h => h.poison | none => false)
  let g := pGamma o
  match op, b with
  | 1, some b | 2, some b =>
    if ct a.kind && ct b.kind && decide (Nat.max a.scale b.scale - Nat.min a.scale b.scale ≤ 0x100) then
      some ⟨Nat.max a.kind b.kind, Nat.min a.level b.level, (Nat.max a.scale b.scale : Nat), lse a.noise b.noise, p, false⟩
    else none
  | 3, some b =>
    if ct a.kind && b.kind == 8 && b.scale == a.scale then
      some ⟨a.kind, Nat.min a.level b.level, (a.scale : Nat), lse a.noise 0, p, false⟩
    else none
  | 4, some b =>
    if ct a.kind && b.kind == 8 then
      some ⟨a.kind, Nat.min a.level b.level, ((a.scale + b.scale : Nat) : Int),
        addQ (lse (addQ a.noise b.noise) (mbOf o a)) g, p, false⟩
    else none
  | 5, some b | 7, some b =>
    if a.kind == 1 && b.kind == 1 then
      let cross := lse (addQ (mbOf o a) b.noise) (addQ (mbOf o b) a.noise)
      let n := lse (addQ cross g) (addQ (addQ a.noise b.noise) g)
      some ⟨if op = 5 then 2 else 1, Nat.min a.level b.level, ((a.scale + b.scale : Nat) : Int),
        if op = 5 then n else lse n (pKsNoise o), p, false⟩
    else none
  | 6, none => if a.kind == 2 then some ⟨1, a.level, (a.scale : Nat), lse a.noise (pKsNoise o), p, false⟩ else none
  | 8, none =>
    if ct a.kind then
      if a.level = 0 then some ⟨a.kind, 0, (a.scale : Nat), a.noise, p, true⟩
      else
        let r := pRescaled o a.level
        some ⟨a.kind, a.level - 1, (a.scale : Int) - ((r.map fun e => lq16 (pPrime o e)).sum : Nat),
          lse (sat16 ((a.noise : Int) - ((r.map fun e => lq (pPrime o e)).sum : Nat))) (pRescaleNoise o), p, false⟩
    else none
  | 9, none =>
    if a.kind == 1 && galois % 2 == 1 && decide (3 ≤ galois ∧ galois ≤ 2 * 2 ^ pLogN o - 3) then
      some ⟨1, a.level, (a.scale : Nat), lse a.noise (pKsNoise o), p, false⟩
    else none
  | 10, none => if a.kind == 1 then some ⟨1, a.level, (a.scale : Nat), lse a.noise (pKsNoise o), p, false⟩ else none
  | 11, none =>
    if (ct a.kind || a.kind == 8) && decide (target < a.level) then some ⟨a.kind, target, (a.scale : Nat), a.noise, p, false⟩
    else none
  | 12, none =>
    if a.kind == 1 then
      some ⟨1, pL o - pRefreshDepth o, (pDefaultScale o : Nat), pRefreshNoise o, p, false⟩ else none
  | 13, none =>
    if a.kind == 1 then some ⟨1, pLutLevel o, (pDefaultScale o : Nat), pLookupNoise o, p, false⟩ else none
  | _, _ => none

/-- The checks of R95 and R303 on a predicted result, in order: 0, or the failing status. The sums compared
with lQ are formed exactly from their terms, every other sum saturates (R91). -/
def issueChecks (o : List Byte) (op : Nat) (a : Header) (r : Pred) : Nat :=
  if r.below then stLevel
  else if r.scale < 0 ∨ 0xFFFFFFFF < r.scale then stParam
  else
    let s8 := sc8 r.scale.toNat
    if (pLQ o r.level : Int) < (s8 : Int) + pMsgBits o + 0x100 then stLevel
    else if op = 13 then
      (if sc8 a.scale < addQ a.noise (pLutMinPrecision o) then stNoise
       else if pLweDim o = 0 then stParam else 0)
    else if s8 < addQ r.noise (pMinPrecision o) then stNoise
    else if op = 12 ∧ (pRefreshDepth o = 0 ∨ (pLQ o 0 : Int) < (sc8 a.scale : Int) + pMsgBits o + 0x500) then stParam
    else 0

/-- Statistics of a failure (R25, Table 12.9). -/
def statFail (t : JobStats) (status : Nat) : JobStats :=
  if status = stLevel then { t with fLevel := t.fLevel + 1 }
  else if status = stNoise then { t with fNoise := t.fNoise + 1 }
  else if status = stParam then { t with fParam := t.fParam + 1 }
  else if status = stKeyMissing then { t with fKeyMissing := t.fKeyMissing + 1 }
  else if status = stKeyPoisoned then { t with fKeyPoisoned := t.fKeyPoisoned + 1 }
  else { t with fOther := t.fOther + 1 }


end Sys2Proof.Machine
end

