-- ==== Sys2Proof/Machine/KeySets.lean ====
section
/-! DEFINITION. Key-set objects (R83 to R87, R314), their placement in HBM (R279, R280), and table sets (R315, R317). -/

namespace Sys2Proof.Machine

/-! Header and directory (Tables 2.7 and 2.8). -/
def kCount (o : List Byte) : Nat := bits (ow o 4) 15 0
def kSigned (o : List Byte) : Bool := bit (ow o 0x14) 0
def kClient (o : List Byte) : Nat := ow o 0xC + ow o 0x10 * 2 ^ 32
def kSigOff (o : List Byte) : Nat := ow o 0x20 + ow o 0x24 * 2 ^ 32
def kTotal (o : List Byte) : Nat := ow o 0x18 + ow o 0x1C * 2 ^ 32
def kCrc (o : List Byte) : Nat := ow o 0x7C

/-- A directory entry. -/
structure KeyEnt where
  cls : Nat
  compressed : Bool
  digits : Nat
  limbs : Nat
  galois : Nat
  off : Nat
  len : Nat
  keyId : Nat
  crc : Nat
  reservedZero : Bool
  idSeedZero : Bool
  deriving DecidableEq, Repr

/-- Directory entry i. -/
def kEnt (o : List Byte) (i : Nat) : KeyEnt :=
  let b := 0x80 + 64 * i
  let w := ow o b
  { cls := bits w 31 28, compressed := bit w 27, digits := bits w 23 16, limbs := bits w 15 8
    galois := ow o (b + 4), off := ow o (b + 8) + ow o (b + 0xC) * 2 ^ 32, len := ow o (b + 0x10) + ow o (b + 0x14) * 2 ^ 32
    keyId := ow o (b + 0x18), crc := ow o (b + 0x1C), reservedZero := bits w 26 24 == 0 && bits w 7 0 == 0
    idSeedZero := ow o (b + 0x18) == 0 && ((o.drop (b + 0x20)).take 32).all (· == 0) }

/-- The directory. -/
def kEnts (o : List Byte) : List KeyEnt := (List.range (kCount o)).map (kEnt o)

/-- Step 1 of R87. -/
def keyHeaderOk (o : List Byte) : Bool :=
  ow o 0 == 0x59504B31 && bits (ow o 4) 31 16 == 1 && kCrc o == crc32c (o.take 0x7C) && bits (ow o 0x14) 31 1 == 0 &&
  zeroAt o [(0x28, 0x54)] && decide (1 ≤ kCount o ∧ kCount o ≤ 340) && kTotal o == o.length &&
  decide (0x80 + 64 * kCount o ≤ o.length)

/-- Most entries of a class (Table 2.9). -/
def classMost (c : Nat) : Nat :=
  match c with
  | 1 => 1 | 2 => 256 | 3 => 1 | 4 => 64 | 5 => 1 | 6 => 1 | 7 => 16 | _ => 0

/-- Galois element of a class (Table 2.9). -/
def galoisOk (n2 c g : Nat) : Bool :=
  match c with
  | 2 => g % 2 == 1 && decide (3 ≤ g ∧ g ≤ n2 - 3)
  | 3 => g == n2 - 1
  | 4 => g % 2 == 1 && decide (3 ≤ g ∧ g ≤ n2 - 1)
  | 7 => g % 2 == 1 && decide (3 ≤ g ∧ g ≤ n2 - 1)
  | _ => g == 0

/-- Data length that an entry must have (R85, Table 9.2); 0 where the parameter set gives the class none. -/
def keyLen (p : List Byte) (e : KeyEnt) : Nat :=
  let full := 8 * pDnum p * (pK p + pS p) * 2 ^ pLogN p
  match e.cls with
  | 5 => if pLweDim p = 0 then 0 else 4 * 2 ^ pLogN p * e.digits * (pLweDim p + 1)
  | 6 => 32 * pLweDim p * e.digits * 2 ^ pRgswLogN p
  | 7 => full
  | _ => if e.compressed then full / 2 else full

/-- Step 4 of R87 for one entry, with R314. -/
def keyEntOk (p o : List Byte) (e : KeyEnt) : Bool :=
  (match e.cls with
    | 5 => !e.compressed && decide (1 ≤ e.digits ∧ e.digits ≤ 8) && decide (pLweModBits p ≤ e.digits * e.limbs) && e.idSeedZero &&
        pLweDim p != 0
    | 6 => !e.compressed && decide (1 ≤ e.digits ∧ e.digits ≤ 8) && decide (bitLen (pRgswPrime p) ≤ e.digits * e.limbs) &&
        e.idSeedZero && pLweDim p != 0
    | 7 => !e.compressed && e.digits == pDnum p && e.limbs == pK p + pS p && e.idSeedZero
    | _ => e.digits == pDnum p && e.limbs == pK p + pS p) &&
  e.len == keyLen p e && e.off % 2048 == 0 && decide (e.off + e.len ≤ o.length) &&
  e.crc == crc32c ((o.drop e.off).take e.len)

/-- Steps 1 to 4 of R87: 0, or the failing status. p is the object in the named parameter-set slot, empty when the slot
is. -/
def keyChecks (p o : List Byte) : Nat :=
  let es := kEnts o
  if !keyHeaderOk o then 0x0304
  else if p = [] || ow o 8 != pCrc p then stParam
  else if es.any fun e => e.cls == 0 || decide (7 < e.cls) || !e.reservedZero then 0x0304
  else if ((List.range 8).any fun c => decide (classMost c < (es.filter fun e => e.cls == c).length)) ||
      (es.any fun e => !galoisOk (2 * 2 ^ pLogN p) e.cls e.galois) ||
      !(es.map fun e => (e.cls, e.galois)).Nodup then 0x0305
  else if es.all (keyEntOk p o) then 0 else 0x0304

/-- Index of the entry with a (class, galois) pair (R89). -/
def keyFind (o : List Byte) (cls g : Nat) : Option Nat :=
  (List.range (kCount o)).find? fun i => (kEnt o i).cls == cls && (kEnt o i).galois == g

/-! Placement (R279): 0 SPLIT, 1 IOD0, 2 IOD1. The share of a die is a list of pieces of the object: offset and length. -/

/-- Object offset of byte o of a share. -/
def pieceAt : List (Nat × Nat) → Nat → Nat
  | [], _ => 0
  | (a, n) :: l, o => if o < n then a + o else pieceAt l (o - n)
/-- Share offset of byte x of the object, if the share holds it. -/
def pieceFind : List (Nat × Nat) → Nat → Option Nat
  | [], _ => none
  | (a, n) :: l, x => if a ≤ x ∧ x < a + n then some (x - a) else (pieceFind l x).map (· + n)
/-- Bytes of a share. -/
def pieceSize (l : List (Nat × Nat)) : Nat := (l.map (·.2)).sum
def pieceBytes {α : Type} (obj : List α) (l : List (Nat × Nat)) : List α := l.flatMap fun p => (obj.drop p.1).take p.2

/-- Every other 2 KiB unit of n bytes from a start, the first on die 0. -/
def unitPieces (start n die : Nat) : List (Nat × Nat) :=
  ((List.range ((n + 2047) / 2048)).filter fun u => u % 2 == die).map fun u => (start + 2048 * u, Nat.min 2048 (n - 2048 * u))
/-- The limb blocks of an entry's data that fall on a die: even limb positions on die 0, odd ones on die 1. -/
def limbPieces (start n limbs n4 die : Nat) : List (Nat × Nat) :=
  ((List.range (n / n4)).filter fun b => b % limbs % 2 == die).map fun b => (start + n4 * b, n4)

/-- Bytes of header and directory. -/
def keyDirBytes (o : List Byte) : Nat := 0x80 + 64 * kCount o
/-- Share of a key set on a die (R279): header and directory on both, then the entries in directory order (log entry 18). -/
def keyPieces (p o : List Byte) (placement die : Nat) : List (Nat × Nat) :=
  if placement = 1 + die then [(0, o.length)]
  else if placement = 0 then (0, keyDirBytes o) :: (kEnts o).flatMap fun e =>
    if e.cls = 5 ∨ e.cls = 6 then unitPieces e.off e.len die else limbPieces e.off e.len (pK p + pS p) (4 * 2 ^ pLogN p) die
  else [(0, keyDirBytes o)]

/-- Round up to 2 MiB (R280). -/
def up2m (n : Nat) : Nat := (n + 2 ^ 21 - 1) / 2 ^ 21 * 2 ^ 21

/-- Entry whose data or directory hold byte x of a key set. -/
def keyEntryOf (o : List Byte) (x : Nat) : Nat :=
  if x < 0x80 then 0
  else if x < keyDirBytes o then (x - 0x80) / 64
  else ((List.range (kCount o)).find? fun i => let e := kEnt o i; decide (e.off ≤ x ∧ x < e.off + e.len)).getD 0

/-! Table sets (R315). -/

def tCount (o : List Byte) : Nat := bits (ow o 4) 15 0
/-- A table directory entry (Table 9.4). -/
structure TabEnt where
  kind : Nat
  opIndex : Nat
  tableId : Nat
  size : Nat
  outFrac : Nat
  outShift : Nat
  off : Nat
  len : Nat
  crc : Nat
  reservedZero : Bool
  deriving DecidableEq, Repr

/-- Directory entry i. -/
def tEnt (o : List Byte) (i : Nat) : TabEnt :=
  let b := 0x40 + 32 * i
  { kind := bits (ow o b) 31 28, opIndex := bits (ow o b) 15 0, tableId := bits (ow o (b + 4)) 15 0
    size := bits (ow o (b + 8)) 15 0, outFrac := bits (ow o (b + 0xC)) 15 8, outShift := bits (ow o (b + 0xC)) 7 0
    off := ow o (b + 0x10), len := ow o (b + 0x14), crc := ow o (b + 0x18)
    reservedZero := bits (ow o b) 27 16 == 0 && bits (ow o (b + 4)) 31 16 == 0 && bits (ow o (b + 8)) 31 16 == 0 &&
      bits (ow o (b + 0xC)) 31 16 == 0 && ow o (b + 0x1C) == 0 }
def tEnts (o : List Byte) : List TabEnt := (List.range (tCount o)).map (tEnt o)

/-- An FP64 value that is a NaN or infinite has all exponent bits set. -/
def fp64Finite (x : Nat) : Bool := bits x 62 52 != 0x7FF

/-- Check 3 of R317 for one entry. -/
def tabEntOk (o : List Byte) (e : TabEnt) : Bool :=
  e.reservedZero && e.off % 32 == 0 && decide (e.off + e.len ≤ o.length) && e.crc == crc32c ((o.drop e.off).take e.len) &&
  (match e.kind with
    | 1 => decide (e.size ≤ 511) && e.outFrac == 0 && e.outShift == 0 && e.len == 8 * (e.size + 1) &&
        (List.range (e.size + 1)).all fun j => fp64Finite (fieldAt o (e.off + 8 * j) 8)
    | 2 => decide (2 ≤ e.size ∧ e.size ≤ 256) && e.size == 2 ^ log2 e.size && decide (e.outFrac ≤ 15) &&
        decide (e.outShift ≤ 30) && e.len == 2 * e.size
    | _ => false)

/-- Checks 1 to 3 of R317: 0, or the failing status. -/
def tableChecks (p o : List Byte) : Nat :=
  let es := tEnts o
  if !(ow o 0 == 0x59544231 && bits (ow o 4) 31 16 == 1 && ow o 0x3C == crc32c (o.take 0x3C) && zeroAt o [(0x10, 0x2C)] &&
      decide (1 ≤ tCount o ∧ tCount o ≤ 256) && ow o 0xC == o.length && decide (0x40 + 32 * tCount o ≤ o.length)) then 0x0130
  else if p = [] || ow o 8 != pCrc p then stParam
  else if es.all (tabEntOk o) &&
      (([1, 2] : List Nat).all fun k =>
        let ks := es.filter fun e => e.kind == k
        ((ks.map (·.opIndex)).filter (· != 0xFFFF)).Nodup && (ks.map (·.tableId)).Nodup) then 0
  else 0x0130

/-- Share of a table set on a die (R315: as LWE_KS data; log entry 18). -/
def tabPieces (o : List Byte) (placement die : Nat) : List (Nat × Nat) :=
  let dir := 0x40 + 32 * tCount o
  if placement = 1 + die then [(0, o.length)]
  else if placement = 0 then (0, dir) :: (tEnts o).flatMap fun e => unitPieces e.off e.len die
  else [(0, dir)]
/-- Entry whose data or directory hold byte x of a table set. -/
def tabEntryOf (o : List Byte) (x : Nat) : Nat :=
  if x < 0x40 then 0
  else if x < 0x40 + 32 * tCount o then (x - 0x40) / 32
  else ((List.range (tCount o)).find? fun i => let e := tEnt o i; decide (e.off ≤ x ∧ x < e.off + e.len)).getD 0

/-- The table that an operation uses from a set (R316): by operation index, or by table name for DIRECT_OP. -/
def tabFind (o : List Byte) (kind : Nat) (byId : Bool) (x : Nat) : Option Nat :=
  (List.range (tCount o)).find? fun i => (tEnt o i).kind == kind && (if byId then (tEnt o i).tableId else (tEnt o i).opIndex) == x

/-- Largest folded degree of Table 9.1. -/
def foldedDegree (depth : Nat) : Nat := if depth = 11 then 127 else if depth = 12 then 255 else 511

/-- Keys that a FULL_REFRESH needs (R305), as (class, galois). -/
def refreshKeys (logN : Nat) : List (Nat × Nat) :=
  let n2 := 2 ^ (logN + 1)
  let up := (List.range (logN - 1)).map fun a => powMod 32 5 (2 ^ a) n2
  let down := up.map fun g => powMod 32 g (2 ^ (logN - 1) - 1) n2
  ((up ++ down).eraseDups.map fun g => (4, g)) ++ [(3, n2 - 1), (1, 0)]

/-- Keys that a LOOKUP_REFRESH needs (R312). -/
def lookupKeys (logN : Nat) : List (Nat × Nat) :=
  let n2 := 2 ^ (logN + 1)
  [(5, 0), (6, 0), (7, n2 - 1)] ++ (List.range (logN - 2)).map fun k => (7, n2 / 2 ^ (k + 1) + 1)

end Sys2Proof.Machine
end

