-- ==== Sys2Proof/Machine/Events.lean ====
section
/-! DEFINITION. What the module writes to host memory for a function: completion entries (R410), event entries (R411)
and MSI-X messages (R412). -/

namespace Sys2Proof.Machine

/-- Register of ring r of function f (Table 12.16); ring 16 is the admin ring. -/
def ringReg (f r o : Nat) : Nat := fnBase f + 0x1000 + 0x20 * r + o
/-- Entries for a log2_size field: 4 to 12, other values act as 4 (Tables 12.15 and 12.16). -/
def sizeOf (v : Nat) : Nat := if 4 ≤ v ∧ v ≤ 12 then 2 ^ v else 16
/-- Size S of a ring. -/
def ringSize (s : State) (f r : Nat) : Nat := sizeOf (regFld s (ringReg f r 0x10) 3 0)
/-- A 64-bit register pair. -/
def regPair (s : State) (o : Nat) : Nat := (regGet s o).toNat + (regGet s (o + 4)).toNat * 2 ^ 32
/-- Give a 64-bit register pair a value. -/
def regSetPair (s : State) (o v : Nat) : State :=
  regSet (regSet s o (BitVec.ofNat 32 v)) (o + 4) (BitVec.ofNat 32 (v >>> 32))

/-- Send the MSI-X message of a vector; a masked vector sets its pending bit (R412; PCIe, log entry 13). -/
def msix (s : State) (f v : Nat) : State :=
  if bit (regGet s (fnBase f + 0x3000C + 16 * v)).toNat 0 then
    let o := fnBase f + 0x38000 + 4 * (v / 32)
    regSet s o (regGet s o ||| BitVec.ofNat 32 (2 ^ (v % 32)))
  else emit s (.msix f v)

/-- Post an event of a source with its 16-byte payload (R411). -/
def postEvent (s : State) (f source : Nat) (payload : List Byte) : State :=
  let cfg := (regGet s (fnBase f + 0x1C)).toNat
  let x := getFn s f
  let size := sizeOf (bits cfg 3 0)
  if !bit cfg 8 || decide (size ≤ (x.evWritten + 65536 - x.evHead % 65536) % 65536) then
    let s1 := setFn s f { x with evLost := Nat.min (x.evLost + 1) 0xFFFF }
    regSetFld (bump s1 (fnBase f + 0x4C)) (fnBase f + 0x4) 3 3 1
  else
    let n := x.evWritten
    let phase := if (n / size) % 2 = 0 then 1 else 0
    let entry := ((payload ++ List.replicate 16 0).take 16) ++ leBytes 8 s.ftime.toNat ++
      leBytes 4 (x.evLost * 2 ^ 16 + source) ++ leBytes 4 (phase * 2 ^ 31)
    -- the count runs modulo 2^17, a multiple of twice every ring size, so that slot and phase follow from it
    let s1 := setFn s f { x with evWritten := (n + 1) % 2 ^ 17, evLost := 0 }
    let s2 := emit s1 (.event f (regPair s (fnBase f + 0x14) / 4096 * 4096 + 32 * (n % size)) entry)
    if bit cfg 24 then msix s2 f (bits cfg 21 16) else s2

/-- Words of an event payload. -/
def payload4 (ws : List Nat) : List Byte := ((List.range 4).map fun i => ws.getD i 0 % 2 ^ 32).flatMap (leBytes 4)

/-- Write a completion entry to slot c mod S of the ring's completion ring, with its MSI-X message (R410, R412). The
register DONE holds c modulo 2^16, so the phase bit of a ring of S entries follows from it. -/
def writeCompletion (s : State) (f r index typ irq tag status lo hi : Nat) : State :=
  let cfg := (regGet s (ringReg f r 0x10)).toNat
  let size := ringSize s f r
  let c := regFld s (ringReg f r 0x18) 15 0
  let phase := if (c / size) % 2 = 0 then 1 else 0
  let entry := leBytes 4 (status * 2 ^ 16 + index % 65536) ++ leBytes 4 tag ++ leBytes 4 lo ++ leBytes 4 hi ++
    leBytes 8 s.ftime.toNat ++ leBytes 4 typ ++ leBytes 4 (phase * 2 ^ 31)
  let s1 := emit s (.completion f r (regPair s (ringReg f r 0x8) / 4096 * 4096 + 32 * (c % size)) entry)
  let s2 := regSetFld s1 (ringReg f r 0x18) 15 0 ((c + 1) % 65536)
  let mode := bits cfg 25 24
  if mode = 1 ∨ (mode = 2 ∧ irq = 1) then msix s2 f (bits cfg 21 16) else s2

end Sys2Proof.Machine
end

