-- ==== Sys2Proof/Machine/Link.lean ====
section
/-! DEFINITION. Nguhi Link ports and routing (R430 to R444): the link layer of a port, the choice of an output port,
the sending of DATA, XCTRL and PAIR flits. Port 32 of the model is the loop from the device to itself. -/

namespace Sys2Proof.Machine

def getPort (s : State) (p : Nat) : LinkPort := tget LinkPort.init s.fab.ports p
def setPort (s : State) (p : Nat) (x : LinkPort) : State :=
  { s with fab := { s.fab with ports := tset LinkPort.init s.fab.ports p x } }
def modPort (s : State) (p : Nat) (f : LinkPort → LinkPort) : State := setPort s p (f (getPort s p))

/-- FAB_PORTp_STATUS.state: 0 DOWN, 1 TRAINING, 2 UP, 3 PAIR (Table 13.16). -/
def portState (s : State) (p : Nat) : Nat := if p = 32 then 2 else regFld s (0x20104 + 8 * p) 1 0
/-- A port changes its state: its I/O die's controller is raised (Table 15.11), and a port gone DOWN is counted. -/
def setPortState (s : State) (p v : Nat) : State :=
  if portState s p = v ∨ 32 ≤ p then s
  else
    let s1 := regSetFld s (0x20104 + 8 * p) 1 0 v
    let s2 := if v = 0 then bump s1 0x2020C else s1
    raiseSrc s2 (12 + p / 16) (14 + p % 16)

/-- Pair ports (R456, R459): none while the pair is off. -/
def pairOn (s : State) : Bool := bit (regGet s 0x20034).toNat 31
def isRear (s : State) : Bool := bit (regGet s 0x20034).toNat 30
def pairPorts (s : State) : List Nat := [regFld s 0x20034 20 16, regFld s 0x20034 28 24]
def isPairPort (s : State) (p : Nat) : Bool := pairOn s && (pairPorts s).contains p
/-- FAB_PAIR_STATUS.state (Table 13.12). -/
def pairState (s : State) : Nat := regFld s 0x20040 2 0
def setPairState (s : State) (v : Nat) : State := regSetFld s 0x20040 2 0 v

/-- Device ID (R438). -/
def devId (s : State) : Nat := regFld s 0x20000 19 0
/-- Is this the serving member of its pair (R462, R464)? -/
def servesPair (s : State) : Bool :=
  pairOn s && ((!isRear s && pairState s != 5) || s.fab.serving)
/-- Is a flit for dst delivered here (R439)? -/
def deliveredHere (s : State) (dst : Nat) : Bool :=
  dst == devId s || (servesPair s && dst == regFld s 0x20038 19 0)

/-- Coordinate k of a device ID (R439). -/
def coordOf (s : State) (k id : Nat) : Nat :=
  let w (i : Nat) : Nat := regFld s 0x20004 (4 * i + 3) (4 * i)
  (id >>> (((List.range k).map w).sum)) % 2 ^ w k

/-- The routing entry for dst: the lowest coordinate that differs and its entry. -/
def routeEntry (s : State) (dst : Nat) : Option (Nat × Nat) :=
  ((List.range 4).find? fun k => coordOf s k dst != coordOf s k (devId s)).map fun k =>
    (k, (tget 0 s.fab.routes (k * 4096 + coordOf s k dst)).toNat)

/-- Ports that a routing entry names (Table 13.4). -/
def entryPorts (e : Nat) : List Nat := (List.range (2 ^ bits e 6 5)).map (bits e 4 0 + ·)
/-- Is an entry usable (Table 13.4, R441, R459)? -/
def entryValid (s : State) (e : Nat) : Bool :=
  bit e 15 && bits e 6 5 != 3 && bits e 4 0 % 2 ^ bits e 6 5 == 0 &&
    !((entryPorts e).any (isPairPort s)) && !(bit e 13 && isPairPort s (bits e 12 8))

/-- Output port of a message by an entry (R440). -/
def choosePort (s : State) (e msgId : Nat) : Option Nat :=
  let w := 2 ^ bits e 6 5
  match ((List.range w).map fun i => bits e 4 0 + (msgId + i) % w).find? fun p => portState s p != 0 with
  | some p => some p
  | none => if bit e 13 && portState s (bits e 12 8) == 2 then some (bits e 12 8) else none

/-- Dimension that a port serves: the least k with a valid entry that names it (log entry 15). -/
def portDim (s : State) (p : Nat) : Option Nat :=
  (List.range 4).find? fun k => s.fab.routes.any fun r =>
    r.1 / 4096 == k && entryValid s r.2.toNat && (entryPorts r.2.toNat).contains p

/-- Append a flit to the queue of its type at a port (R435). -/
def enqueue (x : LinkPort) (q : QFlit) : LinkPort :=
  match q.flit.typ with
  | 2 => { x with xctrl := x.xctrl ++ [q] }
  | 4 => { x with tick := some q.flit }
  | 5 => { x with pair := x.pair ++ [q] }
  | _ => if q.flit.vc % 2 = 0 then { x with data0 := x.data0 ++ [q] } else { x with data1 := x.data1 ++ [q] }

/-- Owe the sender of a received flit its credit (R435). -/
def oweCredit (s : State) (from_ : Option (Nat × Nat)) : State :=
  match from_ with
  | some (p, vc) => modPort s p fun x => { x with owed := tset 0 x.owed vc (tget 0 x.owed vc + 1) }
  | none => s

/-- XCTRL payload (Table 13.10). -/
def xctrlPayload (kind reason gen slot msgId epoch : Nat) : List Byte :=
  leBytes 4 (kind * 2 ^ 28 + reason * 2 ^ 24 + gen * 2 ^ 22 + slot) ++ leBytes 4 msgId ++ leBytes 4 epoch

/-- Where a flit goes: to this device, to a port, or nowhere (2 NO_ROUTE, 3 TTL as drop reasons 6 and 7). -/
inductive Hop where
  | here
  | port (p k : Nat) (dateline : Bool)
  | drop (reason : Nat)
  deriving DecidableEq, Repr

/-- Port number of a path that has ended because its port went DOWN (R440). -/
def deadPort : Nat := 64
/-- Route a flit (R439 to R441): a later flit of a message takes the port of its first, or goes nowhere once that port has been
DOWN. A flit that arrived with ttl 0 goes no further; one that this device originates leaves with the ttl it has. -/
def route (s : State) (f : Flit) (own : Bool) : Hop :=
  if deliveredHere s f.dst then .here
  else if !own && f.ttl == 0 then .drop 7
  else match routeEntry s f.dst with
    | none => .drop 6
    | some (k, e) =>
      let path := s.fab.paths.find? fun p => p.src == f.src && p.msgId == f.msgId && p.gen == f.gen
      if !entryValid s e then .drop 6
      else if f.typ = 1 ∧ !f.first then
        (match path with
          | some p => if p.port = deadPort ∨ portState s p.port = 0 then .drop 6 else .port p.port k (bit e 14)
          | none => .drop 6)
      else match choosePort s e f.msgId with
        | some p => .port p k (bit e 14)
        | none => .drop 6

/-- The flit as it leaves: ttl, virtual channel (R440). inDim is the dimension it arrived on. -/
def hopFlit (f : Flit) (own : Bool) (inDim : Option Nat) (k : Nat) (dateline : Bool) : Flit :=
  let even := f.vc / 2 * 2
  let vc := if dateline then even + 1 else if inDim.any (· != k) then even else f.vc
  { f with ttl := if own then f.ttl else f.ttl - 1, vc := vc }

/-- Remember or forget the port of a message (R440). -/
def notePath (s : State) (f : Flit) (p : Nat) : State :=
  let rest := s.fab.paths.filter fun q => !(q.src == f.src && q.msgId == f.msgId && q.gen == f.gen)
  if f.typ = 1 then
    { s with fab := { s.fab with paths := if f.last then rest else rest ++ [⟨f.src, f.msgId, f.gen, p⟩] } }
  else s

/-- Put a flit on its way; one for this device itself goes to the loop (port 32). A dropped flit is counted (R441); the
second component is the reason. -/
def launch (s : State) (f : Flit) (from_ : Option (Nat × Nat)) : State × Nat :=
  match route s f from_.isNone with
  | .here => (modPort s 32 fun x => enqueue x ⟨f, from_⟩, 0)
  | .port p k dl =>
    let own := from_.isNone
    let inDim := from_.bind fun q => portDim s q.1
    (notePath (modPort s p fun x => enqueue x ⟨hopFlit f own inDim k dl, from_⟩) f p, 0)
  | .drop r => (oweCredit (bump s 0x20210) from_, r)

/-- Originate an XCTRL flit (R438, R453): NACKs are counted. -/
def sendXctrl (s : State) (dst kind reason gen slot msgId epoch : Nat) : State :=
  if devId s = 0xFFFFF then s
  else
    let s1 := if kind = 2 then bump s (if reason = 1 then 0x20214 else 0x20218) else s
    let f : Flit := {
      typ := 2, vc := 2, seq := 0, ack := 0, crVc := 0, crCount := 0, dst := dst, ttl := regFld s 0x20004 29 24
      first := false, last := false, gen := 0, src := devId s, msgId := 0
      payload := xctrlPayload kind reason gen slot msgId epoch }
    (launch s1 f none).1

/-- Forward or drop a received flit that is not for this device (R441); a dropped first flit is answered by a NACK. -/
def forward (s : State) (f : Flit) (from_ : Option (Nat × Nat)) : State :=
  let r := launch s f from_
  if r.2 ≠ 0 ∧ f.first then sendXctrl r.1 f.src 2 r.2 f.gen (fieldAt f.payload 0 4 % 4096) f.msgId 0 else r.1

/-- Flits of a message (R443): 236-byte pieces, the last padded with zeros. -/
def messageFlits (s : State) (dst msgId gen : Nat) (bytes : List Byte) : List Flit :=
  let ps := chunksOf 236 bytes
  (List.range ps.length).map fun i => {
    typ := 1, vc := 0, seq := 0, ack := 0, crVc := 0, crCount := 0, dst := dst, ttl := regFld s 0x20004 29 24
    first := i == 0, last := i + 1 == ps.length, gen := gen, src := devId s, msgId := msgId
    payload := (ps.getD i [] ++ List.replicate 236 0).take 236 }

/-- Send a message on its way (R443, R448). -/
def sendMessage (s : State) (dst msgId gen : Nat) (bytes : List Byte) : State :=
  if devId s = 0xFFFFF then s
  else (messageFlits s dst msgId gen bytes).foldl (fun st f => (launch st f none).1) s

/-- PAIR flits of an item (Table 13.11): the kind in payload byte 0 of every flit, then up to 235 bytes of the item, which
begins with its length in 4 bytes; the last flit is padded with zeros (log entry 16). -/
def pairFlits (kind : Nat) (bytes : List Byte) : List Flit :=
  let ps := chunksOf 235 (leBytes 4 bytes.length ++ bytes)
  (List.range ps.length).map fun i => {
    typ := 5, vc := 2, seq := 0, ack := 0, crVc := 0, crCount := 0, dst := 0, ttl := 0
    first := i == 0, last := i + 1 == ps.length, gen := 0, src := 0, msgId := 0
    payload := BitVec.ofNat 8 kind :: (ps.getD i [] ++ List.replicate 235 0).take 235 }

/-- Queue PAIR flits at a port. -/
def pairOnPort (s : State) (p : Nat) (fs : List Flit) : State :=
  modPort s p fun x => fs.foldl (fun x f => enqueue x ⟨f, none⟩) x

/-- The port of mirrored items: the first pair port that is not DOWN, else port_a (log entry 16). -/
def pairPort (s : State) : Nat := ((pairPorts s).find? fun p => portState s p != 0).getD ((pairPorts s).headD 0)
/-- Send an item to the rear. -/
def pairSend (s : State) (kind : Nat) (bytes : List Byte) : State := pairOnPort s (pairPort s) (pairFlits kind bytes)

/-- Queue a TAKEOVER behind the items of pair ports (R462, R464; log entry 16). -/
def takeoverOn (s : State) (ps : List Nat) : State :=
  let f : Flit := {
    typ := 2, vc := 2, seq := 0, ack := 0, crVc := 0, crCount := 0, dst := regFld s 0x20038 19 0, ttl := regFld s 0x20004 29 24
    first := false, last := false, gen := 0, src := devId s, msgId := 0, payload := xctrlPayload 5 0 0 0 0 0 }
  ps.foldl (fun st p => modPort st p fun x => { x with pair := x.pair ++ [⟨f, none⟩] }) s

/-- Does this front mirror now (R458, R460)? -/
def mirroring (s : State) : Bool := pairOn s && !isRear s && (pairState s == 1 || pairState s == 2)

/-- Flits of a message of this device that no port has sent yet are taken back (R454). -/
def recallMessage (s : State) (msgId : Nat) : State :=
  let keep (q : QFlit) : Bool := !(q.from_.isNone && q.flit.typ == 1 && q.flit.msgId == msgId)
  { s with fab := { s.fab with
    ports := tmap LinkPort.init (fun x => { x with data0 := x.data0.filter keep, data1 := x.data1.filter keep }) s.fab.ports
    paths := s.fab.paths.filter fun q => !(q.src == devId s && q.msgId == msgId) } }

/-! The link layer (R434 to R436). -/

/-- Is a flit type sequenced (Table 13.3)? -/
def sequenced (t : Nat) : Bool := t == 1 || t == 2 || t == 5

/-- Do an ack and its credits count: held flits up to ack leave the replay buffer (R436). -/
def takeAck (x : LinkPort) (f : Flit) : LinkPort :=
  let pos := x.replay.findIdx? fun g => g.seq == f.ack
  let x1 := match pos with
    | some i => { x with replay := x.replay.drop (i + 1), resend := x.resend - (i + 1), stuck := 0 }
    | none => x
  { x1 with credits := tset 0 x1.credits f.crVc (tget 0 x1.credits f.crVc + f.crCount) }

/-- Begin a replay from the oldest held flit; the 16th without progress makes the port retrain (R436). -/
def beginReplay (s : State) (p : Nat) : State :=
  let x := getPort s p
  if x.replay = [] then s
  else
    let s1 := bump s 0x20204
    if 16 ≤ x.stuck + 1 then
      bump (setPortState (setPort s1 p { x with stuck := 0, resend := 0 }) p 1) 0x20208
    else setPort s1 p { x with stuck := x.stuck + 1, resend := 0 }

/-- A flit arrives at port p (R433, R436): the second component says whether it is accepted. A bad one, or one of a
reserved type, is discarded and answered by one LNAK; sequenced flits are then ignored until the expected one. -/
def receive (s : State) (p : Nat) (f : Flit) (good : Bool) : State × Bool :=
  if portState s p < 2 then (s, false)
  else
    let x := getPort s p
    let bad (s : State) : State :=
      bump (modPort s p fun x => if x.ignoring then x else { x with ignoring := true, lnakDue := true }) 0x20200
    if !good || decide (5 < f.typ) then (bad s, false)
    else if p = 32 then (s, true)
    else
      let s1 := setPort s p (takeAck x f)
      if !sequenced f.typ then (s1, true)
      else if f.seq = x.rxExp then
        (modPort s1 p fun x => { x with rxExp := (x.rxExp + 1) % 4096, ignoring := false }, true)
      else (bad s1, false)

/-- Credits to return, as cr_vc and cr_count: the lowest VC that is owed some (R435). -/
def creditField (x : LinkPort) : Nat × Nat :=
  match (List.range 4).find? fun v => tget 0 x.owed v != 0 with
  | some v => (v, Nat.min 63 (tget 0 x.owed v))
  | none => (0, 0)

/-- An IDLE or LNAK flit. -/
def linkFlit (t : Nat) : Flit := {
  typ := t, vc := 0, seq := 0, ack := 0, crVc := 0, crCount := 0, dst := 0, ttl := 0, first := false, last := false
  gen := 0, src := 0, msgId := 0, payload := [] }

/-- What port p sends at the next flit boundary (R435): the flit, whether it is new and sequenced, its queue entry's
receive buffer, and the port after taking it from its queue. -/
def nextFlit (x : LinkPort) : Flit × Bool × Option (Nat × Nat) × LinkPort :=
  let ok (q : QFlit) : Bool := decide (0 < tget 0 x.credits q.flit.vc) && decide (x.replay.length < 512)
  let fst (l : List QFlit) : Option QFlit := l.find? ok
  match x.tick with
  | some f => (f, false, none, { x with tick := none })
  | none =>
    if x.lnakDue then (linkFlit 3, false, none, { x with lnakDue := false })
    else if x.resend < x.replay.length then
      (x.replay.getD x.resend (linkFlit 0), false, none, { x with resend := x.resend + 1 })
    else match fst x.xctrl with
      | some q => (q.flit, true, q.from_, { x with xctrl := x.xctrl.erase q })
      | none => match fst x.pair with
        | some q => (q.flit, true, q.from_, { x with pair := x.pair.erase q })
        | none =>
          match (if x.dataTurn then fst x.data1 else fst x.data0), (if x.dataTurn then fst x.data0 else fst x.data1) with
          | some q, _ => (q.flit, true, q.from_,
              if x.dataTurn then { x with data1 := x.data1.drop 1, dataTurn := false }
              else { x with data0 := x.data0.drop 1, dataTurn := true })
          | none, some q => (q.flit, true, q.from_,
              if x.dataTurn then { x with data0 := x.data0.drop 1 } else { x with data1 := x.data1.drop 1 })
          | none, none => (linkFlit 0, false, none, x)

/-- One flit leaves port p (R435): with the last good seq and the credits owed. -/
def transmit (s : State) (p : Nat) : State :=
  if portState s p < 2 then s
  else
    let loop := [(0, 1), (1, 1), (2, 1), (3, 1)]
    let (f, fresh, from_, x) := nextFlit (if p = 32 then { getPort s p with credits := loop } else getPort s p)
    if p = 32 then
      (if fresh then oweCredit (emit (setPort s p { x with credits := [] }) (.flit p f)) from_ else s)
    else
      let (cv, cc) := creditField x
      let f1 : Flit := { f with
        seq := if fresh then x.txSeq else f.seq
        ack := (x.rxExp + 4095) % 4096
        crVc := cv
        crCount := cc }
      let x1 : LinkPort := { x with owed := tset 0 x.owed cv (tget 0 x.owed cv - cc) }
      let x2 : LinkPort :=
        if fresh then { x1 with
          txSeq := (x1.txSeq + 1) % 4096
          replay := x1.replay ++ [f1]
          resend := x1.resend + 1
          credits := tset 0 x1.credits f.vc (tget 0 x1.credits f.vc - 1) }
        else x1
      oweCredit (emit (setPort s p x2) (.flit p f1)) from_

/-- A port goes DOWN (R436, R440): its held flits are discarded, and the buffers that they came through are free. The flits of
messages that have not left are counted as dropped, and the rest of those messages will be. -/
def portDown (s : State) (p : Nat) : State :=
  let x := getPort s p
  let s0 := bumpN (setPortState (setPort s p LinkPort.init) p 0) 0x20210 (x.data0.length + x.data1.length)
  let s1 : State := { s0 with fab := { s0.fab with paths := s0.fab.paths.map fun q => if q.port = p then { q with port := deadPort } else q } }
  (x.xctrl ++ x.pair ++ x.data0 ++ x.data1).foldl (fun st q => oweCredit st q.from_) s1

/-- A port is trained: send credits start at the receiver's buffer counts (R435), what it holds is sent again. -/
def portUp (s : State) (p lanes : Nat) : State :=
  let s1 := modPort s p fun x => { x with
    credits := [(0, 224), (1, 224), (2, 32), (3, 32)], trainFails := 0, resend := 0, started := true }
  regSetFld (setPortState s1 p (if isPairPort s p then 3 else 2)) (0x20104 + 8 * p) 7 4 lanes

end Sys2Proof.Machine
end

