-- ==== Sys2Proof/Machine/Complete.lean ====
section
/-! DEFINITION. Fetched descriptors and their completion (R401, R410), with what a range-pair front mirrors at a
completion (R460, R461). -/

namespace Sys2Proof.Machine

/-! Fields common to all descriptors (R401). -/
def dType (b : List Byte) : Nat := bits (ow b 0) 31 24
def dIrq (b : List Byte) : Nat := bits (ow b 0) 23 23
def dTag (b : List Byte) : Nat := ow b 4

/-- The fetched descriptor i of ring r of function f that has not completed. -/
def findDesc (s : State) (f r i : Nat) : Option Desc :=
  (getFn s f).descs.find? fun d => d.ring == r && d.index == i
/-- Change a fetched descriptor. -/
def modDesc (s : State) (f r i : Nat) (g : Desc → Desc) : State :=
  modFn s f fun x => { x with descs := x.descs.map fun d => if d.ring = r ∧ d.index = i then g d else d }
/-- Take a descriptor off the list. -/
def dropDesc (s : State) (f r i : Nat) : State :=
  modFn s f fun x => { x with descs := x.descs.filter fun d => !(d.ring == r && d.index == i) }

/-- Descriptor types whose effect a range-pair front mirrors as STATE, and those that it journals (Table 13.11). -/
def isStateType (t : Nat) : Bool := [1, 2, 3, 7, 0x20, 0x21, 0x22, 0x23].contains t
def isJournalType (t : Nat) : Bool := [4, 5, 0x10, 0x11].contains t

/-- FAB_PAIR_STATUS.journal follows the journal. -/
def setJournal (s : State) (l : List JEntry) : State :=
  regSetFld { s with fab := { s.fab with journal := l } } 0x20040 31 16 l.length

/-- One committed output: handle, offset, bytes, and whether the bytes are an object (header first). -/
structure OutBind where
  handle : Nat
  offset : Nat
  isObj : Bool
  data : List Byte
  deriving DecidableEq, Repr

/-- Function, ring, index and status of a commit (R461). -/
def commitHead (f r i status : Nat) : List Byte := leBytes 1 f ++ leBytes 1 r ++ leBytes 2 i ++ leBytes 2 status
/-- What an output contributes to the commit digest (R461): of an object, header bytes 0x00 to 0x3B and its data. -/
def commitOut (o : OutBind) : List Byte :=
  leBytes 4 o.handle ++ leBytes 4 o.offset ++ (if o.isObj then o.data.take 0x3C ++ o.data.drop 64 else o.data)
/-- A COMMIT item (log entry 16): the head, then handle, offset, length and object flag of each output. -/
def commitItem (f r i status : Nat) (outs : List OutBind) : List Byte :=
  commitHead f r i status ++
    outs.flatMap fun o => leBytes 4 o.handle ++ leBytes 4 o.offset ++ leBytes 4 o.data.length ++ leBytes 4 (if o.isObj then 1 else 0)

/-- A STATE item of a descriptor (log entry 16): 0, function, ring, the 64 bytes, then the object's bytes. -/
def stateItem (f r : Nat) (desc obj : List Byte) : List Byte := leBytes 1 0 ++ leBytes 1 f ++ leBytes 1 r ++ desc ++ obj

/-- Mirror a completion to the rear (R460): STATE after DONE, or MIRROR and COMMIT of a journaled item, which leaves the
journal. -/
def mirrorCompletion (s : State) (d : Desc) (status : Nat) (outs : List OutBind) (obj : List Byte) : State :=
  let t := dType d.bytes
  if !(pairOn s && !isRear s) then s
  else if isStateType t then
    (if mirroring s && status == 0 then pairSend s 2 (stateItem d.fn d.ring d.bytes obj) else s)
  else if s.fab.journal.any fun j => j.fn == d.fn && j.ring == d.ring && j.index == d.index then
    let s1 := setJournal s (s.fab.journal.filter fun j => !(j.fn == d.fn && j.ring == d.ring && j.index == d.index))
    let s2 : State := { s1 with fab := { s1.fab with
      commitLog := s1.fab.commitLog ++ commitHead d.fn d.ring d.index status ++ outs.flatMap commitOut } }
    let s3 := outs.foldl (fun st o => pairSend st 4 (leBytes 4 o.handle ++ leBytes 4 o.offset ++ o.data)) s2
    pairSend s3 5 (commitItem d.fn d.ring d.index status outs)
  else s

/-- Ring number under which a rear applies mirrored descriptors: it has no completions; a failure enters NOT_READY (R460). -/
def mirrorRing : Nat := 31
/-- Write the completion of a descriptor; one of a ring that is not enabled is held until it is (R462 step 3). -/
def deliverCompletion (s : State) (d : Desc) (status lo hi : Nat) : State :=
  if d.ring = mirrorRing then (if status = 0 then s else setPairState s 3)
  else if bit (regGet s (ringReg d.fn d.ring 0x10)).toNat 8 then
    writeCompletion s d.fn d.ring d.index (dType d.bytes) (dIrq d.bytes) (dTag d.bytes) status lo hi
  else { s with fab := { s.fab with heldCpl := s.fab.heldCpl ++ [(d.fn, d.ring,
    leBytes 4 d.index ++ leBytes 4 (dType d.bytes) ++ leBytes 4 (dIrq d.bytes) ++ leBytes 4 (dTag d.bytes) ++
      leBytes 4 status ++ leBytes 4 lo ++ leBytes 4 hi)] } }

/-- Write the completions held for a ring, oldest first. -/
def flushHeld (s : State) (f r : Nat) : State :=
  let mine (h : Nat × Nat × List Byte) : Bool := h.1 == f && h.2.1 == r
  let l := s.fab.heldCpl.filter mine
  l.foldl (fun st h =>
    let w (o : Nat) : Nat := ow h.2.2 o
    writeCompletion st f r (w 0) (w 4) (w 8) (w 12) (w 16) (w 20) (w 24))
    { s with fab := { s.fab with heldCpl := s.fab.heldCpl.filter fun h => !mine h } }

/-- Does a descriptor's end count as a LOAD_PARAMS failure of CNT_PARAM_REJECT (Table 2.16)? One cancelled, or ended by its
function's reset, has not failed (DEDUCED, log entry 67). -/
def loadRejected (b : List Byte) (status : Nat) : Bool :=
  dType b == 1 && !([0, 0x0501, 0x0502] : List Nat).contains status
/-- End a descriptor with a status, its info words, its committed outputs and its object bytes (R410, R460). -/
def completeWith (s : State) (f r i status lo hi : Nat) (outs : List OutBind) (obj : List Byte) : State :=
  match findDesc s f r i with
  | none => s
  | some d =>
    let s1 := if loadRejected d.bytes status then bump s (fnBase f + 0x203C) else s
    mirrorCompletion (deliverCompletion (dropDesc s1 f r i) d status lo hi) d status outs obj

/-- End a descriptor with a status and nothing more. -/
def completeDesc (s : State) (f r i status : Nat) : State := completeWith s f r i status 0 0 [] []

/-! The schedule table's end of a descriptor (R477 to R479). -/

/-- Entry n of the schedule table. -/
def getSched (s : State) (n : Nat) : Option SchedEnt := tget none s.sched.entries n
/-- Replace entry n. -/
def setSched (s : State) (n : Nat) (e : Option SchedEnt) : State :=
  { s with sched := { s.sched with entries := tset none s.sched.entries n e } }

/-- Lateness for info_lo (R478). -/
def lateness (at_ t : Nat) : Nat := Nat.min (at_ - t) 0xFFFFFFFF

/-- Complete the descriptor of an entry and free the entry. The status of a late entry's action is SCHED_LATE in place of
DONE (R24, R477). -/
def schedEnd (s : State) (n status : Nat) : State :=
  match getSched s n with
  | none => s
  | some e =>
    let st := if e.late && status == 0 then 0x0801 else status
    completeWith (setSched s n none) e.fn e.ring e.index st (lateness (if e.fired then e.firedAt else s.ftime.toNat) e.t) n [] []

end Sys2Proof.Machine
end

