-- ==== Sys2Proof/Machine/MaintBase.lean ====
section
/-! DEFINITION. The maintenance arbiter (R594 to R600): targets, conflicts, grants, deferrals, the pending lists. -/

namespace Sys2Proof.Machine

/-- A resource that an activity holds (R597). -/
inductive Resource where
  | tile (t : Nat)
  | stack (h : Nat)
  | gddr (n : Nat)
  | port (p : Nat)
  | flash
  deriving DecidableEq, Repr

/-- Is a target kind accepted by its class, with its index in range (Tables 17.10 and 17.11, R595)? Classes with a
pending list accept "all pending" (log entry 19). -/
def targetOk (cls target : Nat) : Bool :=
  let k := bits target 23 20
  let x := bits target 19 0
  let inRange : Bool := match k with
    | 1 => decide (x < nTiles)
    | 2 => decide (x < 256)
    | 3 => decide (x < 8)
    | 4 => decide (x < 16)
    | 5 => decide (x < 32)
    | 6 => x == 0
    | 15 => x == 0
    | _ => false
  inRange && (match cls with
    | 1 => k == 1 || k == 2 || k == 4
    | 2 => k == 1 || k == 15
    | 3 => k == 1 || k == 2 || k == 4 || k == 15
    | 4 => k == 3 || k == 4 || k == 15
    | 5 => k == 5
    | 6 => k == 6 || k == 15
    | _ => false)

/-- Resources of a class and target (R597): a retest or remap of a tile writes the in-field map and holds the flash. -/
def resources (cls target : Nat) : List Resource :=
  let x := bits target 19 0
  let own : List Resource := match bits target 23 20 with
    | 1 => [.tile x]
    | 2 => [.stack (x / 32)]
    | 3 => [.stack x]
    | 4 => [.gddr x]
    | 5 => [.port x]
    | 6 => [.flash]
    | _ => []
  if (cls = 2 ∨ cls = 3) ∧ bits target 23 20 = 1 then own ++ [.flash] else own

/-- Table 17.12. -/
def conflictClasses (a b : Nat) : Bool :=
  let row (x : Nat) : List Nat := match x with
    | 1 => [1, 2, 3, 4]
    | 2 => [1, 2, 3, 6]
    | 3 => [1, 2, 3, 4, 6]
    | 4 => [1, 3, 4]
    | 5 => [5]
    | 6 => [2, 3, 6]
    | _ => []
  (row a).contains b

/-- Does a request conflict with a running activity (R597)? -/
def mntConflict (s : State) (cls target : Nat) : Bool :=
  s.maint.running.any fun a => conflictClasses a.req.cls cls &&
    (resources a.req.cls a.req.target).any fun x => (resources cls target).contains x

/-- Pending items of a class. -/
def pendingOf (s : State) (cls : Nat) : List Nat := tget [] s.maint.pending cls
/-- MNT_STATUS and MNT_PENDINGc follow the arbiter (Table 17.15). -/
def mntRegs (s : State) : State :=
  let cs := [1, 2, 3, 4, 5, 6]
  let run := (cs.filter fun c => s.maint.running.any fun a => a.req.cls == c).foldl (fun v c => v + 2 ^ (c - 1)) 0
  let q (c : Nat) : Nat := (s.maint.queued.filter fun r => r.cls == c).length
  let que := cs.foldl (fun v c => v + q c * 8 ^ (c - 1)) 0
  let s1 := regSet s 0xB0004 (BitVec.ofNat 32 (run * 2 ^ 24 + que))
  cs.foldl (fun st c => regSet st (0xB0010 + 4 * (c - 1)) (BitVec.ofNat 32 (pendingOf s c).length)) s1

/-- Replace the pending list of a class. -/
def setPending (s : State) (cls : Nat) (l : List Nat) : State :=
  mntRegs { s with maint := { s.maint with pending := tset [] s.maint.pending cls l } }

/-- Start a granted activity (R598); it begins later (R594). -/
def mntGrant (s : State) (r : MntReq) : State :=
  let s1 : State := { s with maint := { s.maint with
    running := s.maint.running ++ [⟨s.maint.nextId, r, s.ftime.toNat, false⟩]
    nextId := s.maint.nextId + 1 } }
  mntRegs (bump s1 0xB0080)

/-- Is a class offered as its needs arise (R596)? -/
def mntAuto (s : State) (cls : Nat) : Bool := bit (regGet s 0xB0000).toNat (cls - 1)

/-- Take the first pending item of a class that no running activity conflicts with. -/
def takePending (s : State) (cls : Nat) : State :=
  match (pendingOf s cls).find? fun t => !mntConflict s cls t with
  | some t => mntGrant (setPending s cls ((pendingOf s cls).erase t)) ⟨cls, t, none, true⟩
  | none => s

/-- Offer the pending items of a class that is in auto mode: each that meets no conflict is granted, in list order. -/
def offerClass (s : State) (cls : Nat) : State :=
  if mntAuto s cls then (List.range (pendingOf s cls).length).foldl (fun st _ => takePending st cls) s else s

/-- An all-pending request takes its class's items one at a time, in list order (R596). -/
def sweepNext (s : State) (cls : Nat) : State :=
  if s.maint.running.any fun a => a.req.cls == cls && a.req.item then s
  else match pendingOf s cls with
    | t :: l => if mntConflict s cls t then s else mntGrant (setPending s cls l) ⟨cls, t, none, true⟩
    | [] => s

/-- Write MNT_LAST and end a schedule entry's request (R599). -/
def mntEnded (s : State) (r : MntReq) (status : Nat) : State :=
  let s1 := regSet (regSet s 0xB0030 (BitVec.ofNat 32 (status * 2 ^ 16 + r.cls))) 0xB0034 (BitVec.ofNat 32 r.target)
  let s2 := if status = 0x0703 ∨ status = 0x0704 then bump s1 0xB008C else s1
  let s3 := if status = 0x0703 then dayEvent s2 0x0902 0xFF 0 [r.cls, r.target, status] else s2
  match r.desc with
  | some (_, _, _, n) => schedEnd s3 n status
  | none => s3

/-- End the all-pending requests whose class has nothing pending or running as an item any more. -/
def endSweeps (s : State) : State :=
  let past (p : MntReq × Nat) : Bool :=
    (pendingOf s p.1.cls).isEmpty && !(s.maint.running.any fun a => a.req.cls == p.1.cls && a.req.item)
  (s.maint.sweeps.filter past).foldl (fun st p => mntEnded st p.1 0)
    { s with maint := { s.maint with sweeps := s.maint.sweeps.filter fun p => !past p } }

/-- Offer what waits (R598): queued requests oldest first, then pending items. -/
def mntOffer (s : State) : State :=
  let s1 := s.maint.queued.foldl (fun st r =>
    if mntConflict st r.cls r.target then st
    else mntGrant { st with maint := { st.maint with queued := st.maint.queued.erase r } } r) s
  let s2 := [1, 2, 3, 4, 5, 6].foldl offerClass s1
  let s3 := s2.maint.sweeps.foldl (fun st p => if mntAuto st p.1.cls then st else sweepNext st p.1.cls) s2
  endSweeps s3

/-- A need of the Y25's own (R596): it joins its pending list of at most 256 items. -/
def mntNeed (s : State) (cls target : Nat) : State :=
  let l := pendingOf s cls
  if l.contains target then s
  else if 256 ≤ l.length then bump s 0xB0090
  else
    let s1 := setPending s cls (l ++ [target])
    if mntAuto s1 cls then offerClass s1 cls
    else if s1.maint.sweeps.any (fun p => p.1.cls == cls) then sweepNext s1 cls else s1

/-- A controller meets a training-related condition of Table 10.4 or repeated link CRC failures: it is marked, and a retrain of
its stack or device becomes a need (R334, R596). -/
def markRetrain (s : State) (c row : Nat) : State :=
  if s.start.mapOut.contains c then s
  else mntNeed (markMapOut s c row) 4 (if c < 256 then 3 * 2 ^ 20 + c / 32 else 4 * 2 ^ 20 + (c - 256))

/-- A request of a schedule entry (R595, R598): ended with MNT_NO_TARGET, granted, deferred with an event, or refused. -/
def mntRequest (s : State) (cls target : Nat) (f ring index n : Nat) : State :=
  let r : MntReq := ⟨cls, target, some (f, ring, index, n), false⟩
  if !targetOk cls target then mntEnded s r 0x0705
  else if bits target 23 20 = 15 then
    mntOffer { s with maint := { s.maint with sweeps := s.maint.sweeps ++ [(r, 0)] } }
  else if !mntConflict s cls target then mntGrant s r
  else if 4 ≤ (s.maint.queued.filter fun q => q.cls == cls).length then mntEnded (bump s 0xB0088) r 0x0702
  else
    let s1 := mntRegs (bump { s with maint := { s.maint with queued := s.maint.queued ++ [r] } } 0xB0084)
    postEvent s1 f 5 (payload4 [0x0701 * 2 ^ 16 + cls, target, n, 0])

/-- Remove a deferred request of a schedule entry, ending it with a status (R598). -/
def mntWithdraw (s : State) (n status : Nat) : State :=
  let mine (r : MntReq) : Bool := match r.desc with
    | some (_, _, _, m) => m == n
    | none => false
  if s.maint.queued.any mine then
    schedEnd (mntRegs { s with maint := { s.maint with queued := s.maint.queued.filter fun r => !mine r } }) n status
  else s

/-- Activity with number a, and its end (R598): its resources are free, and the arbiter offers what waits. -/
def mntFind (s : State) (a : Nat) : Option MntRun := s.maint.running.find? fun r => r.id == a
def mntFinish (s : State) (a status : Nat) : State :=
  match mntFind s a with
  | none => s
  | some r =>
    mntOffer (mntEnded (mntRegs { s with maint := { s.maint with running := s.maint.running.filter fun x => x.id != a } }) r.req status)

/-- Does a running activity hold a tile that it needs idle, so that no new job passes stage 5 there (R594)? -/
def tileHeld (s : State) (t : Nat) : Bool :=
  s.maint.running.any fun a => (a.req.cls == 2 || a.req.cls == 3) && (resources a.req.cls a.req.target).contains (.tile t)

/-- Is the flash held by another activity (R597, Table 17.10)? -/
def flashHeld (s : State) : Bool := s.maint.running.any fun a => (resources a.req.cls a.req.target).contains .flash

/-- Does patrol scrub pause on a resource (R597)? -/
def scrubPaused (s : State) (r : Resource) : Bool :=
  s.maint.running.any fun a => (a.req.cls == 2 || a.req.cls == 3 || a.req.cls == 4) &&
    (resources a.req.cls a.req.target).contains r

/-- Do accesses to a controller wait for a retrain (Table 17.10)? -/
def ctlHeld (s : State) (c : Nat) : Bool :=
  s.maint.running.any fun a => a.req.cls == 4 && a.begun &&
    (resources 4 a.req.target).contains (if c < 256 then .stack (c / 32) else .gddr (c - 256))

end Sys2Proof.Machine
end

