-- ==== Sys2Proof/Machine/Objects.lean ====
section
/-! DEFINITION. The owner of a memory location and what an uncorrectable error does to it (R297, R356 to R358, Table 10.8). -/

namespace Sys2Proof.Machine

/-- What a location holds (Table 10.8). -/
inductive Owner where
  | buffer (f handle offset : Nat)
  | keySet (f slot entry offset : Nat)
  | tableSet (f slot entry offset : Nat)
  | conv (f slot : Nat)
  | home (f slot offset : Nat)
  /-- resident area or public region: function, model slot, model tile, 2 KiB unit of the Tile Bank -/
  | weights (f slot tile unit : Nat)
  | scratch
  | free
  | system
  deriving DecidableEq, Repr

/-- Handle of buffer i of function f (Table 10.10). -/
def handleOf (f gen i : Nat) : Nat := f * 2 ^ 26 + gen * 2 ^ 16 + i

/-- Model that a tile's sector belongs to: function, slot, model tile. -/
def modelOfTile (s : State) (t : Nat) : Option (Nat × Nat × Nat) :=
  (sectorOfTile s t).bind fun p => p.2.model.map fun m =>
    (p.2.owner, m, ((tget ModelSlot.empty (getFn s p.2.owner).models m).tiles.findIdx? (· == t)).getD 0)

/-- The die and the offset in its share of an address, where the extents of an object on dies hold it: the extents of a die hold
its share in order. -/
def inExtents (l : List (Nat × Extent)) (a : Nat) : Option (Nat × Nat) :=
  (List.range l.length).findSome? fun i => match l[i]? with
    | some x =>
      if x.2.base ≤ a ∧ a < x.2.base + x.2.len then
        some (x.1, (((l.take i).filter (·.1 == x.1)).map (·.2.len)).sum + (a - x.2.base))
      else none
    | none => none
/-- The address of offset o in the share of a die. -/
def extentAddr (die : Nat) : List (Nat × Extent) → Nat → Option Nat
  | [], _ => none
  | x :: l, o => if x.1 ≠ die then extentAddr die l o else if o < x.2.len then some (x.2.base + o) else extentAddr die l (o - x.2.len)

/-- The owner of an address. -/
def ownerOf (s : State) (a : Nat) : Owner :=
  match regionOf s a with
  | .gddr =>
    if gddrAlloc s ≤ a - gddrBase then .system
    else
      (s.fns.findSome? fun p =>
        match p.2.bufs.find? fun b => b.2.live && decide (b.2.base ≤ a ∧ a < b.2.base + b.2.size) with
        | some b => some (.buffer p.1 (handleOf p.1 b.2.gen b.1) ((a - b.2.base) / 64 * 64))
        | none =>
          (p.2.models.find? fun m => m.2.loaded && decide (m.2.home.base ≤ a ∧ a < m.2.home.base + m.2.home.len)).map fun m =>
            .home p.1 m.1 (a - m.2.home.base)).getD .free
  | .hbm =>
    (s.fns.findSome? fun p =>
      match p.2.keys.findSome? fun k => (inExtents k.2.extents a).map fun x => (k, x) with
      | some (k, d, o) =>
        let par := (tget ParamSlot.empty p.2.params k.2.param).obj
        let x := pieceAt (keyPieces par k.2.obj k.2.placement d) o
        some (.keySet p.1 k.1 (keyEntryOf k.2.obj x) (x / 64 * 64))
      | none =>
        match p.2.tables.findSome? fun t => (inExtents t.2.extents a).map fun x => (t, x) with
        | some (t, d, o) =>
          let x := pieceAt (tabPieces t.2.obj t.2.placement d) o
          some (.tableSet p.1 t.1 (tabEntryOf t.2.obj x) (x / 64 * 64))
        | none => (p.2.params.findSome? fun q => (inExtents q.2.conv a).map fun _ => Owner.conv p.1 q.1)).getD .free
  | .tb t o =>
    match modelOfTile s t with
    | some (f, m, u) =>
      let b := (tget ModelSlot.empty (getFn s f).models m).blob
      let fld (x : Nat) : Nat := bits (fieldAt b x 4) 21 0
      if (fld 0x14 ≤ o ∧ o < fld 0x14 + fld 0x18) ∨ (fld 0x1C ≤ o ∧ o < fld 0x1C + fld 0x20) then .weights f m u (o / 2048)
      else .scratch
    | none => .scratch
  | .cs _ _ => .scratch
  | _ => .free

/-- Owner function for a Daymark record; 0xFF for none. -/
def Owner.fn : Owner → Nat
  | .buffer f _ _ => f
  | .keySet f _ _ _ => f
  | .tableSet f _ _ _ => f
  | .conv f _ => f
  | .home f _ _ => f
  | .weights f _ _ _ => f
  | _ => 0xFF

/-- Post a memory event (Table 10.9), counted. -/
def memEvent (s : State) (f kind slot handle off ext : Nat) : State :=
  postEvent (bump s (fnBase f + 0x2514)) f 1 (payload4 [kind * 2 ^ 24 + slot, handle, off, ext])

/-- Note poisoned bytes of a buffer; granules of one buffer that adjoin within a fabric tick share an event (R357). -/
def bufEvent (s : State) (f h off len : Nat) : State :=
  let joins (e : Nat × Nat × Nat × Nat) : Bool :=
    e.1 == f && e.2.1 == h && decide (e.2.2.1 ≤ off + len) && decide (off ≤ e.2.2.1 + e.2.2.2)
  let js := s.bufEvents.filter joins
  let lo := js.foldl (fun m e => Nat.min m e.2.2.1) off
  let hi := js.foldl (fun m e => Nat.max m (e.2.2.1 + e.2.2.2)) (off + len)
  { s with bufEvents := (s.bufEvents.filter fun e => !joins e) ++ [(f, h, lo, hi - lo)] }

/-- Post the buffer events of a fabric tick that has ended. -/
def flushBufEvents (s : State) : State :=
  s.bufEvents.foldl (fun st e => memEvent st e.1 1 0xFFFF e.2.1 e.2.2.1 e.2.2.2) { s with bufEvents := [] }

/-- Change model slot m of function f. -/
def modModel (s : State) (f m : Nat) (g : ModelSlot → ModelSlot) : State :=
  modFn s f fun x => { x with models := tset ModelSlot.empty x.models m (g (tget ModelSlot.empty x.models m)) }

/-- Mark a key set's entry poisoned (R296, R297): KSE_FN_POISONED shows the slot. -/
def markKeyEntry (s : State) (f k e : Nat) : State :=
  let s1 := modFn s f fun x =>
    let q := tget KeySlot.empty x.keys k
    { x with keys := tset KeySlot.empty x.keys k { q with poisoned := if q.poisoned.contains e then q.poisoned else q.poisoned ++ [e] } }
  regSetPair s1 (fnBase f + 0x2308) (regPair s1 (fnBase f + 0x2308) ||| 2 ^ k)

/-- Jobs that needed content of the system area that cannot be rebuilt complete INTERNAL_FAULT (Table 10.8). Which content
that is, and which jobs need it, the spec leaves open: a free value (log entry 65). -/
def systemLoss (s : State) : State :=
  let (n, s1) := drawFree s
  { s1 with jobs := tmap none (·.map fun j =>
      if Config.systemLost n j.id then { j with endAs := some (j.endAs.getD stInternal), phase := .stopping, stats := statFail j.stats stInternal } else j) s1.jobs }

/-- A model's home copy cannot give a place of it (R241, Table 10.8): the Daymark record and the MODEL_LOST event. -/
def modelLost (s : State) (f m o : Nat) : State := memEvent (dayEvent s 0x0304 0xFF 0 [f, m]) f 4 m 0 (o / 64 * 64) 0

/-- The action of Table 10.8 for the owner of a poisoned location; len bytes of a buffer are poisoned. -/
def ownerAction (s : State) (a len : Nat) : State :=
  match ownerOf s a with
  | .buffer f h o => bufEvent s f h o len
  | .keySet f k e o => memEvent (markKeyEntry s f k e) f 2 k 0 o e
  | .tableSet f t e o =>
    let s1 := modFn s f fun x =>
      let q := tget TableSlot.empty x.tables t
      { x with tables := tset TableSlot.empty x.tables t { q with poisoned := if q.poisoned.contains e then q.poisoned else q.poisoned ++ [e] } }
    memEvent s1 f 3 t 0 o e
  | .conv _ _ => setPoison s a false
  | .home f m o => modelLost s f m o
  | .weights f m u unit =>
    let s1 := modModel s f m fun x => { x with poisoned := if x.poisoned.contains (u, unit) then x.poisoned else x.poisoned ++ [(u, unit)] }
    regSetFld s1 (fnBase f + 0x2200) (16 + m) (16 + m) 1
  | .system =>
    let die := dieOfCtl (controllerOf s a)
    systemLoss (raiseSrc (raiseSrc (setPoison s a false) (12 + die) 35) (12 + die) 36)
  | .scratch => s
  | .free => s

/-- An owner without the place in its object. -/
def Owner.whole : Owner → Owner
  | .buffer f h _ => .buffer f h 0
  | .keySet f k e _ => .keySet f k e 0
  | .tableSet f t e _ => .tableSet f t e 0
  | .conv f n => .conv f n
  | .home f m _ => .home f m 0
  | o => o

/-- The ranges of device memory that objects hold: base and length. -/
def objectRanges (s : State) : List (Nat × Nat) :=
  s.fns.flatMap fun p =>
    (p.2.bufs.filterMap fun b => if b.2.live then some (b.2.base, b.2.size) else none) ++
    (p.2.models.filterMap fun m => if m.2.loaded then some (m.2.home.base, m.2.home.len) else none) ++
    (p.2.keys.flatMap fun k => k.2.extents.map fun e => (e.2.base, e.2.len)) ++
    (p.2.tables.flatMap fun k => k.2.extents.map fun e => (e.2.base, e.2.len)) ++
    (p.2.params.flatMap fun k => k.2.conv.map fun e => (e.2.base, e.2.len))

/-- The granules of allocated objects that an entry covers, as addresses. -/
def coveredGranules (s : State) (e : PoisonEntry) : List Nat :=
  (objectRanges s).flatMap fun r =>
    ((List.range ((r.2 + 63) / 64)).map fun i => r.1 + 64 * i).filter fun a => entryCovers s e (a / 64)

/-- A new coarse entry poisons more than one granule: each owner in its coverage has its action once, a buffer over the span
from its first to its last granule covered (R357; log entry 65). -/
def coarseActions (s : State) (e : PoisonEntry) : State :=
  let l := (coveredGranules s e).map fun a => (a, (ownerOf s a).whole)
  let firsts := l.foldl (fun (acc : List (Nat × Owner × Nat)) p =>
    if acc.any fun q => q.2.1 == p.2 then acc.map fun q => if q.2.1 == p.2 then (q.1, q.2.1, p.1 + 64 - q.1) else q
    else acc ++ [(p.1, p.2, 64)]) []
  firsts.foldl (fun st q => ownerAction st q.1 q.2.2) s

/-- The coarse entries of a list that another does not hold. -/
def newCoarse (old new : List PoisonEntry) : List PoisonEntry :=
  new.filter fun e => match e with
    | .granule _ => false
    | e => !old.any fun x => match x, e with
      | .block d b _, .block d' b' _ => d == d' && b == b'
      | .device d _, .device d' _ => d == d'
      | _, _ => false

/-- Row of a controller that an address lies in, taken as its 2 KiB unit (log entry 20). -/
def ueRowOf (s : State) (a : Nat) : Nat := controllerOf s a * 2 ^ 32 + (placeOf s a).2 / 2048
/-- Count a row of a controller (Table 10.4, row 2): marked for map-out above 8 rows of a pseudo-channel, 16 of a device. -/
def countRow (s : State) (a : Nat) : State :=
  let c := controllerOf s a
  let l := if s.start.ueRows.contains (ueRowOf s a) then s.start.ueRows else s.start.ueRows ++ [ueRowOf s a]
  let s1 : State := { s with start := { s.start with ueRows := l } }
  if (if c < 256 then 8 else 16) < (l.filter fun r => r / 2 ^ 32 == c).length then markMapOut s1 c 2 else s1

/-- Target of a row remap for an address (Table 17.11). -/
def remapTarget (s : State) (a : Nat) : Nat :=
  match regionOf s a with
  | .cs g _ => 2 ^ 20 + tileOfCore g
  | .tb t _ => 2 ^ 20 + t
  | _ => let c := controllerOf s a; if c < 256 then 2 * 2 ^ 20 + c else 4 * 2 ^ 20 + (c - 256)

/-- Memory code and die of an address for UNCORRECTABLE (log entry 21): 0 Core Store, 1 Tile Bank, 2 HBM3E, 3 GDDR7. -/
def memCode (s : State) (a : Nat) : Nat × Nat :=
  match regionOf s a with
  | .cs g _ => (0, dieOfCore g)
  | .tb t _ => (1, dieOfTile t)
  | .hbm => (2, 12 + dieOfCtl (controllerOf s a))
  | _ => (3, 12 + dieOfCtl (controllerOf s a))

/-- An uncorrectable word or granule at an address (R356): counted unless it is a poison codeword, poisoned, recorded,
its owner's action taken, its row offered for a remap (R596), its controller's row counted (Table 10.4). -/
def uncorrectable (s : State) (a : Nat) (scrub : Bool) : State :=
  let (code, die) := memCode s a
  let s1 := match regionOf s a with
    | .cs g _ => bump s (tileBase (tileOfCore g) + 0x18)
    | .tb t _ => bump s (tileBase t + 0xC)
    | _ => countRow (bump s 0x10064) a
  let s2 := if scrub then bump s1 0x10068 else s1
  let s3 := setPoison s2 a true
  let coarse := newCoarse (s2.poison0 ++ s2.poison1) (s3.poison0 ++ s3.poison1)
  let s4 := dayEvent s3 0x0303 die 0 [code, a % 2 ^ 32, a / 2 ^ 32, (ownerOf s3 a).fn]
  let s5 := match regionOf s4 a with
    | .cs g _ => raiseSrc s4 die (36 + tileOfCore g % 34)
    | .tb t _ => raiseSrc s4 die (36 + t % 34)
    | _ => raiseSrc s4 die (ctlSource (controllerOf s4 a))
  mntNeed (coarse.foldl coarseActions (ownerAction s5 a 64)) 3 (remapTarget s5 a)

/-- A correctable error (R353): counted; the data are delivered corrected, and the rewrite at the next patrol slot changes
no value. -/
def correctable (s : State) (a : Nat) : State :=
  match regionOf s a with
  | .cs g _ => bump s (tileBase (tileOfCore g) + 0x14)
  | .tb t _ => bump s (tileBase t + 0x8)
  | _ => bump s 0x10060

/-- The errors met by a read of len bytes from an address. -/
def memErr (s : State) (a len : Nat) (e : MemErr) (scrub : Bool) : State :=
  match e with
  | .none => s
  | .ce o => if o < len then correctable s (a + o) else s
  | .ue o => if o < len ∧ !poisonedAt s (a + o) then uncorrectable s (a + o) scrub else s
  | .linkCrc =>
    match regionOf s a with
    | .gddr => uncorrectable (markRetrain s (controllerOf s a) 4) a scrub
    | _ => s

end Sys2Proof.Machine
end

