-- ==== Sys2Proof/Machine/MemorySys.lean ====
section
/-! DEFINITION. The memories serving their requests: device memory (R331 to R335), the Tile Banks (R337 to R343), the
stream port and its credits (R344 to R347, R380), and the stream engine's chunks (R376 to R378). Each request is served
by a command; how long it takes is the command's to say (log entry 22). -/

namespace Sys2Proof.Machine

/-! What follows a request's end. -/

/-- The ring side or the pattern side of a stream request takes the data that its other side gave (R374 to R379). -/
def streamWrite (s : State) (g k id : Nat) (bs : List TByte) : State :=
  match getStr s g k with
  | none => s
  | some st =>
    let o := strReqOff st id
    let a := if st.desc.out then elAddr st.desc (o / st.desc.esz) else ringAddr s st o
    pushReq s (writePort s g a true) true a bs.length bs (.strWrite g k id)

/-- An update of counter i that comes from outside the core's bundles: it joins the updates of cycle n (R145, R146, R166). -/
def remoteInc (s : State) (g i n : Nat) : State :=
  modCore s g fun c => { c with sigs := c.sigs ++ [⟨4, 3, i, [], Nat.max n c.sigCyc, n⟩] }

/-- The increment of a counter by an engine of the Y25, with the other updates of the core's current cycle (R146). -/
def engineInc (s : State) (g i : Nat) : State := remoteInc s g i (getCore s g).cyc

/-! Moves: the bytes of a COPY or of a BAR2 access on their way (R331, R338, R344 to R346). -/

/-- The queue of a read or a write that the host's engines make: they belong to no tile. -/
def hostPort (s : State) (a : Nat) (write : Bool) : Port :=
  if write then writePort s nCores a false else readPort s nCores a false
/-- Move mv. -/
def findMove (s : State) (mv : Nat) : Option Move := s.moves.find? fun m => m.id == mv
/-- Change move mv. -/
def modMove (s : State) (mv : Nat) (f : Move → Move) : State :=
  { s with moves := s.moves.map fun m => if m.id = mv then f m else m }
/-- Pieces of at most 2 KiB of n bytes from an address, cut at 2 KiB boundaries of it: address and length. -/
def movePieces (a n : Nat) : List (Nat × Nat) := if n = 0 then [] else portParts (.dram 0) a n
/-- The bytes of a move that have come back. -/
def moveBytes (m : Move) : List TByte := (List.range m.total).map fun i => (tget none m.got i).getD ⟨0, false⟩
/-- A BAR2 access ends with its last request: a read answers its bytes. -/
def bar2End (s : State) (mv : Nat) : State :=
  match findMove s mv with
  | some m =>
    if m.left = 0 ∧ m.owner = .bar2 then
      let s1 : State := { s with moves := s.moves.filter fun x => x.id != mv }
      if m.total = 0 then s1 else emit s1 (.bytes ((moveBytes m).map (·.b)))
    else s
  | none => s
/-- Write bytes that a move has in hand to address a. -/
def moveOut (s : State) (mv a : Nat) (bs : List TByte) : State :=
  let ps := movePieces a bs.length
  let s1 := modMove s mv fun m => { m with left := m.left + ps.length }
  ps.foldl (fun st p => pushReq st (hostPort st p.1 true) true p.1 p.2 ((bs.drop (p.1 - a)).take p.2) (.moveWrite mv)) s1
/-- One request of a move has ended. -/
def moveLess (s : State) (mv : Nat) : State := bar2End (modMove s mv fun m => { m with left := m.left - 1 }) mv
/-- Bytes from offset off of a move's source have come back: they go on to its destination, or wait to leave the module. -/
def moveGot (s : State) (mv off : Nat) (bs : List TByte) : State :=
  match findMove s mv with
  | none => s
  | some m =>
    let s1 := modMove s mv fun m => { m with poisoned := m.poisoned || bs.any (·.tag) }
    match m.dst with
    | some a => moveLess (moveOut s1 mv (a + off) bs) mv
    | none => moveLess (modMove s1 mv fun m => { m with got := tsetRun none m.got off (bs.map some) }) mv
/-- Begin a move: reads of its source (address, offset in the move, length). -/
def beginMove (s : State) (o : MoveOwner) (dst : Option Nat) (total : Nat) (reads : List (Nat × Nat × Nat)) : State :=
  let mv := s.moveSeq
  let ps := reads.flatMap fun r => (movePieces r.1 r.2.2).map fun p => (p.1, r.2.1 + (p.1 - r.1), p.2)
  let s1 : State := { s with moves := s.moves ++ [⟨mv, o, dst, ps.length, [], total, false⟩], moveSeq := mv + 1 }
  ps.foldl (fun st p => pushReq st (hostPort st p.1 false) false p.1 p.2.2 [] (.moveRead mv p.2.1)) s1
/-- End the moves of a descriptor before their time: what they still read or write goes to the drain sink. -/
def dropMoves (s : State) (f r i : Nat) : State :=
  let mine (mv : Nat) : Bool := (findMove s mv).any fun m => m.owner == .copy f r i
  let keep (q : MemReq) : Option MemReq := match q.origin with
    | .moveRead mv _ => if mine mv then some { q with origin := .drain } else some q
    | .moveWrite mv => if mine mv then (match q.port with
        | .credit _ => none
        | .bankWait _ _ => none
        | _ => some { q with origin := .drain }) else some q
    | _ => some q
  { s with memq := s.memq.filterMap keep, moves := s.moves.filter fun m => m.owner != .copy f r i }

/-- Requests to a unit that is fenced are lost (R586). A COPY or a BAR2 access that made one goes on: its read gives zero bytes, tagged,
its write is discarded (DESIGN CHOICE; log entry 65). -/
def loseReqs (s : State) (lost : MemReq → Bool) : State :=
  (s.memq.filter lost).foldl (fun st r => match r.origin with
    | .moveRead mv off => moveGot st mv off (List.replicate r.total ⟨0, true⟩)
    | .moveWrite mv => moveLess st mv
    | _ => st) { s with memq := s.memq.filter fun r => !lost r }

/-- A request has ended with its data (R130, R332, R379). -/
def delivered (s : State) (r : MemReq) (bs : List TByte) : State :=
  match r.origin with
  | .miss g id => modCore s g fun c =>
      { c with loads := c.loads.map fun p => if p.id = id then { p with back := some (tbytesWords bs) } else p }
  | .store g id =>
    let s1 := modCore s g fun c => { c with stores := c.stores.filter fun p => p.id != id }
    opEnded s1 g id (getCore s1 g).cyc
  | .strRead g k id => streamWrite s g k id bs
  | .strWrite g k id => strReqDone s g k id
  | .keySlice p m sl =>
    { s with passes := s.passes.map fun x => if x.id = p then { x with landed := x.landed ++ [(m, sl)] } else x }
  | .moveRead mv off => moveGot s mv off bs
  | .moveWrite mv => moveLess s mv
  -- a core's last coefficient of a request has been written (R204)
  | .land _ _ g => engineInc s g 7
  | .host => s
  | .drain => s
  | .scrub => s

/-- Take a request out of its queue. -/
def popReq (s : State) (id : Nat) : State := { s with memq := s.memq.filter fun r => r.id != id }
/-- Oldest request of a port. -/
def oldest (s : State) (p : Port) : Option MemReq := s.memq.find? fun r => r.port == p

/-- Bytes gathered so far by the whole access of a request. -/
def gotBytes (r : MemReq) : List TByte := (List.range r.total).map fun i => (tget none r.got i).getD ⟨0, false⟩
/-- Replace a request in its queue. -/
def putReq (s : State) (r : MemReq) : State := { s with memq := s.memq.map fun x => if x.id = r.id then r else x }

/-! Device memory (R331, R335). -/

/-- A part of an access of device memory has ended with its bytes: the access ends with its last part. -/
def partDone (s : State) (r : MemReq) (bs : List TByte) : State :=
  let got := tsetRun none r.got (r.addr - r.base) (bs.map some)
  match s.memq.find? fun q => q.acc == r.acc with
  | some q => putReq s { q with got := got.foldl (fun t p => tset none t p.1 p.2) q.got }
  | none => delivered s r (if r.write then [] else gotBytes { r with got := got })

/-- Poison the granules that a discarded write would have written (R335). -/
def poisonSpan (s : State) (a n : Nat) : State :=
  (List.range (if n = 0 then 0 else (a + n - 1) / 64 - a / 64 + 1)).foldl (fun st i => setPoison st ((a / 64 + i) * 64) true) s

/-- A controller serves a request that meets no error (R331): the access ends with the request's bytes. -/
def dramGive (s : State) (r : MemReq) : State :=
  let s1 := popReq s r.id
  if r.write then partDone (writeT s1 r.addr r.data) r [] else partDone s1 r (readT s1 r.addr r.len)
/-- A controller serves a request (R331), with the error that it meets. A write whose GDDR7 link exhausts its CRC retries
marks the device (Table 10.4) and is discarded as R335 discards one (log entry 65; DESIGN CHOICE). -/
def dramServe (s : State) (r : MemReq) (err : MemErr) : State :=
  if r.write then
    if err = .linkCrc ∧ 256 ≤ controllerOf s r.addr then
      partDone (poisonSpan (markRetrain (popReq s r.id) (controllerOf s r.addr) 4) r.addr r.len) r []
    else dramGive s r
  else dramGive (memErr s r.addr r.len err (r.origin == .scrub)) r

/-- DEVICE_MEMORY_RESPONSE (R331): the controller serves its oldest request. -/
def execDeviceMemoryResponse (ctl : Nat) (err : MemErr) (s : State) : StepOut :=
  .next <|
    match oldest s (.dram ctl) with
    | none => s
    | some r => if ctlHeld s ctl then s else dramServe s r err

/-- MEMORY_REQUEST_TIMEOUT (R334, R335): no response within 64 µs. -/
def execMemoryRequestTimeout (ctl : Nat) (s : State) : StepOut :=
  .next <|
    match oldest s (.dram ctl) with
    | none => s
    | some r =>
      let s1 := markMapOut (bump (popReq s r.id) 0x10070) ctl 3
      if r.write then partDone (poisonSpan s1 r.addr r.len) r []
      else partDone s1 r (List.replicate r.len ⟨0, true⟩)

/-- Is a request one to device memory? -/
def isDram (r : MemReq) : Bool := match r.port with
  | .dram _ => true
  | _ => false
/-- The controllers serve every request that has arrived, in order (R331): what an engine that reads or writes device memory
inside one command finds done before its own access (log entry 66). -/
def serveDram (s : State) : State :=
  (s.memq.filter isDram).foldl (fun st r => match st.memq.find? fun q => q.id == r.id with
    | some q => dramGive st q
    | none => st) s
/-- An access to n bytes of device memory inside a command: CNT_MEM_SHORT counts it below 256 bytes (R333). -/
def countShort (s : State) (n : Nat) : State := if 0 < n ∧ n < 256 then bump s 0x10074 else s
/-- The requests before an access inside a command, where its address is one of device memory. -/
def serveAt (s : State) (a : Nat) : State :=
  match hostPort s a false with
  | .dram _ => serveDram s
  | _ => s
/-- What an engine's access to n bytes at an address inside a command finds and leaves before the bytes themselves move, where
the address is one of device memory (log entry 66). -/
def engineAccess (s : State) (a n : Nat) : State :=
  match hostPort s a false with
  | .dram _ => countShort (serveDram s) n
  | _ => s

/-! Lines of the Tile Banks and Core Stores. -/

/-- Bytes of request r that lie in its line l of u bytes: first address and count. -/
def lineSpan (r : MemReq) (u l : Nat) : Nat × Nat :=
  let lo := Nat.max r.addr (u * l)
  let hi := Nat.min (r.addr + r.len) (u * l + u)
  (lo, hi - lo)

/-- Serve line l of request r: a read takes its bytes, a write puts them (R339). A read may touch a stream's chunk (R383). -/
def serveLine (s : State) (r : MemReq) (u l : Nat) (touch : Bool) : State :=
  let (a, n) := lineSpan r u l
  let off := a - r.addr
  let r1 := { r with linesLeft := r.linesLeft.erase l, merged := r.merged.erase l }
  if r.write then putReq (writeT s a ((r.data.drop off).take n)) r1
  else
    let s1 := if touch then touchRange s a n else s
    putReq s1 { r1 with got := tsetRun none r1.got off ((readT s1 a n).map some) }

/-- An RSIG arrives after every earlier store of its core to the same core (R234). -/
def rsigHeld (s : State) (r : MemReq) : Bool :=
  r.total == 0 && (match r.origin, r.port with
    | .store g _, .stream h _ => s.memq.any fun q =>
        decide (q.id < r.id) && q.total != 0 && (q.port == .credit h || q.port == .stream h 0) &&
          (match q.origin with | .store g' _ => g == g' | _ => false)
    | _, _ => false)

/-- End every request of a port whose lines have all been served, oldest first. -/
def finishPort (s : State) (ports : List Port) (n : Nat) : State :=
  let complete (r : MemReq) : Bool := ports.contains r.port && r.linesLeft.isEmpty && r.merged.isEmpty && !rsigHeld s r
  (s.memq.filter complete).foldl (fun st r =>
    -- a request of no bytes is an RSIG: the receiver's counter is incremented (R166)
    let st1 := if r.total = 0 then
        match r.port with
        | .stream g _ => remoteInc st g (r.addr % 8) n
        | _ => st
      else st
    delivered st1 r (if r.write then [] else gotBytes r)) { s with memq := s.memq.filter fun r => !complete r }

/-! Tile Banks. -/

/-- Bank of a line (R337). -/
def bankOf (l : Nat) : Nat := (l % 16) ^^^ (l / 16 % 16) ^^^ (l / 256 % 16) ^^^ (l / 4096 % 16)

/-- Is patrol enabled for the memory of an address (Table 10.15), and not paused there (R597)? The scrub unit's size: a Core
Store line, a line of each bank of a Tile Bank, a 2 KiB unit (Table 10.7). -/
def patrolUnit (s : State) (a : Nat) : Option Nat :=
  let ctrl := (regGet s 0x10014).toNat
  match regionOf s a with
  | .cs g _ => if bit ctrl 31 && !scrubPaused s (.tile (tileOfCore g)) then some 32 else none
  | .tb t _ => if bit ctrl 30 && !scrubPaused s (.tile t) then some 1024 else none
  | .hbm => if bit ctrl 29 && !scrubPaused s (.stack (controllerOf s a / 32)) then some 2048 else none
  | .gddr => if bit ctrl 29 && !scrubPaused s (.gddr (controllerOf s a - 256)) then some 2048 else none
  | _ => none

/-- Is the phase-7 cycle n of a Tile Bank patrol's (Table 10.7: one in 64 cycles), taken already or still to be taken? -/
def patrolDue (s : State) (t n : Nat) : Bool :=
  (patrolUnit s (tbBase t)).isSome && (decide (tget 0 s.bankScrub t ≤ n) || tget 0 s.bankScrub t == n + 64)

/-- Class served in cycle n of a tile (Table 10.5); phase 7 serves maintenance, else remote reads. -/
def wheelClass (s : State) (t n : Nat) : Option Nat :=
  match n % 8 with
  | 2 => some 1
  | 3 => some 2
  | 6 => some 3
  | 7 => if patrolDue s t n ||
        s.maint.running.any (fun a => a.begun && a.req.cls == 3 && (resources 3 a.req.target).contains (.tile t))
      then none else some 1
  | _ => some 0

/-- The request that bank b serves: the oldest of the class with a line left in the bank that is not between the two
steps of another write (R339, R341). -/
def bankPick (s : State) (t cls b : Nat) (busy : List Nat) : Option (MemReq × Nat) :=
  s.memq.findSome? fun r =>
    if r.port == .bank t cls then
      (r.linesLeft.find? fun l => bankOf l == b && !busy.contains l).map fun l => (r, l)
    else none

/-- Does a write cover only a part of some 64-bit word in a line (R341)? -/
def partialIn (r : MemReq) (l : Nat) : Bool :=
  let (a, n) := lineSpan r 64 l
  r.write && (a % 8 != 0 || n % 8 != 0)

/-- Serve one line of a Tile Bank request, or, for a write that takes two steps, read it (R341). -/
def bankServe (s : State) (r : MemReq) (l : Nat) (two : Bool) : State :=
  if two then putReq s { r with linesLeft := r.linesLeft.erase l, merged := r.merged ++ [l] } else serveLine s r 64 l true

/-- One bank's service: the picked line, and every request smaller than 64 bytes in the same line (R340). From the first
write of part of a word on, the writes of the access take their write step in the class's next cycle, in order, so that
nothing comes between its two steps (R341). -/
def bankCycle (s : State) (t cls b : Nat) (busy : List Nat) : State :=
  match bankPick s t cls b busy with
  | none => s
  | some (r, l) =>
    let more := if r.len < 64 then
        s.memq.filter fun q => q.id != r.id && q.port == .bank t cls && decide (q.len < 64) && q.linesLeft.contains l
      else []
    bumpN ((r :: more).foldl (fun (acc : State × Bool) q =>
      let two := acc.2 || partialIn q l
      (bankServe acc.1 q l two, two)) (s, false)).1 (tileBase t + 0x10) more.length

/-- Requests that wait for room in a class of a Tile Bank join it, oldest first, up to its 256 (R339). -/
def admitBank (s : State) (t cls : Nat) : State :=
  let room := 256 - portCount s (.bank t cls)
  (((s.memq.filter fun r => r.port == .bankWait t cls).take room).map (·.id)).foldl (fun st i =>
    { st with memq := (st.memq.filter fun r => r.id != i) ++
      ((st.memq.filter fun r => r.id == i).map fun r => { r with port := .bank t cls }) }) s

/-- TILE_BANK_SERVICE (R338 to R343): core-domain cycle n of tile t. Write steps left from the class's last cycle come
first and keep their banks; no cycle serves while the tile is zeroed. -/
def execTileBankService (t n : Nat) (err : MemErr) (s : State) : StepOut :=
  .next <|
    if s.zeroing.contains t || decide (nTiles ≤ t) then s
    else match wheelClass s t n with
      | none => s
      | some cls =>
        let halves := s.memq.flatMap fun r => if r.port == .bank t cls then r.merged.map fun l => (r.id, l) else []
        let s1 := halves.foldl (fun st p =>
          match st.memq.find? fun r => r.id == p.1 with
          | some r => serveLine st r 64 p.2 true
          | none => st) s
        let busy := halves.map (·.2)
        let free := (List.range 16).filter fun b => !(busy.any fun l => bankOf l == b)
        let reads := free.filterMap fun b => (bankPick s1 t cls b busy).map (·.2)
        let s2 := match err with
          | .ce o => if reads.contains ((tbBase t + o) / 64) then memErr s1 (tbBase t) 0x300000 err false else s1
          | .ue o => if reads.contains ((tbBase t + o) / 64) then memErr s1 (tbBase t) 0x300000 err false else s1
          | _ => s1
        admitBank (finishPort (free.foldl (fun st b => bankCycle st t cls b busy) s2) [.bank t cls] n) t cls

/-! The stream port. -/

/-- The pass and member of a key-slice request, and whether its slice has credit: s − C3 < kr_depth (R285). -/
def sliceReady (s : State) (g : Nat) (r : MemReq) : Bool :=
  match r.origin with
  | .keySlice p _ sl =>
    match s.passes.find? fun x => x.id == p with
    | some x => decide ((sl % 65536 + 65536 - (syncCnt s g 3).toNat) % 65536 < x.krDepth)
    | none => false
  | _ => false

/-- Has a class of the stream port something to serve? -/
def portPending (s : State) (g cls : Nat) : Bool :=
  s.memq.any fun r => r.port == .stream g cls && (cls != 3 || sliceReady s g r) && !rsigHeld s r

/-- Class that the stream port of core g serves in cycle n (R288, R380). -/
def portClass (s : State) (g n : Nat) : Option Nat :=
  if n / 4 % 2 = 0 && portPending s g 3 then some 3
  else ((List.range 3).map fun i => ((getCore s g).portTurn + 1 + i) % 3).find? fun k => portPending s g k

/-- Serve up to 8 lines, 256 bytes, of a class, the oldest first; a line of a granted remote write returns its credit
(R345). -/
def portLoop : Nat → State → Nat → Nat → State
  | 0, s, _, _ => s
  | k + 1, s, g, cls =>
    match s.memq.findSome? (fun r =>
      if r.port == .stream g cls && (cls != 3 || sliceReady s g r) then (r.linesLeft.head?).map fun l => (r, l) else none) with
    | none => s
    | some (r, l) =>
      let s1 := serveLine s r 32 l (cls == 1)
      portLoop k (if cls = 0 then modCore s1 g fun c => { c with credits := c.credits + 1 } else s1) g cls

/-- STREAM_PORT_SERVICE (R133, R344, R380): phase-3 cycle n of core g; none serves while the tile is zeroed (R343). -/
def execStreamPortService (g n : Nat) (err : MemErr) (s : State) : StepOut :=
  .next <|
    if n % 4 ≠ 3 ∨ nCores ≤ g ∨ s.zeroing.contains (tileOfCore g) = true then s
    else
      let s1 := settle s g n
      match portClass s1 g n with
      | none => s1
      | some cls =>
        let s2 := if cls < 3 then modCore s1 g fun c => { c with portTurn := cls } else s1
        let s3 := if cls = 1 ∨ cls = 2 then memErr s2 (csBase g) 0x8000 err false else s2
        finishPort (portLoop 8 s3 g cls) [.stream g cls] n

/-- A core grants an encode request the credit of its landing region; the request holds no data yet (R205). -/
def grantLanding (s : State) (fe id g : Nat) : State :=
  { s with encQ := tset [] s.encQ fe ((tget [] s.encQ fe).map fun r => if r.id = id then { r with granted := g :: r.granted } else r) }

/-- CREDIT_GRANT (R345, R346): the receiver grants its oldest waiting remote write, if its credit covers all its lines. -/
def execCreditGrant (g : Nat) (s : State) : StepOut :=
  .next <|
    match oldest s (.credit g) with
    | none => s
    | some r =>
      let n := lines32 r.addr r.len
      if (getCore s g).credits < n then s
      else
        let s1 := modCore s g fun c => { c with credits := c.credits - n }
        let s2 := { s1 with memq := (s1.memq.filter fun x => x.id != r.id) ++
          [{ r with port := .stream g 0, linesLeft := portLines (.stream g 0) r.addr r.len }] }
        match r.origin with
        | .land fe id _ => grantLanding (popReq s1 r.id) fe id g
        | .store h id => modCore s2 h fun c => (List.range 4).foldl (fun c k =>
            if (getCtx c k).creditWait = some id then modCtx c k fun x => { x with creditWait := none } else c) c
        | _ => s2

/-! Streams. -/

/-- STREAM_REQUEST_ISSUE (R374, R375). -/
def execStreamRequestIssue (g : Nat) (s : State) : StepOut :=
  .next (if coreRuns s g then issueStreamReq s g else s)

/-- Was some context waiting for this increment of the ring core's counter (R384)? -/
def chunkLate (s : State) (h i : Nat) : Bool :=
  let c := getCore s h
  let v := (tget 0 c.cnt (i % 8)).toNat
  (List.range 4).any fun k =>
    let x := getCtx c k
    let w := decCtl (bits (bundleAt c x.pc).toNat 255 224)
    let want := if w.waitKind = 3 then w.waitVal else sVal x w.waitVal % 65536
    x.run == .running && decide (x.pc ≤ 127) && (w.waitKind == 3 || w.waitKind == 4) && w.waitSel % 8 == i % 8 &&
      decide (v < want) && decide (want ≤ (v + 1) % 65536)

/-- Count chunk σ of a stream on its sig_cnt, if it is whole (R376, R377). -/
def countChunk (s : State) (g k : Nat) (out : Bool) : State :=
  match getStr s g k with
  | none => s
  | some st =>
    match st.chunks.find? fun c => c.n == st.sigma with
    | some c =>
      if st.desc.out ≠ out ∨ !c.landed ∨ c.counted then s
      else
        let h := st.desc.ringCore
        let late := !out && chunkLate s h st.desc.sigCnt
        let upd (x : Chunk) : Chunk :=
          if x.n = st.sigma then { x with counted := true, released := x.released || out } else x
        let st1 : Stream := { st with
          sigma := st.sigma + 1
          late := if late then st.late + 1 else st.late
          used := if out then st.used + 1 else st.used
          chunks := st.chunks.map upd }
        engineInc (setStr s g k (some st1)) h st.desc.sigCnt
    | none => s

/-- CHUNK_LANDED (R376): the next IN chunk has landed whole; sig_cnt is incremented. -/
def execChunkLanded (g k : Nat) (s : State) : StepOut := .next (countChunk s g k false)
/-- OUT_CHUNK_ACK (R377): every write of the next OUT chunk has been acknowledged; sig_cnt is incremented. -/
def execOutChunkAck (g k : Nat) (s : State) : StepOut := .next (countChunk s g k true)

/-- Chunks of a whole stream. -/
def strChunks (d : StrDesc) : Nat := ceilDiv (strTotal d) d.cb

/-- STREAM_END (R378, R385): every chunk has been returned, or acknowledged. -/
def execStreamEnd (g k : Nat) (s : State) : StepOut :=
  .next <|
    match getStr s g k with
    | none => s
    | some st =>
      let st1 := releaseChunks s st
      if isStager st1 ∨ strTotal st1.desc = 0 ∨ st1.nextOff ≠ strTotal st1.desc ∨ st1.reqs ≠ [] ∨ st1.sigma ≠ strChunks st1.desc ∨
          st1.chunks.any (fun c => !c.released) then s
      else
        let s1 := accountStream (writeRecord s g k 1 0 st1) g (strCounts st1 0)
        setStr s1 g k none

end Sys2Proof.Machine
end

