-- ==== Sys2Proof/Machine/CoreRows.lean ====
section
/-! DEFINITION. The commands of one core (Chapters 3, 4 and 11 of the spec). Each acts in core-domain cycle n of core g. -/

namespace Sys2Proof.Machine

/-- BUNDLE_ISSUE (R129, R140). -/
def execBundleIssue (g n : Nat) (s : State) : StepOut := .next (bundleIssueAt g n s)
/-- WAIT_TIMEOUT (R173). -/
def execWaitTimeout (g k n : Nat) (s : State) : StepOut := .next (waitTimeoutAt g k n s)
/-- ARRAY_RESULT_READY (R115). -/
def execArrayResultReady (g n : Nat) (s : State) : StepOut := .next (arrayResultAt g n s)
/-- TRANSFORM_ASSIST_RESULT (R119, R121). -/
def execTransformAssistResult (g n : Nat) (s : State) : StepOut := .next (taResultAt g n s)
/-- ELEMENT_RESULT_WRITE (R123). -/
def execElementResultWrite (g n : Nat) (s : State) : StepOut := .next (elementWriteAt g n s)

/-- Does a pending local load of cycle n read address a? -/
def loadReads (s : State) (g n a : Nat) : Bool :=
  (getCore s g).loads.any fun p => p.service == some n && !p.scalarTable && decide (p.addr ≤ a ∧ a < p.addr + p.bytes)

/-- CORE_STORE_LOAD_SERVICE (R133, R135), with an error met in the words read (R349, R356): the offset is one of the Core
Store. -/
def execCoreStoreLoadService (g n : Nat) (err : MemErr) (s : State) : StepOut :=
  .next <|
    let s1 := match err with
      | .ce o => if coreAt s g n && loadReads s g n (csBase g + o) then memErr s (csBase g) 0x8000 err false else s
      | .ue o => if coreAt s g n && loadReads s g n (csBase g + o) then memErr s (csBase g) 0x8000 err false else s
      | _ => s
    loadServiceAt g n s1

/-- CORE_STORE_STORE_SERVICE (R133, R135). -/
def execCoreStoreStoreService (g n : Nat) (s : State) : StepOut := .next (storeServiceAt g n s)
/-- LOAD_DATA_RETURN (R130). -/
def execLoadDataReturn (g k n : Nat) (s : State) : StepOut := .next (loadReturnAt g k n s)
/-- SEGLD_COMPLETE (R165). -/
def execSegldComplete (g n : Nat) (s : State) : StepOut := .next (segldEndAt g n s)
/-- SIGNAL_ACTION (R145, R146). -/
def execSignalAction (g n : Nat) (s : State) : StepOut := .next (signalAt g n s)
/-- BARRIER_COMPLETE (R148, R149). -/
def execBarrierComplete (sec ch n : Nat) (s : State) : StepOut := .next (barrierAt sec ch n s)

end Sys2Proof.Machine
end

