-- ==== Sys2Proof/Machine/DayRows.lean ====
section
/-! DEFINITION. Daymark's flash, its failures and its commands (R526 to R533). -/

namespace Sys2Proof.Machine

/-- Records of a flash sector of the Daymark region, and sectors (R524, R527). -/
def daySectorOf (seq : Nat) : Nat := seq % 8192 / 64
/-- Erase a sector of the Daymark region. -/
def dayErase (s : State) (sec : Nat) : State :=
  { s with day := { s.day with flash := (List.range 64).foldl (fun f i => tset none f (sec * 64 + i) none) s.day.flash } }
/-- Program one record into its slot; with the last slot of a sector the next sector is erased (R527). -/
def dayPut (s : State) (r : DayRec) (erase : Bool) : State :=
  let s1 : State := { s with day := { s.day with
    flash := tset none s.day.flash (r.seq % 8192) (some r)
    staged := s.day.staged.filter (·.seq != r.seq)
    retried := false } }
  dayRegs (if r.seq % 64 = 63 ∧ erase then dayErase s1 ((daySectorOf r.seq + 1) % 128) else s1)
/-- Counts of R511 saved to the settings region. -/
def saveCounts (s : State) : State :=
  { s with keeper := { s.keeper with savedSeconds := opSeconds s, savedCycles := powerCycles s } }
/-- Stage RECORDS_LOST once there is room after a full ring (R526). -/
def dayLost (s : State) : State :=
  if s.day.dropped = 0 ∨ 64 ≤ s.day.staged.length then s
  else dayAppend { s with day := { s.day with dropped := 0 } } 0x0804 0xFF 0 [s.day.dropped]
/-- Program every staged record, in sequence order, RECORDS_LOST with them where room returns for it (R526), and save the
counts (R511, R519, R533). -/
def dayFlush (s : State) : State :=
  if dayDegraded s then s
  else
    let s1 := dayLost (s.day.staged.foldl (fun st r => dayPut st r true) s)
    saveCounts (s1.day.staged.foldl (fun st r => dayPut st r true) s1)

/-- A latch entry with its parity bit (Table 15.10). -/
def latchWord (kind reps loc : Nat) : Nat :=
  let w := kind * 2 ^ 28 + reps * 2 ^ 16 + loc % 2 ^ 16
  w + ((List.range 31).map fun i => (w >>> i) % 2).sum % 2 * 2 ^ 31
/-- Write a failure to the last-gasp latch (R532). -/
def latchFailure (s : State) (kind loc : Nat) : State :=
  let o (n : Nat) : Nat := 0x70080 + 4 * n
  let w (n : Nat) : Nat := (regGet s (o n)).toNat
  match [0, 1, 2, 3].find? fun n => bits (w n) 30 28 == kind && bits (w n) 15 0 == loc with
  | some n => regSet s (o n) (BitVec.ofNat 32 (latchWord kind (Nat.min (bits (w n) 27 16 + 1) 4095) loc))
  | none => match [0, 1, 2, 3].find? fun n => bits (w n) 30 28 == 0 with
    | some n => regSet s (o n) (BitVec.ofNat 32 (latchWord kind 0 loc))
    | none => regSetFld s 0x70090 15 0 (Nat.min (regFld s 0x70090 15 0 + 1) 0xFFFF)

/-- Daymark fails (R530, R531): latch, DEGRADED, alert, source 38 of IOD0 and the PF's event. ramFrom is the first
sequence number held only in RAM. -/
def dayFail (s : State) (kind loc ramFrom : Nat) : State :=
  let s1 := latchFailure s kind loc
  if dayDegraded s1 then s1
  else
    let s2 : State := regSetFld { s1 with day := { s1.day with ramFrom := ramFrom, retried := false } } 0x70004 2 2 1
    let s3 := raiseSrc (sbAlert s2) 12 38
    postEvent s3 0 3 (payload4 [2 ^ 24 + kind, loc, ramFrom, regFld s3 0x70090 15 0])

/-- Is the oldest staged record to be programmed now (R526)? A freeze stops recording, and a flash held by an activity
delays it. -/
def dayDue (s : State) : Option DayRec :=
  match s.day.staged with
  | [] => none
  | r :: l =>
    let now := opSeconds s
    if dayDegraded s ∨ dayFrozen s ∨ flashHeld s ∨ s.keeper.active = 0 then none
    else if !l.isEmpty ∨ r.last + 1 ≤ now ∨ r.stagedAt + 60 ≤ now then some r
    else none

/-- DAYMARK_PROGRAM (R526, R527, R530): a programming of the oldest staged record ends. A record that reads back
different is programmed once more in the same slot before that counts as a failure. -/
def execDaymarkProgram (res : FlashResult) (s : State) : StepOut :=
  match dayDue s with
  | none => .next s
  | some r =>
    let sec := daySectorOf r.seq
    .next (match res with
      | .ok => dayLost (dayPut s r true)
      | .program => dayFail s 1 sec r.seq
      | .verify =>
        if s.day.retried then dayFail s 2 sec r.seq else { s with day := { s.day with retried := true } }
      | .erase =>
        if r.seq % 64 = 63 then dayFail (dayPut s r false) 3 ((sec + 1) % 128) ((r.seq + 1) % 2 ^ 32)
        else dayLost (dayPut s r true)
      | .stagingRam =>
        dayFail (dayRegs { s with day := { s.day with staged := s.day.staged.drop 1 } }) 4 (r.seq % 64) ((r.seq + 1) % 2 ^ 32))

/-- FREEZE_LIMIT_EXPIRY (R529): a freeze of a master has lasted DAY_CTRL.freeze_limit seconds (0 acts as 1). -/
def execFreezeLimitExpiry (m : Nat) (s : State) : StepOut :=
  match tget none s.day.freezes m with
  | some t =>
    .next (if m < 2 ∧ t + Nat.max 1 (regFld s 0x70000 15 0) ≤ opSeconds s then dayThaw s m else s)
  | none => .next s

/-- Put a lookup's outcome into the host's window (R528). -/
def dayWindow (s : State) (seq : Nat) : State :=
  let r := dayLookup s seq
  let s1 := regSet s 0x70018 (BitVec.ofNat 32 r.1)
  (List.range 16).foldl (fun st w => regSet st (0x70040 + 4 * w) (BitVec.ofNat 32 (fieldAt r.2 (4 * w) 4))) s1

/-- DAY_CMD.load (R528). -/
def execDayCmdLoad (s : State) : StepOut :=
  .next (if s.keeper.active = 0 then s else dayWindow s (regGet s 0x70010).toNat)
/-- DAY_CMD.next (R528): the cursor advances, then loads. -/
def execDayCmdNext (s : State) : StepOut :=
  .next (if s.keeper.active = 0 then s
    else
      let c := regGet s 0x70010 + 1
      dayWindow (regSet s 0x70010 c) c.toNat)
/-- DAY_CMD.freeze (R529). -/
def execDayCmdFreeze (s : State) : StepOut := .next (if s.keeper.active = 0 then s else dayFreeze s 0)
/-- DAY_CMD.thaw (R529). -/
def execDayCmdThaw (s : State) : StepOut := .next (if s.keeper.active = 0 then s else dayThaw s 0)

/-- The sector that a retry erases and test-programs (R533): the one after the last record programmed. -/
def retrySector (s : State) : Nat :=
  let n := match s.day.staged with
    | r :: _ => r.seq
    | [] => s.day.next
  (daySectorOf (n + 8191) + 1) % 128

/-- The retry of R533, at DAY_CMD.retry or a Keeper boot: the next sector is erased and test-programmed. -/
def dayRetry (s : State) (res : FlashResult) : State :=
  if !dayDegraded s then s
  else
    let sec := retrySector s
    match res with
    | .ok =>
      let s1 := regSetFld (dayErase s sec) 0x70004 2 2 0
      let s2 := dayFlush s1
      let latch := (List.range 4).map fun n => (regGet s2 (0x70080 + 4 * n)).toNat
      let seq := s2.day.next
      let s3 := dayEvent s2 0x0803 0xFF 0 [(seq + 2 ^ 32 - s2.day.ramFrom) % 2 ^ 32]
      let s4 := if latch.any fun w => bits w 30 28 != 0 then
          dayEvent s3 0x0802 0xFF 0 (latch ++ [regFld s3 0x70090 15 0]) else s3
      postEvent s4 0 3 (payload4 [2 * 2 ^ 24, 0, seq, regFld s4 0x70090 15 0])
    | .program => latchFailure s 1 sec
    | .verify => latchFailure s 2 sec
    | .erase => latchFailure s 3 sec
    | .stagingRam => latchFailure s 4 (s.day.next % 64)

/-- DAY_CMD.retry (R533). -/
def execDayCmdRetry (res : FlashResult) (s : State) : StepOut :=
  .next (if s.keeper.active = 0 then s else dayRetry s res)
/-- DAY_CMD.clear_latch (R533). -/
def execDayCmdClearLatch (s : State) : StepOut :=
  .next (if s.keeper.active = 0 then s
    else regSetFld ((List.range 4).foldl (fun st n => regSet st (0x70080 + 4 * n) 0) s) 0x70090 15 0 0)

/-- Answer on the sideband (R522). -/
def sbAnswer (s : State) (status : Nat) (bs : List Byte) : State := emit s (.sideband status bs)
/-- Does the sideband port answer: the Keeper runs (R520). -/
def sbUp (s : State) : Bool := s.keeper.active != 0

/-- DAY_LOAD (Table 15.6): window status and record; the host's cursor and window stay. -/
def execDayLoad (seq : Nat) (s : State) : StepOut :=
  .next (if !sbUp s then s
    else
      let r := dayLookup s (seq % 2 ^ 32)
      sbAnswer s 0 (leBytes 1 r.1 ++ r.2))
/-- DAY_HOLD freeze (Table 15.6). -/
def execDayHoldFreeze (s : State) : StepOut := .next (if !sbUp s then s else sbAnswer (dayFreeze s 1) 0 [])
/-- DAY_HOLD thaw (Table 15.6). -/
def execDayHoldThaw (s : State) : StepOut := .next (if !sbUp s then s else sbAnswer (dayThaw s 1) 0 [])
/-- LATCH_READ (Table 15.6). -/
def execLatchRead (s : State) : StepOut :=
  .next (if !sbUp s then s
    else sbAnswer s 0 ((List.range 5).flatMap fun n => leBytes 4 (regGet s (0x70080 + 4 * n)).toNat))

end Sys2Proof.Machine
end

