-- ==== Sys2Proof/Machine/EicRows.lean ====
section
/-! DEFINITION. The commands of the Event Interrupt Controllers (R536 to R541). -/

namespace Sys2Proof.Machine

/-- Does EIC e have interface t (R534)? -/
def eicHas (e t : Nat) : Bool := decide (e < 14) && decide (t < 4) && !(decide (12 ≤ e) && t == 0)

/-- EIC_CLAIM (R536): by the processor of the interface, the best eligible source, taken and pushed; otherwise 0. -/
def execEicClaim (e t : Nat) (who : Proc) (s : State) : StepOut :=
  if eicHas e t && procOf s e t == some who then
    (match eicBest s e t with
      | some n => .next (emit (setEicStack (setPendingBit s e n false) e t ((n, eicPriority s e n) :: eicStack s e t))
          (.value (BitVec.ofNat 32 n)))
      | none => .next (emit s (.value 0)))
  else .next (emit s (.value 0))

/-- A stack fault (R537): everything on the stack pends again, the fault is recorded and counted, source 1 is raised,
and the Keeper writes EIC_STACK_FAULT. -/
def stackFault (s : State) (e t src : Nat) : State :=
  let st := eicStack s e t
  let top := match st with
    | (n, _) :: _ => n
    | [] => 0
  let o := eicBase e + 0x900 + 0x40 * t
  let s1 := setEicStack (st.foldl (fun a p => setPendingBit a e p.1 true) s) e t []
  let s2 := bump (regSet s1 (o + 0xC) (BitVec.ofNat 32 (src * 2 ^ 16 + top))) (o + 0x10)
  dayEvent (raiseSrc s2 e 1) 0x0701 e 0 [t, src, top]

/-- EIC_COMPLETE (R537): the top entry is popped, or a stack fault. -/
def execEicComplete (e t src : Nat) (s : State) : StepOut :=
  if !eicHas e t then .next s
  else match eicStack s e t with
    | (n, p) :: r => if n = src % 512 then .next (setEicStack s e t r)
        else .next (stackFault (setEicStack s e t ((n, p) :: r)) e t (src % 512))
    | [] => .next (stackFault s e t (src % 512))

/-- May a processor raise software sources (R539)? -/
def maySwset : Proc → Bool
  | .dieSeq _ => true
  | .ioSeq _ => true
  | .keeper _ => true
  | .host => false
  | .sideband => false

/-- EIC_SWSET (R539): software sources only. -/
def execEicSwset (e src : Nat) (who : Proc) (s : State) : StepOut :=
  .next (if e < 14 ∧ maySwset who ∧ 256 ≤ src ∧ src < 512 then raiseSrc s e src else s)

/-- EIC_LOCK (R539): a 1 sets the lock, a 0 leaves it. -/
def execEicLock (e : Nat) (v : Word) (s : State) : StepOut :=
  .next (if e < 14 ∧ bit v.toNat 0 then regSetFld s (eicBase e + 0x844) 0 0 1 else s)

/-- A write of EIC_SRCn_CFG by a processor (R534, R539): discarded under the lock, for source 0, and for target 0 on an
I/O die. -/
def writeSrcCfg (s : State) (e n : Nat) (v : Word) : State :=
  if bit (regGet s (eicBase e + 0x844)).toNat 0 ∨ (12 ≤ e ∧ bits v.toNat 9 8 = 0) then s
  else regSet s (eicBase e + 4 * n) (v &&& BitVec.ofNat 32 0x800F0300)

/-- HUB_WAKE (R541): a hub at Slate with a wake request wakes; its controller's state was retained. -/
def execHubWake (d : Nat) (s : State) : StepOut :=
  .next (if s.sched.hubWakes.contains d then { s with sched := { s.sched with
    hubWakes := s.sched.hubWakes.filter (· != d)
    slateHubs := s.sched.slateHubs.filter (· != d) } } else s)

end Sys2Proof.Machine
end

