-- ==== Sys2Proof/Machine/Hash.lean ====
section
/-! DEFINITION. The digests that the spec names by standard: SHA-384 (FIPS 180-4; R461, R562, R571) and SHAKE128 (FIPS 202;
R86), on bytes in the order they stand in memory. -/

namespace Sys2Proof.Machine

/-- A 64-bit lane of a hash. -/
abbrev HashLane := BitVec 64

/-- The largest r with r^k ≤ n, by its bits, for r below 2^bits. -/
def iroot (k bits n : Nat) : Nat :=
  ((List.range bits).reverse).foldl (fun r i => if (r + 2 ^ i) ^ k ≤ n then r + 2 ^ i else r) 0

/-- The primes below 410, of which SHA-384 takes the first eighty. -/
def hashPrimes : List Nat := (List.range 410).filter fun n => decide (2 ≤ n) && (List.range 21).all fun d => d < 2 || n ≤ d || n % d != 0

/-! SHA-384. -/

/-- The 80 round constants: the first 64 bits of the fractional parts of the cube roots of the first eighty primes. -/
def shaK : List HashLane := (hashPrimes.take 80).map fun p => BitVec.ofNat 64 (iroot 3 68 (p * 2 ^ 192))
/-- The initial hash value: the fractional parts of the square roots of the ninth to sixteenth primes. -/
def shaInit : List HashLane := ((hashPrimes.drop 8).take 8).map fun p => BitVec.ofNat 64 (iroot 2 68 (p * 2 ^ 128))

/-- Word i of a list of lanes. -/
def laneAt (l : List HashLane) (i : Nat) : HashLane := l.getD i 0

/-- The functions σ0 and σ1 of the message schedule, Σ0 and Σ1 of a round. -/
def shaLow0 (x : HashLane) : HashLane := x.rotateRight 1 ^^^ x.rotateRight 8 ^^^ (x >>> 7)
def shaLow1 (x : HashLane) : HashLane := x.rotateRight 19 ^^^ x.rotateRight 61 ^^^ (x >>> 6)
def shaUp0 (x : HashLane) : HashLane := x.rotateRight 28 ^^^ x.rotateRight 34 ^^^ x.rotateRight 39
def shaUp1 (x : HashLane) : HashLane := x.rotateRight 14 ^^^ x.rotateRight 18 ^^^ x.rotateRight 41

/-- The message schedule of a block of 16 words, newest word first. -/
def shaSchedule (block : List HashLane) : List HashLane :=
  (List.range 64).foldl (fun w _ => (shaLow1 (laneAt w 1) + laneAt w 6 + shaLow0 (laneAt w 14) + laneAt w 15) :: w) block.reverse

/-- One round on the working variables a to h. -/
def shaRound (v : List HashLane) (kw : HashLane × HashLane) : List HashLane :=
  let a := laneAt v 0
  let b := laneAt v 1
  let c := laneAt v 2
  let e := laneAt v 4
  let t1 := laneAt v 7 + shaUp1 e + ((e &&& laneAt v 5) ^^^ (~~~e &&& laneAt v 6)) + kw.1 + kw.2
  let t2 := shaUp0 a + ((a &&& b) ^^^ (a &&& c) ^^^ (b &&& c))
  [t1 + t2, a, b, c, laneAt v 3 + t1, e, laneAt v 5, laneAt v 6]

/-- One block of 128 bytes. -/
def shaBlock (h : List HashLane) (block : List Byte) : List HashLane :=
  let w := (List.range 16).map fun i => BitVec.ofNat 64 (leNat (((block.drop (8 * i)).take 8).reverse))
  let v := (shaK.zip (shaSchedule w).reverse).foldl shaRound h
  (h.zip v).map fun p => p.1 + p.2

/-- A message with its padding: a one bit, zeros, the length in bits as 128 bits, most significant byte first. -/
def shaPad (m : List Byte) : List Byte :=
  m ++ [0x80#8] ++ List.replicate ((239 - m.length % 128) % 128) 0 ++ (leBytes 16 (8 * m.length)).reverse

/-- SHA-384, the first byte of the digest most significant. -/
def sha384 (m : List Byte) : BitVec 384 :=
  let p := shaPad m
  let h := (List.range (p.length / 128)).foldl (fun h i => shaBlock h ((p.drop (128 * i)).take 128)) shaInit
  BitVec.ofNat 384 ((h.take 6).foldl (fun acc x => acc * 2 ^ 64 + x.toNat) 0)

/-! SHAKE128: lane (x, y) of the state at index x + 5y. -/

/-- Bit t of the round-constant generator of Keccak: x^t modulo x^8 + x^6 + x^5 + x^4 + 1. -/
def keccakRc (t : Nat) : Bool :=
  (((List.range (t % 255)).foldl (fun r _ => if 128 ≤ r then (2 * r - 256) ^^^ 0x71 else 2 * r) 1) % 2) == 1
/-- The round constant of round n. -/
def keccakConst (n : Nat) : HashLane :=
  (List.range 7).foldl (fun c j => if keccakRc (j + 7 * n) then c ^^^ BitVec.ofNat 64 (2 ^ (2 ^ j - 1)) else c) 0
/-- Where ρ and π move lane by lane: (x, y) takes turn t of the walk from (1, 0), rotated by (t + 1)(t + 2)/2. -/
def keccakWalk : List (Nat × Nat) :=
  ((List.range 24).foldl (fun (acc : List (Nat × Nat) × Nat × Nat) t =>
    (acc.1 ++ [(acc.2.1 + 5 * acc.2.2, (t + 1) * (t + 2) / 2 % 64)], acc.2.2, (2 * acc.2.1 + 3 * acc.2.2) % 5)) ([], 1, 0)).1
/-- θ. -/
def keccakTheta (a : List HashLane) : List HashLane :=
  let c := (List.range 5).map fun x => (List.range 5).foldl (fun s y => s ^^^ laneAt a (x + 5 * y)) 0
  let d := (List.range 5).map fun x => laneAt c ((x + 4) % 5) ^^^ (laneAt c ((x + 1) % 5)).rotateLeft 1
  (List.range 25).map fun i => laneAt a i ^^^ laneAt d (i % 5)
/-- ρ and π: the lane from (x, y) goes to (y, 2x + 3y). -/
def keccakRhoPi (a : List HashLane) : List HashLane :=
  keccakWalk.foldl (fun b p =>
    let x := p.1 % 5
    let y := p.1 / 5
    b.set (y + 5 * ((2 * x + 3 * y) % 5)) ((laneAt a p.1).rotateLeft p.2)) a
/-- χ and ι of round n. -/
def keccakChi (n : Nat) (b : List HashLane) : List HashLane :=
  (List.range 25).map fun i =>
    let y := 5 * (i / 5)
    let v := laneAt b i ^^^ (~~~laneAt b (y + (i + 1) % 5) &&& laneAt b (y + (i + 2) % 5))
    if i = 0 then v ^^^ keccakConst n else v
/-- Keccak-f[1600]. -/
def keccakF (a : List HashLane) : List HashLane :=
  (List.range 24).foldl (fun s n => keccakChi n (keccakRhoPi (keccakTheta s))) a

/-- Absorb a block of 168 bytes. -/
def keccakAbsorb (a : List HashLane) (block : List Byte) : List HashLane :=
  keccakF ((List.range 25).map fun i =>
    if i < 21 then laneAt a i ^^^ BitVec.ofNat 64 (leNat ((block.drop (8 * i)).take 8)) else laneAt a i)
/-- A message with SHAKE's padding: 1111, then 10…01. -/
def shakePad (m : List Byte) : List Byte :=
  let z := 167 - m.length % 168
  if z = 0 then m ++ [0x9F#8] else m ++ [0x1F#8] ++ List.replicate (z - 1) 0 ++ [0x80#8]

/-- Word i of the output stream of SHAKE128 over a message: 8 bytes, little-endian (R86). -/
def shake128 (m : List Byte) (i : Nat) : Nat :=
  let p := shakePad m
  let a := (List.range (p.length / 168)).foldl (fun s k => keccakAbsorb s ((p.drop (168 * k)).take 168)) (List.replicate 25 0)
  (laneAt ((List.range (i / 21)).foldl (fun s _ => keccakF s) a) (i % 21)).toNat

end Sys2Proof.Machine
end

