-- ==== Sys2Proof/Machine/Handles.lean ====
section
/-! DEFINITION. Buffer handles (R359, R362), references (R403), and descriptors that fail a check. -/

namespace Sys2Proof.Machine

/-! Fields of a handle (Table 10.10). -/
def hFn (h : Nat) : Nat := bits h 31 26
def hGen (h : Nat) : Nat := bits h 25 16
def hIdx (h : Nat) : Nat := bits h 15 0

/-- Buffer i of function f. -/
def getBuf (s : State) (f i : Nat) : Buf := tget Buf.free (getFn s f).bufs i

/-- What a handle named by function f resolves to (Table 10.11, first two rows): 0 and its buffer, or a status. -/
def resolve (s : State) (f h : Nat) : Nat × Buf :=
  let b := getBuf s (hFn h) (hIdx h)
  if hFn h ≠ f then (stNotOwner, Buf.free)
  else if !b.live || b.gen != hGen h then (stStale, Buf.free)
  else (0, b)

/-- First failing status of a list, 0 for none. -/
def firstBad (l : List Nat) : Nat := (l.find? (· != 0)).getD 0

/-- Count the outcome of a request (Table 10.18). -/
def countOutcome (s : State) (f status : Nat) : State :=
  if status = stStale then bump s (fnBase f + 0x250C)
  else if status = stNotOwner then bump s (fnBase f + 0x2510)
  else s

/-- End a descriptor that fails a check, counted. -/
def failDesc (s : State) (f r i status : Nat) : State := completeDesc (countOutcome s f status) f r i status

/-- A reference of a descriptor (R403): its three words at offset o. -/
structure Ref where
  lo : Nat
  hi : Nat
  kind : Nat
  deriving DecidableEq, Repr

def refAt (b : List Byte) (o : Nat) : Ref := ⟨ow b o, ow b (o + 4), bits (ow b (o + 8)) 1 0⟩
/-- A reference is well formed: reserved bits zero and kind not reserved. -/
def refOk (b : List Byte) (o : Nat) : Bool := bits (ow b (o + 8)) 31 2 == 0 && bits (ow b (o + 8)) 1 0 != 3

/-- Device address that a buffer or device reference of n bytes reaches, or a status; host references have none. A range
outside its buffer, or one that R54 to R56 refuse, ends PARAM_MISMATCH. -/
def refAddr (s : State) (f : Nat) (r : Ref) (n : Nat) (write : Bool) : Nat × Nat :=
  match r.kind with
  | 1 =>
    let (st, b) := resolve s f r.lo
    if st ≠ 0 then (st, 0)
    else if b.size < r.hi + n then (stParam, 0) else (0, b.base + r.hi)
  | 2 =>
    let a := r.lo + r.hi % 2 ^ 20 * 2 ^ 32
    if accessOk s ⟨f, none, none⟩ a (Nat.max n 1) write && r.hi < 2 ^ 20 then (0, a) else (stParam, 0)
  | _ => (0, 0)

/-- Host address of a reference. -/
def refHost (r : Ref) : Nat := r.lo + r.hi * 2 ^ 32

/-- Bytes that a device range reads as. -/
def plain (bs : List Byte) : List TByte := bs.map fun b => ⟨b, false⟩

end Sys2Proof.Machine
end

