-- ==== Sys2Proof/Machine/KseBase.lean ====
section
/-! DEFINITION. Key passes: their slices, the words of a slice, the bursts of the fetch units and credit (R281 to R289,
R296). -/

namespace Sys2Proof.Machine

/-- Parameter-set slot n of function f and its object. -/
def getParam (s : State) (f n : Nat) : ParamSlot := tget ParamSlot.empty (getFn s f).params n
/-- Key-set slot, table-set slot and model slot of function f. -/
def getKeys (s : State) (f k : Nat) : KeySlot := tget KeySlot.empty (getFn s f).keys k
def getTabs (s : State) (f k : Nat) : TableSlot := tget TableSlot.empty (getFn s f).tables k
def getModel (s : State) (f m : Nat) : ModelSlot := tget ModelSlot.empty (getFn s f).models m
/-- Parameter object that a key-set slot names. -/
def keyParam (s : State) (f k : Nat) : List Byte := (getParam s f (getKeys s f k).param).obj

/-- Device address of byte `off` of a key set, on the first die that holds it (R279; log entry 18). -/
def keyAddr (p : List Byte) (k : KeySlot) (off : Nat) : Option Nat :=
  ([0, 1] : List Nat).findSome? fun die =>
    (pieceFind (keyPieces p k.obj k.placement die) off).bind (extentAddr die k.extents)

/-- Word of a key set at a byte offset; a word that the memory cannot deliver is zero and tagged (R296). -/
def keyWord (s : State) (f k off : Nat) : TWord :=
  let q := getKeys s f k
  let bad := match keyAddr (keyParam s f k) q off with
    | some a => poisonedAt s a
    | none => false
  if bad then ⟨0, true⟩ else ⟨BitVec.ofNat 32 (ow q.obj off), false⟩

/-! Slices of a pass (R284). -/

/-- Slice width, E order, present digits, and local indices of a pass. -/
def passSw (p : Pass) : Nat := 4 * 2 ^ p.krWidth
def passE (o : List Byte) (p : Pass) : List Nat := pE o (pM o p.level)
def passDigits (o : List Byte) (p : Pass) : List Nat := pDigits o (pM o p.level)
def passLocal (p : Pass) : Nat := ceilDiv (2 ^ p.logN) (if p.width = 0 then 1 else p.width)
/-- Slices of a pass over E of size e and d digits. -/
def passSlices (p : Pass) (e d : Nat) : Nat := ceilDiv (passLocal p) (passSw p) * e * d
/-- Chunk, prime entry and digit of slice i of a pass. -/
def sliceOf (o : List Byte) (p : Pass) (i : Nat) : Nat × Nat × Nat :=
  let e := passE o p
  let d := passDigits o p
  let nd := if d.isEmpty then 1 else d.length
  let ne := if e.isEmpty then 1 else e.length
  (i / (ne * nd), e.getD (i / nd % ne) 0, d.getD (i % nd) 0)

/-- Byte offset in the key set of word i of half h (0 b, 1 a) of digit d and prime entry t (R85). -/
def keyWordOff (e : KeyEnt) (logN d t h i : Nat) : Nat :=
  let limb := if e.compressed then d * e.limbs + t else (2 * d + h) * e.limbs + t
  e.off + limb * 4 * 2 ^ logN + 4 * i

/-- Position i of a-limb (d, t) of a compressed entry (R86). -/
def expandA (k : List Byte) (entry d t q i : Nat) : Word :=
  let b := 0x80 + 64 * entry
  let input := (k.drop (b + 0x20)).take 32 ++ (k.drop (b + 0x18)).take 4 ++ leBytes 1 d ++ leBytes 1 t
  BitVec.ofNat 32 (shake128 input i % (if q = 0 then 1 else q))

/-! Bursts (R287): each slice of a pass is read in 2 KiB bursts by the fetch unit of the die that holds its limb. -/

/-- Directory entry of a pass. -/
def passEnt (s : State) (p : Pass) : KeyEnt := kEnt (getKeys s p.fn p.key).obj p.entry
/-- Is a pass one of LWE_KS or BLIND_ROT, delivered in data order in 2 KiB units, not in slices (R314)? -/
def passRaw (s : State) (p : Pass) : Bool := (passEnt s p).cls == 5 || (passEnt s p).cls == 6

/-- Die that reads slice i: under SPLIT by the limb's place in E order, or by the unit of a key without limbs (R279). -/
def sliceDie (s : State) (p : Pass) (i : Nat) : Nat :=
  let k := getKeys s p.fn p.key
  if k.placement ≠ 0 then k.placement - 1
  else if passRaw s p then i % 2
  else (sliceOf (keyParam s p.fn p.key) p i).2.1 % 2
/-- Slices of a pass that a fetch unit reads, in order. -/
def slicesAt (s : State) (p : Pass) (die : Nat) : List Nat := (List.range p.slices).filter fun i => sliceDie s p i == die

/-- Positions of a limb that slice i holds: the first, and how many (R284: a position at or above N is no word of the key). -/
def sliceSpan (o : List Byte) (p : Pass) (i : Nat) : Nat × Nat :=
  let a := (sliceOf o p i).1 * passSw p * p.width
  (a, Nat.min (a + passSw p * p.width) (2 ^ p.logN) - a)
/-- Bytes that slice i is read as: b-words, with the a-words of an entry that is not compressed. -/
def sliceBytes (s : State) (p : Pass) (i : Nat) : Nat :=
  if passRaw s p then Nat.min ((i + 1) * 2048) (passEnt s p).len - i * 2048
  else 4 * (sliceSpan (keyParam s p.fn p.key) p i).2 * (if (passEnt s p).compressed then 1 else 2)
/-- The slice, and the burst in it, that burst n of a fetch unit belongs to. -/
def burstIn (s : State) (p : Pass) : List Nat → Nat → Option (Nat × Nat)
  | [], _ => none
  | i :: l, n => let b := ceilDiv (sliceBytes s p i) 2048; if n < b then some (i, n) else burstIn s p l (n - b)
/-- The next burst of a fetch unit. -/
def nextBurst (s : State) (p : Pass) (die : Nat) : Option (Nat × Nat) := burstIn s p (slicesAt s p die) (tget 0 p.bursts die)
/-- Slices of a pass that a fetch unit has read whole. -/
def slicesRead (s : State) (p : Pass) (die : Nat) : Nat := match nextBurst s p die with
  | some b => (slicesAt s p die).idxOf b.1
  | none => (slicesAt s p die).length
/-- Has every burst of a pass been read? -/
def passRead (s : State) (p : Pass) : Bool := (nextBurst s p 0).isNone && (nextBurst s p 1).isNone

/-- Device address of burst r of slice i, and its length. -/
def burstPlace (s : State) (p : Pass) (i r : Nat) : Option Nat × Nat :=
  let o := keyParam s p.fn p.key
  let e := passEnt s p
  let n := Nat.min 2048 (sliceBytes s p i - 2048 * r)
  if passRaw s p then (keyAddr o (getKeys s p.fn p.key) (e.off + 2048 * i), n)
  else
    let (_, t, d) := sliceOf o p i
    let (a, l) := sliceSpan o p i
    let w := 512 * r
    (keyAddr o (getKeys s p.fn p.key) (keyWordOff e p.logN d t (w / Nat.max 1 l) (a + w % Nat.max 1 l)), n)

/-! The words of a pass (R284, R286, R296). -/

/-- The slice that carries position x of digit d and prime entry t. -/
def sliceAt (o : List Byte) (p : Pass) (d t x : Nat) : Nat :=
  let ne := Nat.max 1 (passE o p).length
  let nd := Nat.max 1 (passDigits o p).length
  (x / Nat.max 1 p.width / passSw p * ne + (passE o p).idxOf t) * nd + (passDigits o p).idxOf d
/-- Has the expander of the stream of a-limb (t, d) become unavailable before it made slice i (R286)? -/
def streamLost (s : State) (p : Pass) (d t i : Nat) : Bool :=
  let o := keyParam s p.fn p.key
  let die := p.exps.getD ((((passE o p).idxOf t) * (passDigits o p).length + d) % Nat.max 1 p.exps.length) 0
  let k := (slicesAt s p (sliceDie s p i)).idxOf i
  p.lost.any fun l => l.1 == die && decide ((if sliceDie s p i = 0 then l.2.1 else l.2.2) ≤ k)
/-- The word that a pass delivers for position x of half h (0 b, 1 a) of digit d and prime entry t: zero and tagged where the
directory entry, the memory or the expander fails it. -/
def passWord (s : State) (p : Pass) (d t h x : Nat) : TWord :=
  let o := keyParam s p.fn p.key
  let e := passEnt s p
  if p.dead then ⟨0, true⟩
  else if h = 1 ∧ e.compressed then
    (if streamLost s p d t (sliceAt o p d t x) then ⟨0, true⟩
     else ⟨expandA (getKeys s p.fn p.key).obj p.entry d t (pPrime o t) x, false⟩)
  else keyWord s p.fn p.key (keyWordOff e p.logN d t h x)

/-- The words of slice i of a pass for logical core m: b-words, then a-words (R284). -/
def sliceWords (s : State) (p : Pass) (i m : Nat) : List TWord :=
  let (c, t, d) := sliceOf (keyParam s p.fn p.key) p i
  let sw := passSw p
  let pos (l : Nat) : Nat := (c * sw + l) * p.width + m % Nat.max 1 p.width
  let half (h : Nat) : List TWord := (List.range sw).map fun l =>
    if 2 ^ p.logN ≤ pos l then (if p.dead then ⟨0, true⟩ else TWord.zero) else passWord s p d t h (pos l)
  half 0 ++ half 1

/-! Members and credit. -/

/-- Logical cores that a pass feeds, and the global core of one. -/
def passMembers (p : Pass) : List Nat := List.range (p.groups * p.width)
def memberCore (s : State) (p : Pass) (m : Nat) : Option Nat := (getSector s p.sector).bind fun x => x.lcores[m]?
/-- Has member m ring space for slice n of the job (R285)? -/
def hasCredit (s : State) (p : Pass) (n m : Nat) : Bool :=
  match memberCore s p m with
  | some g => decide ((n % 65536 + 65536 - (syncCnt s g 3).toNat) % 65536 < p.krDepth)
  | none => false
/-- Members that burst r of slice i feeds: those that hold one of its positions. -/
def burstMembers (s : State) (p : Pass) (i r : Nat) : List Nat :=
  let (a, l) := sliceSpan (keyParam s p.fn p.key) p i
  let w := Nat.max 1 p.width
  let n := Nat.min 2048 (sliceBytes s p i - 2048 * r) / 4
  let held := ((List.range n).map fun k => (a + (512 * r + k) % Nat.max 1 l) % w).eraseDups
  (List.range p.groups).flatMap fun g => held.map (g * p.width + ·)
/-- May a fetch unit serve this pass's next burst (R287)? A key without slices waits for no credit. -/
def burstReady (s : State) (p : Pass) (die : Nat) : Bool :=
  p.active && !p.dropped && (match nextBurst s p die with
    | some (i, r) => passRaw s p || (burstMembers s p i r).any (hasCredit s p (p.first + i))
    | none => false)

/-- Passes that a fetch unit takes part in: the die of the placement, or both. -/
def passOnDie (s : State) (p : Pass) (die : Nat) : Bool :=
  let k := getKeys s p.fn p.key
  k.placement == 0 || k.placement == 1 + die
/-- Queued passes of a fetch unit (R287): at most 64 wait. -/
def queuedPasses (s : State) (die : Nat) : List Pass := s.passes.filter fun p => !p.active && passOnDie s p die
/-- Is there room for another pass of a key set? -/
def passRoom (s : State) (f k : Nat) : Bool :=
  ([0, 1] : List Nat).all fun die =>
    let pl := (getKeys s f k).placement
    (pl != 0 && pl != 1 + die) || decide ((queuedPasses s die).length < 64)

/-- An active pass that writes no slice for want of credit (Table 8.12): slices remain, and none of its fetch units can go
on. -/
def creditWaiting (s : State) (p : Pass) : Bool :=
  p.active && !p.dropped && ([0, 1] : List Nat).any fun die => (nextBurst s p die).isSome && !burstReady s p die

/-- Compute dies whose expander is available (R286). -/
def expanderFree (s : State) (d : Nat) : Bool :=
  !((List.range 34).all fun i => tileFenced s (34 * d + i)) &&
    (tget 0 s.sched.unlocked (8 * d + 2)) == 0
/-- An expander that has become unavailable is lost to the passes under way, which deliver the rest of its streams as zero
(R286). -/
def loseExpanders (s : State) : State :=
  let gone (p : Pass) : List Nat := p.exps.filter fun d => !expanderFree s d && !p.lost.any fun l => l.1 == d
  { s with passes := s.passes.map fun p =>
      if !p.active ∨ (gone p).isEmpty then p
      else { p with lost := p.lost ++ (gone p).map fun d => (d, slicesRead s p 0, slicesRead s p 1) } }

end Sys2Proof.Machine
end

