-- ==== Sys2Proof/Machine/Alloc.lean ====
section
/-! DEFINITION. Allocation of GDDR7 and HBM: buffers, home copies and save buffers, key sets, table sets and conversion
blocks (R275, R279, R280, R359 to R365). -/

namespace Sys2Proof.Machine

/-- The lowest range of n bytes in [lo, hi) that meets none of the used ranges: the range begins at lo or where a used one
ends. -/
def firstFit (used : List Extent) (lo hi n : Nat) : Option Nat :=
  let free (b : Nat) : Bool := decide (lo ≤ b ∧ b + n ≤ hi) && used.all fun e => decide (b + n ≤ e.base ∨ e.base + e.len ≤ b)
  let starts := (lo :: used.map fun e => e.base + e.len).filter free
  match starts with
  | [] => none
  | a :: l => some (l.foldl Nat.min a)

/-- Live buffers of a function, with their indexes. -/
def liveBufs (s : State) (f : Nat) : List (Nat × Buf) := (getFn s f).bufs.filter fun p => p.2.live
/-- Ranges of GDDR7 in use: live buffers of every function, freed ones not yet reclaimed, and what holds no handle. -/
def gddrRanges (s : State) : List Extent :=
  (s.fns.flatMap fun p => (p.2.bufs.filter fun q => q.2.live).map fun q => (⟨q.2.base, q.2.size⟩ : Extent)) ++
    s.zombies.map (·.ext) ++ s.gddrUsed
/-- A range of GDDR7 for n bytes on a 2 KiB boundary (R360). -/
def gddrFit (s : State) (n : Nat) : Option Extent :=
  (firstFit (gddrRanges s) gddrBase (gddrBase + gddrAlloc s) (up2k n)).map fun b => ⟨b, up2k n⟩

/-- Bytes of GDDR7 charged to a function: its buffers, freed ones not yet reclaimed, home copies, and save buffers of its
sectors' jobs (R216, R363, R420). -/
def fnGddrBytes (s : State) (f : Nat) : Nat :=
  ((liveBufs s f).map fun p => p.2.size).sum + ((s.zombies.filter (·.fn == f)).map fun z => z.ext.len).sum +
    ((getFn s f).models.map fun p => if p.2.loaded then p.2.home.len else 0).sum +
    (s.sectors.map fun p => match p.2 with
      | some x => if x.owner = f then (match x.saved with
          | some e => e.len
          | none => 0) else 0
      | none => 0).sum
/-- MEM_FN_USED and MEM_FN_BUFFERS follow the function's memory (Table 10.18). -/
def memRegs (s : State) (f : Nat) : State :=
  regSet (regSet s (fnBase f + 0x2504) (BitVec.ofNat 32 (ceilDiv (fnGddrBytes s f) (2 ^ 20)))) (fnBase f + 0x2508)
    (BitVec.ofNat 32 (liveBufs s f).length)
/-- Would n more bytes keep the function inside its quota (R360)? -/
def inQuota (s : State) (f n : Nat) : Bool :=
  let q := (regGet s (fnBase f + 0x2500)).toNat
  q == 0xFFFFFFFF || decide (ceilDiv (fnGddrBytes s f + n) (2 ^ 20) ≤ q)

/-- Take n bytes of GDDR7 for something that holds no handle, zeroed (R364). -/
def takeGddr (s : State) (f n : Nat) : Option (Extent × State) :=
  if !inQuota s f (up2k n) then none
  else (gddrFit s n).map fun e => (e, { zeroRange s e.base e.len with gddrUsed := s.gddrUsed ++ [e] })
/-- Give such a range back. -/
def dropGddr (s : State) (e : Extent) : State := { s with gddrUsed := s.gddrUsed.erase e }

/-- Allocate a buffer (R360): its handle and the state, or none. -/
def allocBuf (s : State) (f size : Nat) : Option (Nat × State) :=
  if !inQuota s f (up2k size) then none
  else match gddrFit s size, (List.range 65536).find? fun i => !(getBuf s f i).live with
    | some e, some i =>
      let b : Buf := ⟨(getBuf s f i).gen, true, e.base, e.len⟩
      let s1 := modFn (zeroRange s e.base e.len) f fun x => { x with bufs := tset Buf.free x.bufs i b }
      some (handleOf f b.gen i, memRegs s1 f)
    | _, _ => none

/-- Jobs that hold a stage-3 reference to a buffer of function f (R75, R363): its image, its statistics, its bindings. -/
def jobsUsing (s : State) (f h : Nat) : List Nat :=
  s.jobs.filterMap fun p => match p.2 with
    | some j => if j.fn = f ∧ (j.imageBuf = h ∨ j.statsBuf = h ∨ j.bindings.any fun b => b.handle == h) then some p.1 else none
    | none => none

/-- A valid RECV entry, and a valid SEND entry (Table 13.6). -/
def isRecv (r : Role) : Bool := bit r.w0.toNat 31 && bit r.w0.toNat 30
def isSend (r : Role) : Bool := bit r.w0.toNat 31 && !bit r.w0.toNat 30
/-- RECV entries whose pool is a freed buffer become invalid (R446). -/
def dropPools (s : State) (h : Nat) : State :=
  { s with fab := { s.fab with roles := (s.fab.roles.map fun p =>
      if isRecv p.2 && p.2.w1.toNat == h then (p.1, { p.2 with w0 := putBits p.2.w0 31 31 0 }) else p).filter fun p => p.2 != Role.empty } }

/-- Free the buffer of a handle that resolves (R361, R363): the generation advances, the memory stays while jobs use it. -/
def freeBuf (s : State) (h : Nat) : State :=
  let f := hFn h
  let i := hIdx h
  let b := getBuf s f i
  let js := jobsUsing s f h
  let gen := if b.gen = 1023 then 1 else b.gen + 1
  let s1 := modFn s f fun x => { x with bufs := tset Buf.free x.bufs i ⟨gen, false, 0, 0⟩ }
  let s2 : State := if js.isEmpty then s1 else { s1 with zombies := s1.zombies ++ [⟨f, ⟨b.base, b.size⟩, js⟩] }
  memRegs (dropPools s2 h) f

/-- A job no longer uses freed buffers; those that no job uses are reclaimed. -/
def reclaim (s : State) (j : Nat) : State :=
  let zs := s.zombies.map fun z => { z with jobs := z.jobs.erase j }
  let fs := (s.zombies.filter fun z => z.jobs.contains j).map (·.fn)
  fs.foldl memRegs { s with zombies := zs.filter fun z => !z.jobs.isEmpty }

/-! HBM (R279, R280). -/

/-- Address range of a die's half. -/
def hbmHalf (s : State) (die : Nat) : Nat × Nat :=
  let h0 := (regGet s 0x10000).toNat * 2 ^ 20
  if die = 0 then (0, h0) else (h0, hbmBytes s)
/-- Ranges of a die's HBM for n bytes, charged in units of 2 MiB (R280): one range where one is free, else any free units; an
object that must lie whole, the conversion block, takes one range. None where the charge exceeds what is free. -/
def hbmFit (s : State) (die n : Nat) (whole : Bool) : Option (List Extent) :=
  let (lo, hi) := hbmHalf s die
  let used := (s.hbmUsed.filter (·.1 == die)).map (·.2)
  let unit := 2 ^ 21
  match firstFit used lo hi (up2m n) with
  | some b => some [⟨b, up2m n⟩]
  | none =>
    if whole then none
    else
      let free := ((List.range ((hi - lo) / unit)).map fun i => lo + unit * i).filter fun b =>
        used.all fun e => decide (b + unit ≤ e.base ∨ e.base + e.len ≤ b)
      let k := up2m n / unit
      if free.length < k then none else some ((free.take k).map fun b => ⟨b, unit⟩)

/-- KSE_FN_HBM_USED of a function. -/
def hbmRegs (s : State) (f : Nat) : State :=
  let x := getFn s f
  let sum (l : List (Nat × Extent)) : Nat := (l.map fun p => p.2.len).sum
  let n := (x.keys.map fun p => sum p.2.extents).sum + (x.tables.map fun p => sum p.2.extents).sum +
    (x.params.map fun p => sum p.2.conv).sum
  regSet s (fnBase f + 0x2304) (BitVec.ofNat 32 (n / 2 ^ 20))

/-- Take ranges for an object's shares: n bytes on each die named, zeroed. None where some die lacks the room. -/
def takeHbm (whole : Bool) : List (Nat × Nat) → State → Option (List (Nat × Extent) × State)
  | [], s => some ([], s)
  | (die, n) :: l, s =>
    match hbmFit s die n whole with
    | none => none
    | some es =>
      let s1 := es.foldl (fun st e => zeroRange st e.base e.len) s
      (takeHbm whole l { s1 with hbmUsed := s1.hbmUsed ++ es.map fun e => (die, e) }).map fun r => (es.map (fun e => (die, e)) ++ r.1, r.2)
/-- Give the ranges of an object back. -/
def dropHbm (s : State) (l : List (Nat × Extent)) : State := { s with hbmUsed := s.hbmUsed.filter fun p => !l.contains p }

/-- The writes that put a share into its ranges, in order. -/
def shareWrites (share : List TByte) : List Extent → List (Nat × List TByte)
  | [] => []
  | e :: l => (e.base, share.take e.len) :: shareWrites (share.drop e.len) l
/-- Put an object's shares into HBM, with the tags of what came in (R132, R279, R423). -/
def putShares (s : State) (obj : List TByte) (pieces : Nat → List (Nat × Nat)) (l : List (Nat × Extent)) : State :=
  (([0, 1] : List Nat).flatMap fun d => shareWrites (pieceBytes obj (pieces d)) ((l.filter (·.1 == d)).map (·.2))).foldl
    (fun st w => writeT st w.1 w.2) s

/-! Slots in use (R74, R75, R217, R317, R405). -/

/-- Does some job of function f meet a test? -/
def anyJob (s : State) (f : Nat) (p : Job → Bool) : Bool :=
  s.jobs.any fun x => match x.2 with
    | some j => j.fn == f && p j
    | none => false
/-- Is a role entry a valid RECV entry of function f that names parameter slot n (Table 13.6)? -/
def roleNames (s : State) (f n : Nat) : Bool :=
  s.fab.roles.any fun p => p.1 / 64 == f && isRecv p.2 && bits p.2.w3.toNat 3 0 == n
/-- Parameter-set slot n is in use: a key set or table set names it, or a job. -/
def paramInUse (s : State) (f n : Nat) : Bool :=
  ((getFn s f).keys.any fun p => p.2.loaded && p.2.param == n) || anyJob s f fun j => j.param == n
def keyInUse (s : State) (f k : Nat) : Bool := anyJob s f fun j => j.key == some k
def tableInUse (s : State) (f t : Nat) : Bool := anyJob s f fun j => j.table == some t
/-- Model slot m is in use (R217): a job names it, or its sector is lent: another sector of its set holds the tiles (R419). -/
def modelInUse (s : State) (f m : Nat) : Bool :=
  (anyJob s f fun j => j.model == some m) ||
    ((getModel s f m).loaded && match getSector s (getModel s f m).sector with
      | some x => !x.holder
      | none => false)

end Sys2Proof.Machine
end

