-- ==== Sys2Proof/Machine/Power.lean ====
section
/-! DEFINITION. Paces (R490 to R494, R500), energy credit and the admission walk (R495 to R498). -/

namespace Sys2Proof.Machine

/-! Paces: 0 White, 1 Amber, 2 Red, 3 Slate, 4 Black (Table 14.8). -/

/-- Show a tile at a pace. -/
def setTilePace (s : State) (t p : Nat) : State := regSetFld s (0x40200 + 4 * (t / 8)) (4 * (t % 8) + 2) (4 * (t % 8)) p
/-- Ceiling of a compute die (R491). -/
def ceilingOf (s : State) (d : Nat) : Nat := regFld s (0x400C0 + 4 * d) 2 0
/-- A power setting as of the last tick (R506). -/
def pwrNow (s : State) (o : Nat) : Word := tget (regReset o) s.sched.latched o
/-- Is this register one whose writes take effect at the next tick (R506)? -/
def isPwrCfg (o : Nat) : Bool :=
  o == 0x40000 || decide (0x40040 ≤ o ∧ o < 0x40070) || decide (0x40100 ≤ o ∧ o < 0x40200)
/-- Power settings take effect. -/
def latchPower (s : State) : State := { s with sched := { s.sched with latched := s.regs.filter fun p => isPwrCfg p.1 } }
/-- Forming a sector returns its PWR_SECTORs to its reset value (R492). -/
def resetSectorPwr (s : State) (n : Nat) : State :=
  let o := 0x40100 + 4 * n
  let s1 := regSet s o (regReset o)
  { s1 with sched := { s1.sched with latched := tset (regReset o) s1.sched.latched o (regReset o) } }

/-- Pace fields with the substitutions of R492. -/
def runPaceOf (w : Nat) : Nat := if bits w 10 8 ≤ 1 then bits w 10 8 else 0
def restPaceOf (v : Nat) : Nat := if 2 ≤ v ∧ v ≤ 4 then v else 2
def runPace (s : State) (n : Nat) : Nat := runPaceOf (pwrNow s (0x40100 + 4 * n)).toNat

/-- Has a sector a job that runs or waits? -/
def sectorBusy (x : Sector) : Bool := x.running.isSome || !x.queue.isEmpty

/-- Requested pace of a tile (R492). -/
def requestedPace (s : State) (t : Nat) : Nat :=
  match sectorOfTile s t with
  | some (n, x) =>
    let w := (pwrNow s (0x40100 + 4 * n)).toNat
    if sectorBusy x then runPaceOf w
    else match x.idleSince with
      | some i => if i + bits w 31 16 ≤ s.ftime.toNat then restPaceOf (bits w 14 12) else runPaceOf w
      | none => runPaceOf w
  | none => restPaceOf (bits (pwrNow s 0x40000).toNat 6 4)

/-- Does a job run in a tile? -/
def tileRunsJob (s : State) (t : Nat) : Bool :=
  match sectorOfTile s t with
  | some (_, x) => x.running.isSome
  | none => false

/-- The pace that a tile is to have (R491): a ceiling of Slate or Black holds a tile that runs a job at Red. -/
def wantedPace (s : State) (t : Nat) : Nat :=
  let c := ceilingOf s (dieOfTile t)
  Nat.max (requestedPace s t) (if 3 ≤ c ∧ tileRunsJob s t then 2 else c)

/-- Changes that wait for a start slot (R500). -/
def needsSlot (c w : Nat) : Bool := (decide (2 ≤ c) && decide (w ≤ 1)) || (decide (3 ≤ c) && w == 2) || (c == 4 && w == 3)

/-- Record a tile's pace change. -/
def setMove (s : State) (t : Nat) (m : Option PaceMove) : State :=
  { s with sched := { s.sched with moves := tset none s.sched.moves t m } }

/-- Begin the change of a tile at rest at pace c to pace w (Table 14.9). -/
def startMove (s : State) (t c w : Nat) : State :=
  if w = c then s
  else if needsSlot c w then
    let s1 := setMove s t (some ⟨if c = 4 ∧ w = 3 then 2 else w, true⟩)
    { s1 with sched := { s1.sched with startQ := s1.sched.startQ ++ [t] } }
  else if c ≤ 1 ∧ w ≤ 1 then setMove s t (some ⟨w, false⟩)
  else if c ≤ 1 then
    let s1 := setTilePace s t 2
    if w = 2 ∨ tileRunsJob s1 t then s1 else setMove s1 t (some ⟨w, false⟩)
  else if tileRunsJob s t then s
  else setMove s t (some ⟨w, false⟩)

/-- Bring a tile's change in line with the pace that it is to have; a change that has begun runs to its end. -/
def updateTile (s : State) (t : Nat) : State :=
  let c := tilePace s t
  let w := wantedPace s t
  match tget none s.sched.moves t with
  | none => startMove s t c w
  | some m =>
    if !m.waits then s
    else if needsSlot c w then setMove s t (some ⟨if c = 4 ∧ w = 3 then 2 else w, true⟩)
    else startMove { setMove s t none with sched := { (setMove s t none).sched with startQ := s.sched.startQ.filter (· != t) } } t c w

/-- Every tile. -/
def updatePaces (s : State) : State := (List.range nTiles).foldl updateTile s
/-- The tiles of a sector. -/
def updateSector (s : State) (n : Nat) : State :=
  match getSector s n with
  | some x => x.tiles.foldl updateTile s
  | none => s

/-- Cores of a tile. -/
def coresOf (t : Nat) : List Nat := (List.range 64).map (64 * t + ·)

/-- What a tile loses at Slate (Table 14.8): registers, instruction stores, sync state, stream slots and counters. -/
def losePace (s : State) (t : Nat) : State :=
  let s1 := (coresOf t).foldl (fun st g => modCore st g fun c =>
    { Core.fresh with sector := c.sector, lcore := c.lcore, cls := c.cls, cyc := c.cyc }) s
  let gone (o : Nat) : Bool :=
    decide (coreBase (64 * t) ≤ o ∧ o < coreBase (64 * t + 64)) || decide (tileBase t + 8 ≤ o ∧ o < tileBase t + 0x100)
  { s1 with regs := s1.regs.filter fun p => !gone p.1 }

/-- Has a compute die only tiles at Slate or Black? -/
def dieDark (s : State) (d : Nat) : Bool := (List.range 34).all fun i => decide (3 ≤ tilePace s (34 * d + i))
/-- Does a key pass use the expander of a die: one under way whose a-limbs it makes (R286)? -/
def expanderUsed (s : State) (d : Nat) : Bool := s.passes.any fun p => p.active && p.exps.contains d

/-- The hub of a die follows its tiles (R494). -/
def updateHub (s : State) (d : Nat) : State :=
  if dieDark s d && !expanderUsed s d then
    (if s.sched.slateHubs.contains d then s else { s with sched := { s.sched with slateHubs := s.sched.slateHubs ++ [d] } })
  else { s with sched := { s.sched with
    slateHubs := s.sched.slateHubs.filter (· != d), hubWakes := s.sched.hubWakes.filter (· != d) } }

/-- A tile ends its pace change (Table 14.9): at Slate and Black it loses state; a tile back from Black is zeroed, and a
model's sector swapped in. -/
def endMove (s : State) (t : Nat) : State :=
  match tget none s.sched.moves t with
  | none => s
  | some m =>
    if m.waits then s
    else
      let c := tilePace s t
      let s1 := setTilePace (setMove s t none) t m.goal
      let s2 := if 3 ≤ m.goal then losePace s1 t else s1
      let s3 := if m.goal ≤ 1 ∧ 2 ≤ c then
          (coresOf t).foldl (fun st g => if (getCore st g).ramp.isSome then modCore st g fun k => { k with ramp := none } else st) s2
        else s2
      let s4 := if c = 4 ∧ m.goal < 4 then
          let s' : State := { s3 with zeroing := if s3.zeroing.contains t then s3.zeroing else s3.zeroing ++ [t] }
          match sectorOfTile s' t with
          | some (n, x) => if x.model.isSome then setSector s' n (some { x with swapDue := true }) else s'
          | none => s'
        else s3
      updateTile (updateHub s4 (dieOfTile t)) t

/-- START_SLOT (R500): the next tile of the start queue begins its change. -/
def execStartSlot (s : State) : StepOut :=
  .next <|
    match s.sched.startQ with
    | [] => s
    | t :: q =>
      let s1 := { s with sched := { s.sched with startQ := q } }
      match tget none s.sched.moves t with
      | some m => setMove s1 t (some { m with waits := false })
      | none => s1

/-- PACE_CHANGE_END (R493). -/
def execPaceChangeEnd (t : Nat) (s : State) : StepOut := .next (endMove s t)

/-- REST_DELAY_EXPIRY (R492): a sector with no job for rest_delay ticks requests its rest pace. -/
def execRestDelayExpiry (sec : Nat) (s : State) : StepOut := .next (updateSector s sec)

/-! Energy credit. -/

/-- Credit of a die, signed, in nJ. -/
def creditOf (s : State) (d : Nat) : Int := tget 0 s.sched.credit d
/-- Set a die's credit. PWR_DIEd_CREDIT shows it in two's complement; the register cannot hold a credit below -2^31, and reads
as a free value then (log 33). -/
def setCredit (s : State) (d : Nat) (v : Int) : State :=
  let s1 : State := { s with sched := { s.sched with credit := tset 0 s.sched.credit d v } }
  if v < -2147483648 ∨ 2147483647 < v then
    regSet { s1 with free := s1.free + 1 } (0x40080 + 4 * d) (BitVec.ofNat 32 (Config.freeValue s1.free))
  else regSet s1 (0x40080 + 4 * d) (wordOfInt v)
/-- Δ of R495, in units of 10 ns. -/
def deltaTick (s : State) : Nat := Nat.min (regGet s 0x30020).toNat 100000
/-- MODEL grant of a die (R495), by the lower of the host's limit and the sideband's cap (Table 15.7). -/
def modelGrant (s : State) (d : Nat) : Nat :=
  let w := bits (pwrNow s (0x40040 + 4 * d)).toNat 7 0
  Nat.min (if w < 10 then 10 else w) (regFld s (0x60040 + 4 * d) 7 0) * deltaTick s * 10
/-- Class of a temperature sensor (Table 15.2). -/
def sensorClass (n : Nat) : Nat :=
  if n < 96 then 0 else if n < 108 then 1 else if n < 116 then 2 else if n = 116 then 3 else if n = 117 then 4
  else if n < 124 then 5 else 6
/-- Does a sensor govern compute die d (Table 15.2)? Row 0 of the dies goes with IOD0, row 2 with IOD1. -/
def governs (n d : Nat) : Bool :=
  let io (i : Nat) : Bool := d / 4 == 2 * i
  if n < 96 then n / 8 == d
  else if n < 108 then io ((n - 96) / 6)
  else if n < 116 then io ((n - 108) / 4)
  else true
/-- A threshold of a class as it acts (Table 15.14): 0 warn, 1 hold, 2 shut; at most its reset value. -/
def threshold (s : State) (c k : Nat) : Nat :=
  let o := 0x60020 + 4 * c
  Nat.min (regFld s o (8 * k + 7) (8 * k)) (bits (regReset o).toNat (8 * k + 7) (8 * k))
/-- A filtered quantity by KPR_SENSOR_IDX, in 1/256 of its reporting unit (R513). -/
def filtered (s : State) (i : Nat) : Int := (tget Quantity.none s.keeper.q i).y
/-- Filtered input power in 1/256 W: the voltage and the current of rail 0 (R514, R516). -/
def inputPower (s : State) : Int := filtered s 128 * filtered s 192 / (256 * 100000)
/-- The grant of a die in SENSED mode (R516), factors in sixteenths. -/
def sensedGrant (s : State) (d : Nat) : Nat :=
  let margins := ((List.range 128).filter fun n => governs n d).map fun n =>
    256 * (threshold s (sensorClass n) 0 : Int) - filtered s n
  let mg := margins.foldl min (256 * 256)
  let ft : Nat := if 2560 ≤ mg then 16 else if mg ≤ 0 then 0 else (16 * mg / 2560).toNat
  let p := inputPower s
  let pmax : Int := 256 * (Nat.min (regFld s 0x60014 15 0) 1500 : Nat)
  let fp : Nat := if p ≤ pmax then 16 else (16 * pmax / p).toNat
  modelGrant s d * Nat.min ft fp / 16
/-- Grant of a die for a tick (R495); none while the Keeper restarts (R509). -/
def grantOf (s : State) (d : Nat) : Nat :=
  if 2 ≤ ceilingOf s d ∨ s.keeper.restarting then 0
  else if bit (pwrNow s 0x40000).toNat 0 then sensedGrant s d
  else modelGrant s d
/-- cap_d of R495. -/
def capOf (s : State) (d : Nat) : Nat :=
  let k := bits (pwrNow s (0x40040 + 4 * d)).toNat 15 8
  Nat.min ((if k = 0 then 1 else k) * grantOf s d) 0x7FFFFFFF
/-- Step 3 of Table 14.4. -/
def grantAll (s : State) : State :=
  (List.range nDies).foldl (fun st d => setCredit st d (min (creditOf st d + grantOf st d) (capOf st d))) s

/-! Strides. -/

/-- The image of a sector's running job. -/
def sectorImage (x : Sector) : Option Image := x.image
/-- Share of a stride's cost that falls on a die, rounded up (R177). -/
def shareOf (x : Sector) (i : Image) (cost d : Nat) : Nat :=
  let k := ((x.lcores.take i.coreCount).filter fun g => dieOfCore g == d).length
  ceilDiv (cost * k) (if i.coreCount = 0 then 1 else i.coreCount)
/-- The dies of a sector's strides. -/
def diesOf (x : Sector) (i : Image) : List Nat :=
  (List.range nDies).filter fun d => (x.lcores.take i.coreCount).any fun g => dieOfCore g == d

/-- PWR_DIEd_STATUS.waiting follows the waiting strides (Table 14.15). -/
def waitRegs (s : State) : State :=
  let onDie (d : Nat) (w : WaitStride) : Bool := match getSector s w.sector with
    | some x => match x.image with
      | some i => (diesOf x i).contains d
      | none => false
    | none => false
  (List.range nDies).foldl (fun st d =>
    regSetFld st (0x400C0 + 4 * d) 31 16 (s.sched.waiting.filter (onDie d)).length) s

/-- Replace the waiting strides. -/
def setWaiting (s : State) (l : List WaitStride) : State := waitRegs { s with sched := { s.sched with waiting := l } }

/-- dense_ticks of the allow-list entry that a job's image matched is kept in the job (R228). -/
def startFloor (j : Job) (now : Nat) : Job :=
  { j with
    floor := if j.floor.isNone && j.denseTicks != 0 then some (now + j.denseTicks) else j.floor
    stats := { j.stats with
      firstAdmit := if j.stats.strides = 0 then now else j.stats.firstAdmit
      strides := j.stats.strides + 1 } }

/-- The pass of a batch is requested as the batch's first stride is admitted (R291); its slices go on from the job's last
(R284), where it has members that slices go to. -/
def queuePass (s : State) (j : Nat) (p : Pass) : State :=
  match getJob s j with
  | some jb =>
    let s1 : State := { s with
      passes := s.passes ++ [{ p with id := s.passSeq, first := jb.sliceNext }]
      passSeq := s.passSeq + 1 }
    modJob s1 j fun x => { x with sliceNext := if p.groups = 0 then x.sliceNext else x.sliceNext + p.slices }
  | none => s

/-- A stride starts (R177): the named context of every logical core below P, at the entry index. A built-in program runs none
of the image's code (log entry 27). -/
def startStride (s : State) (n : Nat) (w : WaitStride) : State :=
  match getSector s n with
  | none => s
  | some x =>
    match x.image, x.running with
    | some i, some j =>
      let entry := ((i.strides[w.stride]?).map (·.entry)).getD 0
      let s1 := if !w.runs then s else (x.lcores.take i.coreCount).foldl (fun m g =>
        if coreFenced m g then m
        else modCore m g fun c => modCtx c w.ctx fun y =>
          { y with run := .running, pc := entry, stride := w.stride, readyFrom := 0, waitSince := none }) s
      let s2 := match getJob s1 j with
        | some jb => (jb.passDue.filter (·.1 == w.stride)).foldl (fun st p => queuePass st j p.2) s1
        | none => s1
      modJob s2 j fun jb => startFloor { jb with
        active := tset none jb.active w.ctx (some w.stride)
        passDue := jb.passDue.filter (·.1 != w.stride) } s2.ftime.toNat
    | _, _ => s

/-- Order of the walk (R497): request tick, sector, context. -/
def waitLt (a b : WaitStride) : Bool :=
  decide (a.tick < b.tick) || (a.tick == b.tick && (decide (a.sector < b.sector) || (a.sector == b.sector && decide (a.ctx < b.ctx))))
/-- Put a waiting stride in its place. -/
def waitInsert (w : WaitStride) : List WaitStride → List WaitStride
  | [] => [w]
  | v :: l => if waitLt w v then w :: v :: l else v :: waitInsert w l

/-- Has every tile of a sector reached its run pace? -/
def atRunPace (s : State) (n : Nat) (x : Sector) : Bool :=
  x.holder && x.tiles.all fun t => decide (tilePace s t ≤ runPace s n) && (tget none s.sched.moves t).isNone

/-- One step of admit_walk (R497): the state and what is still available on each die. -/
def walkOne (p : State × List Int) (w : WaitStride) : State × List Int :=
  let s := p.1
  match getSector s w.sector with
  | none => (setWaiting s (s.sched.waiting.erase w), p.2)
  | some x =>
    match x.image with
    | none => p
    | some i =>
      if !atRunPace s w.sector x || s.zeroing.any (fun t => x.tiles.contains t) || x.swapDue then p
      else
        let ds := diesOf x i
        let sh (d : Nat) : Int := shareOf x i w.cost d
        let avail := (List.range nDies).map fun d => p.2.getD d 0 - (if ds.contains d then sh d else 0)
        if decide (w.cost = 0) || ds.all (fun d => decide (min (sh d) (capOf s d : Int) ≤ p.2.getD d 0)) then
          let s1 := ds.foldl (fun m d => setCredit m d (creditOf m d - sh d)) s
          let s2 := if ds.any fun d => decide ((capOf s d : Int) < sh d) then bump s1 0x40304 else s1
          (startStride (setWaiting s2 (s2.sched.waiting.erase w)) w.sector w, avail)
        else (s, avail)

/-- admit_walk (R497). -/
def admitWalk (s : State) : State :=
  (s.sched.waiting.foldl walkOne (s, (List.range nDies).map (creditOf s))).1

/-- Jobs and ticks with a stride still waiting at step 5 of a tick (R498). -/
def countWaits (s : State) : State :=
  let js := (s.sched.waiting.filterMap fun w => (getSector s w.sector).bind (·.running)).eraseDups
  let s1 := js.foldl (fun st j => modJob st j fun jb => { jb with stats := { jb.stats with creditWait := jb.stats.creditWait + 1 } }) s
  if s.sched.waiting.isEmpty then s1 else bump s1 0x40300

/-- A stride of context k requests admission (R496): one of cost 0 starts at once, once every tile is at its run pace. -/
def requestStride (s : State) (n k idx cost : Nat) (runs : Bool) : State :=
  let w : WaitStride := ⟨s.ftime.toNat, n, k, idx, cost, runs⟩
  let ready := match getSector s n with
    | some x => atRunPace s n x && !(s.zeroing.any fun t => x.tiles.contains t) && !x.swapDue
    | none => false
  if cost = 0 && ready then startStride s n w
  else if s.sched.waiting.any (fun v => v.sector == n && v.stride == idx) then s
  else setWaiting s (waitInsert w s.sched.waiting)

end Sys2Proof.Machine
end

