-- ==== Sys2Proof/Machine/Time.lean ====
section
/-! DEFINITION. Fabric time (R468 to R475), the schedule table (R476 to R480) and counter capture (R482 to R484). -/

namespace Sys2Proof.Machine

/-! Counter capture. -/

/-- Counters that a strobe copies (R482), by register offset. -/
def isCaptured (o : Nat) : Bool :=
  if 0x10000000 ≤ o ∧ o < 0x11000000 then decide (o % 0x40 < 0x18)
  else if 0x11000000 ≤ o then (let x := o % 0x1000; decide (8 ≤ x ∧ x ≤ 0x18) || decide (0x20 ≤ x ∧ x ≤ 0x34))
  else false

/-- CNT_CAP_STATUS.bank_busy follows the banks. -/
def bankRegs (s : State) : State :=
  regSetFld s 0xD0000 1 0 (([0, 1].filter fun b => (tget none s.sched.banks b).isSome).foldl (fun a b => a + 2 ^ b) 0)
/-- Replace a bank. -/
def setBank (s : State) (b : Nat) (x : Option CapBank) : State :=
  bankRegs { s with sched := { s.sched with banks := tset none s.sched.banks b x } }

/-- Take the strobe of this tick, once (R483): the bank it filled, or none when both are busy. -/
def takeStrobe (s : State) : State :=
  match s.sched.strobe with
  | some _ => s
  | none =>
    match ([0, 1] : List Nat).find? fun b => (tget none s.sched.banks b).isNone with
    | some b =>
      let s1 := setBank s b (some ⟨s.ftime.toNat, s.regs.filter fun p => isCaptured p.1, [], []⟩)
      regSetPair { s1 with sched := { s1.sched with strobe := some (some b) } } 0xD0004 s.ftime.toNat
    | none => { s with sched := { s.sched with strobe := some none } }

/-- Tiles that a capture of function f gathers (R484): of a VF those that it owns at the time, which is that of firing. -/
def captureTiles (s : State) (f : Nat) : List Nat :=
  if f = 0 then List.range nTiles
  else (List.range nTiles).filter fun t => s.sectors.any fun p => match p.2 with
    | some x => x.owner == f && x.tiles.contains t
    | none => false
/-- Cores of a capture that gathers tiles ts. -/
def captureCores (f : Nat) (ts : List Nat) : List Nat := if f = 0 then List.range nCores else ts.flatMap coresOf

/-- Bytes of a whole gather (Table 14.6). -/
def captureSize (f : Nat) (ts : List Nat) : Nat := 64 + 32 * (captureCores f ts).length + 64 * ts.length

/-- A captured counter: zero for a fenced unit, or one at Slate or Black. -/
def capWord (s : State) (b : CapBank) (t o : Nat) (fenced : Bool) : Nat :=
  if fenced || decide (3 ≤ tilePace s t) then 0 else (tget 0 b.counters o).toNat

/-- The records of a gather (Table 14.6). -/
def captureBytes (s : State) (f : Nat) (ts : List Nat) (b : CapBank) : List Byte :=
  let w := leBytes 4
  let cs := captureCores f ts
  let flags (fenced : Bool) (t x : Nat) : Nat := (if fenced then 2 ^ 19 else 0) + tilePace s t * 2 ^ 16 + x
  w 0x59434150 ++ w (cs.length * 2 ^ 16 + ts.length) ++ leBytes 8 b.tick ++ w f ++ List.replicate 44 0 ++
  (cs.flatMap fun g =>
    let fe := coreFenced s g
    w (flags fe (tileOfCore g) g) ++
      (List.range 6).flatMap (fun i => w (capWord s b (tileOfCore g) (coreBase g + 4 * i) fe)) ++ w 0) ++
  (ts.flatMap fun t =>
    let fe := tileFenced s t
    w (flags fe t t) ++ (List.range 5).flatMap (fun i => w (capWord s b t (tileBase t + 8 + 4 * i) fe)) ++
      (List.range 6).flatMap (fun i => w (capWord s b t (tileBase t + 0x20 + 4 * i) fe)) ++ List.replicate 16 0)

/-! Firing. -/

/-- arg of an entry that names a ring, sector or class. -/
def digestBytes (d : BitVec 384) : List Byte := (List.range 48).map fun i => (d >>> (8 * (47 - i))).setWidth 8

/-- Send the commit digest of a checkpoint (R461). -/
def sendDigest (s : State) : State :=
  pairSend { s with fab := { s.fab with commitLog := [] } } 6 (digestBytes (sha384 s.fab.commitLog))

/-- Release of a ring's hold. -/
def dropHold (s : State) (f r : Nat) : State :=
  { s with sched := { s.sched with holds := s.sched.holds.filter (· != f * 16 + r) } }

/-- An entry's action ends on a handle or a sector that is not its function's: counted as the outcome of its request
(Table 10.18). -/
def schedFail (s : State) (n : Nat) (e : SchedEnt) (status : Nat) : State := schedEnd (countOutcome s e.fn status) n status

/-- The effect of entry n on firing (Table 14.3). -/
def fireAction (s : State) (n : Nat) (e : SchedEnt) : State :=
  match e.action with
  | 1 =>
    if 15 < bits e.arg 4 0 then schedEnd s n stParam
    else
      let k := e.fn * 16 + bits e.arg 4 0
      schedEnd { s with sched := { s.sched with holds := if s.sched.holds.contains k then s.sched.holds else s.sched.holds ++ [k] } } n 0
  | 2 => if 15 < bits e.arg 4 0 then schedEnd s n stParam else schedEnd (dropHold s e.fn (bits e.arg 4 0)) n 0
  | 3 =>
    match (takeStrobe s).sched.strobe with
    | some (some b) =>
      let s1 := takeStrobe s
      let (st, buf) := resolve s1 e.fn e.arg
      if st ≠ 0 then schedFail s1 n e st
      else if buf.size < captureSize e.fn (captureTiles s1 e.fn) then schedEnd s1 n stParam
      else setBank s1 b ((tget none s1.sched.banks b).map fun x => { x with users := x.users ++ [n], tiles := tset [] x.tiles n (captureTiles s1 e.fn) })
    | _ => schedEnd (bump s 0xD000C) n 0x0804
  | 4 =>
    let sec := bits e.arg 5 0
    match getSector s sec with
    | some x =>
      if x.owner = e.fn then
        schedEnd (regSet s (0x40100 + 4 * sec)
          (BitVec.ofNat 32 (bits e.arg 31 16 * 2 ^ 16 + bits e.arg 14 12 * 2 ^ 12 + bits e.arg 10 8 * 2 ^ 8))) n 0
      else schedFail s n e stNotOwner
    | none => schedFail s n e stNotOwner
  | 5 =>
    if pairOn s && !isRear s && (pairState s == 2 || pairState s == 4) then schedEnd (sendDigest s) n 0
    else schedEnd s n stParam
  | 6 => mntRequest s (bits e.arg 7 0) (bits e.arg 31 8) e.fn e.ring e.index n
  | _ => schedEnd s n 0

/-- Entry n fires (R477, R478). -/
def fireEntry (s : State) (n : Nat) : State :=
  match getSched s n with
  | none => s
  | some e =>
    let e1 := { e with due := false, fired := true, firedAt := s.ftime.toNat }
    let s1 := setSched s n (some e1)
    let s2 := if e.late then regSetFld (bump s1 0x3004C) 0x30004 2 2 1 else s1
    fireAction s2 n e1

/-- The lowest entry that is due and has not fired (R480, step 4). -/
def nextFiring (s : State) : Option Nat :=
  (List.range 64).find? fun n => match getSched s n with
    | some e => e.due && !e.fired
    | none => false

/-- Banks without users become free once every entry of the tick has fired (R483). -/
def freeBanks (s : State) : State :=
  ([0, 1] : List Nat).foldl (fun st b => match tget none st.sched.banks b with
    | some x => if x.users.isEmpty then setBank st b none else st
    | none => st) s

/-- Step 5 of Table 14.4, once per tick, after every due entry has fired. -/
def tickWalk (s : State) : State :=
  if s.sched.walkDue then
    freeBanks (countWaits (admitWalk { s with sched := { s.sched with walkDue := false } }))
  else admitWalk s

/-- Finish what is left of a tick's steps 4 and 5. -/
def finishTick (s : State) : State :=
  let s1 := (List.range 64).foldl (fun st _ => match nextFiring st with
    | some n => fireEntry st n
    | none => st) s
  if s1.sched.walkDue then tickWalk s1 else s1

/-- Fire entry n if it is the next that is due and its action is a. -/
def fireRow (a n : Nat) (s : State) : StepOut :=
  .next <|
    match nextFiring s with
    | some m =>
      if m = n then
        (match getSched s n with
          | some e => if e.action = a then fireEntry s n else s
          | none => s)
      else s
    | none => s

def execRingHold (n : Nat) (s : State) : StepOut := fireRow 1 n s
def execRingRelease (n : Nat) (s : State) : StepOut := fireRow 2 n s
def execCapture (n : Nat) (s : State) : StepOut := fireRow 3 n s
def execPace (n : Nat) (s : State) : StepOut := fireRow 4 n s
def execCheckpoint (n : Nat) (s : State) : StepOut := fireRow 5 n s
def execMaintenance (n : Nat) (s : State) : StepOut := fireRow 6 n s
def execMark (n : Nat) (s : State) : StepOut := fireRow 7 n s

/-- CAPTURE_GATHER_END (R484): the gather of entry n is written to its buffer, and its bank is free with its last. -/
def execCaptureGatherEnd (n : Nat) (s : State) : StepOut :=
  .next <|
    match ([0, 1] : List Nat).find? fun b => match tget none s.sched.banks b with
      | some x => x.users.contains n
      | none => false with
    | none => s
    | some b =>
      match tget none s.sched.banks b, getSched s n with
      | some x, some e =>
        let (st, buf) := resolve s e.fn e.arg
        let bs := captureBytes s e.fn (tget [] x.tiles n) x
        let s1 := if st = 0 then writeT (engineAccess s buf.base bs.length) buf.base (plain bs) else s
        let us := x.users.erase n
        let s2 := setBank s1 b (if us.isEmpty then none else some { x with users := us, tiles := tset [] x.tiles n [] })
        schedFail s2 n e st
      | _, _ => s

/-- ADMISSION_WALK (R497): at step 5 of a tick, or when a stride requests admission between ticks. -/
def execAdmissionWalk (s : State) : StepOut := .next (if (nextFiring s).isSome then s else tickWalk s)

/-! Ticks. -/

/-- Tick source (Table 14.1): 0 SYNC_IN, 1 TICK, 2 LOCAL. -/
def tickSource (s : State) : Nat := let v := regFld s 0x30000 1 0; if v = 3 then 2 else v
/-- FT_LOCAL.interval with its limits (Table 14.13). -/
def localInterval (s : State) : Nat := Nat.min (Nat.max (regFld s 0x30018 16 0) 25) 100000
/-- Are the I/O dies released, so that fabric time runs (R468)? -/
def timeRuns (s : State) : Bool := s.start.rails && !ioStopped s 0

/-- TICK payload (Table 14.2): offsets 0x10 to 0x1B of the flit are payload bytes 0 to 11. -/
def tickPayload (v origin hops : Nat) : List Byte := leBytes 8 v ++ leBytes 4 (hops % 256 * 2 ^ 20 + origin)

/-- Forward an accepted tick (R472). -/
def forwardTick (s : State) (origin hops : Nat) : State :=
  let f : Flit := {
    typ := 4, vc := 0, seq := 0, ack := 0, crVc := 0, crCount := 0, dst := 0, ttl := 0, first := false, last := false
    gen := 0, src := 0, msgId := 0, payload := tickPayload s.ftime.toNat origin hops }
  let ok (p : Nat) : Bool := bit (regGet s 0x30024).toNat p && portState s p == 2 && !isPairPort s p &&
    !(tickSource s == 1 && p == regFld s 0x30000 12 8)
  ((List.range 32).filter ok).foldl (fun st p => modPort st p fun x => enqueue x ⟨f, none⟩) s

/-- Entry e of an image names a tensor that an encode request serves (R199); SEND and RECEIVE use the field otherwise. -/
def wantsEncode (e : ImgOp) : Bool := e.tensor != 0xFFFF && decide (e.op < 0x10)
/-- The streamed group of tensor t of a model blob, if it is streamed (Table 6.3). -/
def tensorGroup (b : List Byte) (t : Nat) : Option Nat :=
  let o := 2048 * fieldAt b 0x2C 4 + 32 * t
  if bit (fieldAt b o 4) 20 then some (bits (fieldAt b (o + 0x14) 4) 31 16) else none
/-- The blob of the model that a job names. -/
def jobBlob (s : State) (j : Job) : List Byte := match j.model with
  | some m => (getModel s j.fn m).blob
  | none => []
/-- Issued entries of a job whose encode request is not yet queued. -/
def encodeDue (j : Job) : List Nat := match j.image with
  | some i => j.opsIssued.filter fun o => !j.encQueued.contains o && (match i.ops[o]? with
      | some e => wantsEncode e
      | none => false)
  | none => []
/-- Has a job no encode request left: every entry that makes one is encoded or will not be executed (R232)? -/
def encodesDone (j : Job) : Bool := match j.image with
  | some i => (List.range i.ops.length).all fun n => match i.ops[n]? with
      | some e => !wantsEncode e || j.skipped.contains n || j.encoded.contains n
      | none => true
  | none => true
/-- Does a job hold a stride until group g is staged (R230)? -/
def holdsFor (s : State) (j : Job) (g : Nat) : Bool := (encodeDue j).any fun o => match j.image.bind fun i => i.ops[o]? with
  | some e => tensorGroup (jobBlob s j) e.tensor == some g && !j.staged.contains (g + 1)
  | none => false
/-- Is the group of entry o's tensor staged, or the tensor resident (R230)? -/
def groupStaged (s : State) (j : Job) (o : Nat) : Bool := match j.image.bind fun i => i.ops[o]? with
  | some e => (match tensorGroup (jobBlob s j) e.tensor with
      | some g => j.staged.contains (g + 1)
      | none => true)
  | none => true
/-- Front end that serves a sector (R199). -/
def frontEnd (x : Sector) : Nat :=
  let d := dieOfCore (x.lcores.headD 0)
  if d / 4 = 0 ∨ (d / 4 = 1 ∧ d % 4 < 2) then 0 else 1
/-- Room in the front end's queue of 64 (R205). -/
def encRoom (s : State) (fe : Nat) : Bool := decide (((tget [] s.encQ fe).filter fun r => !r.started).length < 64)

/-- Running jobs that meet a test. -/
def runningJobs (s : State) (p : Job → Bool) : List Nat :=
  s.jobs.filterMap fun x => match x.2 with
    | some j => if j.phase == .running && p j then some x.1 else none
    | none => none
/-- Strides that R230 holds: the jobs with one. -/
def heldJobs (s : State) : List Nat := runningJobs s fun j => (encodeDue j).any fun o => !groupStaged s j o
/-- Is a pass of a batch requested or to be requested with its first stride? -/
def passUnderWay (s : State) (j : Job) (ms : List Nat) : Bool :=
  (s.passes.any fun p => p.job == j.id && p.members == ms) || j.passDue.any fun p => p.2.members == ms

/-- Jobs with a stride held by a full encode queue (R205), and by a full pass queue (R287). -/
def encHeldJobs (s : State) : List Nat := runningJobs s fun j =>
  match getSector s j.sector with
  | some x => !encRoom s (frontEnd x) && (match encodeDue j with
      | o :: l => groupStaged s j (l.foldl Nat.min o)
      | [] => false)
  | none => false
def passHeldJobs (s : State) : List Nat := runningJobs s fun j =>
  (j.passDue.any fun p => !passRoom s j.fn p.2.key) ||
    j.passLeft.any fun p => !passUnderWay s j p.members && !passRoom s j.fn p.key

/-- Advance a function counter once for each function with a job of a list. -/
def countFns (s : State) (js : List Nat) (o : Nat) : State :=
  ((js.filterMap fun j => (getJob s j).map (·.fn)).eraseDups).foldl (fun st f => bump st (fnBase f + o)) s

/-- A fabric tick in which a job waits for its model's swap-in counts as fill (R240): it is taken from the phase that it falls
in. -/
def swapTicks (s : State) : State :=
  (s.sectors.filterMap fun p => p.2.bind fun x => if x.holder && x.swapDue && x.model.isSome then x.running else none).foldl (fun st k =>
    modJob st k fun j =>
      if encodesDone j then { j with stats := { j.stats with swapDrain := j.stats.swapDrain + 1 } }
      else if j.stats.fillEnd.isSome then { j with stats := { j.stats with swapSteady := j.stats.swapSteady + 1 } }
      else j) s

/-- Count the fabric tick against what waits: held strides (R230, Table 12.9), full queues (R205, R287, R549), and passes
without credit (Table 8.12). -/
def countHeld (s : State) : State :=
  let js := heldJobs s
  let s1 := js.foldl (fun st j => modJob st j fun jb => { jb with stats := { jb.stats with heldTicks := jb.stats.heldTicks + 1 } }) s
  let s2 := countFns (countFns (countFns s1 js 0x2204) (encHeldJobs s) 0x2114) (passHeldJobs s) 0x2324
  let fs := ((s.passes.filter (creditWaiting s)).map (·.fn)).eraseDups
  let s3 := swapTicks (fs.foldl (fun st f => bump st (fnBase f + 0x2320)) s2)
  if s.pke.overflow.isEmpty then s3 else bump s3 0x90314

/-- Mark what is due at the tick just taken; an entry passed over with late_drop is removed (R478). -/
def markDue (s : State) : State :=
  (List.range 64).foldl (fun st n => match getSched st n with
    | some e =>
      if e.fired then st
      else if e.late then setSched st n (some { e with due := true })
      else if e.t = st.ftime.toNat then setSched st n (some { e with due := true })
      else if e.t < st.ftime.toNat then
        (if e.lateDrop then schedEnd (bump st 0x30050) n 0x0802 else setSched st n (some { e with due := true }))
      else st
    | none => st) s

/-- Is a CAPTURE due? -/
def captureDue (s : State) : Bool :=
  (List.range 64).any fun n => match getSched s n with
    | some e => e.due && !e.fired && e.action == 3
    | none => false

/-- A front that hands over (R464): once its jobs have committed it sends a final DIGEST and TAKEOVER on the pair ports (log
entry 16), and becomes the rear. -/
def handoverStep (s : State) : State :=
  if !s.fab.handover ∨ s.jobs.any (fun p => p.2.isSome) then s
  else
    let s1 := sendDigest s
    let s2 := takeoverOn s1 [pairPort s1]
    regSetFld { s2 with fab := { s2.fab with handover := false, serving := false, heard := s.ftime.toNat, probe := none } } 0x20034 30 30 1

/-- The pair event of a function whose rerun journal entries have all passed stage 3, or failed there (R463). -/
def rerunStep (s : State) : State :=
  (List.range 64).foldl (fun st f =>
    let mine := st.fab.rerun.filter fun e => e.fn == f
    let early (e : JEntry) : Bool := match findDesc st f e.ring e.index with
      | some d => d.phase == .fetched
      | none => false
    if mine.isEmpty ∨ mine.any early then st
    else
      let held := (st.fab.heldCpl.filter fun h => h.1 == f).length
      postEvent { st with fab := { st.fab with rerun := st.fab.rerun.filter fun e => e.fn != f } } f 2
        (payload4 [st.fab.tookOver * 2 ^ 24 + regFld st 0x20038 19 0, st.fab.peer, mine.length, held])) s

/-- An accepted tick (R468, R472, R480): the counter takes value v, dt is the interval in units of 10 ns. -/
def acceptTick (s : State) (v dt origin hops : Nat) : State :=
  let s0 := flushBufEvents (finishTick s)
  let s1 : State := { s0 with ftime := BitVec.ofNat 64 v, sched := { s0.sched with strobe := none, localInt := localInterval s0 } }
  let s2 := regSet (regSetPair s1 0x30008 v) 0x30020 (BitVec.ofNat 32 (Nat.min dt 0xFFFFF))
  let s3 := if 100000 < dt then regSetFld s2 0x30004 3 3 1 else s2
  let s4 := forwardTick s3 origin hops
  let s5 := if bit (regGet s4 0x30000).toNat 17 then emit s4 .syncOut else s4
  let s6 := latchPower s5
  let s7 := markDue s6
  let s8 := if captureDue s7 then takeStrobe s7 else s7
  let s9 := updatePaces (grantAll s8)
  let s10 := countHeld { s9 with sched := { s9.sched with walkDue := true } }
  -- heartbeats of a range-pair front on each pair port (R460)
  let s11 := if pairOn s10 && !isRear s10 && pairState s10 != 0 && pairState s10 != 5 then
      (pairPorts s10).foldl (fun st p =>
        pairOnPort st p (pairFlits 1 (leBytes 8 v ++ leBytes 4 (pairState s10) ++ leBytes 4 (devId s10)))) s10
    else s10
  rerunStep (handoverStep s11)

/-- The counter at a tick under SYNC_IN or LOCAL (R474): the armed value if it exceeds the counter, else the next. -/
def acceptLocal (s : State) (dt : Nat) : State :=
  let now := s.ftime.toNat
  let own (s : State) (v : Nat) : State := acceptTick s v dt (devId s) 0
  if bit (regGet s 0x30004).toNat 5 then
    let v := regPair s 0x30010
    let s1 := regSetFld s 0x30004 5 5 0
    if now < v then own s1 v else own (regSetFld s1 0x30004 4 4 1) (now + 1)
  else own s (now + 1)

/-- Local ticks of fallback stop at a tick of the configured source (R475). -/
def endFallback (s : State) : State := regSetFld s 0x30004 1 1 0

/-- SYNC_IN_EDGE (R470): a rising edge dt units of 10 ns after the previous accepted tick. -/
def execSyncInEdge (dt : Nat) (s : State) : StepOut :=
  .next <|
    if !timeRuns s || tickSource s != 0 then s
    else if dt < 25 then bump s 0x30040
    else acceptLocal (endFallback s) dt

/-- Do local ticks run: LOCAL is the source, or fallback is active (R469, R475)? -/
def localRuns (s : State) : Bool := tickSource s == 2 || bit (regGet s 0x30004).toNat 1

/-- LOCAL_TICK (R469): the running interval has expired, dt units after the previous accepted tick. -/
def execLocalTick (dt : Nat) (s : State) : StepOut :=
  .next <|
    if !timeRuns s || !localRuns s || decide (dt < s.sched.localInt) then s
    else if dt < 25 then bump s 0x30040
    else if tickSource s = 1 then
      -- a local tick of fallback under TICK discards an armed value (R474)
      let s1 := if bit (regGet s 0x30004).toNat 5 then regSetFld (regSetFld s 0x30004 5 5 0) 0x30004 4 4 1 else s
      acceptTick s1 (s1.ftime.toNat + 1) dt (devId s1) 0
    else acceptLocal (if tickSource s = 2 then endFallback s else s) dt

/-- TICK (R471): a TICK flit arrives on port p, dt taken as one interval of FT_LOCAL where the flit says nothing of it. -/
def acceptFlitTick (s : State) (p : Nat) (f : Flit) (dt : Nat) : State :=
  if !timeRuns s || tickSource s != 1 || p != regFld s 0x30000 12 8 then s
  else
    let v := fieldAt f.payload 0 8
    let w := fieldAt f.payload 8 4
    if dt < 25 then bump s 0x30040
    else if v ≤ s.ftime.toNat then bump s 0x30044
    else
      let s1 := if s.ftime.toNat + 1 < v then bump s 0x30048 else s
      let s2 := if bit (regGet s1 0x30004).toNat 5 then regSetFld (regSetFld s1 0x30004 5 5 0) 0x30004 4 4 1 else s1
      acceptTick (endFallback s2) v dt (bits w 19 0) (bits w 27 20 + 1)

/-- FT_WATCHDOG.limit_us with its lower limit. -/
def watchdogLimit (s : State) : Nat := Nat.max (regFld s 0x3001C 15 0) 2

/-- TICK_WATCHDOG_EXPIRY (R475): no tick accepted for limit_us, dt units of 10 ns after the last. -/
def execTickWatchdogExpiry (dt : Nat) (s : State) : StepOut :=
  .next <|
    if !timeRuns s || tickSource s == 2 || decide (dt < 100 * watchdogLimit s) then s
    else
      let s1 := dayEvent (regSetFld s 0x30004 0 0 1) 0x0203 12 0 [tickSource s]
      let s2 := raiseSrc (sbAlert s1) 12 34
      if bit (regGet s2 0x30000).toNat 16 && !bit (regGet s2 0x30004).toNat 1 then
        let s3 := bump (regSetFld s2 0x30004 1 1 1) 0x30054
        if tickSource s3 = 1 then acceptTick s3 (s3.ftime.toNat + 1) dt (devId s3) 0 else acceptLocal s3 dt
      else s2

end Sys2Proof.Machine
end

