-- ==== Sys2Proof/Machine/Jobs.lean ====
section
/-! DEFINITION. Jobs between load and completion: operand headers, the checks of an operation-table entry (R77, R94 to
R98), batches (R290 to R292), destination headers (R78, R93), and which stride comes next (R177). -/

namespace Sys2Proof.Machine

/-- Parameter object that a job binds, and the generation of its slot. -/
def jobObj (s : State) (j : Job) : List Byte := (getParam s j.fn j.param).obj
def jobGen (s : State) (j : Job) : Nat := (getParam s j.fn j.param).lastGen

/-! Operand headers (R77, R78). -/

/-- An operand as a check finds it: the failing status (0 none), whether the failure counts, whether check 1 passed, and
the header. -/
structure Operand where
  status : Nat
  counted : Bool
  formOk : Bool
  hdr : Header
  deriving DecidableEq, Repr

/-- Is any byte of a range poisoned? -/
def anyPoison (s : State) (a n : Nat) : Bool := (List.range n).any fun i => poisonedAt s (a + i)

/-- Binding v of a job. -/
def jobBind (j : Job) (v : Nat) : Option Binding := j.bindings[v]?

/-- Is this the header that R78 gives a failed operation: invalid, with a failing status and no size? -/
def failedForm (h : Header) : Bool :=
  !h.valid && h.status / 256 != 0 && h.dataBytes == 0 && h.items == 0 && h.scale == 0 && h.noise == 0 && h.lweDim == 0

/-- Operand v of a job: the header that an earlier entry predicted for it, or the one in memory; an intermediate header that
nothing has written is invalid with status 0 (R178). A result of this job that has failed fails its readers by check 4, with
its own status, uncounted (R78, R100), though the sizes that R78 gives it would not pass check 3 (DEDUCED; log entry 62).
Check 3 takes the current generation of the slot that the job binds; the header's own param_set is compared with nothing
(DESIGN CHOICE; log entry 62). -/
def operand (s : State) (j : Job) (v : Nat) : Operand :=
  let o := jobObj s j
  match tget none j.hdrs v with
  | some h =>
    if failedForm h then ⟨h.status, false, true, h⟩
    else let r := hdrChecks o j.fn (jobGen s j) h; ⟨r.1, r.2, true, freshened o h⟩
  | none =>
    match jobBind j v with
    | some b =>
      let bs := memBytes s b.addr 64
      if anyPoison s b.addr 64 || !hdrFormOk bs then ⟨stHeader, true, false, Header.zero⟩
      else
        let h := hdrOf bs
        let r := hdrChecks o j.fn (jobGen s j) h
        ⟨r.1, r.2, true, freshened o h⟩
    | none => ⟨stParam, true, false, Header.zero⟩

/-- Tensor entry t of a model blob (Table 6.3). -/
def tensorAt (b : List Byte) (t : Nat) : Nat := 2048 * fieldAt b 0x2C 4 + 32 * t
def tScale (b : List Byte) (t : Nat) : Nat := fieldAt b (tensorAt b t + 8) 4
def tWBits (b : List Byte) (t : Nat) : Int := sext (bits (fieldAt b (tensorAt b t + 0xC) 4) 31 16) 16
def tLanding (b : List Byte) (t : Nat) : Nat := bits (fieldAt b (tensorAt b t) 4) 15 0
def tCountOf (b : List Byte) : Nat := bits (fieldAt b 0xC 4) 31 16

/-- Bytes of a coefficient that an encode request lands: I32 or Z64 (R203). -/
def landBytes (scale : Nat) (w : Int) : Nat := if (sc8 scale : Int) + w ≤ 0x1E00 then 4 else 8

/-- Bytes that an encode request lands in its core of logical number p (R204). -/
def landLen (r : EncReq) (p : Nat) : Nat :=
  landBytes r.scale r.wBits * ceilDiv (2 ^ r.logN - p) (if r.cores.length = 0 then 1 else r.cores.length)
/-- Its cores that coefficients land in, each with the bytes. -/
def landings (r : EncReq) : List (Nat × Nat) :=
  ((List.range r.cores.length).zip r.cores).filterMap fun q => if landLen r q.1 = 0 then none else some (q.2, landLen r q.1)

/-- Is a memory request one of encode request id: its wait for credit, or its landing? -/
def ofEncode (id : Nat) (q : MemReq) : Bool := match q.origin with
  | .land _ k _ => k == id
  | _ => false

/-- The plaintext that the encoder makes for tensor t, as an operand at level ℓ (R82, R93). -/
def tensorHdr (o b : List Byte) (t level : Nat) : Header :=
  { Header.zero with
    kind := 8, level := level, limbs := pM o level, valid := true, scale := tScale b t
    noise := sat16 ((sc8 (tScale b t) : Int) + tWBits b t), logN := pLogN o, items := 1 }

/-- The issue check of R200 on tensor t for P logical cores. -/
def tensorOk (o b : List Byte) (t p : Nat) : Bool :=
  let sc := tScale b t
  decide (0x10000 ≤ sc ∧ sc ≤ 0x3E0000) &&
    decide (tLanding b t + landBytes sc (tWBits b t) * ceilDiv (2 ^ pLogN o) (if p = 0 then 1 else p) ≤ 0x8000)

/-- Bytes from an address to the end of the buffer of job j that holds it (R56, R363). -/
def roomAt (s : State) (j : Job) (a : Nat) : Nat :=
  let inside (base size : Nat) : Bool := decide (base ≤ a ∧ a < base + size)
  match (getFn s j.fn).bufs.find? fun p => p.2.live && inside p.2.base p.2.size with
  | some p => p.2.base + p.2.size - a
  | none => match s.zombies.find? fun z => z.jobs.contains j.id && inside z.ext.base z.ext.len with
    | some z => z.ext.base + z.ext.len - a
    | none => 0

/-! The checks of one entry. -/

/-- Outcome of an entry's checks: status (0 passes), whether it counts, whether it was check 1 of R77, the prediction, and
the first operand for R78. -/
structure Check where
  status : Nat
  counted : Bool
  header : Bool
  pred : Option Pred
  first : Operand
  deriving DecidableEq, Repr

/-- No operand. -/
def Operand.absent : Operand := ⟨0, false, false, Header.zero⟩

/-- The bound table that a refresh entry uses (R316): directory index, or none for the built-in one. -/
def entryTable (s : State) (j : Job) (e : ImgOp) (idx : Nat) : Option Nat :=
  match j.table with
  | some t =>
    let o := (getTabs s j.fn t).obj
    let kind := if e.op = 12 then 1 else 2
    if j.kind = .direct then tabFind o kind true e.target else tabFind o kind false idx
  | none => none

/-- Table checks of a refresh (R306, R312): 0 or the failing status. -/
def tableCheck (s : State) (j : Job) (e : ImgOp) (idx : Nat) : Nat :=
  let o := jobObj s j
  match e.op, entryTable s j e idx, j.table with
  | 12, some i, some t => if foldedDegree (pRefreshDepth o) < (tEnt (getTabs s j.fn t).obj i).size then stParam else 0
  | 13, none, _ => 0x0307
  | _, _, _ => 0

/-- Is an entry run by a built-in program: those of a DIRECT_OP, and the refreshes (R302, R309)? -/
def isBuiltin (j : Job) (e : ImgOp) : Bool := j.kind == .direct || e.op == 12 || e.op == 13

/-- Does the object of n data bytes of binding v reach past its buffer? A built-in program's access there is an address fault,
and its operation fails with PARAM_MISMATCH (R54; log entry 34). -/
def pastBuffer (s : State) (j : Job) (v n : Nat) : Bool :=
  match jobBind j v with
  | some b => decide (roomAt s j b.addr < 64 + n)
  | none => false

/-- Do the objects of a built-in program's entry lie in their buffers? -/
def objectsFit (s : State) (j : Job) (e : ImgOp) (r : Pred) : Bool :=
  let o := jobObj s j
  let n (v : Nat) : Nat := (operand s j v).hdr.dataBytes
  let out := kindBytes o { Header.zero with kind := r.kind, limbs := pM o r.level, logN := pLogN o }
  !isBuiltin j e ||
    !(pastBuffer s j e.srcA (n e.srcA) || (e.srcB != 0xFFFF && pastBuffer s j e.srcB (n e.srcB)) || pastBuffer s j e.dst out)

/-- Logical cores over which an entry's plaintext lands (R204). -/
def encodeCores (j : Job) : Nat := match j.image with
  | some i => i.coreCount
  | none => 1

/-- R77, R94 and R95 on entry idx of a job's operation table (R96), with the encoder's check of R200 on every entry that makes
a request. A tensor that is named where Table 2.17 shows no plaintext, or beside a stored one, breaks the form (R94). -/
def entryCheck (s : State) (j : Job) (e : ImgOp) (idx : Nat) : Check :=
  let o := jobObj s j
  let blob := jobBlob s j
  let none_ := Operand.absent
  let tensorBad := e.tensor != 0xFFFF && !tensorOk o blob e.tensor (encodeCores j)
  if e.op = 0 then (if tensorBad then ⟨stParam, true, false, none, none_⟩ else ⟨0, false, false, none, none_⟩)
  else if e.op = 0x11 then ⟨0, false, false, none, none_⟩
  else if e.srcA = 0xFFFF then ⟨stParam, true, false, none, none_⟩
  else
    let a := operand s j e.srcA
    if a.status ≠ 0 then ⟨a.status, a.counted, !a.formOk, none, a⟩
    else if e.op = 0x10 then ⟨0, false, false, none, a⟩
    else
      let b : Option Operand := if e.srcB ≠ 0xFFFF then some (operand s j e.srcB) else none
      let bad := match b with
        | some x => if x.status ≠ 0 then some x else none
        | none => none
      match bad with
      | some x => ⟨x.status, x.counted, !x.formOk, none, a⟩
      | none =>
        let plain := e.op = 3 ∨ e.op = 4
        let second : Option Header := match b with
          | some x => some x.hdr
          | none => if e.tensor ≠ 0xFFFF ∧ plain then some (tensorHdr o blob e.tensor a.hdr.level) else none
        let formBad := e.tensor ≠ 0xFFFF ∧ (!plain ∨ b.isSome)
        match predict o e.op e.galois e.target a.hdr second with
        | none => ⟨stParam, true, false, none, a⟩
        | some r =>
          if formBad then ⟨stParam, true, false, none, a⟩
          else
            let st := issueChecks o e.op a.hdr r
            let st1 := if st = 0 ∧ (tensorBad ∨ !objectsFit s j e r) then stParam else st
            ⟨if st1 = 0 then tableCheck s j e idx else st1, true, false, some r, a⟩

/-! Destination headers. -/

/-- Layout and domain of a destination (R253): of its binding, or of src_a for an intermediate one. -/
def outForm (j : Job) (dst : Nat) (a : Header) : Nat × Nat :=
  match jobBind j dst with
  | some b => (b.layout, b.domain)
  | none => (a.layout, a.domain)

/-- The header that a passed entry will write (R93). -/
def goodHdr (s : State) (j : Job) (dst : Nat) (a : Header) (r : Pred) : Header :=
  let o := jobObj s j
  let f := outForm j dst a
  let h : Header := {
    kind := r.kind, param := j.param, level := r.level, limbs := pM o r.level, layout := f.1, domain := f.2
    poison := r.poison, valid := true, scale := r.scale.toNat, noise := r.noise, status := 0, gen := jobGen s j
    owner := j.fn, logN := pLogN o, dataBytes := 0, items := 1, lweDim := 0, tagLo := a.tagLo, tagHi := a.tagHi }
  { h with dataBytes := kindBytes o h }

/-- The header of a destination that fails (R78). Its poison bit, which R78 does not name, is 0, also after a poisoned operand
(DESIGN CHOICE; log entry 62). -/
def badHdr (s : State) (j : Job) (dst : Nat) (first : Operand) (status : Nat) : Header :=
  let o := jobObj s j
  let a := if first.formOk then first.hdr else Header.zero
  let f := outForm j dst a
  { Header.zero with
    kind := a.kind, param := j.param, level := a.level, limbs := a.limbs, layout := f.1, domain := f.2
    status := status, gen := jobGen s j, owner := j.fn, logN := pLogN o, tagLo := a.tagLo, tagHi := a.tagHi }

/-- Write a header into a binding that the job writes, in one 64-byte write (R79). -/
def writeHdr (s : State) (jid v : Nat) (h : Header) : State :=
  match (getJob s jid).bind fun j => jobBind j v with
  | some b =>
    let s1 := modJob s jid fun x => { x with written := v :: x.written }
    if b.output && b.kind == 1 then writeT (engineAccess s1 b.addr 64) b.addr (plain (hdrBytes h)) else s1
  | none => s
/-- The reads of the headers of operands that the job has not yet written (R77). -/
def readHdrs (s : State) (j : Job) (vs : List Nat) : State :=
  (vs.filterMap fun v => if (tget none j.hdrs v).isSome then none else jobBind j v).foldl
    (fun st b => if b.kind = 1 then engineAccess st b.addr 64 else st) s
/-- A destination takes a header: for the entries that read it, and in its binding. -/
def putHdr (s : State) (jid v : Nat) (h : Header) : State :=
  writeHdr (modJob s jid fun x => { x with hdrs := tset none x.hdrs v (some h) }) jid v h

/-! Counting (R25, R101, R295). -/

/-- Count a failure of an operation of function f. -/
def countFail (s : State) (f status : Nat) : State :=
  let c (o : Nat) : State := bump s (fnBase f + o)
  if status = stLevel then c 0x2030
  else if status = stNoise then c 0x2034
  else if status = stParam then c 0x203C
  else if status = stHeader then c 0x2040
  else if status = stKeyMissing then c 0x2328
  else if status = stKeyPoisoned then c 0x232C
  else if status = 0x0307 then c 0x2414
  else if status = stNotOwner then c 0x2510
  else s

/-- Strides of an entry. -/
def entryStrides (e : ImgOp) : List Nat := (List.range e.count).map (e.first + ·)

/-- A failure of a job, in the order they arise, with the operation that failed (0xFFFF: none); one that counts joins the
job statistics, whether or not R24 reports it (R25). -/
def addFail (s : State) (jid status op : Nat) (counted : Bool) : State :=
  modJob s jid fun x => { x with
    fails := x.fails ++ [(status, op)]
    stats := if counted then statFail x.stats status else x.stats }

/-- Entry idx of a job fails with a status (R78, R101): its destination is written invalid, its strides are not run. -/
def failEntry (s : State) (jid : Nat) (e : ImgOp) (idx : Nat) (first : Operand) (status : Nat) (counted : Bool) : State :=
  match getJob s jid with
  | none => s
  | some j =>
    let s1 := if counted then countFail s j.fn status else s
    let s2 := modJob (addFail s1 jid status idx counted) jid fun x => { x with
      skipped := idx :: x.skipped
      stridesDone := if x.kind = .circuit then x.stridesDone ++ entryStrides e else x.stridesDone }
    if e.dst = 0xFFFF then s2 else putHdr s2 jid e.dst (badHdr s j e.dst first status)

/-! Keys and batches. -/

/-- Key of an entry (R290): class and Galois element; none for an entry that needs none. -/
def entryKey (o : List Byte) (e : ImgOp) : Option (Nat × Nat) :=
  match e.op with
  | 6 => some (1, 0)
  | 7 => some (1, 0)
  | 9 => some (2, e.galois)
  | 10 => some (3, 2 * 2 ^ pLogN o - 1)
  | _ => none

/-- Keys that an entry is checked for (R89, R305, R312). -/
def entryKeys (o : List Byte) (e : ImgOp) : List (Nat × Nat) :=
  match e.op with
  | 12 => refreshKeys (pLogN o)
  | 13 => lookupKeys (pLogN o)
  | _ => match entryKey o e with
    | some k => [k]
    | none => []

/-- The presence check of R291 on keys of a job: 0, KEY_MISSING or KEY_POISONED. -/
def keyCheck (s : State) (j : Job) (ks : List (Nat × Nat)) : Nat :=
  match j.key with
  | none => if ks.isEmpty then 0 else stKeyMissing
  | some k =>
    let q := getKeys s j.fn k
    let found (p : Nat × Nat) : Option Nat := if q.loaded then keyFind q.obj p.1 p.2 else none
    if ks.any fun p => (found p).isNone then stKeyMissing
    else if ks.any fun p => (match found p with
      | some i => q.poisoned.contains i
      | none => false) then stKeyPoisoned
    else 0

/-- KSE_FN_CTRL.batch_cap (Table 8.10). -/
def batchCap (s : State) (f : Nat) : Nat :=
  let v := regFld s (fnBase f + 0x2300) 8 4
  if v = 0 ∨ 16 < v then 16 else v

/-- Does an entry read one of some destinations? -/
def readsAny (e : ImgOp) (dsts : List Nat) : Bool :=
  (e.srcA != 0xFFFF && dsts.contains e.srcA) || (e.srcB != 0xFFFF && dsts.contains e.srcB)

/-- The rest of a batch of key-needing entries (R290): n members may still join; dsts are the destinations since the run
began. -/
def keyRun (o : List Byte) (key : Nat × Nat) : List (Nat × ImgOp) → Nat → List Nat → List Nat
  | [], _, _ => []
  | (i, e) :: l, n, dsts =>
    if n = 0 ∨ e.op = 12 ∨ e.op = 13 ∨ readsAny e dsts then []
    else match entryKey o e with
      | some k => if k = key then i :: keyRun o key l (n - 1) (e.dst :: dsts) else []
      | none => keyRun o key l n (e.dst :: dsts)

/-- The rest of a batch of refreshes (R292, R319): consecutive entries of one kind at one level with one table. -/
def refreshRun (same : Nat → ImgOp → Bool) : List (Nat × ImgOp) → Nat → List Nat → List Nat
  | [], _, _ => []
  | (i, e) :: l, n, dsts =>
    if n = 0 ∨ !same i e ∨ readsAny e dsts then [] else i :: refreshRun same l (n - 1) (e.dst :: dsts)

/-- The batch that begins with entry idx: the entry alone where it needs no key (R290, R292). -/
def batchAt (s : State) (j : Job) (i : Image) (idx : Nat) : List Nat :=
  let o := jobObj s j
  let rest := ((List.range i.ops.length).zip i.ops).drop (idx + 1)
  let most := Nat.min (Nat.max 1 (j.kr.getD 3 1)) (batchCap s j.fn)
  match i.ops[idx]? with
  | none => []
  | some e =>
    match entryKey o e with
    | some k => idx :: keyRun o k rest (most - 1) [e.dst]
    | none =>
      if e.op = 12 ∨ e.op = 13 then
        let level (x : ImgOp) : Nat := (operand s j x.srcA).hdr.level
        let same (n : Nat) (x : ImgOp) : Bool :=
          x.op == e.op && level x == level e && entryTable s j x n == entryTable s j e idx
        idx :: refreshRun same rest (most - 1) [e.dst]
      else [idx]

/-- A pass of a job for a directory entry of key set k, to f groups of w members with a key ring (R281, R282); a key without limbs
goes to no member's ring (R314). -/
def mkPass (s : State) (j : Job) (k ent level f w : Nat) (kr members : List Nat) (builtin : Bool) : Pass :=
  let o := jobObj s j
  let p : Pass := {
    id := 0, job := j.id, sector := j.sector, fn := j.fn, key := k, entry := ent, level := level, logN := pLogN o
    groups := f, width := w, krBase := kr.getD 0 0, krDepth := kr.getD 1 2, krWidth := kr.getD 2 0
    first := 0, slices := 0, bursts := [], active := false, landed := [], counted := [], dead := false, members := members, exps := []
    lost := [], builtin := builtin, dropped := false }
  if passRaw s p then { p with groups := 0, slices := ceilDiv (passEnt s p).len 2048 }
  else { p with slices := passSlices p (passE o p).length (passDigits o p).length }

/-- The pass of a batch (R281, R282, R290): for the largest limb count of its operands. -/
def batchPass (s : State) (j : Job) (i : Image) (members : List Nat) : Option Pass :=
  let o := jobObj s j
  match members.head?.bind (i.ops[·]?), j.key with
  | some e, some k =>
    match (entryKey o e).bind fun p => keyFind (getKeys s j.fn k).obj p.1 p.2 with
    | none => none
    | some ent =>
      let level := (members.filterMap fun m => (i.ops[m]?).map fun x =>
        let a := (operand s j x.srcA).hdr.level
        if x.srcB = 0xFFFF then a else Nat.min a (operand s j x.srcB).hdr.level).foldl Nat.max 0
      let f := if j.kind = .direct then 1 else Nat.max 1 j.ways
      some (mkPass s j k ent level f (i.coreCount / f) j.kr members (j.kind == .direct))
  | _, _ => none

/-! Inserted refreshes (R98, R99, R320). -/

/-- The entries that are written together with entry n: the batch of a refresh (R319), else n alone. -/
def lockOf (j : Job) (n : Nat) : List Nat := (j.lock.find? fun l => l.contains n).getD [n]
/-- Have all strides ended of entry n, and of those written with it? -/
def entryEnded (j : Job) (i : Image) (n : Nat) : Bool :=
  (lockOf j n).all fun m => match i.ops[m]? with
    | some e => j.skipped.contains m || (entryStrides e).all j.stridesDone.contains
    | none => true
/-- Is an operand's object complete: no entry that writes it still has strides to run? -/
def objReady (j : Job) (v : Nat) : Bool :=
  match j.image with
  | some i => ((List.range i.ops.length).zip i.ops).all fun p =>
      p.2.dst != v || !j.opsIssued.contains p.1 || j.skipped.contains p.1 || (j.kind == .circuit && entryEnded j i p.1)
  | none => true

/-- CKKS2 operands of an entry for which no refresh has been inserted, in the order of R98: lowest level, then lower margin.
One object that two bindings name is one operand. -/
def refreshable (s : State) (j : Job) (e : ImgOp) (idx : Nat) : List Nat :=
  let vs := ([e.srcA, e.srcB].filter fun v => v != 0xFFFF).eraseDups
  let same (u v : Nat) : Bool := u == v || ((jobBind j v).isSome && (jobBind j u).map (·.addr) == (jobBind j v).map (·.addr))
  let ok (v : Nat) : Bool := (operand s j v).hdr.kind == 1 && !(j.refreshed.any fun p => p.1 == idx && same p.2 v)
  let key (v : Nat) : Nat × Int := let h := (operand s j v).hdr; (h.level, (sc8 h.scale : Int) - h.noise)
  let lt (a b : Nat) : Bool := decide ((key a).1 < (key b).1) || ((key a).1 == (key b).1 && decide ((key a).2 < (key b).2))
  match vs.filter ok with
  | [a, b] => if lt b a then [b, a] else [a, b]
  | l => l

/-- The checks of an inserted refresh of operand v (R95, R98, R303): 0 or the failing status. -/
def insertCheck (s : State) (j : Job) (v : Nat) : Nat :=
  let o := jobObj s j
  let a := (operand s j v).hdr
  match predict o 12 0 0 a none with
  | some r => issueChecks o 12 a r
  | none => stParam

/-- Does the job refresh automatically, and does it go on after a failure? -/
def stops (j : Job) : Bool := !j.continue_

/-! Data that the spec gives no values for: free values. -/

/-- n bytes of free values from an address. -/
def freeBytes (s : State) (a n : Nat) : State :=
  let bs := (List.range n).map fun i => BitVec.ofNat 8 (Config.freeValue (s.free + i))
  writeT { s with free := s.free + n } a (plain bs)

/-- A result of n data bytes that the spec gives no values for, under a header at address a: free values, poisoned where an
operand is. -/
def freeResult (s : State) (j : Job) (a n : Nat) (bad : Bool) : State :=
  let m := Nat.min n (roomAt s j a - 64)
  let s1 := freeBytes s (a + 64) m
  if bad then writeT s1 (a + 64) ((memBytes s1 (a + 64) m).map fun x => ⟨x, true⟩) else s1

/-! Which stride comes next. -/

/-- Is the table of a refresh batch in its slot, or in need of no copy (R318)? Batches use slots in turn. -/
def tabReady (j : Job) (idx : Nat) : Bool :=
  j.tabBatches.all fun b => !b.ops.contains idx || b.copied

/-- Mark the batches that need no copy: their slot already holds their table. -/
def tabSettle (j : Job) : Job :=
  let upd (acc : List TabBatch) (b : TabBatch) : List TabBatch :=
    let n := acc.length
    let before := (List.range n).all fun m => m % 2 != n % 2 || ((acc[m]?).map (·.copied)).getD true
    acc ++ [if !b.copied && before && tget none j.refreshSlots (n % 2) == some b.table then { b with copied := true } else b]
  { j with tabBatches := j.tabBatches.foldl upd [] }

/-- Index of the one stride of an inserted refresh, which no image's stride table lists (R99; log entry 27). -/
def builtinStride : Nat := 65536

/-- May the strides of entry idx be admitted (R96, R199, R230, R291, R318, R448, R449)? -/
def entryReady (s : State) (j : Job) (i : Image) (idx : Nat) : Bool :=
  match i.ops[idx]? with
  | none => false
  | some e =>
    j.opsIssued.contains idx && !j.skipped.contains idx &&
      (!wantsEncode e || j.encQueued.contains idx) &&
      (!(e.op == 0x10 || e.op == 0x11) || j.messaged.contains idx) &&
      tabReady j idx &&
      (j.passDue.all fun p => p.1 != e.first || passRoom s j.fn p.2.key)

/-- Next stride of context k: the first in table order that has not ended (R177). -/
def nextStride (j : Job) (i : Image) (k : Nat) : Option Nat :=
  (List.range i.strides.length).find? fun n => !j.stridesDone.contains n && (match i.strides[n]? with
    | some st => st.ctx == k
    | none => false)

/-- The stride that context k of a job may request now, with its cost and whether it runs the image's code: the next of its
own, or the inserted refresh that the operation it comes to waits for (R99, R177). -/
def dueStride (s : State) (j : Job) (i : Image) (k : Nat) : Option (Nat × Nat × Bool) :=
  let passOk (idx : Nat) : Bool := j.passDue.all fun p => p.1 != idx || passRoom s j.fn p.2.key
  match nextStride j i k with
  | none => none
  | some n =>
    let t := i.strides.getD n ⟨0, 0, 0, 0⟩
    let waits := match j.refreshing with
      | (c, _) :: _ => c / 65536 == t.opIndex
      | [] => false
    if waits then
      (if ((i.ops[t.opIndex]?).map (·.first)) == some n && passOk builtinStride then
        some (builtinStride, Config.builtinCost 12 (pLogN (jobObj s j)) (((getSector s j.sector).map (·.tiles)).getD []), false)
      else none)
    else if entryReady s j i t.opIndex then
      some (n, t.cost, !((i.ops[t.opIndex]?).map (isBuiltin j)).getD false)
    else none

/-- Let the strides of a sector's job that may go on request their admission. -/
def advance (s : State) (sec : Nat) : State :=
  match getSector s sec with
  | none => s
  | some x =>
    match x.running with
    | none => s
    | some jid =>
      let s0 := modJob s jid tabSettle
      match getJob s0 jid with
      | some j =>
        if j.phase ≠ .running then s0
        else match j.image with
          | none => s0
          | some i => (List.range 4).foldl (fun st k =>
              match getJob st jid with
              | some jb =>
                if (tget none jb.active k).isSome || x.passDue || st.sched.waiting.any (fun w => w.sector == sec && w.ctx == k) then st
                else match dueStride st jb i k with
                  | some d => requestStride st sec k d.1 d.2.1 d.2.2
                  | none => st
              | none => st) s0
      | none => s0

/-- Advance every sector with a job: after something that several may wait for. -/
def advanceAll (s : State) : State := (s.sectors.map (·.1)).foldl advance s

/-- The next pass of each built-in program (R302, R309): each is requested once the one before it has ended, and held while the
queue is full (R287). -/
def requestNext (s : State) : State :=
  let next (st : State) (j : Job) (ms : List Nat) : State :=
    match j.passLeft.find? fun p => p.members == ms with
    | some p =>
      if passUnderWay st j ms ∨ !passRoom st p.fn p.key then st
      else modJob (queuePass (bumpN st (fnBase p.fn + 0x2314) ms.length) j.id p) j.id fun x => { x with
        passLeft := x.passLeft.erase p, stats := { x.stats with served := x.stats.served + ms.length } }
    | none => st
  (s.jobs.filterMap (·.2)).foldl (fun st j => (j.passLeft.map (·.members)).eraseDups.foldl (fun st ms => next st j ms) st) s

end Sys2Proof.Machine
end

