-- ==== Sys2Proof/Machine/Encoder.lean ====
section
/-! DEFINITION. The Plaintext Encoder: the stored values of a request, the front end's arithmetic, queueing, starting and
landing (R199 to R210, R221). -/

namespace Sys2Proof.Machine

/-! Arithmetic on words of FP32 or FP64 (R201), through exact values. -/

/-- Exact sum; an exact zero takes the sign of R193's rounding mode. -/
def XVal.add (mode : Nat) : XVal → XVal → XVal
  | .nan s, _ => .nan s
  | _, .nan s => .nan s
  | .inf a, .inf b => if a = b then .inf a else .nan true
  | .inf a, _ => .inf a
  | _, .inf b => .inf b
  | .fin a m e, .fin b n f =>
    let u := min e f
    let x : Int := (if a then -1 else 1) * ((m * 2 ^ (e - u).toNat : Nat) : Int)
    let y : Int := (if b then -1 else 1) * ((n * 2 ^ (f - u).toNat : Nat) : Int)
    let z := x + y
    if z = 0 then .fin (if a = b then a else mode == 3) 0 0 else .fin (z < 0) z.natAbs u
/-- Exact product. -/
def XVal.mul : XVal → XVal → XVal
  | .nan s, _ => .nan s
  | _, .nan s => .nan s
  | .inf a, .inf b => .inf (a != b)
  | .inf a, .fin b m _ => if m = 0 then .nan true else .inf (a != b)
  | .fin a m _, .inf b => if m = 0 then .nan true else .inf (a != b)
  | .fin a m e, .fin b n f => .fin (a != b) (m * n) (e + f)
/-- The value with its sign changed. -/
def XVal.neg : XVal → XVal
  | .nan s => .nan s
  | .inf a => .inf (!a)
  | .fin a m e => .fin (!a) m e
/-- x / 2^k. -/
def XVal.shr (k : Nat) : XVal → XVal
  | .fin a m e => .fin a m (e - k)
  | x => x

/-- The arithmetic of a path: format, rounding mode, FAST or not. -/
structure PathArith where
  fmt : FloatFmt
  rm : Nat
  fast : Bool
  deriving DecidableEq, Repr

/-- Arithmetic of an encode request (Table 5.9); reserved rounding modes and path act as 0 (log entry 25). -/
def pathArith (path rm : Nat) : PathArith :=
  let m := if rm ≤ 4 then rm else 0
  match path with
  | 1 => ⟨fp32, m, false⟩
  | 2 => ⟨fp64, m, false⟩
  | _ => ⟨fp32, 0, true⟩

/-- Round a value into a path's format, and take a word apart. -/
def PathArith.rnd (p : PathArith) (x : XVal) : Nat := (encodeFloat p.fmt x p.rm p.fast).1
def PathArith.val (p : PathArith) (w : Nat) : XVal := decodeFloat p.fmt w p.fast
/-- One rounded sum, difference and product of words. -/
def PathArith.add (p : PathArith) (a b : Nat) : Nat := p.rnd (XVal.add p.rm (p.val a) (p.val b))
def PathArith.sub (p : PathArith) (a b : Nat) : Nat := p.rnd (XVal.add p.rm (p.val a) (p.val b).neg)
def PathArith.mul (p : PathArith) (a b : Nat) : Nat := p.rnd (XVal.mul (p.val a) (p.val b))
/-- fma with one rounding. -/
def PathArith.fma (p : PathArith) (a b c : Nat) : Nat := p.rnd (XVal.add p.rm (XVal.mul (p.val a) (p.val b)) (p.val c))
/-- A word with its sign changed. -/
def PathArith.negw (p : PathArith) (a : Nat) : Nat := a ^^^ 2 ^ (p.fmt.width - 1)

/-- A complex word pair. -/
abbrev CW := Nat × Nat
def PathArith.cadd (p : PathArith) (a b : CW) : CW := (p.add a.1 b.1, p.add a.2 b.2)
def PathArith.csub (p : PathArith) (a b : CW) : CW := (p.sub a.1 b.1, p.sub a.2 b.2)
/-- The product v × w (R201): fused on FAST, four products and two sums on a strict path. -/
def PathArith.cmul (p : PathArith) (v w : CW) : CW :=
  if p.fast then (p.fma v.1 w.1 (p.negw (p.mul v.2 w.2)), p.fma v.1 w.2 (p.mul v.2 w.1))
  else (p.sub (p.mul v.1 w.1) (p.mul v.2 w.2), p.add (p.mul v.1 w.2) (p.mul v.2 w.1))

/-! The constants of R202, as whole numbers of 2^-256 within 2^-220 of the real values; a word has at most 53 significant
bits, so one rounding of such a number is the rounding of the real value (log entry 25). -/

/-- One, and the square root of a fixed-point number. -/
def fixOne : Int := 2 ^ 256
def fixSqrt (x : Int) : Int := (iroot 2 258 (x.toNat * 2 ^ 256) : Nat)
/-- The product of two complex fixed-point numbers. -/
def fixMul (a b : Int × Int) : Int × Int := ((a.1 * b.1 - a.2 * b.2) / fixOne, (a.1 * b.2 + a.2 * b.1) / fixOne)
/-- exp(πi / 2^k), by halving the angle from -1. -/
def fixRoot : Nat → Int × Int
  | 0 => (-fixOne, 0)
  | k + 1 => let c := (fixRoot k).1; (fixSqrt ((fixOne + c) / 2), fixSqrt ((fixOne - c) / 2))
/-- exp(2πi t / 2N), over the bits of t. -/
def fixZeta (logN t : Nat) : Int × Int :=
  (List.range (logN + 1)).foldl (fun z b => if bit t b then fixMul z (fixRoot (logN - b)) else z) (fixOne, 0)
/-- 2^(f / 65,536) for f below 65,536, over the bits of f: bit b stands for the square root of 2 taken 16 - b times. -/
def fixPow2 (f : Nat) : Int :=
  (List.range 16).foldl (fun z b =>
    if bit f b then z * (List.range (16 - b)).foldl (fun r _ => fixSqrt r) (2 * fixOne) / fixOne else z) fixOne
/-- A fixed-point number times 2^e, rounded once into a path's format. -/
def PathArith.fix (p : PathArith) (x : Int) (e : Nat) : Nat := p.rnd (.fin (decide (x < 0)) x.natAbs ((e : Int) - 256))

/-- pow2(scale) in a path's format (R202): rounded once, in the path's rounding mode; exact for a whole scale. -/
def pow2Word (p : PathArith) (scale : Nat) : Nat := p.fix (fixPow2 (scale % 65536)) (scale / 65536)
/-- zeta[t] in a path's format, each part rounded in the path's rounding mode (log entry 25). -/
def zetaWord (p : PathArith) (logN t : Nat) : CW := let z := fixZeta logN t; (p.fix z.1 0, p.fix z.2 0)

/-- One stage of step 2 on a block of length len. -/
def frontStage (p : PathArith) (logN len : Nat) (z : List CW) : List CW :=
  let h := len / 2
  let g (i : Nat) : CW := z.getD i (0, 0)
  (List.range z.length).map fun i =>
    let j := i % len
    if j < h then p.cadd (g i) (g (i + h))
    else
      let jj := j - h
      let t := (4 * len - 5 ^ jj % (4 * len)) * (2 * 2 ^ logN / (4 * len))
      p.cmul (p.csub (g (i - h)) (g i)) (zetaWord p logN t)

/-- encode_front (R202): the values after the bit reversal and the division by n. -/
def encodeFront (p : PathArith) (logN scale : Nat) (z : List CW) : List CW :=
  let delta := pow2Word p scale
  let z1 := z.map fun x => (p.mul x.1 delta, p.mul x.2 delta)
  let z2 := (List.range (logN - 1)).foldl (fun y k => frontStage p logN (2 ^ (logN - 1 - k)) y) z1
  (List.range (2 ^ (logN - 1))).map fun i =>
    let x := z2.getD (bitRev (logN - 1) i) (0, 0)
    (p.rnd ((p.val x.1).shr (logN - 1)), p.rnd ((p.val x.2).shr (logN - 1)))

/-- to_int of step 3 into an output form (R203): the integer, and whether it saturated or was a NaN. -/
def toCoef (p : PathArith) (b : Nat) (w : Nat) : Int × Bool :=
  let hi : Int := if b = 4 then 2 ^ 31 - 1 else 2 ^ 63 - 1
  match p.val w with
  | .nan _ => (0, true)
  | .inf neg => (if neg then -hi else hi, true)
  | .fin neg m e =>
    let r : Int := roundTo neg m e 0 0
    let v := if neg then -r else r
    if v < -hi then (-hi, true) else if hi < v then (hi, true) else (v, false)

/-! Stored values (R185, R200). -/

/-- Bytes of n elements of a format, without exponents. -/
def planeBytes (fmt n : Nat) : Nat := match fmt with
  | 2 => 8 * n
  | 3 => 4 * n
  | 4 => 2 * n
  | 7 => (n + 1) / 2
  | _ => n
/-- Bytes that the stored values of a request take. -/
def storedBytes (fmt : Nat) (block16 : Bool) (n : Nat) : Nat :=
  if fmt = 5 ∨ fmt = 6 ∨ fmt = 7 then (planeBytes fmt n + 31) / 32 * 32 + ceilDiv n (if block16 then 16 else 32)
  else planeBytes fmt n
/-- Exact value of element i of n in a run of bytes. -/
def storedValue (fmt : Nat) (block16 fast : Bool) (n : Nat) (bs : List Byte) (i : Nat) : XVal :=
  let code := fieldAt bs ((planeBytes fmt n + 31) / 32 * 32 + i / (if block16 then 16 else 32)) 1
  match fmt with
  | 2 => decodeFloat fp64 (fieldAt bs (8 * i) 8) fast
  | 3 => decodeFloat fp32 (fieldAt bs (4 * i) 4) fast
  | 4 => decodeFloat bf16 (fieldAt bs (2 * i) 2) fast
  | 7 => decodeBlockElt 7 (fieldAt bs (i / 2) 1 / 16 ^ (i % 2) % 16) code
  | f => decodeBlockElt f (fieldAt bs i 1) code

/-- Slots of a request: value of each, in the path's format. mask is none where dense. -/
def slotValues (p : PathArith) (r : EncReq) (bs : List Byte) (mask : Option (List Byte)) : List CW :=
  let n := if r.cplx then r.count / 2 else r.count
  let zero : CW := (0, 0)
  let v (j : Nat) : CW :=
    if n ≤ j then zero
    else
      let x (i : Nat) : Nat := p.rnd (storedValue r.srcFormat r.block16 p.fast r.count bs i)
      if r.cplx then (x (2 * j), x (2 * j + 1)) else (x j, 0)
  let slots := 2 ^ (r.logN - 1)
  match mask with
  | none => (List.range slots).map v
  | some m =>
    ((List.range slots).foldl (fun (acc : List CW × Nat) j =>
      if bit (fieldAt m (j / 8) 1) (j % 8) then (acc.1 ++ [v acc.2], acc.2 + 1) else (acc.1 ++ [zero], acc.2)) ([], 0)).1

/-- The coefficients of a request, whether one saturated, and whether what it read is poisoned (R200 to R203, R207). -/
def encodeCoefs (s : State) (r : EncReq) : List Int × Bool × Bool :=
  let p := pathArith r.path r.rm
  let nb := storedBytes r.srcFormat r.block16 r.count
  let bs := memBytes s r.src nb
  let mb := 2 ^ (r.logN - 1) / 8
  let mask := if r.mask = 0 then none else some (memBytes s r.mask mb)
  let tag := anyPoison s r.src nb || (r.mask != 0 && anyPoison s r.mask mb)
  let z := encodeFront p r.logN r.scale (slotValues p r bs mask)
  let b := landBytes r.scale r.wBits
  let cs := (z.map fun x => toCoef p b x.1) ++ z.map fun x => toCoef p b x.2
  (cs.map (·.1), cs.any (·.2), tag)

/-! Queueing (R199, R205, R230). -/

/-- The encode request of entry idx (Table 5.8, R221), with PEN_FN_CTRL applied (R201). -/
def encodeReq (s : State) (j : Job) (x : Sector) (idx : Nat) (e : ImgOp) : EncReq :=
  let b := jobBlob s j
  let o := tensorAt b e.tensor
  let w0 := fieldAt b o 4
  let tiles := (j.model.map fun m => (getModel s j.fn m).tiles).getD x.tiles
  let base := tbBase (tiles.getD (bits (fieldAt b (o + 0xC) 4) 15 0) 0)
  let fld (k : Nat) : Nat := bits (fieldAt b k 4) 21 0
  let dataOff := fld (o + 0x10)
  let grp := bits (fieldAt b (o + 0x14) 4) 31 16
  let src := if bit w0 20 then base + fld 0x24 + grp % 2 * fld 0x28 + dataOff else base + fld 0x1C + dataOff
  let force := regFld s (fnBase j.fn + 0x2100) 1 0
  let forced := force == 1 || force == 2
  { job := j.id, sector := j.sector, opIndex := idx, fn := j.fn
    srcFormat := bits w0 31 28, block16 := bit w0 27, cplx := bit w0 26
    path := if forced then force else bits w0 25 24
    rm := if forced then regFld s (fnBase j.fn + 0x2100) 6 4 else bits w0 23 21
    logN := pLogN (jobObj s j), count := fieldAt b (o + 4) 4, scale := tScale b e.tensor, wBits := tWBits b e.tensor
    landing := tLanding b e.tensor, src := src
    mask := if bit w0 19 then base + fld 0x1C + fld (o + 0x18) else 0
    cores := x.lcores.take ((j.image.map (·.coreCount)).getD x.lcores.length)
    id := s.memSeq, granted := [], started := false, dropped := false }

/-- Queue one request: it asks every core that it lands in for the credit of its whole landing region (R205). -/
def pushEnc (s : State) (fe : Nat) (r : EncReq) : State :=
  (landings r).foldl (fun st p => pushReq st (.credit p.1) true (csBase p.1 + r.landing) p.2 [] (.land fe r.id p.1))
    { s with encQ := tset [] s.encQ fe (tget [] s.encQ fe ++ [r]), memSeq := s.memSeq + 1 }

/-- Queue what a job's issued entries wait to queue, in table order, up to the first that must wait (R205, R230). -/
def queueEncodes : Nat → State → Nat → State
  | 0, s, _ => s
  | k + 1, s, jid =>
    match getJob s jid with
    | none => s
    | some j =>
      match getSector s j.sector, encodeDue j with
      | some x, o :: l =>
        let idx := l.foldl Nat.min o
        if !encRoom s (frontEnd x) || !groupStaged s j idx then s
        else match j.image.bind fun i => i.ops[idx]? with
          | some e =>
            queueEncodes k (modJob (pushEnc s (frontEnd x) (encodeReq s j x idx e)) jid fun y =>
              { y with encQueued := idx :: y.encQueued }) jid
          | none => s
      | _, _ => s

/-- Entries that a job has issued, as many as may be queued at once. -/
def queueJobEncodes (s : State) (jid : Nat) : State :=
  match getJob s jid with
  | some j => advance (queueEncodes (encodeDue j).length s jid) j.sector
  | none => s

/-- Every job with an entry to queue, the lower sector first (R205). -/
def queueAllEncodes (s : State) : State :=
  (s.sectors.filterMap fun p => p.2.bind (·.running)).foldl queueJobEncodes s

/-! Groups of streamed tensors (R229). -/

/-- Has every entry that names group g completed its encode request (R229)? -/
def groupDone (s : State) (j : Job) (g : Nat) : Bool :=
  match j.image with
  | none => false
  | some i => (List.range i.ops.length).all fun n => match i.ops[n]? with
      | some e => !wantsEncode e || tensorGroup (jobBlob s j) e.tensor != some g || j.encoded.contains n || j.skipped.contains n
      | none => true
/-- The stager's chunks of groups that are done are released (R229, R383). -/
def releaseStager (s : State) (j : Job) : State :=
  let rel (c : Chunk) : Bool := !c.released && groupDone s j c.n
  let upd (st : Stream) : Stream :=
    if !isStager st then st
    else { st with
      used := st.used + (st.chunks.filter fun c => rel c && c.touched).length
      evicted := st.evicted + (st.chunks.filter fun c => rel c && !c.touched).length
      chunks := st.chunks.map fun c => if rel c then { c with released := true } else c }
  match getSector s j.sector with
  | some x => x.lcores.foldl (fun st g => if (getStr st g 7).isSome then modCore st g fun c => { c with
      streams := tset none c.streams 7 ((tget none c.streams 7).map upd) } else st) s
  | none => s

/-! Starting and landing (R204, R205). -/

/-- Have all cores that a request lands in granted its credit? A fenced core takes none (R347). -/
def encGranted (s : State) (r : EncReq) : Bool := (landings r).all fun p => r.granted.contains p.1 || coreFenced s p.1

/-- A request's coefficients on their way into the Core Stores, as writes on the receivers' stream ports, whose credit is already
granted (R204, R205, R380). -/
def landEncode (s : State) (fe : Nat) (r : EncReq) (cs : List Int) (tag : Bool) : State :=
  let p := if r.cores.isEmpty then 1 else r.cores.length
  let b := landBytes r.scale r.wBits
  ((List.range r.cores.length).zip r.cores).foldl (fun st (q : Nat × Nat) =>
    if coreFenced st q.2 ∨ landLen r q.1 = 0 then st
    else
      let mine := (List.range (ceilDiv (cs.length - q.1) p)).map fun k => cs.getD (q.1 + k * p) 0
      let bs : List TByte := mine.flatMap fun v => (leBytes b (v % (2 ^ (8 * b) : Int)).toNat).map fun y => ⟨y, tag⟩
      pushReq st (.stream q.2 0) true (csBase q.2 + r.landing) (landLen r q.1) bs (.land fe r.id q.2)) s

/-- A front end reads a request's values and sends its coefficients; a saturated or NaN coefficient is counted (R203, R207). -/
def emitEncode (s : State) (fe : Nat) (r : EncReq) : State :=
  let (cs, sat, tag) := encodeCoefs s r
  let s0 := touchRange s r.src (storedBytes r.srcFormat r.block16 r.count)
  let s1 := landEncode (if r.mask = 0 then s0 else touchRange s0 r.mask (2 ^ (r.logN - 1) / 8)) fe r cs tag
  let s2 := if sat then bump s1 (fnBase r.fn + 0x2110) else s1
  if sat && (r.path == 1 || r.path == 2) then
    regSet s2 (fnBase r.fn + 0x2104) (regGet s2 (fnBase r.fn + 0x2104) ||| 8#32) else s2

/-- ENCODE_REQUEST_START (R199, R205): the oldest queued request whose target cores have all granted credit for it; requests of
one sector start in the order queued. -/
def execEncodeRequestStart (fe : Nat) (s : State) : StepOut :=
  .next <|
    let q := (tget [] s.encQ fe).filter fun r => !r.started
    let first (r : EncReq) : Bool := (q.find? fun x => x.sector == r.sector) == some r
    match (if ioStopped s fe then none else q.find? fun r => first r && encGranted s r) with
    | none => s
    | some r =>
      let s1 := emitEncode s fe r
      queueAllEncodes { s1 with encQ := tset [] s1.encQ fe ((tget [] s1.encQ fe).map fun x => if x = r then { x with started := true } else x) }

/-- ENCODE_REQUEST_DONE (R204, R208, R229, R232): the oldest started request has written its last coefficient. -/
def execEncodeRequestDone (fe : Nat) (s : State) : StepOut :=
  .next <|
    let q := tget [] s.encQ fe
    match q.find? (·.started) with
    | none => s
    | some r =>
      if s.memq.any (ofEncode r.id) then s
      else
        let s1 : State := { s with encQ := tset [] s.encQ fe (q.erase r) }
        if r.dropped then s1
        else
          let s2 := modJob (bump s1 (fnBase r.fn + 0x210C)) r.job fun j => { j with
            encoded := r.opIndex :: j.encoded, stats := { j.stats with steadyEnd := some s1.ftime.toNat } }
          match getJob s2 r.job with
          | some j => releaseStager s2 j
          | none => s2

end Sys2Proof.Machine
end

