-- ==== Sys2Proof/Machine/SecBase.lean ====
section
/-! DEFINITION. The Public-Key Engine's queue and the hash lanes (R547 to R556). -/

namespace Sys2Proof.Machine

/-- Nominal cycles of a row of Table 16.1, from 1, and a column. -/
def pkeCycles (op col : Nat) : Nat :=
  match op with
  | 1 => [360000, 760000, 1600000].getD col 1600000
  | 2 => 1140000
  | 3 => 300000
  | 4 => 360000
  | 5 => [12000, 24000, 50000].getD col 50000
  | 6 => 90000
  | 7 => [80000, 120000, 170000].getD col 170000
  | 8 => 1450000
  | 9 => 400000
  | _ => 30000000

/-- Jobs of the engine that wait without an execution context, and those that hold one. -/
def pkeQueued (s : State) : List PkeJob := s.pke.jobs.filter fun j => !j.context
def pkeContexts (s : State) : List PkeJob := s.pke.jobs.filter fun j => j.context
/-- PKE_STATUS follows the engine. -/
def pkeRegs (s : State) : State :=
  regSetFld (regSetFld (regSetFld s 0x90000 22 16 (pkeQueued s).length) 0x90000 11 8 (pkeContexts s).length) 0x90000 0 0
    (if s.pke.current.isSome then 1 else 0)
/-- SEC_STATUS.drbg_fault (R554). -/
def drbgFault (s : State) : Bool := bit (regGet s 0xA0000).toNat 3

/-- The job that the engine would take: of the queued ones, if a context is free, and the suspended ones, the one with
the fewest remaining cycles, the oldest among equals (R549). -/
def pkePick (s : State) : Option PkeJob :=
  let room := decide ((pkeContexts s).length < 8)
  (s.pke.jobs.filter fun j => (j.context || room) && s.pke.current != some j.id).foldl (fun acc j =>
    match acc with
    | some b => if j.remaining < b.remaining then some j else some b
    | none => some j) none
/-- The engine executes job j. -/
def pkeRun (s : State) (j : PkeJob) : State :=
  { s with pke := { s.pke with
    current := some j.id
    jobs := s.pke.jobs.map fun x => if x.id = j.id then { x with context := true } else x } }
/-- Take waiting requesters into the queue of 64 (R549). -/
def pkeAdmit (s : State) : State :=
  let room := 64 - (pkeQueued s).length
  { s with pke := { s.pke with jobs := s.pke.jobs ++ s.pke.overflow.take room, overflow := s.pke.overflow.drop room } }
/-- Take waiting requesters in, then work on something if the engine is free. -/
def pkeNext (s : State) : State :=
  let s1 := pkeAdmit s
  pkeRegs (match s1.pke.current with
    | some _ => s1
    | none => match pkePick s1 with
      | some j => pkeAdmit (pkeRun s1 j)
      | none => s1)

/-- A piece of security work of an owner has ended with a status (0 for good). -/
def secDone (s : State) (owner : SecOwner) (status : Nat) : State :=
  match owner with
  | .desc f r i => modDesc s f r i fun d => match d.phase with
      | .security n b => { d with phase := .security (n - 1) (if b = 0 then status else b) }
      | _ => d
  | .jobInput j => modJob s j fun x =>
      { x with secWait := x.secWait - 1, inHash := if x.secWait ≤ 1 then 2 else x.inHash }
  | .jobOutput j => modJob s j fun x =>
      { x with
        secWait := x.secWait - 1
        endAs := if status = 0 ∨ x.endAs.isSome then x.endAs else some status
        stats := if status = 0 then x.stats else statFail x.stats status }
  | .model _ _ => s
  | .curve =>
    if status = 0 then s
    else regSetFld (regSetFld { s with pke := { s.pke with checking := none } } 0x9000C 16 16 0) 0x9000C 15 0 status
  | .nobody => s

/-- Give the engine a job (R547, R549); it accepts none after a failed health test. A signature draws from the DRBG, which
reseeds every 2^20 requests (R553, R554). -/
def pkeSubmit (s : State) (owner : SecOwner) (op col : Nat) (curve : Option Nat) : State :=
  if drbgFault s then secDone s owner stInternal else
  let j : PkeJob := ⟨s.pke.nextId, owner, op, col, pkeCycles op col, false, curve⟩
  pkeNext { s with pke := { s.pke with
    nextId := s.pke.nextId + 1
    overflow := s.pke.overflow ++ [j]
    drbg := if op = 2 ∨ op = 8 then (s.pke.drbg + 1) % 2 ^ 20 else s.pke.drbg } }

/-- A requester is cancelled or reset (R550): its queued jobs leave; others run to their next yield point. -/
def pkeCancel (s : State) (owner : SecOwner) : State :=
  pkeNext { s with pke := { s.pke with
    overflow := s.pke.overflow.filter fun j => j.owner != owner
    jobs := (s.pke.jobs.filter fun j => j.context || j.owner != owner).map fun j =>
      if j.owner = owner then { j with owner := .nobody } else j
    hashQ := s.pke.hashQ.filter fun h => h.owner != owner
    lanes := s.pke.lanes.map fun l => (l.1, l.2.map fun h => if h.owner = owner then { h with owner := .nobody } else h) } }

/-- Put waiting digests on free lanes, the lowest number first, IOD0's lanes first (R556). -/
def hashAssign : Nat → State → State
  | 0, s => s
  | k + 1, s =>
    match s.pke.hashQ, (List.range 16).find? fun l => (tget none s.pke.lanes l).isNone with
    | h :: q, some l => hashAssign k { s with pke := { s.pke with lanes := tset none s.pke.lanes l (some h), hashQ := q } }
    | _, _ => s
/-- Ask for digests of objects of these sizes, in order. -/
def hashSubmit (s : State) (owner : SecOwner) (sizes : List Nat) : State :=
  hashAssign 16 { s with pke := { s.pke with hashQ := s.pke.hashQ ++ sizes.map fun n => ⟨owner, n⟩ } }

/-- Function on whose behalf work is done, for a Daymark record. -/
def secFn (s : State) : SecOwner → Nat
  | .desc f _ _ => f
  | .jobInput j => ((getJob s j).map (·.fn)).getD 0xFF
  | .jobOutput j => ((getJob s j).map (·.fn)).getD 0xFF
  | .model f _ => f
  | _ => 0xFF

end Sys2Proof.Machine
end

