-- ==== Sys2Proof/Machine/Sectors.lean ====
section
/-! DEFINITION. Sectors: the choice of tiles, forming and releasing, zeroing, and shared tile sets (R44 to R48, R239,
R343, R418 to R420). -/

namespace Sys2Proof.Machine

/-- Grid row of a compute die (R27) and its distance to an I/O die, or to the nearer one (R48). -/
def dieRow (d : Nat) : Nat := d / 4
def dieDistance (placement d : Nat) : Nat :=
  match placement with
  | 1 => dieRow d + 1
  | 2 => 3 - dieRow d
  | _ => Nat.min (dieRow d + 1) (3 - dieRow d)

/-- KSE_FN_CTRL.placement of a function; the reserved value acts as SPLIT. -/
def placementOf (s : State) (f : Nat) : Nat :=
  let p := regFld s (fnBase f + 0x2300) 1 0
  if p = 3 then 0 else p

/-- Tiles of every sector, holders or not. -/
def sectorTiles (s : State) : List Nat :=
  s.sectors.flatMap fun p => match p.2 with
    | some x => x.tiles
    | none => []
/-- Is a tile free: not fenced and in no sector (R48)? A tile that is being zeroed is free (R343). -/
def tileFree (s : State) (t : Nat) : Bool := !tileFenced s t && !(sectorTiles s).contains t
def freeTiles (s : State) : List Nat :=
  let used := sectorTiles s
  (List.range nTiles).filter fun t => !tileFenced s t && !used.contains t
/-- Enabled cores of a tile. -/
def tileCores (s : State) (t : Nat) : List Nat := (coresOf t).filter fun g => !coreFenced s g
/-- Logical cores of a set of tiles: its enabled cores in ascending order (R45). -/
def logicalCores (s : State) (tiles : List Nat) : List Nat := tiles.flatMap (tileCores s)

/-- Sublists of length k in lexicographic order. -/
def combos : Nat → List Nat → List (List Nat)
  | 0, _ => [[]]
  | _ + 1, [] => []
  | k + 1, a :: l => (combos k l).map (a :: ·) ++ combos (k + 1) l

/-- Insert a tile in the order of R48, item 3: more enabled cores first, then the lower number. -/
def insTile (s : State) (t : Nat) : List Nat → List Nat
  | [] => [t]
  | u :: l => if (tileCores s u).length < (tileCores s t).length then t :: u :: l else u :: insTile s t l

/-- Take tiles in order until the need is met: a number of tiles, or of logical cores. -/
def takeNeed (s : State) (byCores : Bool) : Nat → List Nat → List Nat
  | _, [] => []
  | n, t :: l =>
    if n = 0 then []
    else t :: takeNeed s byCores (n - (if byCores then (tileCores s t).length else 1)) l
/-- What tiles give towards a need. -/
def needOf (s : State) (byCores : Bool) (ts : List Nat) : Nat :=
  if byCores then (logicalCores s ts).length else ts.length

/-- The best of the die sets of one size that meet the need: least sum of distances, then first in order. -/
def bestDies (dist : Nat → Nat) : List (List Nat) → Option (List Nat)
  | [] => none
  | c :: l => match bestDies dist l with
    | some b => if ((b.map dist).sum) < ((c.map dist).sum) then some b else some c
    | none => some c

/-- Choose free tiles (R48): none where the need cannot be met, or only by more than the 400 tiles that a sector may have (R44,
R45). The tiles come in ascending order. -/
def chooseTiles (s : State) (placement : Nat) (byCores : Bool) (n : Nat) : Option (List Nat) :=
  let free := freeTiles s
  let onDie (d : Nat) : List Nat := free.filter fun t => dieOfTile t == d
  let dist := dieDistance placement
  let meets (ds : List Nat) : Bool := decide (n ≤ (ds.map fun d => needOf s byCores (onDie d)).sum)
  let set := (List.range 12).findSome? fun k => bestDies dist ((combos (k + 1) (List.range nDies)).filter meets)
  set.bind fun ds =>
    let order := (List.range 5).flatMap fun r => ds.filter fun d => dist d == r
    let tiles := order.flatMap fun d => (onDie d).foldl (fun l t => insTile s t l) []
    let got := takeNeed s byCores n tiles
    if 400 < got.length then none else some ((List.range nTiles).filter got.contains)

/-- Check a named list (R48, R404): 0, PARAM_MISMATCH for a malformed list, OUT_OF_MEMORY for a tile that is not free. -/
def namedTiles (s : State) (l : List Nat) : Nat :=
  if l.isEmpty ∨ 400 < l.length ∨ l.eraseDups.length ≠ l.length ∨ l.any (fun t => decide (407 < t)) then stParam
  else if l.all (tileFree s) then 0 else stMemory

/-- Sectors of a function, in ascending order, and the sectors of the device. -/
def sectorsOf (s : State) (f : Nat) : List (Nat × Sector) :=
  s.sectors.filterMap fun p => match p.2 with
    | some x => if x.owner = f then some (p.1, x) else none
    | none => none
def sectorCount (s : State) : Nat := (s.sectors.filter fun p => p.2.isSome).length
/-- May function f have another sector (R44, R50)? -/
def sectorRoom (s : State) (f : Nat) : Bool := decide ((sectorsOf s f).length < 8) && decide (sectorCount s < 64)
/-- The number that the next sector takes: the lowest that is free. -/
def nextSector (s : State) : Nat := ((List.range 64).find? fun n => (getSector s n).isNone).getD 64

/-- A sector of given tiles, before its first job. -/
def freshSector (s : State) (f : Nat) (tiles : List Nat) (model : Option Nat) (transient : Bool) : Sector where
  owner := f
  tiles := tiles
  lcores := logicalCores s tiles
  lambda := Nat.min (Config.lambdaOf tiles) 180
  model := model
  transient := transient
  releasing := none
  queue := []
  running := none
  image := none
  scalar := []
  chans := []
  chanSt := []
  shared := []
  holder := true
  heldSince := s.ftime.toNat
  passDue := false
  saved := none
  savedCores := []
  savedBytes := []
  savedPoison := []
  swapDue := false
  idleSince := some s.ftime.toNat
  reform := false

/-- Bind a sector's cores to it (R45), with their receive credit whole (R345). -/
def bindCores (s : State) (n : Nat) (x : Sector) : State :=
  ((List.range x.lcores.length).zip x.lcores).foldl (fun st p =>
    modCore st p.2 fun c => { c with sector := some n, lcore := p.1, credits := 1024 }) s
/-- Unbind the cores of some tiles. -/
def unbindCores (s : State) (tiles : List Nat) : State :=
  (tiles.flatMap coresOf).foldl (fun st g =>
    if (getCore st g).sector.isSome then modCore st g fun c => { c with sector := none, lcore := 0 } else st) s

/-- Form a sector of tiles that are free (R44, R46): its number and the state. -/
def formSector (s : State) (f : Nat) (tiles : List Nat) (model : Option Nat) (transient : Bool) : Nat × State :=
  let n := nextSector s
  let x := freshSector s f tiles model transient
  let s1 := resetSectorPwr (setSector s n (some x)) n
  (n, updateSector (bindCores s1 n x) n)

/-- The sector over whose tiles a shadow sector may be formed (R418): the lowest-numbered of another function that lends,
holds the tiles needed, and is shared by fewer than four. -/
def lendable (s : State) (f : Nat) (byCores : Bool) (n : Nat) : Option (Nat × Sector) :=
  s.sectors.findSome? fun p => match p.2 with
    | some x =>
      if x.owner != f && bit (regGet s (fnBase x.owner + 0x20)).toNat 31 && decide (n ≤ needOf s byCores x.tiles) &&
          decide ((if x.shared.isEmpty then 1 else x.shared.length) < 4) then some (p.1, x) else none
    | none => none

/-- Form a shadow sector (R418), if the function borrows and some sector lends: it takes the first tiles needed and is not
the holder. -/
def formShadow (s : State) (f : Nat) (byCores : Bool) (need : Nat) (model : Option Nat) (transient : Bool) :
    Option (Nat × State) :=
  if !bit (regGet s (fnBase f + 0x20)).toNat 30 then none
  else match lendable s f byCores need with
    | none => none
    | some (m, y) =>
      let n := nextSector s
      let set := (if y.shared.isEmpty then [m] else y.shared) ++ [n]
      let x : Sector := { freshSector s f (takeNeed s byCores need y.tiles) model transient with
        shared := set, holder := false, swapDue := model.isSome }
      let s1 := resetSectorPwr (setSector s n (some x)) n
      some (n, set.foldl (fun st k => modSector st k fun z => { z with shared := set }) s1)

/-- Begin the zeroing of tiles (R239): no agent reaches them until it ends (R343). -/
def zeroTiles (s : State) (ts : List Nat) : State :=
  { s with zeroing := s.zeroing ++ (ts.filter fun t => !s.zeroing.contains t) }

/-- Zeros in every byte of a tile's Tile Bank and of its cores' Core Stores, with no poison left (R239, R343). -/
def clearTile (s : State) (t : Nat) : State :=
  let inTile (a : Nat) : Bool :=
    (decide (tbBase t ≤ a) && decide (a < tbBase (t + 1))) || (decide (csBase (64 * t) ≤ a) && decide (a < csBase (64 * (t + 1))))
  { s with
    mem := s.mem.filter fun p => !inTile p.1
    sramPoison := s.sramPoison.filter fun p => !inTile p.1 }

/-- Give the tiles of a shared set to its next sector (R419, R420): zeroed, then to be swapped in. -/
def passTiles (s : State) (n next : Nat) : State :=
  match getSector s n, getSector s next with
  | some x, some y =>
    let s1 := zeroTiles (unbindCores s x.tiles) (x.tiles ++ y.tiles.filter fun t => !x.tiles.contains t)
    let s2 := setSector s1 n (some { x with holder := false, passDue := false, image := none, idleSince := none })
    let y1 := { y with holder := true, heldSince := s.ftime.toNat, passDue := false, swapDue := y.model.isSome || y.saved.isSome }
    updateSector (bindCores (setSector s2 next (some y1)) next y1) next
  | _, _ => s

/-- The sector that has a job waiting and comes next after n in ascending number, wrapping (R419). -/
def nextHolder (s : State) (n : Nat) (set : List Nat) : Option Nat :=
  let waiting (k : Nat) : Bool := match getSector s k with
    | some x => !x.queue.isEmpty || x.saved.isSome || x.running.isSome
    | none => false
  let order := (List.range 64).map fun i => (n + 1 + i) % 64
  order.find? fun k => k != n && set.contains k && waiting k

/-- The holder of a set passes the tiles at once when it has no job running (R419). -/
def passIfIdle (s : State) (n : Nat) : State :=
  match getSector s n with
  | some x =>
    if x.holder && !x.shared.isEmpty && x.running.isNone then
      (match nextHolder s n x.shared with
        | some k => passTiles s n k
        | none => s)
    else s
  | none => s

/-- Every shared set whose holder is idle passes on. -/
def passIdleSet (s : State) (set : List Nat) : State := set.foldl passIfIdle s

/-- Remove a sector. Its tiles are zeroed (R239, R404), or stay with the other sectors of its set (R417): the next of them
that has a job waiting, or the next in number, holds the tiles. -/
def releaseSector (s : State) (n : Nat) : State :=
  match getSector s n with
  | none => s
  | some x =>
    let rest := x.shared.filter (· != n)
    let s0 := setWaiting s (s.sched.waiting.filter fun w => w.sector != n)
    let s1 := if x.holder then unbindCores s0 x.tiles else s0
    let s2 := setSector s1 n none
    let s3 := rest.foldl (fun st k => modSector st k fun z => { z with shared := if rest.length ≤ 1 then [] else rest }) s2
    let s4 := if x.holder then zeroTiles s3 x.tiles else s3
    let s5 := match x.saved with
      | some e => { s4 with gddrUsed := s4.gddrUsed.erase e }
      | none => s4
    let order := ((List.range 64).map fun i => (n + 1 + i) % 64).find? rest.contains
    let s6 := if x.holder then
        (match (nextHolder s5 n rest).orElse fun _ => order with
          | some k => match getSector s5 k with
            | some y =>
              let y1 := { y with holder := true, heldSince := s.ftime.toNat, swapDue := y.model.isSome || y.saved.isSome }
              bindCores (setSector s5 k (some y1)) k y1
            | none => s5
          | none => s5)
      else s5
    x.tiles.foldl updateTile s6

/-- Is the tile or any of a sector's tiles being zeroed? -/
def sectorZeroing (s : State) (x : Sector) : Bool := x.tiles.any fun t => s.zeroing.contains t

/-- An I/O die nearer to a sector (R279): the lesser sum of its tiles' dies' distances; a tie goes to IOD0. -/
def nearerDie (x : Sector) : Nat :=
  let sum (p : Nat) : Nat := (x.tiles.map fun t => dieDistance p (dieOfTile t)).sum
  if sum 2 < sum 1 then 1 else 0

end Sys2Proof.Machine
end

