-- ==== Sys2Proof/Machine/JobEnd.lean ====
section
/-! DEFINITION. Stages 8 and 9 of a job (R57, R59, R79, R100, R194, R228, R409, R570, R571): outputs, statistics, receipts,
completion, and what becomes of the sector. -/

namespace Sys2Proof.Machine

/-- The status that a job's completion carries (R24): INTERNAL_FAULT, also of one operation, before every other failure. -/
def jobStatus (j : Job) : Nat :=
  match j.endAs with
  | some st => st
  | none =>
    if j.fails.any fun p => p.1 == stInternal then stInternal
    else match j.fails with
      | (st, _) :: _ => st
      | [] => if j.poisoned then stDonePoisoned else stDone

/-- A count as the record holds it. -/
def sat32 (n : Nat) : Nat := Nat.min n 0xFFFFFFFF

/-- A fault record (Table 4.25). -/
def faultBytes (r : FaultRec) : List Byte :=
  let w := leBytes 4
  w (r.mask * 2 ^ 16 + r.first * 2 ^ 8 + r.ctx) ++ w r.lcore ++ w r.gcore ++ w (r.stride * 2 ^ 16 + r.index) ++ leBytes 8 r.addr ++
    leBytes 8 r.ftime

/-- The job statistics record (Table 12.9) at fabric time now. -/
def statsBytes (j : Job) (status now : Nat) : List Byte :=
  let t := j.stats
  let w (n : Nat) : List Byte := leBytes 4 (sat32 n)
  let firstOp := ((j.fails.map (·.2)).find? (· != 0xFFFF)).getD 0xFFFF
  let fillE := t.fillEnd.getD now
  let steadyE := if encodesDone j then Nat.max fillE (t.steadyEnd.getD fillE) else now
  let phases : List Nat :=
    if j.model.isSome ∧ t.loadEnd ≠ 0 then
      [fillE - t.loadEnd + t.swapSteady + t.swapDrain, steadyE - fillE - t.swapSteady, now - steadyE - t.swapDrain]
    else [0, 0, 0]
  let floorOver := match j.floor with
    | some f => now - f
    | none => 0
  let body :=
    leBytes 4 (status * 2 ^ 16 + firstOp) ++ w 0 ++ leBytes 8 t.fetch ++ leBytes 8 t.firstAdmit ++ leBytes 8 now ++
    phases.flatMap w ++ w t.creditWait ++ w t.strides ++ w t.suspensions ++
    [t.fLevel, t.fNoise, t.fParam, t.fKeyMissing, t.fKeyPoisoned, t.fOther].flatMap w ++ w t.poisonedOut ++
    w t.refreshes ++ w t.refreshTicks ++ w floorOver ++ w t.flags.toNat ++ w t.passes ++ w t.served ++ w t.abandoned ++
    ((List.range 6).map fun i => t.streams.getD i 0).flatMap w ++ w t.faults ++ w t.heldTicks ++
    List.replicate 16 0 ++ (match j.fault with
      | some r => faultBytes r
      | none => List.replicate 32 0) ++ List.replicate 60 0
  body ++ leBytes 4 (crc32c body)

/-- Headers of the outputs that R100 writes invalid: bindings that the job writes and has not written. -/
def voidOutputs (s : State) (jid : Nat) : State :=
  match getJob s jid with
  | none => s
  | some j =>
    let st := if j.fails.isEmpty then 0 else jobStatus { j with endAs := none }
    let idx (v : Nat) : Nat := match j.image with
      | some i => ((i.ops.find? fun e => e.dst == v).map (·.srcA)).getD 0xFFFF
      | none => 0xFFFF
    let first (v : Nat) : Operand := if idx v = 0xFFFF then Operand.absent else operand s j (idx v)
    ((List.range j.bindings.length).filter fun v =>
        (match jobBind j v with
          | some b => b.output && b.kind == 1
          | none => false) && !j.written.contains v).foldl
      (fun m v => putHdr m jid v (badHdr s j v (first v) st)) s

/-- The outputs of a job as a range-pair front mirrors them (R460, R461): what it wrote of each output binding. -/
def jobOutputs (s : State) (j : Job) : List OutBind :=
  j.bindings.filterMap fun b =>
    if !b.output then none
    else if b.kind = 1 then
      (let h := memBytes s b.addr 64
       some ⟨b.handle, b.offset, true, memBytes s b.addr (64 + ow h 0x10)⟩)
    else some ⟨b.handle, b.offset, false, memBytes s b.addr b.length⟩

/-! The sector after a job. -/

/-- An encode request's job ends (R208): its landings are discarded and the credit that it holds comes back. -/
def dropLandings (s : State) (r : EncReq) : State :=
  let held (g n : Nat) : Nat :=
    if r.started then ((s.memq.filter fun q => ofEncode r.id q && q.origin == .land 0 r.id g || q.origin == .land 1 r.id g).map
      (·.linesLeft.length)).sum
    else if r.granted.contains g then lines32 (csBase g + r.landing) n else 0
  let s1 := (landings r).foldl (fun st p => modCore st p.1 fun c => { c with credits := c.credits + held p.1 p.2 }) s
  { s1 with memq := s1.memq.filter fun q => !ofEncode r.id q }

/-- Requests, passes, waiting strides, streams and contexts of a sector's job end (R299, R378, R386, R208). -/
def quiet (s : State) (n jid : Nat) : State :=
  match getSector s n with
  | none => s
  | some x =>
    let s1 := x.lcores.foldl (fun st g => modCore (cancelStreams st g) g fun c =>
      (List.range 4).foldl (fun c k => if (getCtx c k).run = .halted then c else
        modCtx c k fun y => { y with run := .halted, miss := none, creditWait := none, waitSince := none }) c) s
    let encs := (s1.encQ.flatMap (·.2)).filter fun r => r.job == jid && !r.dropped
    let s2 := setWaiting (encs.foldl dropLandings s1) (s1.sched.waiting.filter fun w => w.sector != n)
    let slices (r : MemReq) : Bool := match r.origin with
      | .keySlice p _ _ => s2.passes.any fun q => q.id == p && q.job == jid
      | _ => false
    { s2 with
      memq := s2.memq.filter fun r => !slices r
      passes := s2.passes.filterMap fun p => if p.job ≠ jid then some p else if p.active then some { p with dropped := true } else none
      encQ := s2.encQ.map fun q => (q.1, q.2.filterMap fun r =>
        if r.job ≠ jid then some r else if r.started then some { r with dropped := true } else none) }

/-- SECTOR_RELEASE waits for the sector's jobs (R404): ring and index of its descriptor. -/
def releaseDue (s : State) (n : Nat) : State :=
  match getSector s n with
  | none => s
  | some x =>
    if x.running.isSome || !x.queue.isEmpty then s
    else match x.releasing with
      | some d => completeDesc (releaseSector s n) x.owner (d / 65536) (d % 65536) 0
      | none => if x.transient then releaseSector s n else passIfIdle (updateSector s n) n

/-- A job leaves its sector: the sector is idle, or its next job comes. -/
def leaveSector (s : State) (n jid : Nat) : State :=
  match getSector s n with
  | none => s
  | some x =>
    if x.running = some jid then
      let s1 := quiet s n jid
      let upd (y : Sector) : Sector := { y with
        running := none
        queue := y.queue.filter (· != jid)
        image := none
        scalar := []
        chans := []
        chanSt := []
        passDue := false
        idleSince := if (y.queue.filter (· != jid)).isEmpty then some s.ftime.toNat else none }
      let s2 := match x.saved with
        | some e => dropGddr s1 e
        | none => s1
      let s3 := modSector s2 n fun y => { upd y with saved := none, savedCores := [], savedBytes := [], savedPoison := [] }
      releaseDue (memRegs s3 x.owner) n
    else
      releaseDue (modSector s n fun y => { y with
        queue := y.queue.filter (· != jid)
        idleSince := if (y.queue.filter (· != jid)).isEmpty && y.running.isNone then some s.ftime.toNat else y.idleSince }) n

/-- Pool slots that a job has claimed become free; its messages end, and no further flit of them is sent (R449, R454). -/
def dropMessages (s : State) (jid : Nat) : State :=
  let s1 := (s.fab.sends.filter fun m => m.job == jid).foldl (fun st m => recallMessage st m.msgId) s
  { s1 with fab := { s1.fab with
    pools := s1.fab.pools.filter fun p => p.2 != .claimed jid
    sends := s1.fab.sends.filter fun m => m.job != jid
    recvs := s1.fab.recvs.filter fun r => r.job != jid } }

/-- The flags of every context of the cores that the job's program ran on join the statistics and PEN_FN_FLAGS (R194). -/
def gatherFlags (s : State) (jid : Nat) : State :=
  match getJob s jid with
  | none => s
  | some j =>
    match getSector s j.sector with
    | some x =>
      if x.running ≠ some jid then s
      else
        let ran := x.lcores.take ((j.image.map (·.coreCount)).getD 0)
        let fl := ran.foldl (fun (a : BitVec 4) g => (List.range 4).foldl (fun a k => a ||| (getCtx (getCore s g) k).flags) a) j.stats.flags
        let s1 := modJob s jid fun y => { y with stats := { y.stats with flags := fl } }
        let o := fnBase j.fn + 0x2104
        if fl = 0 then s1 else regSet s1 o (regGet s1 o ||| fl.setWidth 32)
    | none => s

/-- What runs for a job that has its sector stops (R299, R378, R386). -/
def quietJob (s : State) (jid : Nat) : State :=
  match getJob s jid with
  | none => s
  | some j => if ((getSector s j.sector).bind (·.running)) = some jid then quiet s j.sector jid else s

/-- Stage 9: statistics, with the counts of the streams that end with the job; release of what the job held; completion (R57,
R75, R385, R409, R410). A silent end writes nothing to host memory (R416). -/
def endJob (s : State) (jid : Nat) (silent : Bool) : State :=
  let s0 := gatherFlags (quietJob s jid) jid
  match getJob s0 jid with
  | none => s
  | some j =>
    let st := jobStatus j
    let now := s0.ftime.toNat
    let s1 := if j.statsBuf = 0 then s0 else writeT (engineAccess s0 j.statsAt.base 256) j.statsAt.base (plain (statsBytes j st now))
    let s2 := match j.floor with
      | some f => if f < now then bump s1 (fnBase j.fn + 0x2208) else s1
      | none => s1
    let outs := if st = stCancelled ∨ st = stReset then [] else jobOutputs s2 j
    let s3 := setJob (dropMessages s2 jid) jid none
    let s4 := reclaim s3 jid
    let s5 := if silent then dropDesc s4 j.fn j.ring j.index
      else completeWith s4 j.fn j.ring j.index st (if j.kind = .raw ∨ 64 ≤ j.sector then 0 else j.sector) 0 outs []
    leaveSector s5 j.sector jid

/-- A job that is over completes, though no earlier than its dense floor (R228), whatever its status but FUNCTION_RESET and
CANCELLED. -/
def finishJob (s : State) (jid : Nat) (silent : Bool) : State :=
  match getJob s jid with
  | none => s
  | some j =>
    let waits : Option Nat := match j.floor with
      | some f => if s.ftime.toNat < f ∧ jobStatus j ≠ stCancelled ∧ jobStatus j ≠ stReset then some f else none
      | none => none
    match waits with
    | some f => modJob (quietJob s jid) jid fun x => { x with phase := .dense f, active := [] }
    | none => endJob s jid silent

/-- A job stops where it stands with CANCELLED, FUNCTION_RESET or INTERNAL_FAULT (R59). -/
def stopJob (s : State) (jid status : Nat) (silent : Bool) : State :=
  let s1 := modJob (pkeCancel (pkeCancel s (.jobInput jid)) (.jobOutput jid)) jid fun j => { j with
    endAs := some (if j.endAs = some stReset ∨ (j.endAs = some stCancelled ∧ status ≠ stReset) then j.endAs.getD status else status)
    stats := statFail j.stats status }
  finishJob s1 jid silent

/-! Receipts (R570, R571). -/

/-- SEC_FNf_CTRL.receipts. -/
def receiptsOf (s : State) (f : Nat) : Nat := regFld s (0xA0100 + 4 * f) 1 0

/-- Items of a job to digest: binding number and bytes, of inputs or of outputs. -/
def digestItems (s : State) (j : Job) (out : Bool) : List (Nat × List Byte) :=
  (List.range j.bindings.length).filterMap fun n =>
    match jobBind j n with
    | some b =>
      if b.output ≠ out then none
      else if b.kind = 1 then
        (let h := memBytes s b.addr 64
         some (n, if hdrFormOk h then memBytes s b.addr (64 + ow h 0x10) else h))
      else if b.kind = 2 then some (n, memBytes s b.addr b.length)
      else none
    | none => none

/-- 51-byte item of R571. -/
def digestItem (n : Nat) (out : Bool) (bs : List Byte) : List Byte :=
  leBytes 2 n ++ [if out then 2 else 1] ++ digestBytes (sha384 bs)

/-- Writes that wait for device memory are done before the objects of a job are digested (R331, log entry 66). -/
def settleItems (s : State) (j : Job) : State := j.bindings.foldl (fun st b => serveAt st b.addr) s

/-- Begin the input digests of a job (R571): every input and the image. -/
def startInputs (s0 : State) (jid : Nat) : State :=
  match getJob s0 jid with
  | none => s0
  | some j =>
    let s := serveAt (settleItems s0 j) j.imageAt.base
    let items := digestItems s j false
    let size := fieldAt (memBytes s j.imageAt.base 12) 8 4
    let img := if j.kind = .circuit then [Nat.min size j.imageAt.len] else []
    let sizes := img ++ items.map fun p => p.2.length
    let s1 := modJob s jid fun x => { x with
      inHash := if sizes.isEmpty then 2 else 1
      secWait := sizes.length
      imageHash := if j.kind = .circuit then digestBytes (sha384 (memBytes s j.imageAt.base (Nat.min size j.imageAt.len))) else []
      digests := items.map fun p => digestItem p.1 false p.2 }
    hashSubmit s1 (.jobInput jid) sizes

/-- Begin the output digests of a job (R571). -/
def startOutputs (s0 : State) (jid : Nat) : State :=
  match getJob s0 jid with
  | none => s0
  | some j =>
    let s := settleItems s0 j
    let items := digestItems s j true
    let s1 := modJob s jid fun x => { x with
      receipt := 1
      secWait := items.length
      digests := x.digests ++ items.map fun p => digestItem p.1 true p.2 }
    hashSubmit s1 (.jobOutput jid) (items.map fun p => p.2.length)

/-- Begin the signatures of a receipt, its body being complete: with ID-S, ID-Q or both. -/
def startSigning (s : State) (jid : Nat) : State :=
  match getJob s jid with
  | none => s
  | some j =>
    let r := receiptsOf s j.fn
    let ops := (if bit r 0 then [2] else []) ++ (if bit r 1 then [8] else [])
    let s1 := modJob s jid fun x => { x with receipt := 2, secWait := ops.length, sealed := s.ftime.toNat }
    ops.foldl (fun st o => pkeSubmit st (.jobOutput jid) o 1 none) s1

/-- SHA-384 as 48 bytes; zeros for nothing. -/
def digestOr (o : Option (List Byte)) : List Byte := match o with
  | some b => digestBytes (sha384 b)
  | none => List.replicate 48 0

/-- The serial number, 8 bytes (R558). -/
def serialBytes (s : State) : List Byte := leBytes 8 (regPair s 0xA0004)

/-- What a key set's digest covers (R571): header, directory and signature block. -/
def keyDigested (o : List Byte) : List Byte := o.take (keyDirBytes o) ++ (if kSigned o then o.drop (kSigOff o) else [])

/-- The signed body of a receipt (Table 16.9). -/
def receiptBody (s : State) (j : Job) : List Byte :=
  let w := leBytes 4
  let conf := match j.model with
    | some m => (getModel s j.fn m).confidential
    | none => false
  let dense := j.denseTicks != 0
  let f (b : Bool) (v : Nat) : Nat := if b then v else 0
  let d := findDesc s j.fn j.ring j.index
  let body := w 0x59524331 ++
    w (2 ^ 16 + j.fn * 2 ^ 8 + f dense 4 + f conf 2 + f (getParam s j.fn j.param).belowFloor 1) ++ serialBytes s ++
    w (jobStatus j * 2 ^ 16 + j.index) ++ w ((d.map fun x => dTag x.bytes).getD 0) ++
    w (((d.map fun x => dType x.bytes).getD 0) * 2 ^ 8 + j.ring) ++ w j.bindings.length ++
    leBytes 8 j.stats.fetch ++ leBytes 8 j.sealed ++ Config.firmwareDigest.take 48 ++
    (j.imageHash ++ List.replicate 48 0).take 48 ++
    ((j.model.map fun m => (getModel s j.fn m).hash).getD (List.replicate 48 0)) ++ digestOr (some (jobObj s j)) ++
    digestOr (j.key.map fun k => keyDigested (getKeys s j.fn k).obj) ++
    digestOr (j.table.map fun t => let o := (getTabs s j.fn t).obj; o.take (0x40 + 32 * tCount o)) ++
    digestOr (some j.digests.flatten)
  (body ++ List.replicate 512 0).take 512

/-- Write the receipt (R570): the body and the signatures asked for, whose values the spec does not give. -/
def writeReceipt (s : State) (jid : Nat) : State :=
  match getJob s jid with
  | none => s
  | some j =>
    let r := receiptsOf s j.fn
    let a := j.statsAt.base + 256
    let sig (s : State) (on : Bool) (o n : Nat) : State := if on then freeBytes s (a + o) n else s
    let s1 := writeT (engineAccess s a 4096) a (plain (receiptBody s j ++ List.replicate 3584 0))
    bump (sig (sig s1 (bit r 0) 0x200 96) (bit r 1) 0x260 3309) 0xA0210

/-! Completion of a job that has run to its end. -/

/-- Does a job owe a receipt? -/
def owesReceipt (s : State) (j : Job) : Bool :=
  receiptsOf s j.fn != 0 && j.kind != .raw && j.statsBuf != 0 && j.endAs != some stCancelled && j.endAs != some stReset

/-- Every stride of the job has ended and its table is at its end, or it is stopping and nothing of it runs. -/
def jobOver (j : Job) : Bool :=
  let idle := (List.range 4).all fun k => (tget none j.active k).isNone
  match j.phase with
  | .stopping => idle
  | .running => idle && (match j.image with
      | some i => decide (i.ops.length ≤ j.opNext) && (if j.kind = .direct
          then (List.range i.ops.length).all fun n => j.skipped.contains n || j.stridesDone.contains n
          else (List.range i.strides.length).all j.stridesDone.contains)
      | none => false)
  | _ => false

/-- The streams of a job that reaches stage 8 are cancelled (R378). -/
def closeStreams (s : State) (jid : Nat) : State :=
  match (getJob s jid).bind fun j => getSector s j.sector with
  | some x => if x.running = some jid then x.lcores.foldl cancelStreams s else s
  | none => s

/-- Stages 8 and 9 (R57): the streams end; a receipt first, then the dense floor, then the completion. -/
def closeJob (s0 : State) (jid : Nat) : State :=
  let s := closeStreams s0 jid
  match getJob s jid with
  | none => s
  | some j =>
    if owesReceipt s j ∧ j.receipt = 0 then startOutputs (if j.phase = .stopping then voidOutputs s jid else s) jid
    else if owesReceipt s j ∧ j.secWait ≠ 0 then s
    else if owesReceipt s j ∧ j.receipt = 1 then startSigning s jid
    else
      let s1 := if j.receipt = 0 ∧ j.phase = .stopping then voidOutputs s jid else s
      finishJob (if owesReceipt s j then writeReceipt s1 jid else s1) jid false

/-- A job's sector stops, and the job ends with a failure; outputs never written keep their headers (R172, R585). -/
def stopSector (s : State) (sec : Nat) (j : Job) (status : Nat) : State :=
  let s1 := modJob (addFail (quiet s sec j.id) j.id status 0xFFFF true) j.id fun x => { x with
    phase := .stopping
    active := []
    written := List.range x.bindings.length }
  closeJob s1 j.id

/-- JOB_COMPLETE (R57, R79, R100, R228, R409, R570): the sector's job is over. -/
def execJobComplete (sec : Nat) (s : State) : StepOut :=
  .next <|
    match runningJob s sec with
    | some j => if jobOver j then closeJob s j.id else s
    | none => s

/-- DENSE_FLOOR_EXPIRY (R228): the floor tick has come. -/
def execDenseFloorExpiry (sec : Nat) (s : State) : StepOut :=
  .next <|
    match runningJob s sec with
    | some j => (match j.phase with
        | .dense f => if f ≤ s.ftime.toNat then endJob s j.id false else s
        | _ => s)
    | none => s

/-- A job whose contexts have faulted: its sector stops and it completes with PROGRAM_FAULT (R172). -/
def programFault (s : State) (sec : Nat) : State :=
  match runningJob s sec with
  | some j => if j.fault.isNone || j.phase != .running then s else stopSector s sec j stProgram
  | none => s

/-- PROGRAM_FAULT (R171, R172). -/
def execProgramFault (sec : Nat) (s : State) : StepOut := .next (programFault s sec)

end Sys2Proof.Machine
end

