-- ==== Sys2Proof/Machine/FabMsg.lean ====
section
/-! DEFINITION. SEND and RECEIVE entries of a job and their messages (R443, R448, R449, R451 to R454). -/

namespace Sys2Proof.Machine

/-- Role entry of a slot. -/
def roleAt (s : State) (slot : Nat) : Role := tget Role.empty s.fab.roles slot
/-- Pool slots are kept by role slot and number. -/
def poolKey (slot pool : Nat) : Nat := slot * 65536 + pool
def poolAt (s : State) (slot pool : Nat) : Pool := tget .free s.fab.pools (poolKey slot pool)
def setPool (s : State) (slot pool : Nat) (x : Pool) : State :=
  { s with fab := { s.fab with pools := tset .free s.fab.pools (poolKey slot pool) x } }
/-- Fields of a role entry (Table 13.6). -/
def roleEpoch (r : Role) : Nat := bits r.w0.toNat 15 0
def slotCount (r : Role) : Nat := bits r.w2.toNat 31 16
def slotUnits (r : Role) : Nat := bits r.w2.toNat 15 0
/-- Device address of a pool slot, if the pool's buffer is live. -/
def poolAddr (s : State) (slot pool : Nat) : Option Nat :=
  let r := roleAt s slot
  let b := resolve s (slot / 64) r.w1.toNat
  if b.1 = 0 then some (b.2.base + pool * slotUnits r * 2048) else none

/-- The transport's times in fabric ticks (Table 13.16). -/
def ackTimeout (s : State) : Nat := Nat.max 1 (regFld s 0x2002C 31 16)
def resendWait (s : State) : Nat := Nat.max 1 (regFld s 0x2002C 15 0)
def recvTimeout (s : State) : Nat := 256 * Nat.max 1 (regFld s 0x20030 31 16)
def busyRetry (s : State) : Nat := Nat.max 1 (regFld s 0x20030 15 0)

/-- R100: after a failure under ABORT the job executes no further entries; what is admitted runs to its end. -/
def abortJob (s : State) (jid : Nat) : State :=
  match getJob s jid with
  | none => s
  | some j =>
    if j.continue_ ∨ j.phase ≠ .running then s
    else
      let running (x : Job) : Bool := (List.range 4).any fun k => tget none x.active k == some builtinStride
      let s1 := modJob s jid fun x => { x with phase := .stopping, refreshing := if running x then x.refreshing else [] }
      let s2 := setWaiting s1 (s1.sched.waiting.filter fun w => w.sector != j.sector)
      { s2 with fab := { s2.fab with recvs := s2.fab.recvs.filter fun r => r.job != jid } }

/-- Entry idx of a job fails, and the job goes on or stops (R78, R100). -/
def failOp (s : State) (jid idx : Nat) (first : Operand) (status : Nat) (counted : Bool) : State :=
  match (getJob s jid).bind fun j => j.image.bind fun i => i.ops[idx]? with
  | some e =>
    let s1 := abortJob (failEntry s jid e idx first status counted) jid
    match getJob s1 jid with
    | some j => advance s1 j.sector
    | none => s1
  | none => s

/-! Sending. -/

/-- The bytes of a message (R443, R448): message header, object header, data; an object with a poisoned word goes out with
poison = 1. -/
def messageBytes (s : State) (j : Job) (e : ImgOp) (slot : Nat) (b : Binding) : List Byte :=
  let r := roleAt s slot
  let raw := memBytes s b.addr 64
  let n := ow raw 0x10
  let h := hdrOf raw
  let hdr := if anyPoison s b.addr (64 + n) then hdrBytes { h with poison := true } else raw
  leBytes 4 (roleEpoch r * 2 ^ 16 + bits r.w2.toNat 11 0) ++ leBytes 4 (e.tensor * 2 ^ 16 + slot) ++
    leBytes 4 (pCrc (jobObj s j)) ++ leBytes 4 (64 + n) ++ List.replicate 16 0 ++ hdr ++ memBytes s (b.addr + 64) n

/-- Put the entry's epoch and destination into a message's bytes for its resend (R453). -/
def retarget (r : Role) (bs : List Byte) : List Byte := setField bs 0 4 (roleEpoch r * 2 ^ 16 + bits r.w2.toNat 11 0)

/-- A SEND has been acknowledged: its entry's strides may be admitted (R448). -/
def sendAcked (s : State) (m : SendMsg) : State :=
  let s1 := bump { s with fab := { s.fab with sends := s.fab.sends.filter (· != m) } } 0x20224
  match getJob s1 m.job with
  | some j => advance (modJob s1 m.job fun x => { x with messaged := m.op :: x.messaged }) j.sector
  | none => s1
/-- A SEND has failed with a status of Table 13.9. -/
def sendFailed (s : State) (m : SendMsg) (status : Nat) : State :=
  failOp { s with fab := { s.fab with sends := s.fab.sends.filter (· != m) } } m.job m.op Operand.absent status true

/-- Transmit a message to its entry's device (R443): none of it goes where there is no route, which ends it with
MSG_NO_ROUTE. -/
def transmitMsg (s : State) (m : SendMsg) : State :=
  let dst := bits (roleAt s m.slot).w1.toNat 19 0
  match messageFlits s dst m.msgId m.gen m.bytes with
  | [] => s
  | f :: _ =>
    match route s f true with
    | .drop _ => if devId s = 0xFFFFF then s else sendFailed (bump s 0x20210) m 0x0402
    | _ => sendMessage s dst m.msgId m.gen m.bytes

/-- Send the object of a SEND entry (R444, R448): gen 0, the next message number. -/
def startSend (s : State) (j : Job) (e : ImgOp) (idx : Nat) (b : Binding) : State :=
  let s := engineAccess s b.addr 256
  let slot := 64 * j.fn + e.galois % 64
  let m : SendMsg := {
    job := j.id, op := idx, slot := slot, pool := e.tensor, msgId := s.fab.msgNext, gen := 0
    epoch := roleEpoch (roleAt s slot), resent := false, phase := .waitAck
    firstTx := s.ftime.toNat, lastTx := s.ftime.toNat, bytes := messageBytes s j e slot b }
  transmitMsg { s with fab := { s.fab with msgNext := (s.fab.msgNext + 1) % 2 ^ 32, sends := s.fab.sends ++ [m] } } m

/-- Send again, with the next gen. -/
def resendMsg (s : State) (m : SendMsg) (resent : Bool) : State :=
  let r := roleAt s m.slot
  let m1 : SendMsg := { m with
    gen := (m.gen + 1) % 4, epoch := roleEpoch r, resent := m.resent || resent, phase := .waitAck
    lastTx := s.ftime.toNat, bytes := retarget r m.bytes }
  transmitMsg { s with fab := { s.fab with sends := s.fab.sends.map fun x => if x = m then m1 else x } } m1

/-! Receiving. -/

/-- The issue check of a RECEIVE (R449). -/
def recvOk (s : State) (j : Job) (e : ImgOp) : Bool :=
  let slot := 64 * j.fn + e.galois % 64
  let r := roleAt s slot
  match jobBind j e.dst with
  | some b => isRecv r && b.handle == r.w1.toNat && b.offset == e.tensor * slotUnits r * 2048 && decide (e.tensor < slotCount r)
  | none => false

/-- A waiting RECEIVE finds its pool slot full: R77 on the landed header, then the claim (R449). -/
def claimMsg (s : State) (w : RecvWait) : State :=
  match getJob s w.job with
  | none => s
  | some j =>
    if poolAt s w.slot w.pool ≠ .full then s
    else
      let s0 : State := { s with fab := { s.fab with recvs := s.fab.recvs.filter (· != w) } }
      match j.image.bind fun i => i.ops[w.op]? with
      | none => s0
      | some e =>
        let r := operand s0 { j with hdrs := tset none j.hdrs e.dst none } e.dst
        if r.status ≠ 0 then failOp s0 w.job w.op r r.status r.counted
        else
          let s1 := setPool s0 w.slot w.pool (.claimed w.job)
          advance (modJob s1 w.job fun x => { x with
            messaged := w.op :: x.messaged
            written := e.dst :: x.written
            hdrs := tset none x.hdrs e.dst none }) j.sector

/-- Issue a RECEIVE that has passed its check. -/
def startRecv (s : State) (j : Job) (e : ImgOp) (idx : Nat) : State :=
  let w : RecvWait := ⟨j.id, idx, 64 * j.fn + e.galois % 64, e.tensor, s.ftime.toNat⟩
  claimMsg { s with fab := { s.fab with recvs := s.fab.recvs ++ [w] } } w

/-- RECEIVEs that wait on a pool slot. -/
def waitersOf (s : State) (slot pool : Nat) : List RecvWait := s.fab.recvs.filter fun w => w.slot == slot && w.pool == pool

/-- RECV_TIMEOUT (R449): no message has landed in time. -/
def execRecvTimeout (sec op : Nat) (s : State) : StepOut :=
  .next <|
    match runningJob s sec with
    | none => s
    | some j =>
      match s.fab.recvs.find? fun w => w.job == j.id && w.op == op with
      | none => s
      | some w =>
        if s.ftime.toNat < w.since + recvTimeout s then s
        else failOp { s with fab := { s.fab with recvs := s.fab.recvs.filter (· != w) } } j.id op Operand.absent 0x0403 true

end Sys2Proof.Machine
end

