-- ==== Sys2Proof/Machine/HostBase.lean ====
section
/-! DEFINITION. Fetching descriptors, the checks of R402, stage-3 order (R406), journaling (R460) and the transfers that read
host objects (R398 to R402, R422, R423). -/

namespace Sys2Proof.Machine

/-! Descriptor forms (R401 to R403). -/

/-- Bits that a descriptor type uses, per word: every other bit is reserved and zero. -/
def descMask (t : Nat) : List (Nat × Nat) :=
  let full := 0xFFFFFFFF
  let ref (o : Nat) : List (Nat × Nat) := [(o, full), (o + 4, full), (o + 8, 3)]
  match t with
  | 1 => ref 8 ++ [(0x14, 0xF), (0x18, full)]
  | 2 => ref 8 ++ [(0x14, 0x3F000F), (0x18, full), (0x1C, full)]
  | 3 => ref 8 ++ [(0x14, 7), (0x18, full), (0x1C, full), (0x20, full)]
  | 4 => [(8, full), (0xC, full), (0x10, full), (0x14, 0xFFFFFFF8), (0x18, 0xFFFFFFFE), (0x1C, 0x1F)]
  | 5 => ref 8 ++ ref 0x14 ++ [(0x20, full)]
  | 6 => [(8, 1)]
  | 7 => [(8, full), (0xC, 0xF1), (0x10, 0x3F)]
  | 8 => [(8, 0xFF), (0xC, 0xFFFF)] ++ ref 0x10 ++ [(0x1C, full)]
  | 9 => [(8, 0x1F), (0xC, 0xFFFF)]
  | 0x10 => [(8, 0xFFFFFFFE), (0xC, full), (0x10, full), (0x14, full), (0x18, full), (0x1C, full), (0x20, full), (0x24, full),
      (0x28, 0xFFFF00FF), (0x2C, 0xFFFF0701), (0x30, full), (0x34, 0xF8)]
  | 0x11 => [(8, full), (0xC, full), (0x10, full), (0x14, 0xFFF00000)]
  | 0x12 => [(8, 0x3F), (0xC, full), (0x10, full), (0x14, 0x1FF), (0x18, full)]
  | 0x20 => [(8, full), (0xC, full)]
  | 0x21 => [(8, full), (0xC, 0x1FF)]
  | 0x22 => [(8, 0x3F)]
  | 0x23 => [(8, 0x3F00FF), (0xC, full)]
  | _ => []
/-- Is every reserved bit and byte of a descriptor zero? -/
def reservedOk (b : List Byte) : Bool :=
  let m := descMask (dType b)
  bits (ow b 0) 22 0 == 0 && (List.range 14).all fun k =>
    let o := 8 + 4 * k
    let mask := ((m.find? fun p => p.1 == o).map (·.2)).getD 0
    (ow b o) &&& (0xFFFFFFFF ^^^ mask) == 0
/-- Does ring r accept type t (Table 12.6)? -/
def ringAccepts (r t : Nat) : Bool :=
  if [1, 2, 3, 5, 6, 7, 8, 9, 0x12].contains t then true
  else if [4, 0x10, 0x11].contains t then decide (r < 16)
  else [0x20, 0x21, 0x22, 0x23].contains t && r == 16
/-- References of a descriptor, by offset. -/
def descRefs (b : List Byte) : List Nat :=
  match dType b with
  | 1 => [8]
  | 2 => [8]
  | 3 => [8]
  | 5 => [8, 0x14]
  | 8 => [0x10]
  | _ => []
/-- HIF_FN_CTRL.expert. -/
def isExpert (s : State) (f : Nat) : Bool := bit (regGet s (fnBase f)).toNat 8
/-- DIRECT_OP's op is one of Table 4.30 other than LOCAL. -/
def directOpOk (b : List Byte) : Bool := let op := bits (ow b 8) 31 24; decide (1 ≤ op ∧ op ≤ 13)
/-- A FREE of a slot has no force and an object of Table 12.7. -/
def freeFormOk (b : List Byte) : Bool :=
  let obj := bits (ow b 0xC) 7 4
  decide (obj ≤ 4) && (obj == 0 || (!bit (ow b 0xC) 0 && ow b 8 == 0)) && (obj != 0 || ow b 0x10 == 0)

/-- Does a field hold a value that its table does not define: a reference of kind 3, a DIRECT_OP of no operation, a QUERY or
FN_ADMIN of no kind (log entry 30)? -/
def valueOk (b : List Byte) : Bool :=
  let t := dType b
  ((descRefs b).all fun o => refOk b o) && (t != 0x10 || directOpOk b) &&
    (t != 8 || decide (1 ≤ bits (ow b 8) 7 0 ∧ bits (ow b 8) 7 0 ≤ 7)) &&
    (t != 0x23 || bits (ow b 8) 7 0 == 1 || bits (ow b 8) 7 0 == 2)

/-- The checks of R402, before stage 3: 0, DESC_INVALID or NOT_PERMITTED; then fields whose value means nothing. -/
def descStatus (s : State) (f r : Nat) (b : List Byte) : Nat :=
  let t := dType b
  if !ringAccepts r t ∨ !reservedOk b then 0x0140
  else if t = 1 ∧ ow b 0x18 ≠ 0x400 then 0x0140
  else if t = 7 ∧ !freeFormOk b then 0x0140
  else if [0x10, 0x11, 0x12, 0x21, 0x22].contains t ∧ !isExpert s f then 0x0141
  else if t = 0x23 ∧ f ≠ 0 then 0x0141
  else if t = 7 ∧ bit (ow b 0xC) 0 ∧ !(f == 0 && r == 16) then 0x0141
  else if !isExpert s f ∧ ((descRefs b).any fun o => (refAt b o).kind == 2) then 0x0141
  else if t = 3 ∧ ow b 0x20 ≠ 0 ∧ !isExpert s f then 0x0141
  else if !valueOk b then 0x0140
  else 0

/-! Rings (R398 to R400). -/

/-- Fetched and completed counts of a ring. -/
def ringFetched (s : State) (f r : Nat) : Nat := regFld s (ringReg f r 0x14) 31 16
def ringDone (s : State) (f r : Nat) : Nat := regFld s (ringReg f r 0x18) 15 0
def ringEnabled (s : State) (f r : Nat) : Bool := bit (regGet s (ringReg f r 0x10)).toNat 8
def ringError (s : State) (f r : Nat) : Bool := bit (regGet s (ringReg f r 0x14)).toNat 0
/-- HIF_ERR_STATUS.ring_error is 1 while any ring is in the error state. -/
def ringErrors (s : State) (f : Nat) : State :=
  regSetFld s (fnBase f + 4) 2 2 (if (List.range 17).any (ringError s f) then 1 else 0)

/-- Take one descriptor of a ring (R400, R402). -/
def takeDesc (s : State) (f r : Nat) (b : List Byte) : State :=
  let i := ringFetched s f r
  let d : Desc := {
    fn := f, ring := r, index := i, bytes := (b ++ List.replicate 64 0).take 64, order := (getFn s f).order
    fetchTick := s.ftime.toNat, phase := .fetched, placement := placementOf0 s f }
  let s1 := regSetFld (bump s (fnBase f + 0x40)) (ringReg f r 0x14) 31 16 ((i + 1) % 65536)
  let s2 := modFn s1 f fun x => { x with descs := x.descs ++ [d], order := x.order + 1 }
  let st := descStatus s2 f r d.bytes
  if st = 0 then s2 else completeDesc s2 f r i st
where
  /-- KSE_FN_CTRL.placement. -/
  placementOf0 (s : State) (f : Nat) : Nat := let p := regFld s (fnBase f + 0x2300) 1 0; if p = 3 then 0 else p

/-- Tail of ring r in a bell block (Table 12.5). -/
def bellTail (bell : List Byte) (r : Nat) : Nat := if r = 16 then fieldAt bell 0 2 else fieldAt bell (4 + 2 * r) 2
/-- Fetch from one ring what its tail asks for: the state, and the fetched bytes left over. -/
def fetchRing (f : Nat) (bell : List Byte) (p : State × List (List Byte)) (r : Nat) : State × List (List Byte) :=
  let s := p.1
  if !ringEnabled s f r ∨ ringError s f r then p
  else
    let fe := ringFetched s f r
    let d := (bellTail bell r + 65536 - fe) % 65536
    if ringSize s f r < d + (fe + 65536 - ringDone s f r) % 65536 then (ringErrors (regSetFld s (ringReg f r 0x14) 0 0 1) f, p.2)
    else ((p.2.take d).foldl (fun st b => takeDesc st f r b) s, p.2.drop d)

/-- Has a range pair stopped the fetching of descriptors: a front that is FENCED or hands over (R462, R464)? -/
def fetchStopped (s : State) : Bool := pairOn s && ((!isRear s && pairState s == 5) || s.fab.handover)
/-- Read a bell block and fetch new descriptors, ring 0 up and the admin ring last (R399, R400). -/
def pollBell (s : State) (f : Nat) (bell : List Byte) (fetched : List (List Byte)) : State :=
  if !bit (regGet s (fnBase f)).toNat 0 ∨ (getFn s f).resetting ∨ 64 ≤ f ∨ s.start.phase ≠ 8 ∨ s.start.grace ∨ ioStopped s 0 ∨ fetchStopped s then s
  else if bell.length < 64 then regSetFld s (fnBase f + 4) 1 1 1
  else
    let s1 := modFn s f fun x => { x with evHead := fieldAt bell 2 2 }
    ((List.range 17).foldl (fetchRing f bell) (s1, fetched)).1

/-! Stage-3 order (R406). -/

/-- Types whose completion the later descriptors of a ring wait for. -/
def isBlocking (t : Nat) : Bool := [1, 2, 3, 6, 7, 0x20, 0x21, 0x22].contains t
/-- May a descriptor pass stage 3 now? -/
def stage3Ready (s : State) (d : Desc) : Bool :=
  (getFn s d.fn).descs.all fun e =>
    decide (d.order ≤ e.order) || e.ring != d.ring || (e.phase != .fetched && !isBlocking (dType e.bytes))
/-- The descriptor a row acts on: of the right type, not held back. A later event of the same row acts on it in a later phase. -/
def rowDesc (s : State) (f r i t : Nat) : Option Desc :=
  match findDesc s f r i with
  | some d =>
    if dType d.bytes ≠ t ∨ (getFn s f).resetting then none
    else if d.phase = .fetched ∧ !stage3Ready s d then none
    else some d
  | none => none
/-- Change the phase of a descriptor. -/
def setPhase (s : State) (d : Desc) (p : DescPhase) : State := modDesc s d.fn d.ring d.index fun x => { x with phase := p }

/-- May an item be journaled: the rear's journal has room (R460)? -/
def journalRoom (s : State) : Bool := !mirroring s || decide (s.fab.journal.length < 4096)
/-- Journal an item that has passed stage 3 (R460; log entry 16). -/
def journalDesc (s : State) (d : Desc) : State :=
  if !mirroring s then s
  else pairSend (setJournal s (s.fab.journal ++ [⟨d.fn, d.ring, d.index, d.bytes⟩])) 3
    (leBytes 1 d.fn ++ leBytes 1 d.ring ++ leBytes 2 d.index ++ d.bytes)

/-! Transfers (R422, R423). -/

/-- Begin to read length bytes from a host address, in segments of 4 KiB. -/
def startXfer (s : State) (d : Desc) (addr length : Nat) : State :=
  let x : Xfer := ⟨s.xferSeq, s.xferSeq / 2 ^ 16 % 2 ^ 16, d.fn, d.ring, d.index, length, []⟩
  let s1 : State := { s with xfers := s.xfers ++ [x], xferSeq := s.xferSeq + 1 }
  let s2 := (List.range (ceilDiv length 4096)).foldl (fun st k =>
    emit st (.hostRead d.fn (addr + 4096 * k) (Nat.min 4096 (length - 4096 * k)) x.id)) s1
  setPhase s2 d (if length = 0 then .arrived x.id else .reading x.id)
/-- A transfer is dropped; its descriptor ends INPUT_TRUNCATED. -/
def truncate (s : State) (x : Xfer) : State :=
  completeDesc (bump { s with xfers := s.xfers.filter fun y => y.id != x.id } (fnBase x.fn + 0x44)) x.fn x.ring x.index stTruncated
/-- Whole object of a transfer that has come in: its bytes in order. -/
def xferBytes (x : Xfer) : List TByte := x.got.filterMap (·.2)
def findXfer (s : State) (x : Nat) : Option Xfer := s.xfers.find? fun y => y.id == x
/-- INPUT_SEGMENT_ARRIVAL (R422, R423): a completion for transfer x of function f, with bytes from offset off, poisoned or
refused by the host. -/
def execInputSegmentArrival (f x gen off : Nat) (data : List Byte) (poison bad : Bool) (s : State) : StepOut :=
  .next <|
    match findXfer s x with
    | none => bump s (fnBase f + 0x48)
    | some y =>
      if y.gen ≠ gen ∨ y.fn ≠ f ∨ y.length < off + data.length then bump s (fnBase f + 0x48)
      else if bad then truncate s y
      else
        let got := tsetRun none y.got off (data.map fun b => some ⟨b, poison⟩)
        let s1 : State := { s with xfers := s.xfers.map fun z => if z.id = x then { z with got := got } else z }
        if got.length = y.length then modDesc s1 f y.ring y.index fun d => { d with phase := .arrived x } else s1

/-- SEGMENT_TIMEOUT (R422): no segment of transfer x has arrived for the function's timeout. -/
def execSegmentTimeout (x : Nat) (s : State) : StepOut :=
  .next <|
    match findXfer s x with
    | some y => if y.got.length = y.length then s else truncate s y
    | none => s

/-- READ_COMPLETION_TIMEOUT (R422): a read of n bytes at offset off of an object is issued again. -/
def execReadCompletionTimeout (x off n : Nat) (s : State) : StepOut :=
  .next <|
    match findXfer s x with
    | some y =>
      (match findDesc s y.fn y.ring y.index with
        | some d => emit s (.hostRead y.fn (refHost (refAt d.bytes (if dType d.bytes = 8 then 0x10 else 8)) + off) n x)
        | none => s)
    | none => s

end Sys2Proof.Machine
end

