-- ==== Sys2Proof/Machine/ImageCheck.lean ====
section
/-! DEFINITION. Program images (R174 to R180): taking one apart and the checks of stage 5. -/

namespace Sys2Proof.Machine

/-- Class, stride, operation and channel table entries (Tables 4.27 to 4.31). -/
def imgClass (b : List Byte) (o : Nat) : ImgClass :=
  ⟨fieldAt b o 4, fieldAt b (o + 4) 4, fieldAt b (o + 8) 4, bits (fieldAt b (o + 12) 4) 31 16, bits (fieldAt b (o + 12) 4) 15 0⟩
def imgStride (b : List Byte) (o : Nat) : ImgStride :=
  let w := fieldAt b o 4
  ⟨bits w 31 16, bits w 9 8, bits w 6 0, fieldAt b (o + 4) 4⟩
def imgOp (b : List Byte) (o : Nat) : ImgOp :=
  let w (i : Nat) : Nat := fieldAt b (o + i) 4
  ⟨bits (w 0) 31 24, bits (w 0) 15 0, bits (w 4) 31 16, bits (w 4) 15 0, bits (w 8) 31 16, bits (w 8) 15 0, w 12,
    bits (w 16) 31 16, bits (w 16) 7 0⟩
def imgChan (b : List Byte) (o : Nat) : ImgChan :=
  let w := fieldAt b o 4
  let v := fieldAt b (o + 4) 4
  ⟨bits w 31 26, bits w 25 23, bits w 22 18, bits w 17 13, bits v 31 16, bits v 15 0⟩

/-- n consecutive things of size k from offset o. -/
def tableOf {α : Type} (f : Nat → α) (o k n : Nat) : List α := (List.range n).map fun i => f (o + k * i)

/-- Take an image apart (R174 to R179); every offset counts from its first byte. -/
def readImage (b : List Byte) : Image :=
  let w (o : Nat) : Nat := fieldAt b o 4
  { bytes := w 8
    coreCount := w 0xC
    bindingCount := bits (w 0x18) 31 16
    paramCrc := w 0x1C
    waitLimit := w 0x20
    publicBase := bits (w 0x24) 21 0
    publicBytes := bits (w 0x28) 21 0
    classes := tableOf (imgClass b) (w 0x2C) 16 (bits (w 0x10) 31 24)
    strides := tableOf (imgStride b) (w 0x30) 16 (bits (w 0x14) 31 16)
    ops := tableOf (imgOp b) (w 0x34) 32 (bits (w 0x14) 15 0)
    chans := tableOf (imgChan b) (w 0x38) 8 (bits (w 0x10) 23 16)
    scalar := tableOf (fun o => BitVec.ofNat 32 (w o)) (w 0x3C) 4 (bits (w 0x18) 15 0)
    eprogs := tableOf (fun o => tableOf (fun p => BitVec.ofNat 32 (w p)) o 4 128) (w 0x44) 512 (bits (w 0x48) 15 0)
    segs := tableOf (fun o => tableOf (fun p => BitVec.ofNat 256 (fieldAt b p 32)) o 32 64) (w 0x40) 2048 (bits (w 0x10) 15 0)
    pub := if w 0x4C = 0 then none else some ((b.drop (w 0x4C)).take (bits (w 0x28) 21 0)) }

/-- The counts and sizes of Table 4.26, and every table inside image_bytes. size is how many bytes the buffer holds. -/
def imageForm (b : List Byte) (size : Nat) : Bool :=
  let w (o : Nat) : Nat := fieldAt b o 4
  let n := w 8
  let inside (o k : Nat) : Bool := k == 0 || decide (o + k ≤ n)
  let i := readImage b
  w 0 == 0x59454D31 && w 4 == 0x00010080 && w 0x7C == crc32c (b.take 0x7C) &&
  decide (0x80 ≤ n ∧ n ≤ size) &&
  decide (1 ≤ i.coreCount ∧ i.coreCount ≤ 25600) &&
  decide (1 ≤ i.classes.length ∧ i.classes.length ≤ 64) && decide (i.chans.length ≤ 64) &&
  decide (1 ≤ bits (w 0x10) 15 0) && decide (1 ≤ i.strides.length) && decide (1 ≤ i.ops.length) &&
  decide (1 ≤ i.bindingCount ∧ i.bindingCount ≤ 1024) && decide (i.scalar.length ≤ 4096) && decide (i.eprogs.length ≤ 1024) &&
  i.publicBase % 2048 == 0 && i.publicBytes % 2048 == 0 && decide (i.publicBytes ≤ 2 ^ 20) &&
  decide (i.publicBase + i.publicBytes ≤ 0x300000) &&
  inside (w 0x2C) (16 * i.classes.length) && inside (w 0x30) (16 * i.strides.length) && inside (w 0x34) (32 * i.ops.length) &&
  inside (w 0x38) (8 * i.chans.length) && inside (w 0x3C) (4 * i.scalar.length) &&
  inside (w 0x40) (2048 * bits (w 0x10) 15 0) &&
  (if i.eprogs.length = 0 then w 0x44 == 0 else w 0x44 % 32 == 0 && inside (w 0x44) (512 * i.eprogs.length)) &&
  (w 0x4C == 0 || (i.publicBytes != 0 && inside (w 0x4C) i.publicBytes))

/-- Every logical core below P lies in exactly one class (R175), whose element programs exist (R180; log entry 31). A class that
names segments beyond segment_count fails the image too, which neither rule says (DESIGN CHOICE; log entry 64). -/
def classesOk (i : Image) : Bool :=
  let span (c : ImgClass) : Nat := Nat.min (c.last + 1) i.coreCount - c.first
  let apart (c d : ImgClass) : Bool := decide (span c = 0 ∨ span d = 0 ∨ c.last < d.first ∨ d.last < c.first)
  ((i.classes.map span).sum == i.coreCount) &&
  ((List.range i.classes.length).all fun x => (List.range x).all fun y =>
    match i.classes[x]?, i.classes[y]? with
    | some c, some d => apart c d
    | _, _ => true) &&
  i.classes.all fun c => decide (c.firstSeg + c.segCount ≤ i.segs.length) &&
    (c.eprogSet == 0xFFFF || decide (c.eprogSet < i.eprogs.length))

/-- A binding value of an operation entry (R178). -/
def bindOk (i : Image) (v : Nat) : Bool := decide (v < i.bindingCount) || decide (0x8000 ≤ v ∧ v ≤ 0x8FFF) || v == 0xFFFF

/-- One operation entry (R178, R447). -/
def opEntryOk (i : Image) (e : ImgOp) : Bool :=
  (decide (e.op < 14) || e.op == 0x10 || e.op == 0x11) && decide (1 ≤ e.count) && decide (e.first + e.count ≤ i.strides.length) &&
  bindOk i e.dst && bindOk i e.srcA && bindOk i e.srcB &&
  (match e.op with
    | 9 => true
    | 0x10 => e.dst == 0xFFFF && e.srcB == 0xFFFF
    | 0x11 => e.srcA == 0xFFFF && e.srcB == 0xFFFF
    | _ => e.galois == 0)

/-- Strides and operations name each other: an entry's strides name it, and every stride lies in the entry that it names
(R177, R178). -/
def stridesOk (i : Image) : Bool :=
  i.ops.all (opEntryOk i) &&
  ((List.range i.ops.length).all fun k => match i.ops[k]? with
    | some e => (List.range e.count).all fun n => ((i.strides[e.first + n]?).map (·.opIndex)) == some k
    | none => true) &&
  (List.range i.strides.length).all fun n => match i.strides[n]? with
    | some s => (match i.ops[s.opIndex]? with
        | some e => decide (e.first ≤ n ∧ n < e.first + e.count)
        | none => false)
    | none => true

/-- The channel table (R179): one entry per channel; a defined mode and participants below P (log entry 23). -/
def chansOk (i : Image) : Bool :=
  (i.chans.map (·.channel)).Nodup && i.chans.all fun c => decide (c.mode ≤ 4 ∧ c.first ≤ c.last ∧ c.last < i.coreCount)

/-- A step of an element program as R180 takes it: an opcode that R155 allows, CVT among them, whose formats R196 leaves to the run of
the program. -/
def imgStepOk (w : Nat) : Bool :=
  let op := bits w 31 26
  w == 0 || ((decide (1 ≤ op ∧ op ≤ 17) || op == 20) && !bit w 23 && (stepReads w).all fun o => decide (o ≤ 17))

/-- The checks of R180 that fail an image. -/
def imageOk (b : List Byte) (size : Nat) : Bool :=
  let i := readImage b
  imageForm b size && classesOk i && stridesOk i && chansOk i &&
  (i.segs.all fun sg => sg.all fun u => encodingOk (decodeBundle u)) &&
  i.eprogs.all fun e => e.all fun w => imgStepOk w.toNat

/-- Class of logical core n of an image. -/
def classOf (i : Image) (n : Nat) : Nat := (i.classes.findIdx? fun c => decide (c.first ≤ n ∧ n ≤ c.last)).getD 0

end Sys2Proof.Machine
end

