-- ==== Sys2Proof/Machine/Transform.lean ====
section
/-! DEFINITION. The transforms of a ring (R254, R255), the reference schedule by which the members of a layout group carry them
out (R256 to R261), and automorphisms of slabs (R264, R266). -/

namespace Sys2Proof.Machine

/-- One limb: N residues by coefficient position. -/
abbrev Limb := List Nat
/-- One polynomial: its limbs from prime 0 up. -/
abbrev Poly := List Limb

/-- The transform of a limb (R254), and its inverse (R255). -/
def ntt (logN q psi : Nat) (a : Limb) : Limb :=
  let n := 2 ^ logN
  (List.range n).map fun i =>
    let e := 2 * revIndex logN i + 1
    ((List.range n).zip a).foldl (fun acc p => (acc + p.2 * powMod 32 psi (p.1 * e % (2 * n)) q) % q) 0
def intt (logN q psi : Nat) (a : Limb) : Limb :=
  let n := 2 ^ logN
  let inv := invMod (n % q) q
  (List.range n).map fun c =>
    ((List.range n).zip a).foldl (fun acc p =>
      (acc + p.2 * powMod 32 psi ((2 * n - c * (2 * revIndex logN p.1 + 1) % (2 * n)) % (2 * n)) q) % q) 0 * inv % q

/-! ### Slabs of a layout group of 2^b members (R246, R250) -/

/-- The slab of member p: its positions in ascending order. -/
def slabOf (b p : Nat) (a : Limb) : List Nat := (List.range (a.length / 2 ^ b)).map fun t => a.getD (t * 2 ^ b + p) 0
/-- The slabs of a limb, and the limb that slabs hold. -/
def toSlabs (b : Nat) (a : Limb) : List (List Nat) := (List.range (2 ^ b)).map fun p => slabOf b p a
def slabWord (b : Nat) (sl : List (List Nat)) (i : Nat) : Nat := (sl.getD (i % 2 ^ b) []).getD (i / 2 ^ b) 0
def ofSlabs (b logN : Nat) (sl : List (List Nat)) : Limb := (List.range (2 ^ logN)).map (slabWord b sl)

/-- A stage (R256, R260): the low position bit of its digit, the bits of its digit, and of the digits before it. -/
structure Stage where
  beta : Nat
  logRho : Nat
  before : List (Nat × Nat)
  deriving DecidableEq, Repr

/-- The stages of a transform, first to last, from the radices of Table 7.2. -/
def stagesOf (logN : Nat) : List Stage :=
  ((radixLogs logN).foldl (fun (acc : List Stage × Nat × List (Nat × Nat)) r =>
    (acc.1 ++ [⟨acc.2.1 - r, r, acc.2.2⟩], acc.2.1 - r, acc.2.2 ++ [(acc.2.1 - r, r)])) ([], logN, [])).1

/-- vv of a stage at a position: the digits already transformed, reversed. -/
def Stage.vv (t : Stage) (i : Nat) : Nat :=
  (t.before.foldl (fun (acc : Nat × Nat) d => (acc.1 + i / 2 ^ d.1 % 2 ^ d.2 * acc.2, acc.2 * 2 ^ d.2)) (0, 1)).1
/-- Exchange group size g_l of a stage in a group of 2^b members (R260). -/
def Stage.exchange (t : Stage) (b : Nat) : Nat := 2 ^ (Nat.min b (t.beta + t.logRho) - t.beta)
/-- Positions of a set of a stage: those that differ from its smallest in digit l only. -/
def Stage.slots (t : Stage) (base : Nat) : List Nat := (List.range (2 ^ t.logRho)).map fun u => base + u * 2 ^ t.beta
/-- Smallest positions of the sets of a stage, ascending. -/
def Stage.bases (t : Stage) (logN : Nat) : List Nat := (List.range (2 ^ logN)).filter fun i => i / 2 ^ t.beta % 2 ^ t.logRho == 0
/-- The member that computes the set with smallest position base (R261, item 1): of the sets of its exchange group, which share
the member of their smallest position, the one numbered s goes to the member of rank s mod g. -/
def Stage.computer (t : Stage) (b logN base : Nat) : Nat :=
  let home := base % 2 ^ b
  let s := ((t.bases logN).filter fun i => i % 2 ^ b == home && decide (i < base)).length
  home + s % t.exchange b * 2 ^ t.beta % 2 ^ b

/-- A word that one member sends to another by remote ST in mode LCORE (R166, R261): sender, receiver, position, word. -/
structure SlabWord where
  src : Nat
  dst : Nat
  pos : Nat
  word : Nat
  deriving DecidableEq, Repr

/-- The radix product of a set (R256, R257): its words in the order of digit l. -/
def Stage.product (t : Stage) (logN q psi : Nat) (inverse : Bool) (base : Nat) (x : List Nat) : List Nat :=
  let n := 2 ^ logN
  let rho := 2 ^ t.logRho
  let pw (e : Nat) : Nat := powMod 32 psi ((if inverse then 2 * n - e % (2 * n) else e) % (2 * n)) q
  let twist (u : Nat) : Nat := pw (2 ^ t.beta * (2 * t.vv base + 1) * u)
  let sum (y : List Nat) (v : Nat) : Nat := (List.range rho).foldl (fun acc u => (acc + y.getD u 0 * pw (2 * n / rho * u * v)) % q) 0
  if inverse then (List.range rho).map fun u => sum x u * twist u % q
  else
    let tw := (List.range rho).map fun u => x.getD u 0 * twist u % q
    (List.range rho).map (sum tw)

/-- What a stage does in a group: the slabs after it, the words sent to the computing members and those returned. -/
structure StageRun where
  slabs : List (List Nat)
  out : List SlabWord
  back : List SlabWord
  deriving DecidableEq, Repr

/-- One stage under the reference schedule (R261). A computing member takes a word of another member from what that member has
sent it; each result goes back to the member and slab word from which its input came. -/
def Stage.run (t : Stage) (b logN q psi : Nat) (inverse : Bool) (sl : List (List Nat)) : StageRun :=
  let sets := (t.bases logN).map fun i => (i, t.computer b logN i)
  let out := sets.flatMap fun st => (t.slots st.1).filterMap fun i =>
    if i % 2 ^ b = st.2 then none else some ⟨i % 2 ^ b, st.2, i, slabWord b sl i⟩
  let input (core i : Nat) : Nat :=
    if i % 2 ^ b = core then slabWord b sl i
    else ((out.find? fun m => m.dst == core && m.pos == i).map (·.word)).getD 0
  let results := sets.flatMap fun st =>
    ((t.slots st.1).zip (t.product logN q psi inverse st.1 ((t.slots st.1).map (input st.2)))).map fun r => (st.2, r.1, r.2)
  let back := results.filterMap fun r => if r.2.1 % 2 ^ b = r.1 then none else some ⟨r.1, r.2.1 % 2 ^ b, r.2.1, r.2.2⟩
  let put (s : List (List Nat)) (r : Nat × Nat × Nat) : List (List Nat) :=
    s.set (r.2.1 % 2 ^ b) ((s.getD (r.2.1 % 2 ^ b) []).set (r.2.1 / 2 ^ b) r.2.2)
  ⟨results.foldl put sl, out, back⟩

/-- A transform of a limb in a group of 2^b members: its stages, each of which every member of a cross stage's group ends with
an arrival at a BARRIER channel (R261, item 5), so that the next reads what it has left. -/
def groupNtt (b logN q psi : Nat) (a : Limb) : Limb :=
  ofSlabs b logN ((stagesOf logN).foldl (fun sl t => (t.run b logN q psi false sl).slabs) (toSlabs b a))
def groupIntt (b logN q psi : Nat) (a : Limb) : Limb :=
  let sl := (stagesOf logN).reverse.foldl (fun sl t => (t.run b logN q psi true sl).slabs) (toSlabs b a)
  let inv := invMod (2 ^ logN % q) q
  (ofSlabs b logN sl).map fun x => x * inv % q

/-- Remote words and barrier arrivals of a transform in a group (R261): each word takes a line of its receiver's credit and gives
it back as it is served; each member of a group of a cross stage arrives once for each stage. -/
def exchangeCost (b logN : Nat) : Nat × Nat :=
  (stagesOf logN).foldl (fun acc t =>
    let sets := (t.bases logN).map fun i => (t.slots i).countP fun k => k % 2 ^ b != t.computer b logN i
    (acc.1 + 2 * sets.sum, if t.exchange b = 1 then acc.2 else acc.2 + 2 ^ b)) (0, 0)

/-! ### Automorphisms (R264, R266) -/

/-- σ_g of a limb in a group of 2^b members: member p sends its whole slab to member g × p mod G, whose result slab lies apart
from its source; the local index and the sign are those of AUTIDX and SGNNEG. -/
def groupAut (b g q : Nat) (a : Limb) : Limb :=
  let n := a.length
  let G := 2 ^ b
  let sl := toSlabs b a
  let sent (p : Nat) : List (Nat × Nat) := (List.range (n / G)).map fun t =>
    let i := t * G + p
    let j := g * i % (2 * n)
    let x := (sl.getD p []).getD t 0 % q
    (j % n / G, if n ≤ j then (q - x) % q else x)
  let received (p : Nat) : List Nat :=
    ((List.range G).filter fun r => g * r % G == p).foldl (fun out r => (sent r).foldl (fun o w => o.set w.1 w.2) out)
      (List.replicate (n / G) 0)
  let out := (List.range G).map received
  (List.range n).map (slabWord b out)

end Sys2Proof.Machine
end

