-- ==== Sys2Proof/Machine/Builtin.lean ====
section
/-! DEFINITION. What the built-in programs of DIRECT_OP compute: the scheme operations on canonical residues in the coefficient
domain (R63 to R66, R206, R251, R264, R271 to R277), with the transforms of the reference schedule (R261). -/

namespace Sys2Proof.Machine

/-! ### The group of a built-in program -/

/-- Members of the layout group of a job's built-in program: those that a DIRECT_OP's job holds, and the firmware's choice for a
refresh of an image (R282, Table 12.12). -/
def groupSize (s : State) (j : Job) : Nat :=
  match j.kind, j.image with
  | .direct, some i => i.coreCount
  | _, _ => (Config.builtinRing (pLogN (jobObj s j)) (((getSector s j.sector).map (·.tiles)).getD [])).getD 0 0
/-- log2 of its size. -/
def groupLog (s : State) (j : Job) : Nat := Nat.log2 (groupSize s j)

/-! ### Stored objects -/

/-- Word index of position i of a limb under a layout code (R251). -/
def posWord (layout logN i : Nat) : Nat :=
  if layout = 0 then i
  else if layout = 15 then revIndex logN i
  else let g := 2 ^ layout; i % g * (2 ^ logN / g) + i / g

/-- Polynomials of a kind (R65). -/
def polysOf (kind : Nat) : Nat := match kind with
  | 2 => 3
  | 8 => 1
  | _ => 2

/-- Address of limb j of polynomial p of an object. -/
def limbAddr (addr : Nat) (h : Header) (p j : Nat) : Nat := addr + 64 + 4 * ((p * h.limbs + j) * 2 ^ h.logN)

/-- The first m limbs of the polynomials of an object with header h: words read mod q_j (R66), in the coefficient domain (R274). -/
def readPolys (s : State) (o : List Byte) (b addr m : Nat) (h : Header) : List Poly :=
  (List.range (polysOf h.kind)).map fun p => (List.range (Nat.min m h.limbs)).map fun j =>
    let q := Nat.max 1 (pPrime o j)
    let l := (List.range (2 ^ h.logN)).map fun i => leNat (memBytes s (limbAddr addr h p j + 4 * posWord h.layout h.logN i) 4) % q
    if h.domain = 1 then groupIntt b h.logN q (pRoot o j) l else l
/-- Is a word of those limbs poisoned? -/
def readTag (s : State) (addr m : Nat) (h : Header) : Bool :=
  (List.range (polysOf h.kind)).any fun p => (List.range (Nat.min m h.limbs)).any fun j =>
    anyPoison s (limbAddr addr h p j) (4 * 2 ^ h.logN)

/-- Write polynomials as the data of an object whose header it has been given (R253). -/
def writePolys (s : State) (o : List Byte) (b addr : Nat) (h : Header) (tag : Bool) (ps : List Poly) : State :=
  let n := 2 ^ h.logN
  let bs := ps.flatMap fun p => ((List.range h.limbs).zip p).flatMap fun x =>
    let q := Nat.max 1 (pPrime o x.1)
    let l := if h.domain = 1 then groupNtt b h.logN q (pRoot o x.1) x.2 else x.2
    let at_ (w : Nat) : Nat := ((List.range n).find? fun i => posWord h.layout h.logN i == w).getD 0
    (List.range n).flatMap fun w => leBytes 4 (l.getD (at_ w) 0)
  writeT s (addr + 64) (bs.map fun x => ⟨x, tag⟩)

/-! ### Limbs and polynomials -/

/-- Limb by limb on the first m limbs of two polynomials. -/
def zipLimbs (o : List Byte) (m : Nat) (f : Nat → Limb → Limb → Limb) (a b : Poly) : Poly :=
  (List.range m).map fun j => f (Nat.max 1 (pPrime o j)) (a.getD j []) (b.getD j [])
def addLimb (q : Nat) (a b : Limb) : Limb := (a.zip b).map fun p => (p.1 + p.2) % q
def subLimb (q : Nat) (a b : Limb) : Limb := (a.zip b).map fun p => (p.1 + q - p.2 % q) % q
/-- Product modulo X^N + 1. -/
def mulLimb (q : Nat) (a b : Limb) : Limb :=
  let n := a.length
  (List.range n).map fun k =>
    ((List.range n).foldl (fun (acc : Int) i =>
      let x : Int := ((a.getD i 0 * b.getD ((n + k - i) % n) 0 : Nat) : Int)
      if i ≤ k then acc + x else acc - x) 0 % (q : Int)).toNat
/-- Sum, difference and product of polynomials over the first m primes. -/
def polyAdd (o : List Byte) (m : Nat) : Poly → Poly → Poly := zipLimbs o m addLimb
def polySub (o : List Byte) (m : Nat) : Poly → Poly → Poly := zipLimbs o m subLimb
def polyMul (o : List Byte) (m : Nat) : Poly → Poly → Poly := zipLimbs o m mulLimb
/-- σ_g of a polynomial (R264), its limbs exchanged in a group of 2^b members (R266). -/
def polyAut (o : List Byte) (b m g : Nat) (p : Poly) : Poly := zipLimbs o m (fun q x _ => groupAut b g q x) p p

/-- Division by the last prime of a polynomial (R64): each coefficient to one of its two neighbouring integers, whose choice the
spec leaves open (log entry 26). -/
def dropPrime (o : List Byte) (draw : Nat) (p : Poly) : Poly :=
  let r := p.length - 1
  let y := p.getD r []
  (List.range r).map fun j =>
    let q := Nat.max 1 (pPrime o j)
    let inv := invMod (pPrime o r) q
    (List.range y.length).map fun i =>
      (((p.getD j []).getD i 0 + q - y.getD i 0 % q) * inv + if Config.freeBit draw (r :: y) i then 1 else 0) % q
/-- Division by the primes above the first m. -/
def dropTo (o : List Byte) (draw m : Nat) (p : Poly) : Poly := (List.range (p.length - m)).foldl (fun x _ => dropPrime o draw x) p

/-- Base conversion of residues over prime entries src to one prime (R273), position by position. -/
def convTo (o : List Byte) (src : List Nat) (limbs : List Limb) (n target : Nat) : Limb :=
  let q := pPrime o
  let others (j : Nat) : List Nat := (src.filter (· != j)).map q
  let cs := (src.zip limbs).map fun p =>
    (Nat.max 1 (q p.1), invMod (prodMod (others p.1) (q p.1)) (q p.1), prodMod (others p.1) (q target), p.2)
  (List.range n).map fun i =>
    (cs.foldl (fun a c => a + c.2.2.2.getD i 0 * c.2.1 % c.1 * c.2.2.1) 0) % Nat.max 1 (q target)

/-! ### Key switching (R274, R277) -/

/-- Limb t of digit d of a polynomial over m primes (R274): its own limbs, and the conversion to every other. -/
def extLimb (o : List Byte) (m : Nat) (c : Poly) (d t : Nat) : Limb :=
  let dg := pDigit o m d
  if dg.contains t then c.getD t [] else convTo o dg (dg.map fun j => c.getD j []) (2 ^ pLogN o) t

/-- The key switch from the extended limbs on (R274), with the words that a pass delivers: (ks_b, ks_a), and whether a word was
tagged. -/
def switchExt (o : List Byte) (b m : Nat) (word : Nat → Nat → Nat → Nat → TWord) (ext : Nat → Nat → Limb) : Poly × Poly × Bool :=
  let logN := pLogN o
  let n := 2 ^ logN
  let q (t : Nat) : Nat := Nat.max 1 (pPrime o t)
  let keyLimb (d t h : Nat) : List TWord := (List.range n).map (word d t h)
  let acc (h t : Nat) : Limb :=
    groupIntt b logN (q t) (pRoot o t) ((pDigits o m).foldl (fun a d =>
      ((a.zip (groupNtt b logN (q t) (pRoot o t) (ext d t))).zip (keyLimb d t h)).map fun x =>
        (x.1.1 + x.1.2 * x.2.val.toNat) % q t) (List.replicate n 0))
  let special := (List.range (pS o)).map (pK o + ·)
  let out (h : Nat) : Poly :=
    let sp := special.map (acc h)
    (List.range m).map fun j =>
      let z := convTo o special sp n j
      let pinv := invMod (prodMod (special.map (pPrime o)) (pPrime o j)) (pPrime o j)
      ((acc h j).zip z).map fun x => (x.1 + q j - x.2) * pinv % q j
  let tag := (pDigits o m).any fun d => (pE o m).any fun t => (keyLimb d t 0).any (·.tag) || (keyLimb d t 1).any (·.tag)
  (out 0, out 1, tag)
/-- The reference key switch of a polynomial (R274). -/
def keySwitch (o : List Byte) (b m : Nat) (word : Nat → Nat → Nat → Nat → TWord) (c : Poly) : Poly × Poly × Bool :=
  switchExt o b m word (extLimb o m c)

/-- The pass that has delivered a key to the built-in program of a batch of a job, at a level that covers m primes. -/
def passOf (s : State) (j : Job) (members : List Nat) (cls g m : Nat) : Option Pass :=
  let o := jobObj s j
  j.passEnded.find? fun p => p.members == members && (passEnt s p).cls == cls && (passEnt s p).galois == g && decide (m ≤ pM o p.level)

/-! ### Operations -/

/-- An operand of a built-in operation: its polynomials and whether a word of them is tagged. -/
structure Arg where
  polys : List Poly
  tag : Bool
  deriving DecidableEq, Repr

/-- Polynomial p of an operand; zero where it has none. -/
def Arg.poly (a : Arg) (n m p : Nat) : Poly := a.polys.getD p (List.replicate m (List.replicate n 0))

/-- The first m limbs of a stored operand. -/
def storedArg (s : State) (j : Job) (v m : Nat) (h : Header) : Arg :=
  match jobBind j v with
  | some b => ⟨readPolys s (jobObj s j) (groupLog s j) b.addr m h, readTag s b.addr m h⟩
  | none => ⟨[], false⟩
/-- The plaintext of an encode request (R206): every limb of a level with m limbs. -/
def encodedArg (s : State) (o : List Byte) (m : Nat) (r : EncReq) : Arg :=
  let (cs, _, tag) := encodeCoefs s r
  ⟨[(List.range m).map fun j => cs.map fun c => modQ c (pPrime o j)], tag⟩

/-- The result polynomials of an operation on operands (Table 2.17, R64, R271), with whether a word is tagged; none where a key's
words are not there. switch is the key switch with the operation's key. -/
def builtinPolys (o : List Byte) (b draw : Nat) (e : ImgOp) (kind m : Nat) (a : Arg) (c : Option Arg)
    (switch : Poly → Option (Poly × Poly × Bool)) : Option (List Poly × Bool) :=
  let n := 2 ^ pLogN o
  let A (p : Nat) : Poly := a.poly n m p
  let B (p : Nat) : Poly := match c with
    | some x => x.poly n m p
    | none => List.replicate m (List.replicate n 0)
  let add := polyAdd o m
  let mul := polyMul o m
  let low (p : Poly) : Poly := p.take m
  let tag := a.tag || (match c with
    | some x => x.tag
    | none => false)
  let ps := List.range (polysOf kind)
  let sq (i : Nat) : Poly := match i with
    | 0 => mul (A 0) (B 0)
    | 1 => add (mul (A 0) (B 1)) (mul (A 1) (B 0))
    | _ => mul (A 1) (B 1)
  let aut (g : Nat) : Option (List Poly × Bool) :=
    (switch (polyAut o b m g (A 1))).map fun r => ([add (polyAut o b m g (A 0)) r.1, r.2.1], tag || r.2.2)
  match e.op with
  | 1 => some (ps.map fun p => add (A p) (B p), tag)
  | 2 => some (ps.map fun p => polySub o m (A p) (B p), tag)
  | 3 => some (ps.map fun p => if p = 0 then add (A 0) (B 0) else low (A p), tag)
  | 4 => some (ps.map fun p => mul (A p) (B 0), tag)
  | 5 => some (ps.map sq, tag)
  | 6 => (switch (low (A 2))).map fun r => ([add (A 0) r.1, add (A 1) r.2.1], tag || r.2.2)
  | 7 => (switch (sq 2)).map fun r => ([add (sq 0) r.1, add (sq 1) r.2.1], tag || r.2.2)
  | 8 => some (ps.map fun p => dropTo o draw m (A p), tag)
  | 9 => aut e.galois
  | 10 => aut (2 * n - 1)
  | 11 => some (ps.map fun p => low (A p), tag)
  | _ => none

/-- The limbs of its operands that an operation reads: all of them for a rescale. -/
def limbsRead (e : ImgOp) (m : Nat) (a : Header) : Nat := if e.op = 8 then a.limbs else m

/-- A built-in program writes the data of entry idx of a DIRECT_OP, whose destination has header h. -/
def builtinData (s : State) (j : Job) (idx : Nat) (e : ImgOp) (h : Header) : State :=
  match jobBind j e.dst with
  | none => s
  | some d =>
    let o := jobObj s j
    let b := groupLog s j
    let (draw, s1) := drawFree s
    let ha := (operand s j e.srcA).hdr
    let a := storedArg s j e.srcA (limbsRead e h.limbs ha) ha
    let c : Option Arg :=
      if e.srcB ≠ 0xFFFF then some (storedArg s j e.srcB h.limbs (operand s j e.srcB).hdr)
      else if wantsEncode e then (getSector s j.sector).map fun x => encodedArg s o h.limbs (encodeReq s j x idx e)
      else none
    let switch (p : Poly) : Option (Poly × Poly × Bool) :=
      ((entryKey o e).bind fun k => passOf s j [0] k.1 k.2 h.limbs).map fun q => keySwitch o b h.limbs (passWord s q) p
    match builtinPolys o b draw e h.kind h.limbs a c switch with
    | some (ps, tag) => writePolys s1 o b d.addr h tag ps
    | none => freeResult s1 j d.addr h.dataBytes a.tag

/-- The Core Stores of a DIRECT_OP's cores when its program has ended: what its intermediate values have left there, which the spec
does not give (R274; log entry 27). -/
def scratchCores (s : State) (j : Job) : State :=
  match getSector s j.sector with
  | some x => (x.lcores.take (groupSize s j)).foldl (fun st g => if coreFenced st g then st else freeBytes st (csBase g) 0x8000) s
  | none => s

end Sys2Proof.Machine
end

