-- ==== Sys2Proof/Machine/Refresh.lean ====
section
/-! DEFINITION. The built-in programs of the refreshes: full refresh (R302 to R308) and lookup refresh (R309 to R313), on the
words that their key passes deliver. -/

namespace Sys2Proof.Machine

/-! ### What a refresh program works with -/

/-- The parameter set, the layout group, the number of its free roundings, and the words of its keys: class, Galois element and
primes, then digit, prime entry, half and position. -/
structure RefreshTool where
  o : List Byte
  b : Nat
  draw : Nat
  word : Nat → Nat → Nat → Nat → Nat → Nat → Nat → TWord

/-- A ciphertext under way: c0 and c1 over the primes of its level, and its scale (16.16, R80). -/
structure Ct where
  c0 : Poly
  c1 : Poly
  level : Nat
  scale : Nat
  deriving DecidableEq, Repr

/-- Scale that a rescale from a level takes off (R93). -/
def dropScale (o : List Byte) (level : Nat) : Nat := ((pRescaled o level).map fun e => lq16 (pPrime o e)).sum
/-- An integer modulo prime entry j. -/
def modPrime (o : List Byte) (x : Int) (j : Nat) : Nat := (x % ((Nat.max 1 (pPrime o j) : Nat) : Int)).toNat

/-- A level drop. -/
def Ct.drop (o : List Byte) (l : Nat) (x : Ct) : Ct := ⟨x.c0.take (pM o l), x.c1.take (pM o l), l, x.scale⟩
/-- A rescale (R64), its roundings free. -/
def Ct.rescale (w : RefreshTool) (x : Ct) : Ct :=
  let m := pM w.o (x.level - 1)
  ⟨dropTo w.o w.draw m x.c0, dropTo w.o w.draw m x.c1, x.level - 1, x.scale - dropScale w.o x.level⟩
/-- Sum and difference, at the lower level. -/
def Ct.add (o : List Byte) (x y : Ct) : Ct :=
  let l := Nat.min x.level y.level
  ⟨polyAdd o (pM o l) x.c0 y.c0, polyAdd o (pM o l) x.c1 y.c1, l, x.scale⟩
def Ct.sub (o : List Byte) (x y : Ct) : Ct :=
  let l := Nat.min x.level y.level
  ⟨polySub o (pM o l) x.c0 y.c0, polySub o (pM o l) x.c1 y.c1, l, x.scale⟩
/-- Product with a polynomial of integer coefficients of a scale. -/
def Ct.mulPoly (o : List Byte) (f : List Int) (scale : Nat) (x : Ct) : Ct :=
  let m := pM o x.level
  let p : Poly := (List.range m).map fun j => f.map fun c => modPrime o c j
  ⟨polyMul o m x.c0 p, polyMul o m x.c1 p, x.level, x.scale + scale⟩
/-- Sum with an integer in every slot. -/
def Ct.addInt (o : List Byte) (c : Int) (x : Ct) : Ct :=
  let put (p : Nat × Limb) : Limb := match p.2 with
    | y :: l => ((y + modPrime o c p.1) % Nat.max 1 (pPrime o p.1)) :: l
    | [] => []
  { x with c0 := ((List.range x.c0.length).zip x.c0).map put }
/-- The integers of a constant polynomial. -/
def constPoly (logN : Nat) (c : Int) : List Int := c :: List.replicate (2 ^ logN - 1) 0

/-- An automorphism and its key switch from the extended limbs of c1 (R264, R277). -/
def Ct.rotateExt (w : RefreshTool) (cls g : Nat) (ext : Nat → Nat → Limb) (x : Ct) : Ct :=
  let m := pM w.o x.level
  let r := switchExt w.o w.b m (w.word cls g m) fun d t => groupAut w.b g (Nat.max 1 (pPrime w.o t)) (ext d t)
  { x with c0 := polyAdd w.o m (polyAut w.o w.b m g x.c0) r.1, c1 := r.2.1 }
/-- An automorphism that stands alone (R271): before the switch. -/
def Ct.rotate (w : RefreshTool) (cls g : Nat) (x : Ct) : Ct :=
  let m := pM w.o x.level
  let r := keySwitch w.o w.b m (w.word cls g m) (polyAut w.o w.b m g x.c1)
  { x with c0 := polyAdd w.o m (polyAut w.o w.b m g x.c0) r.1, c1 := r.2.1 }
/-- A product with relinearisation (R271). -/
def Ct.mul (w : RefreshTool) (x0 y0 : Ct) : Ct :=
  let l := Nat.min x0.level y0.level
  let x := x0.drop w.o l
  let y := y0.drop w.o l
  let m := pM w.o l
  let r := keySwitch w.o w.b m (w.word 1 0 m) (polyMul w.o m x.c1 y.c1)
  ⟨polyAdd w.o m (polyMul w.o m x.c0 y.c0) r.1,
    polyAdd w.o m (polyAdd w.o m (polyMul w.o m x.c0 y.c1) (polyMul w.o m x.c1 y.c0)) r.2.1, l, x.scale + y.scale⟩

/-! ### Full refresh (R302 to R308) -/

/-- Levels of CoeffsToSlots, EvalMod and SlotsToCoeffs (Table 9.1). -/
def refreshSplit (depth : Nat) : Nat × Nat × Nat :=
  match depth with
  | 11 => (2, 7, 2)
  | 12 => (2, 8, 2)
  | 13 => (2, 9, 2)
  | 14 => (3, 9, 2)
  | 15 => (3, 10, 2)
  | _ => (3, 10, 3)
/-- K of R304: the bound on the coefficients of I. -/
def refreshK (o : List Byte) : Nat :=
  (if pSecretKind o = 1 then 8 else 16) + (if pM o 0 = 1 then 0 else pM o 0)
/-- The product of the level-0 primes. -/
def levelZero (o : List Byte) : Nat := ((List.range (pM o 0)).map (pPrime o)).foldl (· * ·) 1

/-- Centred lift of a residue (R189). -/
def centred (q x : Nat) : Int := if x % q ≤ (q - 1) / 2 then ((x % q : Nat) : Int) else ((x % q : Nat) : Int) - (q : Int)
/-- ModRaise of a polynomial (R304): from its level-0 limbs to every prime of level L. -/
def modRaise (o : List Byte) (c : Poly) : Poly :=
  let m0 := pM o 0
  (List.range (pM o (pL o))).map fun j =>
    if m0 = 1 then (c.getD 0 []).map fun x => modPrime o (centred (Nat.max 1 (pPrime o 0)) x) j
    else if j < m0 then c.getD j []
    else convTo o (List.range m0) ((List.range m0).map fun i => c.getD i []) (2 ^ pLogN o) j

/-- Galois element of a rotation by 2^a slots, up or down (R305). -/
def stepGalois (logN : Nat) (st : Bool × Nat) : Nat :=
  let n2 := 2 ^ (logN + 1)
  let g := powMod 32 5 (2 ^ st.2) n2
  if st.1 then powMod 32 g (2 ^ (logN - 1) - 1) n2 else g
/-- Rotations of a layer's baby steps and of its giant steps. -/
def layerSteps (logN : Nat) (toSlots : Bool) (k : Nat) : List (List (Bool × Nat)) :=
  Config.dftBabies logN toSlots k ++ Config.dftGiants logN toSlots k

/-- A rotation that is a composition of steps, each with its key. -/
def Ct.steps (w : RefreshTool) (x : Ct) (l : List (Bool × Nat)) : Ct :=
  l.foldl (fun y st => y.rotate w 4 (stepGalois (pLogN w.o) st)) x
/-- The same of one of several rotations of x, whose first step takes the extended limbs of x (R277). -/
def Ct.hoistedSteps (w : RefreshTool) (x : Ct) : List (Bool × Nat) → Ct
  | [] => x
  | st :: l => (x.rotateExt w 4 (stepGalois (pLogN w.o) st) (extLimb w.o (pM w.o x.level) x.c1)).steps w l

/-- A layer of the homomorphic transform, by baby and giant steps (R305); args is what its scaling takes in. -/
def dftLayer (w : RefreshTool) (toSlots : Bool) (args : List Nat) (x : Ct) (k : Nat) : Ct :=
  let logN := pLogN w.o
  let sc := dropScale w.o x.level
  let babies := (Config.dftBabies logN toSlots k).map (x.hoistedSteps w)
  let zero : Ct := (x.mulPoly w.o (constPoly logN 0) sc)
  let diag (g b : Nat) : List Int := (List.range (2 ^ logN)).map (Config.dftDiag logN toSlots k g b (sc :: args))
  let inner (g : Nat) : Ct := ((List.range babies.length).zip babies).foldl (fun a p => a.add w.o (p.2.mulPoly w.o (diag g p.1) sc)) zero
  let gs := Config.dftGiants logN toSlots k
  (((List.range gs.length).zip gs).foldl (fun a p => a.add w.o ((inner p.1).steps w p.2)) zero).rescale w

/-- An FP64 word as an integer in units of 2^-1074. -/
def fp64Fix (x : Nat) : Int :=
  match decodeFloat fp64 x false with
  | .fin neg m e => let v : Int := ((m * 2 ^ (e + 1074).toNat : Nat) : Int); if neg then -v else v
  | _ => 0
/-- A number in those units times 2^(scale / 65,536), rounded to one of its two neighbours (log entry 26). -/
def scaledInt (draw : Nat) (a : Int) (scale : Nat) : Int :=
  a * fixPow2 (scale % 65536) * 2 ^ (scale / 65536) / 2 ^ (1074 + 256) +
    if Config.freeBit draw [scale, (fp64Sign a), a.natAbs] 0 then 1 else 0
where
  /-- 1 for a negative number. -/
  fp64Sign (a : Int) : Nat := if a < 0 then 1 else 0

/-- T_1, T_2, T_4, … of u (R306): n of them. -/
def chebPowers (w : RefreshTool) (u : Ct) (n : Nat) : List Ct :=
  ((List.range (n - 1)).foldl (fun (acc : List Ct × Ct) _ =>
    let sq := acc.2.mul w acc.2
    let d := (sq.add w.o sq).rescale w
    let t := d.addInt w.o (-(scaledInt w.draw (2 ^ 1074) d.scale))
    (acc.1 ++ [t], t)) ([u], u)).1

/-- Quotient and remainder of a Chebyshev series of degree below 2n by T_n, as T_(n+i) = 2 T_n T_i - T_(n-i). -/
def chebSplit (n : Nat) (a : List Int) : List Int × List Int :=
  let g (i : Nat) : Int := a.getD i 0
  ((List.range n).map fun i => if i = 0 then g n else 2 * g (n + i),
    (List.range n).map fun i => if i = 0 then g 0 else g i - g (2 * n - i))

/-- A Chebyshev series of degree below 2^k by the Paterson–Stockmeyer method (R306), at a target scale and in k levels; ts holds
T_1, T_2, T_4, …. -/
def chebEval (w : RefreshTool) (ts : List Ct) : Nat → List Int → Nat → Ct
  | 0, _, _ => ts.getD 0 ⟨[], [], 0, 0⟩
  | 1, a, scale =>
    let u := ts.getD 0 ⟨[], [], 0, 0⟩
    let sc := scale + dropScale w.o u.level - u.scale
    let y := (u.mulPoly w.o (constPoly (pLogN w.o) (scaledInt w.draw (a.getD 1 0) sc)) sc).rescale w
    { (y.addInt w.o (scaledInt w.draw (a.getD 0 0) scale)) with scale := scale }
  | k + 2, a, scale =>
    let t := ts.getD (k + 1) ⟨[], [], 0, 0⟩
    let qr := chebSplit (2 ^ (k + 1)) a
    let lv := (ts.getD 0 ⟨[], [], 0, 0⟩).level - (k + 1)
    let q := chebEval w ts (k + 1) qr.1 (scale + dropScale w.o lv - t.scale)
    let r := chebEval w ts (k + 1) qr.2 scale
    { ((q.mul w t).rescale w).add w.o r with scale := scale }

/-- A double-angle step: 2y² - 1 (R307). -/
def doubleAngle (w : RefreshTool) (y : Ct) : Ct :=
  let sq := y.mul w y
  let d := (sq.add w.o sq).rescale w
  d.addInt w.o (-(scaledInt w.draw (2 ^ 1074) d.scale))

/-- EvalMod (R306 to R308): a folded table's series in d_e levels, or the built-in one with its three double-angle steps; the
result at scale default_scale. -/
def evalMod (w : RefreshTool) (table : Option (List Nat)) (u : Ct) : Ct :=
  let (_, de, _) := refreshSplit (pRefreshDepth w.o)
  let last := u.level - de
  let target := pDefaultScale w.o
  match table with
  | some l => { (chebEval w (chebPowers w u de) de (l.map fp64Fix) target).drop w.o last with scale := target }
  | none =>
    let k := de - 3
    let before (t l : Nat) : Nat := (t + dropScale w.o l) / 2
    let t3 := before (before (before target (last + 1)) (last + 2)) (last + 3)
    let series := (List.range (2 ^ k)).map fun i => fp64Fix (Config.builtinSeries de (refreshK w.o) i)
    let y := chebEval w (chebPowers w u k) k series t3
    { doubleAngle w (doubleAngle w (doubleAngle w y)) with scale := target }

/-- The four stages on the level-0 limbs of a ciphertext whose scale is in (R302); table is the folded table's coefficients. -/
def fullRefresh (w : RefreshTool) (c0 c1 : Poly) (scaleIn : Nat) (table : Option (List Nat)) : Ct :=
  let o := w.o
  let logN := pLogN o
  let (dc, _, ds) := refreshSplit (pRefreshDepth o)
  let raised : Ct := ⟨modRaise o c0, modRaise o c1, pL o, pDefaultScale o⟩
  let slots := (List.range dc).foldl (dftLayer w true [levelZero o, refreshK o]) raised
  let conj := slots.rotate w 3 (2 * 2 ^ logN - 1)
  let i (neg : Bool) : List Int := (List.range (2 ^ logN)).map fun x => if x = 2 ^ logN / 2 then (if neg then -1 else 1) else 0
  let re := evalMod w table (slots.add o conj)
  let im := evalMod w table ((slots.sub o conj).mulPoly o (i true) 0)
  let back := re.add o (im.mulPoly o (i false) 0)
  (List.range ds).foldl (dftLayer w false (if table.isSome then [] else [levelZero o, scaleIn])) back

/-- The keys of a full refresh in the order in which its passes stream them, each with its level (R302, R305): the steps of each
layer, the conjugation, and the relinearisations of EvalMod's levels. -/
def fullSteps (o : List Byte) : List (Nat × Nat × Nat) :=
  let logN := pLogN o
  let (dc, de, ds) := refreshSplit (pRefreshDepth o)
  let layer (toSlots : Bool) (k l : Nat) : List (Nat × Nat × Nat) :=
    ((layerSteps logN toSlots k).flatten.map fun st => (4, stepGalois logN st, l)).eraseDups
  let l1 := pL o - dc
  let l2 := l1 - de
  ((List.range dc).flatMap fun k => layer true k (pL o - k)) ++ [(3, 2 * 2 ^ logN - 1, l1)] ++
    ((List.range de).map fun k => (1, 0, l1 - k)) ++ (List.range ds).flatMap fun k => layer false k (l2 - k)

/-! ### Lookup refresh (R309 to R313) -/

/-- The index that a centred phase c modulo q_0 looks up in a table of E entries, ties to even (R310). -/
def lookupIndex (E q : Nat) (c : Int) : Nat :=
  let n : Int := 2 * (E : Int) * c
  let f := n / (q : Int)
  let r := n % (q : Int)
  let k := if 2 * r < (q : Int) then f else if (q : Int) < 2 * r then f + 1 else f + f % 2
  (k % (2 * (E : Int))).toNat
/-- The value that an index yields, in units of 2^-out_frac (R310). -/
def lookupValue (T : List Int) (k : Nat) : Int := if k < T.length then T.getD k 0 else -(T.getD (k - T.length) 0)

/-- κ(x), with entries beyond the last taken as the last (R311). -/
def kappa (E n x : Nat) : Nat := Nat.min ((x + n / (2 * E)) * E / n) (E - 1)
/-- The test polynomial (R311): n coefficients modulo the prime of the RGSW ring. -/
def testPoly (T : List Int) (shift n p : Nat) : Limb :=
  (List.range n).map fun x => (T.getD (kappa T.length n x) 0 * 2 ^ shift % (p : Int)).toNat
/-- What a phase x modulo 2n reads (R311): the negated coefficient from n up. -/
def testRead (t : Limb) (n p x : Nat) : Nat := if x % (2 * n) < n then t.getD (x % (2 * n)) 0 else (p - t.getD (x % (2 * n) - n) 0) % p

/-- An LWE sample: its phase is b - <a, s> (DEDUCED from X^(-lwe.b) and the blind rotation of R309; log entry 27). -/
structure Lwe where
  a : List Nat
  b : Nat
  deriving DecidableEq, Repr

/-- The sample whose phase is coefficient k of c0 + c1 × s (R309, extract). -/
def lweExtract (q : Nat) (c0 c1 : Limb) (k : Nat) : Lwe :=
  let n := c1.length
  ⟨(List.range n).map fun j => if j ≤ k then (q - c1.getD (k - j) 0 % q) % q else c1.getD (n + k - j) 0 % q, c0.getD k 0 % q⟩
/-- A word modulo p as a word modulo q, to nearest with ties to even (R309, mod_switch). -/
def modSwitch (p q x : Nat) : Nat :=
  let f := x * q / p
  let r := x * q % p
  (if 2 * r < p then f else if p < 2 * r then f + 1 else f + f % 2) % q
def Lwe.switch (p q : Nat) (x : Lwe) : Lwe := ⟨x.a.map (modSwitch p q), modSwitch p q x.b⟩

/-- The LWE key switch (R309, Table 9.2): the digits of each word of a times the samples that encrypt s_i, word by word of the
entry's data, taken from (0, b). -/
def lweKeySwitch (modulus dim digits base : Nat) (word : Nat → Nat) (x : Lwe) : Lwe :=
  let at_ (c : Nat) : Int := ((List.range x.a.length).zip x.a).foldl (fun acc p => (List.range digits).foldl (fun acc t =>
    acc + Config.lweDigit modulus digits base p.2 t * (word ((p.1 * digits + t) * (dim + 1) + c) : Int)) acc) 0
  let red (v : Int) : Nat := (v % (modulus : Int)).toNat
  ⟨(List.range dim).map fun c => red (-(at_ c)), red (x.b - at_ dim)⟩

/-- An RGSW ring: log2 of its dimension, prime, root, digits and base bits of the key's decomposition. -/
structure RgswRing where
  logN : Nat
  p : Nat
  psi : Nat
  digits : Nat
  base : Nat
  deriving DecidableEq, Repr

/-- A limb times X^e modulo X^n + 1. -/
def mulX (p e : Nat) (a : Limb) : Limb :=
  let n := a.length
  (List.range n).map fun i =>
    let k := (i + 2 * n - e % (2 * n)) % (2 * n)
    if k < n then a.getD k 0 % p else (p - a.getD (k - n) 0 % p) % p

/-- The external product of a pair (b, a) with an RGSW ciphertext (R309, Table 9.2): its rows, those of b first, each (b, a) in the
transform domain. -/
def extProduct (g : RgswRing) (row : Nat → Nat → Limb) (x : Limb × Limb) : Limb × Limb :=
  let dig (r : Nat) : Limb := (if r < g.digits then x.1 else x.2).map fun v =>
    (Config.rgswDigit g.p g.digits g.base v (r % Nat.max 1 g.digits) % (g.p : Int)).toNat
  let out (h : Nat) : Limb :=
    intt g.logN g.p g.psi ((List.range (2 * g.digits)).foldl (fun acc r =>
      ((acc.zip (ntt g.logN g.p g.psi (dig r))).zip (row r h)).map fun v => (v.1.1 + v.1.2 * v.2) % g.p) (List.replicate (2 ^ g.logN) 0))
  (out 0, out 1)

/-- The blind rotation (R309): both external products at every index. key gives row r, half h of the ciphertext of index j for +1
(sign 0) or -1 (sign 1). -/
def blindRotate (g : RgswRing) (key : Nat → Nat → Nat → Nat → Limb) (t : Limb) (x : Lwe) : Limb × Limb :=
  let n2 := 2 * 2 ^ g.logN
  let pair (f : Limb → Limb → Limb) (u v : Limb × Limb) : Limb × Limb := (f u.1 v.1, f u.2 v.2)
  let turn (e : Nat) (u : Limb × Limb) : Limb × Limb := pair (subLimb g.p) (mulX g.p e u.1, mulX g.p e u.2) u
  ((List.range x.a.length).zip x.a).foldl (fun acc p =>
    pair (addLimb g.p) (pair (addLimb g.p) acc (extProduct g (key p.1 0) (turn p.2 acc)))
      (extProduct g (key p.1 1) (turn (n2 - p.2 % n2) acc))) (mulX g.p (n2 - x.b % n2) t, List.replicate (2 ^ g.logN) 0)

/-- The sample of coefficient 0 of a pair whose phase is b - a × z (R309, sample_extract). -/
def sampleExtract (p : Nat) (x : Limb × Limb) : Lwe :=
  ⟨(List.range x.2.length).map fun j => if j = 0 then x.2.getD 0 0 else (p - x.2.getD (x.2.length - j) 0 % p) % p, x.1.getD 0 0⟩

/-- One of the N/4 samples of a lookup refresh (R309), up to its sample in the RGSW ring. -/
def lookupSample (o : List Byte) (g : RgswRing) (t : Limb) (lweWord : Nat → Nat) (digits base : Nat) (key : Nat → Nat → Nat → Nat → Limb)
    (c0 c1 : Limb) (i : Nat) : Lwe :=
  let m := 2 ^ pLweModBits o
  let x := (lweExtract (Nat.max 1 (pPrime o 0)) c0 c1 (4 * i)).switch (Nat.max 1 (pPrime o 0)) m
  let y := (lweKeySwitch m (pLweDim o) digits base lweWord x).switch m (2 * 2 ^ g.logN)
  sampleExtract g.p (blindRotate g key t y)

/-- The keys of a lookup refresh in the order of its passes, each with its level (R309, R312). -/
def lookupSteps (o : List Byte) : List (Nat × Nat × Nat) := (lookupKeys (pLogN o)).map fun k => (k.1, k.2, pLutLevel o)

/-! ### The programs on State -/

/-- The words of one pass: zero and tagged where none has delivered the key. -/
def stepWord (s : State) (j : Job) (members : List Nat) (cls g m d t h x : Nat) : TWord :=
  match passOf s j members cls g m with
  | some p => passWord s p d t h x
  | none => ⟨0, true⟩
/-- Word n of the data of a key without limbs (R314). -/
def rawWord (s : State) (j : Job) (members : List Nat) (cls n : Nat) : TWord :=
  match passOf s j members cls 0 0 with
  | some p => if p.dead then ⟨0, true⟩ else keyWord s p.fn p.key ((passEnt s p).off + 4 * n)
  | none => ⟨0, true⟩
/-- Has a pass of a batch delivered a tagged word (R296)? -/
def passesTagged (s : State) (j : Job) (members : List Nat) : Bool :=
  (j.passEnded.filter fun p => p.members == members).any fun p =>
    let o := jobObj s j
    let e := passEnt s p
    p.dead || (if passRaw s p then (match keyAddr o (getKeys s p.fn p.key) e.off with
        | some a => anyPoison s a e.len
        | none => false)
      else (passDigits o p).any fun d => (passE o p).any fun t => ([0, 1] : List Nat).any fun h =>
        (List.range (2 ^ p.logN)).any fun x => (passWord s p d t h x).tag)

/-- The words of the table that a refresh batch uses, from the slot that holds it in the sector's first tile (R318): n of u bytes
each, and whether one is poisoned. -/
def slotWords (s : State) (j : Job) (idx n u : Nat) : List Nat × Bool :=
  let b := (j.tabBatches.findIdx? fun t => t.ops.contains idx).getD 0
  let tile := ((getSector s j.sector).bind fun x => x.tiles.head?).getD 0
  let a := tbBase tile + 0x2FC000 + 0x2000 * (b % 2)
  ((List.range n).map fun i => leNat (memBytes s (a + u * i) u), anyPoison s a (u * n))

/-- The result of a refresh (op 12 or 13) of an object with header h at an address, for the batch members and the table of
entry idx (none: the built-in one): the polynomials, and whether a word that they rest on is tagged. -/
def refreshPolys (s : State) (j : Job) (op addr : Nat) (h : Header) (members : List Nat) (table : Option (Nat × TabEnt)) (draw : Nat) :
    List Poly × Bool :=
  let o := jobObj s j
  let b := groupLog s j
  let m0 := if op = 12 then pM o 0 else 1
  let ps := readPolys s o b addr m0 h
  let w : RefreshTool := ⟨o, b, draw, stepWord s j members⟩
  let bad := readTag s addr m0 h || passesTagged s j members
  if op = 12 then
    let tab := table.map fun t => slotWords s j t.1 (t.2.size + 1) 8
    let r := fullRefresh w (ps.getD 0 []) (ps.getD 1 []) h.scale (tab.map (·.1))
    ([r.c0, r.c1], bad || (match tab with
      | some t => t.2
      | none => false))
  else
    let size := ((table.map fun t => t.2.size)).getD 0
    let shift := ((table.map fun t => t.2.outShift)).getD 0
    let (tw, tbad) := slotWords s j ((table.map (·.1)).getD 0) size 2
    let ent (cls : Nat) : KeyEnt := ((passOf s j members cls 0 0).map (passEnt s)).getD (kEnt [] 0)
    let g : RgswRing := ⟨pRgswLogN o, Nat.max 1 (pRgswPrime o), pRgswRoot o, (ent 6).digits, (ent 6).limbs⟩
    let raw (cls n : Nat) : Nat := (rawWord s j members cls n).val.toNat
    let key (k sign r hf : Nat) : Limb := (List.range (2 ^ g.logN)).map fun i =>
      raw 6 (((((k * 2 + sign) * (2 * g.digits) + r) * 2 + hf) * 2 ^ g.logN) + i)
    let t := testPoly (tw.map fun x => sext x 16) shift (2 ^ g.logN) g.p
    let samples := (List.range (2 ^ pLogN o / 4)).map
      (lookupSample o g t (raw 5) (ent 5).digits (ent 5).limbs key ((ps.getD 0 []).getD 0 []) ((ps.getD 1 []).getD 0 []))
    let keyObj := match j.key with
      | some k => (getKeys s j.fn k).obj
      | none => []
    (([0, 1] : List Nat).map fun p => (List.range (pM o (pLutLevel o))).map fun jl => (List.range (2 ^ pLogN o)).map fun i =>
      Config.repack o keyObj (samples.map fun x => x.a ++ [x.b]) p jl i % Nat.max 1 (pPrime o jl), bad || tbad)

/-- A refresh writes its result as the data of an object with header hOut (R253, R321). -/
def refreshData (s : State) (j : Job) (op src dst : Nat) (h hOut : Header) (members : List Nat) (table : Option (Nat × TabEnt)) : State :=
  let (draw, s1) := drawFree s
  let r := refreshPolys s j op src h members table draw
  writePolys s1 (jobObj s j) (groupLog s j) dst hOut r.2 r.1

end Sys2Proof.Machine
end

