-- ==== Sys2Proof/Machine/JobRows.lean ====
section
/-! DEFINITION. Stage 5 of a job (R110, R180, R181, R225, R228, R231, R233, R283, R318, R408), the issue of its operations
(R96 to R101, R290 to R292), and the end of its strides. -/

namespace Sys2Proof.Machine

/-! Stage 5. -/

/-- An entry of the modulus table (Table 3.2) for a ring of 2^logN. -/
def modEntryOf (logN q psi : Nat) : ModEntry :=
  ⟨BitVec.ofNat 32 q, BitVec.ofNat 64 (barrettMu q), BitVec.ofNat 32 psi, BitVec.ofNat 32 (invMod psi q),
    BitVec.ofNat 32 (invMod (2 ^ logN % q) q), true, Nat.log2 q + 1⟩
/-- The modulus table of a parameter set (R110). -/
def modTable (o : List Byte) : Tbl ModEntry :=
  let t := (List.range (pK o + pS o)).map fun e => (e, modEntryOf (pLogN o) (pPrime o e) (pRoot o e))
  if pRgswLogN o = 0 then t else t.filter (·.1 != 88) ++ [(88, modEntryOf (pRgswLogN o) (pRgswPrime o) (pRgswRoot o))]

/-- The 128 bundles of a class's first segments (R153, R181); a class of one segment leaves half 1 as it was. -/
def loadSegs (i : Image) (c : ImgClass) (old : Tbl Bundle) : Tbl Bundle :=
  let put (t : Tbl Bundle) (half seg : Nat) : Tbl Bundle :=
    if seg < c.segCount then tsetRun 0 t (64 * half) (i.segs.getD (c.firstSeg + seg) []) else t
  put (put old 0 0) 1 1
/-- Element program memory of a class (R176). -/
def loadEprogs (i : Image) (c : ImgClass) : Tbl Word :=
  if c.eprogSet = 0xFFFF then [] else tsetRun 0 [] 0 (i.eprogs.getD c.eprogSet [])

/-- One core of a sector as stage 5 leaves it, whatever runs in it (R110, R119, R181, R285, R345). -/
def freshCore (o : List Byte) (c : Core) : Core :=
  let k (c : Core) (n : Nat) : Core := modCtx c n fun x => { x with
    run := .halted, miss := none, creditWait := none, waitSince := none, cmps := [], expd := [], rm := 0, flags := 0 }
  [0, 1, 2, 3].foldl k { c with
    modTab := modTable o
    logN := pLogN o
    rgswLogN := pRgswLogN o
    ta := TaState.fresh
    flags := []
    cnt := []
    segld := []
    gang := .off
    held := none
    pend := []
    loads := []
    stores := []
    sigs := []
    credits := 1024 }
/-- A logical core below P takes the image's program (R181, R193, R194). -/
def loadCore (o : List Byte) (i : Image) (c : Core) : Core :=
  let cl := i.classes.getD (classOf i c.lcore) ⟨0, 0, 0, 0xFFFF, 0⟩
  { freshCore o c with
    eprog := loadEprogs i cl
    istore := loadSegs i cl c.istore
    cls := classOf i c.lcore }
/-- Counters of a core return to zero (R138). -/
def zeroCounters (s : State) (g : Nat) : State := (List.range 6).foldl (fun st k => regSet st (coreBase g + 4 * k) 0) s

/-- Load every core of a sector: the modulus table and cleared state in all of them, the image's program in those below P (R110,
R181). -/
def loadCores (s : State) (x : Sector) (o : List Byte) (i : Image) : State :=
  ((List.range x.lcores.length).zip x.lcores).foldl (fun st p =>
    if coreFenced st p.2 then st
    else zeroCounters (modCore st p.2 (if p.1 < i.coreCount ∧ !i.classes.isEmpty then loadCore o i else freshCore o)) p.2) s

/-- The public region of a job that names no model (R181). -/
def loadPublic (s : State) (x : Sector) (i : Image) : State :=
  if i.publicBytes = 0 then s
  else x.tiles.foldl (fun st t =>
    writeT st (tbBase t + i.publicBase) (plain (i.pub.getD (List.replicate i.publicBytes 0)))) s

/-- Device address of a binding as stage 5 gives it (R275, R279, R408): a CONV binding names the copy nearer the sector. -/
def boundAddr (s : State) (j : Job) (x : Sector) (b : Binding) : Nat :=
  if b.kind ≠ 3 then b.addr
  else
    let c := (getParam s j.fn j.param).conv
    (((c.find? fun e => e.1 == nearerDie x).orElse fun _ => c.head?).map fun e => e.2.base).getD 0

/-- Blob fields (Table 6.1). -/
def blobT (b : List Byte) : Nat := bits (fieldAt b 0xC 4) 15 0
def blobGroups (b : List Byte) : Nat := bits (fieldAt b 0x10 4) 31 16
def blobDense (b : List Byte) : Bool := bit (fieldAt b 0x10 4) 0
def blobFld (b : List Byte) (o : Nat) : Nat := bits (fieldAt b o 4) 21 0
def blobUnit (b : List Byte) (o : Nat) : Nat := 2048 * fieldAt b o 4
def blobAllow (b : List Byte) : Nat := bits (fieldAt b 0x10 4) 11 8
/-- The allow-list entry that an image's hash matches: its dense_ticks (R220, R228). -/
def allowed (b image : List Byte) : Option Nat :=
  let h := digestBytes (sha384 image)
  ((List.range (blobAllow b)).find? fun n => (b.drop (blobUnit b 0x30 + 64 * n)).take 48 == h).map fun n =>
    fieldAt b (blobUnit b 0x30 + 64 * n + 0x30) 4

/-- Groups of the streamed tensors that an image's entries name never fall (R231). -/
def groupsRise (b : List Byte) (i : Image) : Bool :=
  let gs := i.ops.filterMap fun e => if wantsEncode e then tensorGroup b e.tensor else none
  (gs.zip (gs.drop 1)).all fun p => decide (p.1 ≤ p.2)

/-- Does an image hold a key-needing entry, as R290 lists them (R283)? -/
def needsKeys (o : List Byte) (i : Image) : Bool := i.ops.any fun e => (entryKey o e).isSome
/-- Key-ring fields of R283. -/
def ringOk (kr : List Nat) : Bool :=
  let base := kr.getD 0 0
  let depth := kr.getD 1 0
  let width := kr.getD 2 0
  decide (width ≤ 5) && decide (2 ≤ depth ∧ depth ≤ 64) && base % 32 == 0 && decide (base + depth * 8 * (4 * 2 ^ width) ≤ 0x8000)

/-- Where unit n of 2 KiB of model tile u's Tile Bank lies in the blob: public section or resident image (R219, R226). -/
def unitSrc (b : List Byte) (u n : Nat) : Nat :=
  let o := 2048 * n
  if blobFld b 0x14 ≤ o ∧ o < blobFld b 0x14 + blobFld b 0x18 then blobUnit b 0x34 + (o - blobFld b 0x14)
  else blobUnit b 0x38 + u * blobFld b 0x20 + (o - blobFld b 0x1C)
/-- Can the home copy give that unit: a clear one from its own bytes, a confidential one only as a whole (R240, R568)? -/
def homeClean (s : State) (q : ModelSlot) (u n : Nat) : Bool :=
  if q.confidential then !anyPoison s q.home.base q.received else !anyPoison s (q.home.base + unitSrc q.blob u n) 2048

/-- Areas of a model tile (R223), as ranges. -/
def modelAreas (b : List Byte) : List (Nat × Nat) :=
  [(blobFld b 0x14, blobFld b 0x14 + blobFld b 0x18), (blobFld b 0x1C, blobFld b 0x1C + blobFld b 0x20),
   (blobFld b 0x24, blobFld b 0x24 + 2 * blobFld b 0x28)]

/-- The checks of stage 5 on a circuit's or raw job's image, in order: 0 or the failing status. -/
def stage5Status (s : State) (j : Job) (x : Sector) (bs : List Byte) (size : Nat) : Nat :=
  let i := readImage bs
  let o := jobObj s j
  let blob := jobBlob s j
  let conf := match j.model with
    | some m => (getModel s j.fn m).confidential
    | none => false
  let area (p : Nat × Nat) : Bool := overlaps p.1 (p.2 - p.1) 0x2FC000 0x300000
  if conf && (match j.model with
      | some m => anyPoison s (getModel s j.fn m).home.base (getModel s j.fn m).received
      | none => false) then 0x0603
  else if !imageOk bs size ∨ (j.kind = .raw ∧ i.ops.any (·.op != 0)) then 0x0120
  else if i.paramCrc ≠ pCrc o then stParam
  else if i.bindingCount ≠ j.bindings.length then stParam
  else if x.lcores.length < i.coreCount then stMemory
  else if j.model.isSome ∧ (i.publicBase ≠ blobFld blob 0x14 ∨ i.publicBytes ≠ blobFld blob 0x18 ∨
      i.ops.any fun e => wantsEncode e && decide (tCountOf blob ≤ e.tensor)) then stParam
  else if j.model.isNone ∧ i.ops.any wantsEncode then stParam
  else if j.kind = .circuit ∧ (j.ways = 0 ∨ 16 < j.ways ∨ i.coreCount % j.ways ≠ 0) then stParam
  else if needsKeys o i ∧ !ringOk j.kr then stParam
  else if overlaps i.publicBase i.publicBytes 0x2FC000 0x300000 ∨ (j.model.isSome ∧ (modelAreas blob).any area) then stParam
  else if j.model.isSome ∧ !groupsRise blob i then 0x0122
  else if (blobDense blob || conf) && (allowed blob (bs.take i.bytes)).isNone then 0x0123
  else 0

/-- The stager's descriptor for group g of model tile u (R229): its ring is the staging half that it fills, as one chunk, and its
pattern lies in the home copy. -/
def stagerDesc (q : ModelSlot) (u g : Nat) : StrDesc :=
  let b := q.blob
  let n := blobFld b 0x28
  { out := false, esz := 1, burst := 2048, sigCnt := 0, ackCnt := 0, space := 1, depth := 1, recEn := false, ringCore := 0, cb := n
    ringBase := blobFld b 0x24 + g % 2 * n, start := q.home.base + blobUnit b 0x3C + (g * blobT b + u) * n
    counts := [2048, n / 2048, 1, 1], strides := [1, 2048, 0, 0], recOff := 0 }
/-- Model tiles with their global tiles. -/
def tilePairs (q : ModelSlot) : List (Nat × Nat) := (List.range q.tiles.length).zip q.tiles
/-- The stager has filled a half with group g in every model tile; its chunk is late where a stride was held for it (R384). -/
def stagerFill (s : State) (j : Job) (q : ModelSlot) (g : Nat) (late : Bool) : State :=
  (tilePairs q).foldl (fun st p => match (tileCores st p.2).head? with
    | some c => (match getStr st c 7 with
        | some y =>
          if !isStager y then st
          else
            let d := { stagerDesc q p.1 g with ringCore := c }
            setStr st c 7 (some { y with
              desc := d, nextOff := d.cb, issued := y.issued + 1, late := if late then y.late + 1 else y.late
              chunks := (y.chunks.filter fun k => !k.released) ++ [⟨g, tbBase p.2 + d.ringBase, true, true, false, false⟩] })
        | none => st)
    | none => st) s
/-- The stager's place: stream slot 7 of the lowest-numbered enabled core of each model tile, held for the job (R229), with the
groups that are already staged for it (R232). -/
def placeStager (s : State) (j : Job) (q : ModelSlot) : State :=
  let s1 := (tilePairs q).foldl (fun st p => match (tileCores st p.2).head? with
    | some g => startStream st g 7 4 (stagerDesc q p.1 0)
    | none => st) s
  (j.staged.filter (· != 0)).foldl (fun st g => stagerFill st j q (g - 1) false) s1

/-- Is the job's first refresh batch one whose table has to be copied, so that the copy counts as fill (R318)? -/
def firstCopyDue (s : State) (j : Job) (i : Image) : Bool :=
  j.table.isSome && ((List.range i.ops.length).zip i.ops).any fun p =>
    (p.2.op == 12 || p.2.op == 13) && (entryTable s j p.2 p.1).isSome

/-- The policy that a job starts with (R97). -/
def withPolicy (s : State) (j : Job) : Job :=
  let w := (regGet s (fnBase j.fn + 0x2000)).toNat
  if bit w 0 then { j with autoRefresh := bit w 1, continue_ := bit w 2 } else j

/-- A job takes its sector. -/
def takeSector (s : State) (sec jid : Nat) : State :=
  modSector s sec fun x => { x with queue := x.queue.filter (· != jid), running := some jid, idleSince := none }

/-- A job that fails stage 5 goes to stage 9 with its status; its outputs keep their headers. -/
def failStage5 (s : State) (jid st : Nat) : State :=
  closeJob (modJob (addFail s jid st 0xFFFF true) jid fun y => { y with
    phase := .stopping, written := List.range y.bindings.length }) jid

/-- A job passes stage 5: its cores are loaded and it runs (R181, R228, R229, R231, R232). -/
def beginJob (s : State) (sec : Nat) (x : Sector) (j : Job) (i0 : Image) (dense : Nat) : State :=
  let blob := jobBlob s j
  let groups := j.model.isSome && blobGroups blob != 0
  let i := if groups && i0.waitLimit == 0 then { i0 with waitLimit := 1000000 } else i0
  let bs := j.bindings.map fun b => { b with addr := boundAddr s j x b }
  let addrs : List Word := bs.flatMap fun b => [BitVec.ofNat 32 b.addr, BitVec.ofNat 32 (b.addr / 2 ^ 32)]
  let s1 := loadCores s x (jobObj s j) i
  let s2 := if j.kind = .direct ∨ j.model.isSome then s1 else loadPublic s1 x i
  let s3 := modSector s2 sec fun y => { y with
    image := some i, scalar := i.scalar ++ addrs, chans := i.chans, chanSt := [] }
  let s4 := if groups then placeStager s3 j (getModel s3 j.fn (j.model.getD 0)) else s3
  let now := s4.ftime.toNat
  let filled := (!groups || j.staged.contains 1) && !firstCopyDue s j i
  let s5 := modJob s4 j.id fun y => { y with
    phase := .running
    bindings := bs
    image := some i
    denseTicks := dense
    stats := { y.stats with loadEnd := now, fillEnd := if filled then some now else none } }
  advance s5 sec

/-- May the sector's next job go through stage 5 now: it holds its tiles awake, clean and unheld (R240, R241, R343, R493,
R585, R587, R594)? -/
def stage5Ready (s : State) (sec : Nat) (x : Sector) : Bool :=
  let waitsReload := match x.model with
    | some m =>
      let q := getModel s x.owner m
      !q.fencedTiles.isEmpty || q.poisoned.any fun u => homeClean s q u.1 u.2
    | none => false
  x.holder && !x.swapDue && x.running.isNone && !sectorZeroing s x && atRunPace s sec x && !x.tiles.any (tileHeld s) &&
    !x.reform && !waitsReload

/-- Does a DIRECT_OP's model declare an area that overlaps the refresh area (R318)? -/
def directBad (s : State) (j : Job) : Bool :=
  j.model.isSome && (modelAreas (jobBlob s j)).any fun p => overlaps p.1 (p.2 - p.1) 0x2FC000 0x300000

/-- PROGRAM_LOAD (R57, R97, R180, R181): the next job of a sector that is free and awake. With receipts, its inputs are
digested first (R571). An image buffer with a poisoned byte within image_bytes, for which the spec gives no status, ends the job
with IMAGE_INVALID (DESIGN CHOICE; log entry 64). -/
def execProgramLoad (sec : Nat) (s : State) : StepOut :=
  .next <|
    match getSector s sec with
    | none => s
    | some x =>
      match x.queue with
      | [] => s
      | jid :: _ =>
        match getJob s jid with
        | none => s
        | some j0 =>
          if !stage5Ready s sec x then s
          else if owesReceipt s j0 ∧ j0.inHash = 0 then startInputs s jid
          else if owesReceipt s j0 ∧ j0.inHash = 1 then s
          else
            let s0 := engineAccess s j0.imageAt.base j0.imageAt.len
            let s1 := takeSector (modJob s0 jid (withPolicy s0)) sec jid
            match getJob s1 jid, getSector s1 sec with
            | some j, some y =>
              if j.kind = .direct then
                (match j.image with
                  | some i => if directBad s1 j then failStage5 s1 jid stParam else beginJob s1 sec y j i 0
                  | none => s1)
              else
                let bs := memBytes s1 j.imageAt.base j.imageAt.len
                let st := stage5Status s1 j y bs j.imageAt.len
                if anyPoison s1 j.imageAt.base (Nat.min j.imageAt.len (fieldAt bs 8 4)) then failStage5 s1 jid 0x0120
                else if st ≠ 0 then failStage5 s1 jid st
                else
                  let i := readImage bs
                  let dense := if blobDense (jobBlob s1 j) then (allowed (jobBlob s1 j) (bs.take i.bytes)).getD 0 else 0
                  beginJob s1 sec y j i dense
            | _, _ => s1

/-! Issue. -/

/-- What the checks of a batch come to. -/
inductive Plan where
  | wait
  | refresh (op v : Nat)
  | fail (sts : List (Nat × Nat × Check))
  | go
  deriving DecidableEq, Repr

/-- Does an operand wait for a message that a RECEIVE has not yet claimed? -/
def recvPending (j : Job) (i : Image) (v : Nat) : Bool :=
  (List.range i.ops.length).any fun n => match i.ops[n]? with
    | some e => e.op == 0x11 && e.dst == v && j.opsIssued.contains n && !j.messaged.contains n && !j.skipped.contains n
    | none => false

/-- The checks of R77, R94 and R95 on one entry, with those of SEND and RECEIVE (R448, R449). -/
def fullCheck (s : State) (j : Job) (e : ImgOp) (n : Nat) : Check :=
  let c := entryCheck s j e n
  if c.status ≠ 0 then c
  else if e.op = 0x10 ∧ ((jobBind j e.srcA).isNone ∨ !isSend (roleAt s (64 * j.fn + e.galois % 64))) then { c with status := stParam, counted := true }
  else if e.op = 0x11 ∧ !recvOk s j e then { c with status := stParam, counted := true }
  else c

/-- A level or noise failure that AUTO_REFRESH may lift: the operand to refresh next, or the status that stands (R98). -/
def refreshPlan (s : State) (j : Job) (e : ImgOp) (n : Nat) (c : Check) : Nat × Option Nat :=
  if !(c.status = stLevel ∨ c.status = stNoise) ∨ !j.autoRefresh ∨ pRefreshDepth (jobObj s j) = 0 then (c.status, none)
  else
    let k := keyCheck s j (refreshKeys (pLogN (jobObj s j)))
    if k ≠ 0 then (k, none)
    else match refreshable s j e n with
      | [] => (c.status, none)
      | v :: _ =>
        let r := insertCheck s j v
        if r ≠ 0 then (r, none) else (c.status, some v)

/-- The plan for a batch (R98, R291): failures of its members' own checks arise before those for want of the key. -/
def batchPlan (s : State) (j : Job) (i : Image) (members : List Nat) : Plan :=
  let o := jobObj s j
  let es := members.filterMap fun n => (i.ops[n]?).map fun e => (n, e)
  if es.any fun p => (p.2.srcA != 0xFFFF && recvPending j i p.2.srcA) || (p.2.srcB != 0xFFFF && recvPending j i p.2.srcB) then .wait
  else
    let cs := es.map fun p => (p.1, p.2, fullCheck s j p.2 p.1)
    let key := match es.head? with
      | some p => keyCheck s j (entryKeys o p.2)
      | none => 0
    let rs := cs.map fun p => (p.1, p.2.1, p.2.2, if key ≠ 0 then (p.2.2.status, none) else refreshPlan s j p.2.1 p.1 p.2.2)
    match rs.find? fun p => p.2.2.2.2.isSome with
    | some p =>
      let v := p.2.2.2.2.getD 0
      if objReady j v then .refresh p.1 v else .wait
    | none =>
      if key = 0 ∧ rs.all (fun p => p.2.2.2.1 == 0) then
        (match es with
          | [(_, e)] => if e.op = 0x10 ∧ !objReady j e.srcA then .wait else .go
          | _ => .go)
      else
        let own := rs.filter fun p => p.2.2.2.1 != 0
        let rest := rs.filter fun p => p.2.2.2.1 == 0
        .fail (own.map (fun p => (p.1, p.2.2.2.1, p.2.2.1)) ++ rest.map fun p => (p.1, (if key ≠ 0 then key else stAbandoned), p.2.2.1))

/-- A batch fails (R78, R100, R291). -/
def failBatch (s : State) (j : Job) (i : Image) (l : List (Nat × Nat × Check)) : State :=
  let one (st : State) (p : Nat × Nat × Check) : State :=
    match i.ops[p.1]? with
    | none => st
    | some e =>
      let ab := p.2.1 == stAbandoned && p.2.2.status == 0
      let s1 := failEntry st j.id e p.1 p.2.2.first p.2.1 (if ab then false else p.2.2.counted || p.2.2.status == 0 || p.2.1 != p.2.2.status)
      if ab then modJob (bump s1 (fnBase j.fn + 0x2330)) j.id fun y => { y with stats := { y.stats with abandoned := y.stats.abandoned + 1 } }
      else s1
  let s1 := abortJob (l.foldl one s) j.id
  advance s1 j.sector

/-- Entry idx, whose batch has passed, is issued (R199, R448, R449). -/
def issueEntry (s : State) (jid idx : Nat) : State :=
  let s1 := modJob s jid fun y => { y with
    opsIssued := idx :: y.opsIssued, batch := y.batch.erase idx, opNext := idx + 1 }
  match getJob s1 jid with
  | none => s1
  | some j =>
    match j.image.bind fun i => i.ops[idx]? with
    | none => s1
    | some e =>
      if e.op = 0x10 then (match jobBind j e.srcA with
        | some b => startSend s1 j e idx b
        | none => s1)
      else if e.op = 0x11 then startRecv s1 j e idx
      else queueJobEncodes s1 jid

/-- Other jobs of a DIRECT_OP batch (R293). -/
def batchJobs (s : State) (j : Job) : List Job :=
  match j.group with
  | none => []
  | some g => s.jobs.filterMap fun p => p.2.bind fun k => if k.id ≠ j.id ∧ k.group = some g then some k else none

/-- The key passes of a refresh program, in order (R302, R309, R319): built-in, in one group of the firmware's width. -/
def refreshPasses (s : State) (j : Job) (op : Nat) (members : List Nat) : List Pass :=
  let o := jobObj s j
  let ring := Config.builtinRing (pLogN o) (((getSector s j.sector).map (·.tiles)).getD [])
  match j.key with
  | none => []
  | some k => (if op = 12 then fullSteps o else lookupSteps o).filterMap fun st =>
      (keyFind (getKeys s j.fn k).obj st.1 st.2.1).map fun ent => mkPass s j k ent st.2.2 1 (groupSize s j) (ring.drop 1) members true

/-- Passes that a job requests from the admission of stride n on, each after the last: n ciphertexts are served by each (R291). -/
def duePasses (s : State) (j : Job) (stride n : Nat) (ps : List Pass) : State :=
  match ps with
  | [] => s
  | p :: l => modJob (bumpN s (fnBase j.fn + 0x2314) n) j.id fun y => { y with
      passDue := y.passDue ++ [(stride, p)], passLeft := y.passLeft ++ l, stats := { y.stats with served := y.stats.served + n } }

/-- A batch passes: its destinations' headers are predicted, its passes are prepared (R93, R281, R291 to R293, R318, R319). -/
def passBatch (s : State) (j : Job) (i : Image) (members : List Nat) : State :=
  let hdr (st : State) (n : Nat) : State :=
    match i.ops[n]? with
    | some e =>
      let c := entryCheck s j e n
      (match c.pred with
        | some r =>
          if e.dst = 0xFFFF ∨ e.op = 0 ∨ 0x10 ≤ e.op then st
          else
            let h := goodHdr s j e.dst c.first.hdr r
            modJob st j.id fun y => { y with hdrs := tset none y.hdrs e.dst (some h), outHdr := tset none y.outHdr n (some h) }
        | none => st)
    | none => st
  let s0 := readHdrs s j (members.flatMap fun n => ((i.ops[n]?).map fun e => [e.srcA, e.srcB]).getD [])
  let s1 := members.foldl hdr s0
  let first := members.headD 0
  let e0 := (i.ops[first]?).getD ⟨0, 0, 0, 0, 0, 0, 0, 0, 0⟩
  let s2 := if e0.op = 12 ∨ e0.op = 13 then duePasses s1 j e0.first members.length (refreshPasses s j e0.op members)
    else match batchPass s j i members with
    | some p =>
      if j.passed then modJob (bump s1 (fnBase j.fn + 0x2314)) j.id fun y => { y with stats := { y.stats with served := y.stats.served + 1 } }
      else
        -- the pass of a DIRECT_OP's batch covers the largest level of its members
        let mates := if j.kind = .direct then batchJobs s1 j else []
        let p1 := mkPass s j p.key p.entry ((mates.map fun k => (operand s1 k 1).hdr.level).foldl Nat.max p.level) p.groups p.width j.kr
          p.members p.builtin
        mates.foldl (fun st k => modJob st k.id fun y => { y with passed := true }) (duePasses s1 j e0.first members.length [p1])
    | none => s1
  let s3 := if e0.op = 12 ∨ e0.op = 13 then
      (let s3 := modJob s2 j.id fun y => { y with lock := y.lock ++ [members] }
       match entryTable s j e0 first with
        | some t => modJob s3 j.id fun y => tabSettle { y with tabBatches := y.tabBatches ++ [⟨t, members, false⟩] }
        | none => s3)
    else s2
  issueEntry (modJob s3 j.id fun y => { y with batch := members }) j.id first

/-- AUTO_REFRESH inserts a refresh of operand v of entry op of job m before it (R98, R99, R320): its passes are those of a batch of
one, its stride is admitted as any other; j is the job that runs in the sector. -/
def insertRefresh (s : State) (j m : Job) (op v : Nat) : State :=
  let s1 := modJob s m.id fun y => { y with refreshing := [(op * 65536 + v, s.ftime.toNat)] }
  let s2 := modJob s1 j.id fun y => { y with refreshing := [(op * 65536 + v, s.ftime.toNat)] }
  advance (duePasses s2 j builtinStride 1 (refreshPasses s2 j 12 [builtinStride])) j.sector

/-- An inserted refresh of job j ends (R99, R320, R321): its result replaces the operand object; run is the job that has run it. -/
def endRefresh (s : State) (run j : Job) (op v tick : Nat) : State :=
  let o := jobObj s j
  let a := operand s j v
  let s0 := modJob s j.id fun y => { y with
    refreshing := []
    refreshed := y.refreshed ++ [(op, v)]
    stats := { y.stats with refreshes := y.stats.refreshes + 1, refreshTicks := y.stats.refreshTicks + (s.ftime.toNat - tick) } }
  let s1 := bump (bump (bump s0 (fnBase j.fn + 0x2038)) (fnBase j.fn + 0x2410)) (fnBase j.fn + 0x2404)
  match predict o 12 0 0 a.hdr none with
  | some r =>
    let h0 := goodHdr s j v a.hdr r
    let h := { h0 with layout := a.hdr.layout, domain := a.hdr.domain }
    (match jobBind j v with
      | some b =>
        let s2 := refreshData s1 run 12 b.addr b.addr a.hdr h [builtinStride] none
        let h1 := { h with poison := h.poison || anyPoison s2 (b.addr + 64) h.dataBytes }
        writeT (modJob s2 j.id fun y => { y with hdrs := tset none y.hdrs v (some h1) }) b.addr (plain (hdrBytes h1))
      | none => modJob s1 j.id fun y => { y with hdrs := tset none y.hdrs v (some h) })
  | none => s1

/-- The operation of a DIRECT_OP that leads a batch: the members are checked together, and one that fails abandons the rest
(R96, R291, R293; log 35). A member that has started keeps its policy (R97). -/
def issueGroup (s : State) (j : Job) (i : Image) : State :=
  let ms := j :: batchJobs s j
  let plans := ms.map fun m => (m, if m.skipped.contains 0 then .fail [] else match m.image with
    | some im => batchPlan s (if m.id = j.id then m else withPolicy s m) im [0]
    | none => .go)
  let fails (st : State) (p : Job × Plan) : State := match p.1.image, p.2 with
    | some im, .fail l => failBatch st p.1 im l
    | some im, _ => (match im.ops with
      | e :: _ => failBatch st p.1 im [(0, stAbandoned, fullCheck s p.1 e 0)]
      | [] => st)
    | none, _ => st
  if plans.any fun p => p.2 == .wait then s
  else match plans.findSome? fun p => match p.2 with
    | .refresh op v => some (p.1, op, v)
    | _ => none with
  | some (m, op, v) => insertRefresh s j m op v
  | none => if plans.all fun p => p.2 == .go then passBatch s j i [0] else plans.foldl fails s

/-- OPERATION_ISSUE (R96 to R101, R290 to R293, R448, R449): the next entry of the operation table of a sector's job, with
the batch that it begins; it waits while a refresh inserted for it runs. -/
def execOperationIssue (sec : Nat) (s : State) : StepOut :=
  .next <|
    match runningJob s sec with
    | none => s
    | some j =>
      if j.phase ≠ .running ∨ !j.refreshing.isEmpty then s
      else match j.image with
        | none => s
        | some i =>
          match (List.range i.ops.length).find? fun n => decide (j.opNext ≤ n) && !j.skipped.contains n with
          | none => modJob s j.id fun y => { y with opNext := i.ops.length }
          | some idx =>
            if j.batch.contains idx then issueEntry s j.id idx
            else if j.group.isSome ∧ !j.passed then issueGroup s j i
            else if j.group.isSome then passBatch s j i [idx]
            else
              let members := batchAt s j i idx
              match batchPlan s j i members with
              | .wait => s
              | .refresh op v => insertRefresh s j j op v
              | .fail l => failBatch s j i l
              | .go => passBatch s j i members

/-! The end of strides. -/

/-- Has an entry ended, or will it not be executed? -/
def entryOver (j : Job) (i : Image) (n : Nat) : Bool := j.skipped.contains n || entryEnded j i n

/-- Poison of operand v of entry idx as it stands now (R81): of the last earlier entry of the job that writes it, or, where there is
none, of the header in its buffer. -/
def sourcePoison (s : State) (j : Job) (i : Image) (idx v : Nat) : Bool :=
  let writers := (List.range idx).filter fun n => ((i.ops[n]?).map (·.dst)) == some v && !j.skipped.contains n &&
    (tget none j.outHdr n).isSome
  match writers.getLast? with
  | some n => ((tget none j.outHdr n).map (·.poison)).getD false
  | none => match jobBind j v with
    | some b => v != 0xFFFF && (hdrOf (memBytes s b.addr 64)).poison
    | none => false

/-- An entry's result is complete: its data, where a built-in program makes them, then its header, with poison = 1 where an operand
or the data are poisoned (R79, R81); the counts of refreshes. A later entry that writes the same object keeps its own header. -/
def finishEntry (s : State) (jid idx : Nat) : State :=
  match getJob s jid with
  | none => s
  | some j =>
    match j.image with
    | none => s
    | some i =>
      match i.ops[idx]?, tget none j.outHdr idx with
      | some e, some h =>
        let o := jobObj s j
        let a := operandAddr j e.srcA
        let src := (operandOf j e.srcA).getD (hdrOf (memBytes s a 64))
        let s1 := match jobBind j e.dst with
          | some b =>
            if e.op = 12 ∨ e.op = 13 then
              refreshData s j e.op a b.addr src h (lockOf j idx)
                ((entryTable s j e idx).bind fun t => j.table.map fun k => (idx, tEnt (getTabs s j.fn k).obj t))
            else if j.kind = .direct then builtinData s j idx e h
            else s
          | none => s
        let s2 := if e.op = 12 then bump s1 (fnBase j.fn + 0x2404)
          else if e.op = 13 then bumpN (bump s1 (fnBase j.fn + 0x2408)) (fnBase j.fn + 0x240C) (2 ^ pLogN o / 4)
          else s1
        let data := match jobBind j e.dst with
          | some b => anyPoison s2 (b.addr + 64) (Nat.min h.dataBytes (roomAt s2 j b.addr - 64))
          | none => false
        let p := h.poison || sourcePoison s j i idx e.srcA || (e.srcB != 0xFFFF && sourcePoison s j i idx e.srcB) || data
        let h1 := { h with poison := p }
        let later := (List.range i.ops.length).filter fun n =>
          decide (idx < n) && ((i.ops[n]?).map (·.dst)) == some e.dst && (j.opsIssued.contains n || j.skipped.contains n)
        let s3 := modJob s2 jid fun y => { y with
          outHdr := tset none y.outHdr idx (some h1)
          hdrs := if later.isEmpty then tset none y.hdrs e.dst (some h1) else y.hdrs }
        let s4 := if later.any (entryOver j i) then s3 else writeHdr s3 jid e.dst h1
        if p && ((jobBind j e.dst).map (·.output)).getD false then
          modJob s4 jid fun y => { y with poisoned := true, stats := { y.stats with poisonedOut := y.stats.poisonedOut + 1 } }
        else s4
      | _, _ => s
where
  /-- Address of an operand's object. -/
  operandAddr (j : Job) (v : Nat) : Nat := ((jobBind j v).map (·.addr)).getD 0
  /-- The header that the job's last entry before idx gave it; else the one in memory is still the operand's, as a refresh may be
  written over it (R321). -/
  operandOf (j : Job) (v : Nat) : Option Header :=
    match j.image with
    | some i => ((List.range idx).filter fun n => ((i.ops[n]?).map (·.dst)) == some v && !j.skipped.contains n).getLast?.bind (tget none j.outHdr)
    | none => none

/-- Entries that end with stride k, and are written now: those that are written with its entry, once all of them have ended (R79,
R319). -/
def endedBy (j : Job) (i : Image) (k : Nat) : List Nat :=
  match (i.strides[k]?).map (·.opIndex) with
  | some n => if j.skipped.contains n then [] else if entryEnded j i n then (lockOf j n).filter fun m => !j.skipped.contains m else []
  | none => []

/-- Has the built-in program that a stride stands for all its key words: no pass of it is still to come or under way? -/
def passesOver (s : State) (j : Job) (members : List Nat) : Bool :=
  !passUnderWay s j members && !j.passLeft.any fun p => p.members == members

/-- Entries end: their results are written, and the words of their passes are gone. -/
def finishAll (s : State) (jid : Nat) (es : List Nat) : State :=
  modJob (es.foldl (fun st m => finishEntry st jid m) (serveDram s)) jid fun y => { y with
    passEnded := y.passEnded.filter fun p => !p.members.any es.contains }

/-- The stride of a built-in program ends: a DIRECT_OP, an inserted refresh, or a refresh entry of an image, once its key words, its
table and its plaintext are there. None: it has not ended. -/
def builtinEnd (s : State) (j : Job) (i : Image) (k n : Nat) : Option State :=
  let free (st : State) : State := modJob st j.id fun y => { y with active := tset none y.active k none }
  if n = builtinStride then
    (if !passesOver s j [builtinStride] then none
     else
       let s1 := modJob (free s) j.id fun y => { y with refreshing := [] }
       let m := ((batchJobs s j).find? fun m => !m.refreshing.isEmpty).getD j
       match m.refreshing with
       | (c, tick) :: _ => some (modJob (endRefresh s1 j m (c / 65536) (c % 65536) tick) j.id fun y => { y with
           passEnded := y.passEnded.filter fun p => p.members != [builtinStride] })
       | [] => some s1)
  else
    let op := ((i.strides[n]?).map (·.opIndex)).getD 0
    let e := (i.ops[op]?).getD ⟨0, 0, 0, 0, 0, 0, 0, 0, 0⟩
    if !passesOver s j (lockOf j op) || (wantsEncode e && !j.encoded.contains op) || !tabReady j op then none
    else
      let s1 := modJob (free s) j.id fun y => { y with stridesDone := y.stridesDone ++ [n] }
      match getJob s1 j.id with
      | some j1 =>
        let s2 := finishAll s1 j.id (endedBy j1 i n)
        some (if j.kind = .direct then scratchCores s2 j else s2)
      | none => some s1

/-- STRIDE_END (R154, R177, R318): context k of every core of the sector has halted, or the built-in program that the stride stands
for has ended. -/
def execStrideEnd (sec k : Nat) (s : State) : StepOut :=
  .next <|
    match getSector s sec, runningJob s sec with
    | some x, some j =>
      match j.image, tget none j.active k with
      | some i, some n =>
        if n = builtinStride ∨ (((i.strides[n]?).bind fun t => i.ops[t.opIndex]?).map (isBuiltin j)).getD false then
          (match builtinEnd s j i k n with
            | some s1 => advance s1 sec
            | none => s)
        else
          let halted (g : Nat) : Bool := coreFenced s g || (getCtx (getCore s g) k).run == .halted || haltDone (getCore s g) k
          if !(x.lcores.take i.coreCount).all halted then s
          else
            let s0 := (x.lcores.take i.coreCount).foldl (fun st g =>
              if coreFenced st g || (getCtx (getCore st g) k).run == .halted then st else modCore st g finishHalts) s
            let s1 := modJob s0 j.id fun y => { y with
              stridesDone := y.stridesDone ++ [n]
              active := tset none y.active k none }
            match getJob s1 j.id with
            | some j1 => advance (finishAll s1 j.id (endedBy j1 i n)) sec
            | none => s1
      | _, _ => s
    | _, _ => s

/-- Has a job's model streamed groups? -/
def hasGroups (s : State) (j : Job) : Bool := j.model.isSome && blobGroups (jobBlob s j) != 0

/-- REFRESH_TABLE_COPY (R318): the table of the next refresh batch that needs a copy goes into its slot of every tile. -/
def execRefreshTableCopy (sec : Nat) (s : State) : StepOut :=
  .next <|
    match getSector s sec, runningJob s sec with
    | some x, some j =>
      match (List.range j.tabBatches.length).find? fun b => ((j.tabBatches[b]?).map fun t => !t.copied).getD false, j.table with
      | some b, some ts =>
        let opDone (n : Nat) : Bool := match j.image.bind fun i => i.ops[n]? with
          | some e => j.skipped.contains n || (entryStrides e).all j.stridesDone.contains
          | none => true
        let before := b < 2 || ((j.tabBatches[b - 2]?).map fun t => t.copied && t.ops.all opDone).getD true
        if !before then s
        else
          let t := ((j.tabBatches[b]?).map (·.table)).getD 0
          let q := getTabs s j.fn ts
          let e := tEnt q.obj t
          let bad := q.poisoned.contains t
          let bs : List TByte := ((q.obj.drop e.off).take e.len).map fun y => ⟨y, bad⟩
          let s1 := x.tiles.foldl (fun st tl => writeT st (tbBase tl + 0x2FC000 + 0x2000 * (b % 2)) bs) s
          let o := fnBase j.fn + 0x2318
          let s2 := modJob (regSetPair s1 o ((regPair s1 o + e.len) % 2 ^ 64)) j.id fun y => { y with
            stats := if b = 0 && y.stats.fillEnd.isNone && (!hasGroups s j || y.staged.getD 0 0 != 0) then
                { y.stats with fillEnd := some s.ftime.toNat } else y.stats
            tabBatches := ((List.range y.tabBatches.length).zip y.tabBatches).map fun p => if p.1 = b then { p.2 with copied := true } else p.2
            refreshSlots := tset none y.refreshSlots (b % 2) (some t) }
          advance s2 sec
      | _, _ => s
    | _, _ => s

end Sys2Proof.Machine
end

