-- ==== Sys2Proof/Machine/Model.lean ====
section
/-! DEFINITION. Models: the checks of a blob, placing, staging, swap-in and reload (R214 to R243), time slices (R418 to R421),
and the sector's forming again (R587, R588). -/

namespace Sys2Proof.Machine

/-! The checks of a clear blob (Table 6.4, 3 to 6). -/

/-- Check 3: header, and every section inside the blob. -/
def blobHeaderOk (b : List Byte) (received : Nat) : Bool :=
  let w (o : Nat) : Nat := fieldAt b o 4
  let inside (o n : Nat) : Bool := n == 0 || decide (blobUnit b o + n ≤ received)
  let t := blobT b
  w 0 == 0x594D4431 && w 4 == 0x00010080 && 2048 * w 8 == received && w 0x7C == crc32c (b.take 0x7C) &&
    zeroAt b [(0x40, 0x3C)] && bits (w 0x10) 15 12 == 0 && bits (w 0x10) 7 1 == 0 &&
    ([0x14, 0x18, 0x1C, 0x20, 0x24, 0x28].all fun o => bits (w o) 31 22 == 0 && blobFld b o % 2048 == 0) &&
    decide (1 ≤ tCountOf b) && decide (1 ≤ t ∧ t ≤ 400) && decide (blobAllow b ≤ 8) && decide (blobFld b 0x18 ≤ 2 ^ 20) &&
    (blobGroups b != 0 || blobFld b 0x28 == 0) &&
    inside 0x2C (32 * tCountOf b) && inside 0x30 (64 * blobAllow b) && inside 0x34 (blobFld b 0x18) &&
    inside 0x38 (t * blobFld b 0x20) && inside 0x3C (blobGroups b * t * blobFld b 0x28)
/-- Check 4: the Tile Bank map of R223. -/
def blobMapOk (b : List Byte) : Bool :=
  let st := blobFld b 0x24
  let n := blobFld b 0x28
  let l := [(blobFld b 0x14, blobFld b 0x18), (blobFld b 0x1C, blobFld b 0x20), (st, n), (st + n, n)]
  (l.all fun p => decide (p.1 + p.2 ≤ 0x300000)) &&
    (List.range 4).all fun i => (List.range i).all fun j =>
      let p := l.getD i (0, 0)
      let q := l.getD j (0, 0)
      decide (p.2 = 0 ∨ q.2 = 0 ∨ p.1 + p.2 ≤ q.1 ∨ q.1 + q.2 ≤ p.1)
/-- Check 5 on tensor entry t. A mask covers one bit for each stored value at least (log entry 28). -/
def tensorEntryOk (b : List Byte) (t : Nat) : Bool :=
  let o := tensorAt b t
  let w (k : Nat) : Nat := fieldAt b (o + k) 4
  let fmt := bits (w 0) 31 28
  let streamed := bit (w 0) 20
  let n := w 4
  let off := bits (w 0x10) 21 0
  let moff := bits (w 0x18) 21 0
  let vals := if bit (w 0) 26 then n / 2 else n
  decide (2 ≤ fmt ∧ fmt ≤ 7) && decide (bits (w 0xC) 15 0 < blobT b) && off % 32 == 0 &&
    decide (off + storedBytes fmt (bit (w 0) 27) n ≤ (if streamed then blobFld b 0x28 else blobFld b 0x20)) &&
    (!bit (w 0) 19 || (moff % 32 == 0 && decide (moff + ceilDiv vals 8 ≤ blobFld b 0x20))) &&
    (!streamed || decide (bits (w 0x14) 31 16 < blobGroups b))
/-- Check 6. -/
def blobPolicyOk (b : List Byte) (conf : Bool) : Bool :=
  let ticks (i : Nat) : Nat := fieldAt b (blobUnit b 0x30 + 64 * i + 0x30) 4
  (!blobDense b || (decide (1 ≤ blobAllow b) && (List.range (blobAllow b)).all fun i => ticks i != 0)) &&
    (!conf || (decide (1 ≤ blobAllow b) &&
      (List.range (tCountOf b)).all fun t => !bit (fieldAt b (tensorAt b t) 4) 20))
/-- Checks 3 to 6: 0, or MODEL_INVALID. -/
def blobStatus (b : List Byte) (conf : Bool) : Nat :=
  if blobHeaderOk b b.length && blobMapOk b && (List.range (tCountOf b)).all (tensorEntryOk b) && blobPolicyOk b conf then 0 else 0x0121

/-! Placing. -/

/-- Bytes of a model's blob from an offset, with the tags of the home copy; a confidential model is decrypted whole. -/
def homeRead (s : State) (q : ModelSlot) (off n : Nat) : List TByte :=
  if q.confidential then plain ((q.blob.drop off).take n)
  else readT s (q.home.base + off) n
/-- Write model tile u's public region and resident area into tile t (R226, R240). -/
def placeTile (s : State) (q : ModelSlot) (u t : Nat) : State :=
  let b := q.blob
  let s1 := writeT s (tbBase t + blobFld b 0x14) (homeRead s q (blobUnit b 0x34) (blobFld b 0x18))
  writeT s1 (tbBase t + blobFld b 0x1C) (homeRead s q (blobUnit b 0x38 + u * blobFld b 0x20) (blobFld b 0x20))
/-- Units of a model tile that hold a poisoned word. -/
def badUnits (s : State) (q : ModelSlot) (u t : Nat) : List (Nat × Nat) :=
  let units (o n : Nat) : List Nat := (List.range (blobFld q.blob n / 2048)).map (blobFld q.blob o / 2048 + ·)
  ((units 0x14 0x18 ++ units 0x1C 0x20).filter fun k => anyPoison s (tbBase t + 2048 * k) 2048).map fun k => (u, k)
/-- The poisoned units of a model follow what its tiles hold; TB_FN_MODEL_STATUS.poisoned shows them. -/
def setBadUnits (s : State) (f m : Nat) (l : List (Nat × Nat)) : State :=
  regSetFld (modModel s f m fun q => { q with poisoned := l }) (fnBase f + 0x2200) (16 + m) (16 + m) (if l.isEmpty then 0 else 1)
/-- Write some model tiles from the home copy. -/
def placeModel (s : State) (f m : Nat) (l : List (Nat × Nat)) : State :=
  let q := getModel s f m
  let s1 := l.foldl (fun st p => placeTile st q p.1 p.2) s
  let keep := q.poisoned.filter fun u => !l.any (·.1 == u.1)
  setBadUnits s1 f m (keep ++ l.flatMap fun p => badUnits s1 q p.1 p.2)

/-- Write group g of a model into the staging half of each of its tiles (R229). -/
def stageGroup (s : State) (q : ModelSlot) (g : Nat) : State :=
  let b := q.blob
  let n := blobFld b 0x28
  (tilePairs q).foldl (fun st p =>
    writeT st (tbBase p.2 + blobFld b 0x24 + g % 2 * n) (homeRead st q (blobUnit b 0x3C + (g * blobT b + p.1) * n) n)) s

/-- May group g be staged for a job: its half is empty, group 0 going first, or released (R229)? -/
def stageable (s : State) (j : Job) (g : Nat) : Bool :=
  let half := j.staged.getD (g % 2) 0
  if g = 0 then half == 0
  else if g = 1 then half == 0 && j.staged.getD 0 0 != 0
  else half == g - 1 && groupDone s j (g - 2)

/-- Group g is staged for a job; copied tells that no table copy of its fill is still to come (R232, R318). -/
def setStaged (j : Job) (g now : Nat) (copied : Bool) : Job :=
  let l := [j.staged.getD 0 0, j.staged.getD 1 0]
  { j with
    staged := l.set (g % 2) (g + 1)
    stats := { j.stats with fillEnd := if g = 0 && j.stats.fillEnd.isNone && j.stats.loadEnd != 0 && copied then some now else j.stats.fillEnd } }

/-- STAGE_GROUP (R229, R230, R232): the stager fills a half with group grp, for the running job, or during its drain for the
next job of the same model. -/
def execStageGroup (sec grp : Nat) (s : State) : StepOut :=
  .next <|
    match getSector s sec, runningJob s sec with
    | some x, some j =>
      match j.model with
      | none => s
      | some m =>
        let q := getModel s j.fn m
        if blobGroups q.blob ≤ grp ∨ !x.holder ∨ x.swapDue ∨ sectorZeroing s x then s
        else if j.phase = .running ∧ stageable s j grp then
          let s1 := stagerFill (stageGroup (serveDram s) q grp) j q grp (holdsFor s j grp)
          let copied := !((j.image.map (firstCopyDue s j)).getD false) || (tget none j.refreshSlots 0).isSome
          let s2 := modJob s1 j.id fun y => setStaged y grp s.ftime.toNat copied
          queueAllEncodes (match getJob s2 j.id with
            | some k => releaseStager s2 k
            | none => s2)
        else
          match x.queue.head?.bind (getJob s) with
          | some k =>
            if k.model = some m ∧ grp < 2 ∧ encodesDone j ∧ stageable s k grp then
              modJob (stageGroup (serveDram s) q grp) k.id fun y => setStaged y grp s.ftime.toNat true
            else s
          | none => s
    | _, _ => s

/-- Restore a suspended job (R420). -/
def restoreSaved (s : State) (n : Nat) : State :=
  match getSector s n with
  | none => s
  | some x =>
    match x.saved, x.running with
    | some e, some jid =>
      let s1 := x.savedCores.foldl (fun st p => setCore st p.1 p.2) s
      let s2 := x.savedBytes.foldl (fun st p => setByte st p.1 p.2) s1
      let s3 : State := x.savedPoison.foldl (fun st p => { st with sramPoison := tset false st.sramPoison p.1 p.2 }) s2
      let im := (getJob s3 jid).bind (·.image)
      let s4 := dropGddr (modSector s3 n fun y => { y with
        saved := none, savedCores := [], savedBytes := [], savedPoison := [], image := im }) e
      memRegs (modJob s4 jid fun y => { y with phase := .running }) x.owner
    | _, _ => s

/-- SWAP_IN (R240, R420, R568, R588): the sector's model, or the tiles of it that were replaced, are written back; then the
saved state of a suspended job is restored. A confidential home copy that does not authenticate leaves it out. -/
def execSwapIn (sec : Nat) (s : State) : StepOut :=
  .next <|
    match getSector s sec with
    | none => s
    | some x =>
      if !x.swapDue ∨ !x.holder ∨ sectorZeroing s x ∨ x.tiles.any (fun t => tilePace s t == 4) then s
      else
        let s0 := modSector (serveDram s) sec fun y => { y with swapDue := false }
        let s1 := match x.model with
          | none => s0
          | some m =>
            let q := getModel s0 x.owner m
            if q.confidential && anyPoison s0 q.home.base q.received then
              dayEvent s0 0x0304 0xFF 0 [x.owner, m]
            else if !q.refill.isEmpty then
              modModel (placeModel s0 x.owner m ((tilePairs q).filter fun p => q.refill.contains p.1)) x.owner m fun y => { y with refill := [] }
            else
              let s1 := bump (placeModel s0 x.owner m (tilePairs q)) (fnBase x.owner + 0x2210)
              let staged := ((x.running.toList ++ x.queue).filterMap (getJob s1)).flatMap fun j =>
                if j.model = some m then j.staged.filter (· != 0) else []
              staged.foldl (fun st g => stageGroup st q (g - 1)) s1
        advance (restoreSaved s1 sec) sec

/-- WEIGHT_RELOAD (R241, R356): before the sector's next job, each poisoned unit that the home copy can give is rewritten; where it
cannot give one, the model's loss is reported again. -/
def execWeightReload (sec : Nat) (s : State) : StepOut :=
  .next <|
    match getSector s sec with
    | none => s
    | some x =>
      match x.model with
      | none => s
      | some m =>
        let q := getModel s x.owner m
        if x.running.isSome ∨ !x.holder ∨ sectorZeroing s x ∨ q.poisoned.isEmpty then s
        else
          let good := q.poisoned.filter fun p => homeClean s q p.1 p.2
          let s1 := good.foldl (fun st p =>
            writeT st (tbBase (q.tiles.getD p.1 0) + 2048 * p.2) (plain ((q.blob.drop (unitSrc q.blob p.1 p.2)).take 2048))) s
          let s2 := bumpN s1 (fnBase x.owner + 0x220C) good.length
          let rest := q.poisoned.filter fun p => !good.contains p
          let lost := rest.map fun p => unitSrc q.blob p.1 p.2
          setBadUnits (match lost with
            | [] => s2
            | o :: _ => modelLost s2 x.owner m o) x.owner m rest

/-! Time slices (R419, R420). -/

/-- HIF_FN_SLICE.quantum of a function. -/
def quantumOf (s : State) (f : Nat) : Nat := Nat.max 1000 (regFld s (fnBase f + 0x20) 19 0)

/-- QUANTUM_EXPIRY (R419): the holder has held its tiles for its quantum, and another sector of the set waits. -/
def execQuantumExpiry (sec : Nat) (s : State) : StepOut :=
  .next <|
    match getSector s sec with
    | none => s
    | some x =>
      if x.holder && x.running.isSome && decide (x.heldSince + quantumOf s x.owner ≤ s.ftime.toNat) && (nextHolder s sec x.shared).isSome then
        setSector s sec (some { x with passDue := true })
      else s

/-- Is the sector's job at a suspension point (R419)? -/
def atSuspension (s : State) (x : Sector) (j : Job) : Bool :=
  ((List.range 4).all fun k => (tget none j.active k).isNone) && j.refreshing.isEmpty &&
    (x.lcores.all fun g => (getCore s g).streams.all fun p => p.1 == 7 || p.2.isNone) &&
    !(s.passes.any fun p => p.job == j.id) && !(s.encQ.any fun q => q.2.any fun r => r.job == j.id)

/-- Bytes of the save buffer, and the Tile Bank offsets outside the model's areas. -/
def freeOffsets (s : State) (x : Sector) : List Nat :=
  let areas := match x.model with
    | some m => modelAreas (getModel s x.owner m).blob
    | none => []
  (List.range 0x300000).filter fun o => !areas.any fun p => decide (p.1 ≤ o ∧ o < p.2)
def saveBytes (s : State) (x : Sector) : Nat :=
  x.lcores.length * (0x8000 + 0x4000) + x.tiles.length * (freeOffsets s x).length
/-- Is an address part of what a suspension saves? -/
def isSaved (s : State) (x : Sector) (a : Nat) : Bool :=
  match regionOf s a with
  | .cs g _ => x.lcores.contains g
  | .tb t o => x.tiles.contains t && (match x.model with
      | some m => !(modelAreas (getModel s x.owner m).blob).any fun p => decide (p.1 ≤ o ∧ o < p.2)
      | none => true)
  | _ => false

/-- SLICE_SUSPEND (R419, R420): the job is suspended, its state saved, and the tiles pass on. Where the save buffer cannot be
allocated, they stay. -/
def execSliceSuspend (sec : Nat) (s : State) : StepOut :=
  .next <|
    match getSector s sec, runningJob s sec with
    | some x, some j =>
      if !x.passDue ∨ j.phase ≠ .running ∨ !atSuspension s x j then s
      else match nextHolder s sec x.shared, takeGddr s x.owner (saveBytes s x) with
        | some k, some (e, s1) =>
          let s2 := setWaiting s1 (s1.sched.waiting.filter fun w => w.sector != sec)
          let s3 := setSector s2 sec (some { x with
            saved := some e
            savedCores := x.lcores.map fun g => (g, getCore s2 g)
            savedBytes := s2.mem.filter fun p => isSaved s2 x p.1
            savedPoison := s2.sramPoison.filter fun p => isSaved s2 x p.1 })
          let s4 := modJob (bump s3 (fnBase x.owner + 0x50)) j.id fun y => { y with
            phase := .suspended, stats := { y.stats with suspensions := y.stats.suspensions + 1 } }
          passTiles (memRegs s4 x.owner) sec k
        | _, _ => setSector s sec (some { x with passDue := false })
    | _, _ => s

/-! Forming again (R587, R588). -/

/-- The event of a fence (Table 17.7), to the owning function and to the PF. -/
def fenceEvent (s : State) (f : Option Nat) (kind cause sec unit repl : Nat) (model : Option Nat) : State :=
  let p := payload4 [kind * 2 ^ 24 + cause * 2 ^ 16 + sec % 64, unit, repl % 512, match model with
    | some m => 8 + m
    | none => 0]
  let s1 := match f with
    | some f => postEvent s f 4 p
    | none => s
  if f = some 0 then s1 else postEvent s1 0 4 p

/-- Give sector n the tiles it has left: its logical map, its width and λ (R45, R149, R587). -/
def reformSector (s : State) (n : Nat) : State :=
  match getSector s n with
  | none => s
  | some x =>
    let y := { x with
      lcores := logicalCores s ((List.range nTiles).filter x.tiles.contains)
      lambda := Nat.min (Config.lambdaOf x.tiles) 180
      reform := false }
    bindCores (setSector (unbindCores s x.tiles) n (some y)) n y

/-- SECTOR_REFORM (R585, R587): before the next job of the sector. -/
def execSectorReform (sec : Nat) (s : State) : StepOut :=
  .next <|
    match getSector s sec with
    | none => s
    | some x => if x.reform && x.running.isNone then reformSector s sec else s

/-- MODEL_TILE_REPLACE (R588): model tile u of a model's sector takes the lowest-numbered free tile, which is zeroed and
then written from the home copy. -/
def execModelTileReplace (f slot u : Nat) (s : State) : StepOut :=
  .next <|
    let q := getModel s f slot
    match (freeTiles s).find? (fun t => !s.zeroing.contains t), getSector s q.sector with
    | some t, some x =>
      if !q.loaded ∨ q.named ∨ !q.fencedTiles.contains u ∨ x.model ≠ some slot ∨ x.owner ≠ f ∨ x.running.isSome then s
      else
        let s1 := modModel s f slot fun y => { y with
          tiles := y.tiles.set u t, fencedTiles := y.fencedTiles.erase u, refill := u :: y.refill }
        let s2 := setSector s1 q.sector (some { x with
          tiles := (List.range nTiles).filter fun k => x.tiles.contains k || k == t, swapDue := true })
        let s3 := updateSector (zeroTiles (reformSector s2 q.sector) [t]) q.sector
        fenceEvent s3 (some f) 3 0 q.sector t t (some slot)
    | _, _ => s

/-! LOAD_MODEL (R222). -/

/-- Tiles that a load takes: the choice of R48, a shadow over lent tiles (R418), or none. -/
inductive TileChoice where
  | tiles (ts : List Nat)
  | shadow
  | fail (status : Nat)
  deriving DecidableEq, Repr

/-- Choose tiles for n tiles or logical cores under basic control, or check a named list (R48, R404, R418). -/
def chooseFor (s : State) (f placement : Nat) (byCores : Bool) (n : Nat) (named : Option (List Nat)) : TileChoice :=
  if !sectorRoom s f then .fail stMemory
  else
    let orShadow : TileChoice :=
      if bit (regGet s (fnBase f + 0x20)).toNat 30 && (lendable s f byCores n).isSome then .shadow else .fail stMemory
    match named with
    | some l =>
      let st := namedTiles s l
      if st = 0 then .tiles ((List.range nTiles).filter l.contains)
      else if st = stMemory then orShadow else .fail st
    | none => match chooseTiles s placement byCores n with
      | some ts => .tiles ts
      | none => orShadow

/-- Empty model slot m: its sector released, its tiles zeroed, its home copy freed, its key gone (R239, R405). -/
def dropModel (s : State) (f m : Nat) : State :=
  let q := getModel s f m
  let s1 := releaseSector s q.sector
  let s2 := dropGddr s1 q.home
  let s3 := modModel s2 f m fun _ => ModelSlot.empty
  let o := fnBase f + 0x2200
  memRegs (regSetFld (regSetFld (regSetFld s3 o m m 0) o (8 + m) (8 + m) 0) o (16 + m) (16 + m) 0) f

/-- Install a model that has passed its checks in slot m (R216 to R218, R226): its home copy, its sector, its tiles. A slot
that held a model gives that one up last. -/
def installModel (s : State) (f m : Nat) (raw : List TByte) (clear : List Byte) (conf named : Bool) (c : TileChoice) : State :=
  match takeGddr s f raw.length with
  | none => s
  | some (e, s0) =>
    let old := getModel s f m
    let s1 := writeT s0 e.base raw
    let formed : Option (Nat × State) := match c with
      | .tiles ts => some (formSector s1 f ts (some m) false)
      | .shadow => formShadow s1 f false (blobT clear) (some m) false
      | .fail _ => none
    match formed with
    | none => s
    | some (n, s2) =>
      let ts := ((getSector s2 n).map (·.tiles)).getD []
      let q : ModelSlot := {
        loaded := true, confidential := conf, blob := clear, received := raw.length, home := e
        hash := digestBytes (sha384 clear), sector := n, tiles := ts, poisoned := [], named := named, fencedTiles := [], refill := [] }
      let s3 := if old.loaded then dropGddr (releaseSector s2 old.sector) old.home else s2
      let s4 := modModel s3 f m fun _ => q
      let o := fnBase f + 0x2200
      let s5 := regSetFld (regSetFld (regSetFld s4 o m m 1) o (8 + m) (8 + m) (if conf then 1 else 0)) o (16 + m) (16 + m) 0
      let s6 := match c with
        | .tiles _ => placeModel s5 f m (tilePairs q)
        | _ => s5
      memRegs s6 f

end Sys2Proof.Machine
end

