-- ==== Sys2Proof/Machine/SecRows.lean ====
section
/-! DEFINITION. The Public-Key Engine's events, curves and signer slots, and the hash lanes (R549 to R557, R564, R573). -/

namespace Sys2Proof.Machine

/-- The engine leaves its current job; one whose requester is gone is discarded (R550). -/
def pkeDrop (s : State) (j : PkeJob) : State :=
  { s with pke := { s.pke with current := none, jobs := s.pke.jobs.filter fun x => x.id != j.id } }

/-- The end of a job, whether released, rejected or discarded: counted, and source 31 of IOD0 raised (R549, R550). -/
def pkeEnded (s : State) (j : PkeJob) : State := raiseSrc (bump (pkeDrop s j) 0x90300) 12 31

/-- PKE_YIELD (R549, R550): the current job reaches a yield point after cyc more cycles. -/
def execPkeYield (cyc : Nat) (s : State) : StepOut :=
  .next <|
    match s.pke.current.bind fun c => s.pke.jobs.find? fun j => j.id == c with
    | none => s
    | some j =>
      if j.remaining ≤ cyc then s
      else if j.owner = .nobody then pkeNext (pkeEnded s j)
      else
        let j1 := { j with remaining := j.remaining - cyc }
        let s1 : State := { s with pke := { s.pke with jobs := s.pke.jobs.map fun x => if x.id = j.id then j1 else x } }
        match pkePick s1 with
        | some k => if k.remaining < j1.remaining then pkeNext (pkeRun (bump s1 0x90308) k) else s1
        | none => s1

/-- PKE_JOB_END (R549 to R553): job j, which executes, ends; an ML-DSA block without an accepted attempt is followed by
another. -/
def execPkeJobEnd (j : Nat) (res : PkeResult) (s : State) : StepOut :=
  .next <|
    match s.pke.jobs.find? fun x => x.id == j with
    | none => s
    | some x =>
      if s.pke.current ≠ some j then s
      else if res = .extend ∧ x.op = 8 then
        bump { s with pke := { s.pke with jobs := s.pke.jobs.map fun y => if y.id = j then { y with remaining := pkeCycles 8 1 } else y } } 0x90310
      else
        let signs := x.op == 2 || x.op == 8
        let fails := signs && res == .selfFail
        let s1 := pkeEnded s x
        let s2 := if fails then dayEvent (bump s1 0x9030C) 0x0A01 12 0 [x.op, secFn s x.owner] else s1
        pkeNext (secDone s2 x.owner (if fails then stInternal else 0))

/-- DRBG_HEALTH_FAIL (R554): test 1 to 3 has failed; the engine accepts no further job. -/
def execDrbgHealthFail (test : Nat) (s : State) : StepOut :=
  .next <|
    let s1 := dayEvent (regSetFld s 0xA0000 3 3 1) 0x0A02 12 0 [test]
    let waiting := s1.pke.overflow
    waiting.foldl (fun st j => secDone st j.owner stInternal) { s1 with pke := { s1.pke with overflow := [] } }

/-- HASH_LANE_DIGEST_DONE (R556): the digest on a lane is done. -/
def execHashLaneDigestDone (lane : Nat) (s : State) : StepOut :=
  .next <|
    match tget none s.pke.lanes lane with
    | none => s
    | some h =>
      secDone (hashAssign 1 { s with pke := { s.pke with lanes := tset none s.pke.lanes lane none } }) h.owner 0

/-! Curves (R557). -/

/-- A curve record as bytes, and its field i (p, a, b or d, gx, gy, n). -/
def curveBytes (ws : List Word) : List Byte := ws.flatMap fun w => leBytes 4 w.toNat
def curveFld (b : List Byte) (i : Nat) : Nat := fieldAt b (4 + 0x44 * i) 68
/-- Form and size of a record. -/
def curveForm (b : List Byte) : Nat := bits (fieldAt b 0 4) 31 28
def curveBits (b : List Byte) : Nat := bits (fieldAt b 0 4) 9 0
def curveCof (b : List Byte) : Nat := bits (fieldAt b 0 4) 23 16

/-- Check 1 of R557. -/
def curveCheck1 (b : List Byte) : Bool :=
  let p := curveFld b 0
  let w := fieldAt b 0 4
  (curveForm b == 1 || curveForm b == 2) && bits w 27 24 == 0 && bits w 15 10 == 0 && (b.drop 0x19C).all (· == 0) &&
    decide (192 ≤ curveBits b ∧ curveBits b ≤ (if curveForm b = 2 then 255 else 521)) && bitLen p == curveBits b &&
    ([1, 2, 3, 4].all fun i => decide (curveFld b i < p)) && decide (1 ≤ curveCof b ∧ curveCof b ≤ 8)
/-- Check 3: h × n within p + 1 ± 2√p. -/
def curveCheck3 (b : List Byte) : Bool :=
  let p : Int := curveFld b 0
  let d : Int := (curveCof b * curveFld b 5 : Nat) - p - 1
  decide (d * d ≤ 4 * p)
/-- Is x a non-zero square modulo the prime p? -/
def isSquare (x p : Nat) : Bool := powMod 528 x ((p - 1) / 2) p == 1
/-- Check 4. -/
def curveCheck4 (b : List Byte) : Bool :=
  let p := Nat.max 1 (curveFld b 0)
  let a := curveFld b 1
  let c := curveFld b 2
  if curveForm b = 1 then (4 * a ^ 3 + 27 * c ^ 2) % p != 0
  else a != c && a * c % p != 0 && isSquare a p && !isSquare c p
/-- Sum of two points of a short Weierstrass curve over a prime p with coefficient a; none is the neutral element. -/
def weierAdd (p a : Nat) : Option (Nat × Nat) → Option (Nat × Nat) → Option (Nat × Nat)
  | none, q => q
  | q, none => q
  | some (x1, y1), some (x2, y2) =>
    if x1 = x2 ∧ (y1 + y2) % p = 0 then none
    else
      let l := if x1 = x2 then (3 * x1 ^ 2 + a) * powMod 528 (2 * y1 % p) (p - 2) p % p
        else (y2 + p - y1) * powMod 528 ((x2 + p - x1) % p) (p - 2) p % p
      let x3 := (l * l + 2 * p - x1 - x2) % p
      some (x3, (l * (x1 + p - x3) + p - y1) % p)
/-- Sum of two points of a twisted Edwards curve over a prime p with coefficients a and d. -/
def edwardsAdd (p a d : Nat) (u v : Nat × Nat) : Nat × Nat :=
  let k := d * (u.1 * v.1 % p) % p * (u.2 * v.2 % p) % p
  let q (n m : Nat) : Nat := n % p * powMod 528 (m % p) (p - 2) p % p
  (q (u.1 * v.2 + u.2 * v.1) (1 + k), q (u.2 * v.2 + (p - a) * (u.1 * v.1 % p)) (1 + p - k))
/-- n times a point, by the bits of n, for a law of addition with its neutral element. -/
def pointMul {α : Type} (add : α → α → α) (zero : α) (n : Nat) (g : α) : α :=
  ((List.range 528).reverse).foldl (fun r i => let r2 := add r r; if (n >>> i) % 2 = 1 then add r2 g else r2) zero
/-- Check 5: G is on the curve, it is not the neutral element, and n × G is. -/
def curveCheck5 (b : List Byte) : Bool :=
  let p := Nat.max 1 (curveFld b 0)
  let a := curveFld b 1
  let c := curveFld b 2
  let x := curveFld b 3
  let y := curveFld b 4
  let n := curveFld b 5
  if curveForm b = 1 then
    y * y % p == (x ^ 3 + a * x + c) % p && pointMul (weierAdd p a) none n (some (x, y)) == none
  else
    (a * (x * x) + y * y) % p == (1 + c * (x * x % p) * (y * y)) % p && (x, y) != (0, 1) &&
      pointMul (edwardsAdd p a c) (0, 1) n (x, y) == (0, 1)
/-- Check 6. -/
def curveCheck6 (b : List Byte) : Bool :=
  let p := curveFld b 0
  let n := Nat.max 1 (curveFld b 5)
  n != p && (List.range 20).all fun k => powMod 8 p (k + 1) n != 1 % n
/-- The checks of a record in full (R557). -/
def curveOk (ws : List Word) : Bool :=
  let b := curveBytes ws
  [curveCheck1 b, Config.curvePrimes ws, curveCheck3 b, curveCheck4 b, curveCheck5 b, curveCheck6 b].all id

/-- A record of its fields. -/
def curveRecord (form h pbits : Nat) (l : List Nat) : List Word :=
  let b := leBytes 4 (form * 2 ^ 28 + h * 2 ^ 16 + pbits) ++ l.flatMap (leBytes 68)
  (List.range 128).map fun i => BitVec.ofNat 32 (fieldAt b (4 * i) 4)
/-- The curves of slots 0 to 3: P-256, P-384, P-521 (FIPS 186-5) and edwards25519 (RFC 8032). -/
def builtinCurve (n : Nat) : List Word :=
  match n with
  | 0 =>
    let p := 2 ^ 256 - 2 ^ 224 + 2 ^ 192 + 2 ^ 96 - 1
    curveRecord 1 1 256 [p, p - 3, 0x5ac635d8aa3a93e7b3ebbd55769886bc651d06b0cc53b0f63bce3c3e27d2604b,
      0x6b17d1f2e12c4247f8bce6e563a440f277037d812deb33a0f4a13945d898c296,
      0x4fe342e2fe1a7f9b8ee7eb4a7c0f9e162bce33576b315ececbb6406837bf51f5,
      0xffffffff00000000ffffffffffffffffbce6faada7179e84f3b9cac2fc632551]
  | 1 =>
    let p := 2 ^ 384 - 2 ^ 128 - 2 ^ 96 + 2 ^ 32 - 1
    curveRecord 1 1 384 [p, p - 3,
      0xb3312fa7e23ee7e4988e056be3f82d19181d9c6efe8141120314088f5013875ac656398d8a2ed19d2a85c8edd3ec2aef,
      0xaa87ca22be8b05378eb1c71ef320ad746e1d3b628ba79b9859f741e082542a385502f25dbf55296c3a545e3872760ab7,
      0x3617de4a96262c6f5d9e98bf9292dc29f8f41dbd289a147ce9da3113b5f0b8c00a60b1ce1d7e819d7a431d7c90ea0e5f,
      0xffffffffffffffffffffffffffffffffffffffffffffffffc7634d81f4372ddf581a0db248b0a77aecec196accc52973]
  | 2 =>
    let p := 2 ^ 521 - 1
    curveRecord 1 1 521 [p, p - 3,
      0x51953eb9618e1c9a1f929a21a0b68540eea2da725b99b315f3b8b489918ef109e156193951ec7e937b1652c0bd3bb1bf073573df883d2c34f1ef451fd46b503f00,
      0xc6858e06b70404e9cd9e3ecb662395b4429c648139053fb521f828af606b4d3dbaa14b5e77efe75928fe1dc127a2ffa8de3348b3c1856a429bf97e7e31c2e5bd66,
      0x11839296a789a3bc0045c8a5fb42c7d1bd998f54449579b446817afbd17273e662c97ee72995ef42640c550b9013fad0761353c7086a272c24088be94769fd16650,
      2 ^ 521 - 2 ^ 264 + 0xfa51868783bf2f966b7fcc0148f709a5d03bb5c9b8899c47aebb6fb71e91386409]
  | 3 =>
    let p := 2 ^ 255 - 19
    curveRecord 2 8 255 [p, p - 1, 0x52036cee2b6ffe738cc740797779e89800700a4d4141d8ab75eb4dca135978a3,
      0x216936d3cd6e53fec0a4e231fdd6dc5c692cc7609525a7b2c9562d608f25d51a,
      0x6666666666666666666666666666666666666666666666666666666666666658,
      0x1000000000000000000000000000000014def9dea2f79cd65812631a5cf5d3ed]
  | _ => []
/-- The record of a curve slot; an empty slot reads as zeros. -/
def curveAt (s : State) (slot : Nat) : List Word := if slot < 4 then builtinCurve slot else tget [] s.pke.curves slot

/-- Is a loaded slot named by a job of the engine or by a signer slot (R557)? -/
def curveInUse (s : State) (slot : Nat) : Bool :=
  ((s.pke.jobs ++ s.pke.overflow).any fun j => j.curve == some slot) ||
    s.fns.any fun p => p.2.signers.any fun q => match q.2 with
      | some (alg, _) => alg == 0x10 + (slot - 4)
      | none => false
/-- Is a curve load running: commands are then discarded (Table 16.12)? -/
def curveBusy (s : State) : Bool := bit (regGet s 0x9000C).toNat 16
/-- Write PKE_CURVE_STATUS.result. -/
def curveResult (s : State) (st : Nat) : State := regSetFld s 0x9000C 15 0 st

/-- Load a curve (R557). Slots 0 to 3 cannot be changed: the command is discarded. -/
def curveLoad (s : State) (slot : Nat) : State :=
  if curveBusy s ∨ slot < 4 ∨ 8 ≤ slot then s
  else if curveInUse s slot then curveResult s 0x0605
  else if drbgFault s then curveResult s stInternal
  else
    let ws := (List.range 128).map fun w => regGet s (0x90100 + 4 * w)
    pkeSubmit (regSetFld { s with pke := { s.pke with checking := some (slot, ws) } } 0x9000C 16 16 1) .curve 10 0 none
/-- Empty a curve slot. -/
def curveClear (s : State) (slot : Nat) : State :=
  if curveBusy s ∨ slot < 4 ∨ 8 ≤ slot then s
  else if curveInUse s slot then curveResult s 0x0605
  else curveResult (regSetFld { s with pke := { s.pke with curves := tset [] s.pke.curves slot [] } } 0x9000C (24 + slot) (24 + slot) 0) 0
/-- Copy a slot's record into PKE_CURVE_DATA. -/
def curveRead (s : State) (slot : Nat) : State :=
  if curveBusy s ∨ 8 ≤ slot then s
  else (List.range 128).foldl (fun st w => regSet st (0x90100 + 4 * w) ((curveAt s slot).getD w 0)) s

/-- CURVE_LOAD, CURVE_CLEAR and CURVE_READ (R557, R573). -/
def execCurveLoad (slot : Nat) (s : State) : StepOut := .next (curveLoad s slot)
def execCurveClear (slot : Nat) (s : State) : StepOut := .next (curveClear s slot)
def execCurveRead (slot : Nat) (s : State) : StepOut := .next (curveRead s slot)

/-- CURVE_CHECK_END (R557): the check of the record being loaded has run in full. -/
def execCurveCheckEnd (s : State) : StepOut :=
  .next <|
    match s.pke.checking with
    | none => s
    | some (slot, ws) =>
      if (s.pke.jobs ++ s.pke.overflow).any fun j => j.owner == .curve then s
      else
        let s1 := regSetFld { s with pke := { s.pke with checking := none } } 0x9000C 16 16 0
        if curveOk ws then
          curveResult (regSetFld { s1 with pke := { s1.pke with curves := tset [] s1.pke.curves slot ws } } 0x9000C (24 + slot) (24 + slot) 1) 0
        else curveResult s1 0x0604

/-! Signer slots (R564). -/

/-- Algorithm codes of Table 16.6. -/
def algOk (a : Nat) : Bool := decide (1 ≤ a ∧ a ≤ 7) || decide (0x10 ≤ a ∧ a ≤ 0x13)
/-- Are function f's signer slots locked? -/
def signerLocked (s : State) (f : Nat) : Bool := bit (regGet s (0xA0100 + 4 * f)).toNat 8
/-- Replace a signer slot; SEC_FNf_CTRL.signer_valid follows. -/
def setSigner (s : State) (f slot : Nat) (x : Option (Nat × List Byte)) : State :=
  let s1 := modFn s f fun y => { y with signers := tset none y.signers slot x }
  regSetFld s1 (0xA0100 + 4 * f) (4 + slot) (4 + slot) (if x.isSome then 1 else 0)
/-- Store SEC_SIGNER_ALG and SEC_SIGNER_Dw in a slot. -/
def signerWrite (s : State) (f slot : Nat) : State :=
  if signerLocked s f then regSetFld s 0xA001C 0 0 1
  else
    let a := regFld s 0xA0014 7 0
    if !algOk a ∨ 64 ≤ f ∨ 4 ≤ slot then s
    else setSigner s f slot (some (a, (List.range 12).flatMap fun w => leBytes 4 (regGet s (0xA0040 + 4 * w)).toNat))
/-- Invalidate a slot. -/
def signerClear (s : State) (f slot : Nat) : State :=
  if signerLocked s f then regSetFld s 0xA001C 0 0 1
  else if 64 ≤ f ∨ 4 ≤ slot then s else setSigner s f slot none
/-- Copy a slot into SEC_SIGNER_ALG and SEC_SIGNER_Dw. -/
def signerRead (s : State) (f slot : Nat) : State :=
  let x := tget none (getFn s f).signers slot
  let (a, d) := x.getD (0, [])
  let s1 := regSetFld (regSetFld s 0xA0014 7 0 a) 0xA001C 31 31 (if x.isSome then 1 else 0)
  (List.range 12).foldl (fun st w => regSet st (0xA0040 + 4 * w) (BitVec.ofNat 32 (fieldAt d (4 * w) 4))) s1

/-- SIGNER_WRITE, SIGNER_CLEAR and SIGNER_READ (R564, R573). -/
def execSignerWrite (f slot : Nat) (s : State) : StepOut := .next (signerWrite s f slot)
def execSignerClear (f slot : Nat) (s : State) : StepOut := .next (signerClear s f slot)
def execSignerRead (f slot : Nat) (s : State) : StepOut := .next (signerRead s f slot)

end Sys2Proof.Machine
end

