-- ==== Sys2Proof/Machine/Loads.lean ====
section
/-! DEFINITION. LOAD_PARAMS, LOAD_KEYS and LOAD_MODEL (R67 to R75, R83 to R90, R222, R275, R298, R315, R317, R422, R563 to
R568): the object comes in whole, then its checks, then its effect. -/

namespace Sys2Proof.Machine

/-! The object. -/

/-- Is a transfer one of a descriptor's? -/
def xferIs (d : Desc) (x : Xfer) : Bool := x.fn == d.fn && x.ring == d.ring && x.index == d.index
/-- The transfer of a descriptor. -/
def xferOf (s : State) (d : Desc) : Option Xfer := s.xfers.find? (xferIs d)
/-- Drop it. -/
def dropXfer (s : State) (d : Desc) : State := { s with xfers := s.xfers.filter fun x => !xferIs d x }
/-- Hold an object that was read on the device. -/
def holdObject (s : State) (d : Desc) (bs : List TByte) : State :=
  let x : Xfer := ⟨s.xferSeq, s.xferSeq / 2 ^ 16 % 2 ^ 16, d.fn, d.ring, d.index, bs.length, tsetRun none [] 0 (bs.map some)⟩
  setPhase { s with xfers := s.xfers ++ [x], xferSeq := s.xferSeq + 1 } d (.arrived x.id)
/-- Begin to bring in n bytes from a descriptor's source reference. -/
def fetchObject (s : State) (d : Desc) (n : Nat) : State :=
  let r := refAt d.bytes 8
  if r.kind = 0 then startXfer s d (refHost r) n
  else
    let (st, a) := refAddr s d.fn r n false
    if st ≠ 0 then failDesc s d.fn d.ring d.index st else
      let s1 := engineAccess s a n
      holdObject s1 d (readT s1 a n)
/-- A load ends: the held object goes, the descriptor completes, a front mirrors object and effect. -/
def endLoad (s : State) (d : Desc) (status lo : Nat) : State :=
  completeWith (dropXfer s d) d.fn d.ring d.index status lo 0 [] (((xferOf s d).map fun x => (xferBytes x).map (·.b)).getD [])

/-- A load row: the source is read, then the checks run on the whole object, then, after work of the security unit, the
end. A descriptor in another phase waits. -/
def loadRow (t : Nat) (len : List Byte → Nat) (check : State → Desc → List TByte → State)
    (finish : State → Desc → Nat → List TByte → State) (f r i : Nat) (s : State) : State :=
  match rowDesc s f r i t with
  | none => s
  | some d =>
    let s1 := if d.phase = .fetched then fetchObject s d (len d.bytes) else s
    match findDesc s1 f r i with
    | none => s1
    | some e => match e.phase, xferOf s1 e with
      | .arrived _, some x => check s1 e (xferBytes x)
      | .security 0 bad, some x => finish s1 e bad (xferBytes x)
      | _, _ => s1

/-- Length field of LOAD_KEYS and LOAD_MODEL. -/
def loadLength (b : List Byte) : Nat := ow b 0x18 + ow b 0x1C * 2 ^ 32
/-- Dies that a placement gives an object. -/
def placementDies (p : Nat) : List Nat := if p = 1 then [0] else if p = 2 then [1] else [0, 1]

/-! Parameter sets. -/

/-- Registers that show a parameter-set slot (Tables 2.14 and 2.15). -/
def paramRegs (s : State) (f n gen : Nat) (loaded below : Bool) : State :=
  let o := fnBase f + 0x2000
  let b (x : Bool) : Nat := if x then 1 else 0
  let s1 := regSetFld (regSetFld s (o + 4) n n (b loaded)) (o + 4) (16 + n) (16 + n) (b below)
  let k := 16 * (n % 2)
  regSetFld s1 (o + 0x10 + 4 * (n / 2)) (k + 15) k gen
/-- Change a parameter-set slot. -/
def setParam (s : State) (f n : Nat) (x : ParamSlot) : State :=
  modFn s f fun y => { y with params := tset ParamSlot.empty y.params n x }

/-- Install a set that has passed every check (R73 to R75, R275). -/
def installParams (s : State) (d : Desc) (n : Nat) (o : List Byte) (conv : List (Nat × Extent)) : State :=
  let f := d.fn
  let old := getParam s f n
  let gen := if old.lastGen = 0xFFFF then 1 else old.lastGen + 1
  let below := !pMeetsFloor o
  let s1 := conv.foldl (fun st e => setBytes st e.2.base (convBlock o)) (dropHbm s old.conv)
  let s2 := hbmRegs (setParam s1 f n ⟨gen, true, o, below, conv⟩) f
  let s3 := paramRegs s2 f n gen true below
  let s4 := if below then dayEvent (bump s3 (fnBase f + 0x2044)) 0x0501 0xFF 0 [f, n, pTotalBits o] else s3
  endLoad s4 d 0 gen

/-- The checks of Table 2.3 and the load. -/
def checkParams (s : State) (d : Desc) (bs : List TByte) : State :=
  let f := d.fn
  let n := bits (ow d.bytes 0x14) 3 0
  let o := bs.map (·.b)
  let st := paramChecks (bit (regGet s (fnBase f + 0x2000)).toNat 5) o
  if st ≠ 0 then endLoad s d st 0
  else match takeHbm true ((placementDies d.placement).map fun p => (p, convBytes o)) s with
    | none => endLoad s d stMemory 0
    | some (conv, s1) => if paramInUse s f n then endLoad s d 0x0118 0 else installParams s1 d n o conv

/-- LOAD_PARAMS (R70 to R75, R275). -/
def execLoadParams (f r i : Nat) (s : State) : StepOut :=
  .next (loadRow 1 (fun _ => 0x400) checkParams (fun s _ _ _ => s) f r i s)

/-! Key sets and table sets. -/

/-- Change a key-set slot, and a table-set slot. -/
def setKeys (s : State) (f k : Nat) (x : KeySlot) : State := modFn s f fun y => { y with keys := tset KeySlot.empty y.keys k x }
def setTabs (s : State) (f k : Nat) (x : TableSlot) : State :=
  modFn s f fun y => { y with tables := tset TableSlot.empty y.tables k x }
/-- JOB_KEYSET_LOADED and KSE_FN_POISONED bits of a slot. -/
def keyLoadedReg (s : State) (f k : Nat) (v : Bool) : State :=
  regSetFld s (fnBase f + 0x2008 + 4 * (k / 32)) (k % 32) (k % 32) (if v then 1 else 0)
def keyPoisonReg (s : State) (f k : Nat) (v : Bool) : State :=
  regSetFld s (fnBase f + 0x2308 + 4 * (k / 32)) (k % 32) (k % 32) (if v then 1 else 0)

/-- Does a LOAD_KEYS repair the set in its slot (R298)? -/
def isRepair (s : State) (f k : Nat) (o : List Byte) : Bool := (getKeys s f k).loaded && kCrc (getKeys s f k).obj == kCrc o
/-- Rewrite the poisoned entries whose data the object has again (R298). -/
def repairKeys (s : State) (d : Desc) (k : Nat) (bs : List TByte) : State :=
  let f := d.fn
  let q := getKeys s f k
  let p := keyParam s f k
  let o := bs.map (·.b)
  let todo := q.poisoned.filter fun e => (kEnt o e).crc == (kEnt q.obj e).crc
  let s1 := todo.foldl (fun st e =>
    let en := kEnt q.obj e
    let st1 := (List.range en.len).foldl (fun m i => match keyAddr p q (en.off + i) with
      | some a => writeT m a [bs.getD (en.off + i) ⟨0, false⟩]
      | none => m) st
    bump st1 (fnBase f + 0x2334)) s
  let left := q.poisoned.filter fun e => !todo.contains e
  let s2 := keyPoisonReg (setKeys s1 f k { q with poisoned := left }) f k (!left.isEmpty)
  endLoad s2 d 0 0
/-- Does a pass read a key set? -/
def keyRead (s : State) (f k : Nat) : Bool := s.passes.any fun p => p.fn == f && p.key == k && p.active

/-- Steps 6 and 7 of R87, and the load. A repair waits while a pass reads the set. -/
def placeKeys (s : State) (d : Desc) (bs : List TByte) : State :=
  let f := d.fn
  let k := bits (ow d.bytes 0x14) 21 16
  let n := bits (ow d.bytes 0x14) 3 0
  let p := (getParam s f n).obj
  let o := bs.map (·.b)
  let repair := isRepair s f k o
  if repair && keyRead s f k then s
  else match takeHbm false ([0, 1].map fun die => (die, pieceSize (keyPieces p o d.placement die))) s with
    | none => endLoad s d stMemory 0
    | some (ext, s1) =>
      if repair then repairKeys s d k bs
      else if keyInUse s f k then endLoad s d 0x0303 0
      else
        let s2 := putShares (dropHbm s1 (getKeys s f k).extents) bs (keyPieces p o d.placement) ext
        let s3 := setKeys s2 f k ⟨true, o, n, d.placement, ext, []⟩
        endLoad (keyPoisonReg (keyLoadedReg (hbmRegs s3 f) f k true) f k false) d 0 0

/-- The checks of R317 and the load of a table set. -/
def checkTables (s : State) (d : Desc) (bs : List TByte) : State :=
  let f := d.fn
  let k := bits (ow d.bytes 0x14) 21 16
  let p := (getParam s f (bits (ow d.bytes 0x14) 3 0)).obj
  let o := bs.map (·.b)
  let st := tableChecks p o
  if st ≠ 0 then endLoad s d st 0
  else if 8 ≤ k then endLoad s d stParam 0
  else match takeHbm false ([0, 1].map fun die => (die, pieceSize (tabPieces o d.placement die))) s with
    | none => endLoad s d stMemory 0
    | some (ext, s1) =>
      if tableInUse s f k then endLoad s d 0x0131 0
      else
        let s2 := putShares (dropHbm s1 (getTabs s f k).extents) bs (tabPieces o d.placement) ext
        let s3 := hbmRegs (setTabs s2 f k ⟨true, o, d.placement, ext, []⟩) f
        endLoad (regSetFld s3 (fnBase f + 0x2400) k k 1) d 0 0

/-! The signature step (R563 to R565). -/

/-- Length of a signer's key and of its signature under an algorithm code (Table 16.6), and the curve slot it loads. -/
def sigLengths (s : State) (alg : Nat) : Option (Nat × Nat × Option Nat) :=
  match alg with
  | 1 => some (65, 64, none)
  | 2 => some (97, 96, none)
  | 3 => some (133, 132, none)
  | 4 => some (32, 64, none)
  | 5 => some (1312, 2420, none)
  | 6 => some (1952, 3309, none)
  | 7 => some (2592, 4627, none)
  | _ =>
    if 0x10 ≤ alg ∧ alg ≤ 0x13 then
      let c := alg - 0x0C
      let b := curveBytes (curveAt s c)
      let l := ceilDiv (curveBits b) 8
      let e := ceilDiv (curveBits b + 1) 8
      some (if curveForm b = 2 then (e, 2 * e, some c) else (1 + 2 * l, 2 * l, some c))
    else none
/-- Is a curve slot loaded? -/
def curveLoaded (s : State) (c : Nat) : Bool := decide (c < 4) || !(tget [] s.pke.curves c).isEmpty
/-- Fields of the signature block of an object. -/
def sigAlg (o : List Byte) : Nat := bits (fieldAt o (kSigOff o + 4) 4) 31 24
def sigKeyLen (o : List Byte) : Nat := bits (fieldAt o (kSigOff o + 4) 4) 15 0
def sigSigLen (o : List Byte) : Nat := bits (fieldAt o (kSigOff o + 8) 4) 15 0
def sigKey (o : List Byte) : List Byte := (o.drop (kSigOff o + 0x10)).take (sigKeyLen o)
def sigDigests (o : List Byte) : Nat := kSigOff o + 0x10 + 16 * ceilDiv (sigKeyLen o) 16
/-- Step 1: the block lies after the entries' data, in the object, with the lengths of its algorithm. -/
def sigBlockOk (s : State) (o : List Byte) : Bool :=
  let a := kSigOff o
  a % 64 == 0 && (kEnts o).all (fun e => decide (e.off + e.len ≤ a)) && decide (keyDirBytes o ≤ a) &&
    decide (sigDigests o + 48 * kCount o + sigSigLen o ≤ o.length) && fieldAt o a 4 == 0x59534731 &&
    match sigLengths s (sigAlg o) with
    | some (k, g, c) => (sigKeyLen o == k && sigSigLen o == g) || (match c with
        | some n => !curveLoaded s n
        | none => false)
    | none => false
/-- Step 2: a loaded-slot algorithm names a loaded slot. -/
def sigCurveOk (s : State) (o : List Byte) : Bool :=
  match sigLengths s (sigAlg o) with
  | some (_, _, some c) => curveLoaded s c
  | _ => true
/-- The signer's identity (R564). -/
def sigIdentity (s : State) (o : List Byte) : List Byte :=
  let rec_ := match sigLengths s (sigAlg o) with
    | some (_, _, some c) => digestBytes (sha384 (curveBytes (curveAt s c)))
    | _ => List.replicate 48 0
  digestBytes (sha384 (leBytes 1 (sigAlg o) ++ rec_ ++ sigKey o))
/-- Step 3: a signer slot holds the algorithm and the identity. -/
def sigSlotOk (s : State) (f : Nat) (o : List Byte) : Bool :=
  (getFn s f).signers.any fun p => p.2 == some (sigAlg o, sigIdentity s o)
/-- Column of Table 16.1 for an algorithm: of a loaded slot, the smallest built-in curve with at least as many bits. -/
def sigCol (s : State) (alg : Nat) : Nat :=
  if alg ≤ 3 then alg - 1
  else if 5 ≤ alg ∧ alg ≤ 7 then alg - 5
  else if 0x10 ≤ alg then
    (let b := curveBits (curveBytes (curveAt s (alg - 0x0C)))
     if b ≤ 256 then 0 else if b ≤ 384 then 1 else 2)
  else 0
/-- Public-key jobs of steps 4 and 5: rows of Table 16.1. -/
def sigOps (s : State) (alg : Nat) : List Nat :=
  if alg = 4 then [3] else if 5 ≤ alg ∧ alg ≤ 7 then [7]
  else if 0x10 ≤ alg ∧ curveForm (curveBytes (curveAt s (alg - 0x0C))) = 2 then [1] else [5, 1]
/-- Step 6: each entry's data hash to its digest. -/
def sigDigestsOk (o : List Byte) : Bool :=
  (List.range (kCount o)).all fun i =>
    let e := kEnt o i
    digestBytes (sha384 ((o.drop e.off).take e.len)) == (o.drop (sigDigests o + 48 * i)).take 48
/-- The signature step fails (R565). -/
def sigReject (s : State) (d : Desc) : State := endLoad (bump s 0xA0200) d stPkeReject 0

/-- Steps 1 to 5 of R87 on a key set, or R317 on a table set. -/
def checkKeys (s : State) (d : Desc) (bs : List TByte) : State :=
  let f := d.fn
  let o := bs.map (·.b)
  if ow o 0 = 0x59544231 then checkTables s d bs
  else
    let st := keyChecks (getParam s f (bits (ow d.bytes 0x14) 3 0)).obj o
    let pol := (regGet s (fnBase f + 0x2000)).toNat
    let required := bit pol 3 || bit pol 4
    if st ≠ 0 then endLoad s d st 0
    else if !kSigned o then (if required then sigReject s d else placeKeys s d bs)
    else if !(sigBlockOk s o && sigCurveOk s o && sigSlotOk s f o) then sigReject s d
    else
      let owner := SecOwner.desc f d.ring d.index
      let ops := sigOps s (sigAlg o)
      let curve := (sigLengths s (sigAlg o)).bind fun x => x.2.2
      let s1 := setPhase s d (.security (ops.length + kCount o) 0)
      let s2 := ops.foldl (fun m op => pkeSubmit m owner op (sigCol s (sigAlg o)) curve) s1
      hashSubmit s2 owner ((kEnts o).map (·.len))
/-- The signature step has run in full. -/
def finishKeys (s : State) (d : Desc) (bad : Nat) (bs : List TByte) : State :=
  let o := bs.map (·.b)
  if bad ≠ 0 then endLoad s d bad 0
  else if !(Config.signerKeyValid o && Config.signatureValid o) then sigReject (bump s 0x90304) d
  else if !sigDigestsOk o then sigReject s d
  else placeKeys s d bs

/-- LOAD_KEYS (R87, R88, R298, R317, R565). -/
def execLoadKeys (f r i : Nat) (s : State) : StepOut := .next (loadRow 2 loadLength checkKeys finishKeys f r i s)

/-! Models. -/

/-- Step 1 of R567. -/
def envelopeOk (o : List Byte) : Bool :=
  let clear := fieldAt o 8 8
  let t := ceilDiv clear (2 ^ 20)
  let kem := bits (ow o 4) 3 0
  bits (ow o 4) 31 16 == 1 && bits (ow o 4) 15 4 == 0 && decide (1 ≤ kem ∧ kem ≤ 3) &&
    zeroAt o [(0x1C, 4), (0x81, 0x1F), (0x6C0, 0x140)] && clear % 2048 == 0 && o.length == 0x800 + up2k (16 * t) + clear
/-- Tiles named by an expert LOAD_MODEL or SECTOR_FORM: n 16-bit numbers in a buffer, or a status (R404). -/
def tileList (s : State) (f h n : Nat) : Nat × List Nat :=
  let (st, b) := resolve s f h
  if st ≠ 0 then (st, [])
  else if b.size < 2 * n then (stParam, [])
  else (0, (List.range n).map fun i => leNat (memBytes s (b.base + 2 * i) 2))

/-- Checks 3 to 8 of Table 6.4 and the load. -/
def placeBlob (s : State) (d : Desc) (raw : List TByte) (clear : List Byte) (conf : Bool) : State :=
  let f := d.fn
  let m := bits (ow d.bytes 0x14) 2 0
  let h := ow d.bytes 0x20
  let st := blobStatus clear conf
  if st ≠ 0 then endLoad s d st 0
  else
    let (lst, l) := if h = 0 then (0, []) else tileList s f h (blobT clear)
    if lst ≠ 0 then endLoad (countOutcome s f lst) d lst 0
    else match chooseFor s f (placementOf s f) false (blobT clear) (if h = 0 then none else some l) with
      | .fail e => endLoad s d e 0
      | c =>
        if modelInUse s f m then endLoad s d 0x0124 0
        else if (match c with
          | .tiles ts => ts.any fun t => s.zeroing.contains t
          | _ => false) then s
        else endLoad (installModel s f m raw clear conf (h ≠ 0) c) d 0 0

/-- Checks 1 and 2 of Table 6.4: room for the home copy, then the envelope's public checks and the security unit's work. -/
def checkModel (s : State) (d : Desc) (bs : List TByte) : State :=
  let raw := bs.map (·.b)
  let f := d.fn
  if (takeGddr s f raw.length).isNone then endLoad s d stMemory 0
  else if ow raw 0 ≠ 0x59454E31 then placeBlob s d bs raw false
  else if !envelopeOk raw then endLoad s d 0x0602 0
  else
    let owner := SecOwner.desc f d.ring d.index
    let kem := bits (ow raw 4) 3 0
    let ops := (if bit kem 0 then [4] else []) ++ (if bit kem 1 then [6] else [])
    let s1 := setPhase s d (.security (ops.length + 1) 0)
    hashSubmit (ops.foldl (fun m op => pkeSubmit m owner op (if op = 4 then 1 else 2) none) s1) owner [fieldAt raw 8 8]
/-- The envelope has been worked through (R567). -/
def finishModel (s : State) (d : Desc) (bad : Nat) (bs : List TByte) : State :=
  let raw := bs.map (·.b)
  if bad ≠ 0 then endLoad s d bad 0
  else if bit (ow raw 4) 0 && !Config.ephValid raw then endLoad (bump s 0x90304) d stPkeReject 0
  else match Config.openEnvelope raw with
    | none => endLoad (bump s 0xA0208) d 0x0603 0
    | some clear =>
      let s1 := bump s 0xA0204
      if (takeGddr s1 d.fn raw.length).isNone then endLoad s1 d stMemory 0 else placeBlob s1 d bs clear true

/-- LOAD_MODEL (R214 to R222, R404, R418, R567). -/
def execLoadModel (f r i : Nat) (s : State) : StepOut := .next (loadRow 3 loadLength checkModel finishModel f r i s)

end Sys2Proof.Machine
end

