-- ==== Sys2Proof/Machine/RegAccess.lean ====
section
/-! DEFINITION. Register accesses by field access types (R15 to R20): what a word reads as, what a write leaves, register
pairs with each master's shadow and holding register, and the registers whose value follows from other state. -/

namespace Sys2Proof.Machine

/-- Bits of a field. -/
def fldMask (f : Fld) : Word := BitVec.ofNat 32 ((2 ^ (f.hi + 1 - f.lo) - 1) * 2 ^ f.lo)
/-- Fields of the register at an offset; none for a reserved offset. -/
def fldsAt (o : Nat) : List Fld := match regAt o with
  | some (fs, _) => fs
  | none => []
/-- Mask of the fields of some access types. -/
def maskOfAcc (fs : List Fld) (p : Acc → Bool) : Word := (fs.filter fun f => p f.acc).foldl (fun m f => m ||| fldMask f) 0

/-- What a word becomes when v is written to it (Table 0.3): RW takes the value, W1C clears, W1S sets; RO, WO and RC
keep what hardware holds; reserved bits stay. -/
def fieldWrite (fs : List Fld) (old v : Word) : Word :=
  let rw := maskOfAcc fs (· == .rw)
  let c := maskOfAcc fs (· == .w1c)
  let t := maskOfAcc fs (· == .w1s)
  ((((old &&& ~~~rw) ||| (v &&& rw)) &&& ~~~(v &&& c)) ||| (v &&& t))

/-- What a word reads as: WO and reserved bits as zero (R15, R16). -/
def fieldRead (fs : List Fld) (w : Word) : Word := w &&& maskOfAcc fs (· != .wo)
/-- What a read leaves: RC fields cleared. -/
def fieldClear (fs : List Fld) (w : Word) : Word := w &&& ~~~maskOfAcc fs (· == .rc)

/-- Master number of shadows and holding registers (R20): 0 the host, 1 the sideband port, 2 on a processor of the Y25. -/
def masterNo : Master → Nat
  | .bar0 _ => 0
  | .proc .host => 0
  | .proc .sideband => 1
  | .proc (.dieSeq d) => 2 + d
  | .proc (.ioSeq i) => 14 + i
  | .proc (.keeper i) => 16 + i

/-- Function whose register space an offset lies in. -/
def fnOfOff (o : Nat) : Option Nat := if 0x04000000 ≤ o ∧ o < 0x05000000 then some ((o - 0x04000000) / 0x40000) else none

/-- KPR_SENSOR_DATA for an index (Table 15.14). -/
def sensorData (s : State) (i : Nat) : Nat :=
  let q := tget Quantity.none s.keeper.q i
  let low (x : Int) : Nat := (x % 65536).toNat
  low (q.last5.headD 0) * 2 ^ 16 + low (if i < 128 then q.y else q.y / 256)

/-- One bit for each of the eight table-set slots that meet a test. -/
def slotMask (p : Nat → Bool) : Nat := (List.range 8).foldl (fun m i => if p i then m + 2 ^ i else m) 0
/-- Registers whose value follows from other state: JOB_TABLE_STATUS.in_use follows the queued and running jobs (Table 9.7). -/
def liveReg (s : State) (o : Nat) : Word :=
  let n (v : Nat) : Word := BitVec.ofNat 32 v
  if o = 0x6000C then n (sensorData s (regFld s 0x60008 7 0))
  else if o = 0x2000C then tget 0 s.fab.routes (regFld s 0x20008 13 12 * 4096 + regFld s 0x20008 11 0)
  else if 0x3002C ≤ o ∧ o ≤ 0x30034 then
    (match getSched s (regFld s 0x30028 5 0) with
      | some e =>
        if o = 0x3002C then n (2 ^ 31 + e.fn * 2 ^ 24 + e.action * 2 ^ 16 + (if e.lateDrop then 2 ^ 8 else 0))
        else if o = 0x30030 then n e.t else n (e.t / 2 ^ 32)
      | none => 0)
  else if 0x80000 ≤ o ∧ o < 0x8E000 then
    (let e := (o - 0x80000) / 0x1000
     let x := (o - 0x80000) % 0x1000
     if x = 0xA00 then n (eicSummary s e)
     else if 0x908 ≤ x ∧ x < 0xA00 ∧ (x - 0x908) % 64 = 0 then n (eicStackWord s e ((x - 0x908) / 64))
     else regGet s o)
  else match fnOfOff o with
    | some f => if o = fnBase f + 0x2400 then regGet s o ||| n (2 ^ 8 * slotMask (tableInUse s f)) else regGet s o
    | none => regGet s o

/-- What an offset reads as while its function is under reset (R416): the reset value, but for reset_busy, expert and
HIF_FN_LAST_RESET. -/
def resetRead (s : State) (f o : Nat) : Word :=
  let x := o - fnBase f
  if x = 0 then (regReset o &&& ~~~(BitVec.ofNat 32 0x100)) ||| (regGet s o &&& BitVec.ofNat 32 0x100)
  else if x = 4 then BitVec.ofNat 32 0x10
  else if x = 0x2C then regGet s o
  else regReset o

/-- JOB_OBJ_POLICY as it reads: under sig_lock, sig_required reads 1 (Table 2.13, R619). -/
def policyRead (w : Word) : Word := if bit w.toNat 4 then w ||| 8 else w

/-- Value of the live word at an offset, as a read by no one in particular sees it. -/
def wordAt (s : State) (o : Nat) : Word :=
  match fnOfOff o with
  | some f =>
    if (getFn s f).resetting then resetRead s f o
    else if o = fnBase f + 0x2000 then policyRead (fieldRead (fldsAt o) (liveReg s o))
    else fieldRead (fldsAt o) (liveReg s o)
  | none => fieldRead (fldsAt o) (liveReg s o)

/-- Key of a pair's shadow and holding register. -/
def pairKey (m o : Nat) : Nat := m * 2 ^ 32 + o

/-- A 32-bit aligned read of offset o by master m: the value and what it leaves (R15, R18, R20). n is an event of the
same cycle on an RC field: the read returns the value from before it, and it is applied to the cleared field. -/
def readReg (s : State) (m o n : Nat) : Word × State :=
  match regAt o with
  | none => (0, s)
  | some (fs, .no) =>
    let v := wordAt s o
    let busy := match fnOfOff o with
      | some f => (getFn s f).resetting
      | none => false
    if busy || maskOfAcc fs (· == .rc) == 0 then (v, s)
    else (v, bumpN (regSet s o (fieldClear fs (regGet s o))) o n)
  | some (_, .lo) =>
    (wordAt s o, { s with shadows := tset (regReset (o + 4)) s.shadows (pairKey m (o + 4)) (wordAt s (o + 4)) })
  | some (_, .hi) => (tget (regReset o) s.shadows (pairKey m o), s)

/-- The holding register of a pair's _HI register (R20). -/
def holdOf (s : State) (m o : Nat) : Word := tget (regReset o) s.holds (pairKey m o)

/-- A 32-bit aligned write by master m, by its fields' access types alone (R15, R16, R20). -/
def writeFields (s : State) (m o : Nat) (v : Word) : State :=
  match regAt o with
  | none => s
  | some (fs, .no) => regSet s o (fieldWrite fs (regGet s o) v)
  | some (fs, .hi) =>
    if maskOfAcc fs (· == .rw) == 0 then s
    else { s with holds := tset (regReset o) s.holds (pairKey m o) v }
  | some (fs, .lo) =>
    if maskOfAcc fs (· == .rw) == 0 then s
    else
      let s1 := regSet s o (fieldWrite fs (regGet s o) v)
      regSet s1 (o + 4) (fieldWrite (fldsAt (o + 4)) (regGet s1 (o + 4)) (holdOf s m (o + 4)))

/-- Set bad_reg_access of the function whose BAR0 carried a write of a bad width or alignment (R19); the device register
space is the PF's. -/
def badAccess (s : State) (m : Master) : State :=
  match m with
  | .bar0 f => if (getFn s f).resetting then s else regSetFld s (fnBase f + 4) 0 0 1
  | .proc .host => regSetFld s (fnBase 0 + 4) 0 0 1
  | _ => s

/-- May a master reach an offset? BAR0 of a VF reaches its own function space; that of the PF also the device register
space (R393, R396). -/
def mayReach (m : Master) (o : Nat) : Bool :=
  match m with
  | .bar0 f => (match fnOfOff o with
      | some g => g == f
      | none => f == 0 && decide (o < 0x04000000))
  | .proc .sideband => decide (o < 0x04000000)
  | _ => true

end Sys2Proof.Machine
end

