-- ==== Sys2Proof/Machine/HostRows.lean ====
section
/-! DEFINITION. Descriptors other than loads and jobs (R404 to R407, R413, R414, R424, R476, R561, R569), rings (R427), and
BAR2 (R397). -/

namespace Sys2Proof.Machine

/-! Stopping a descriptor (R59, R407, R416, R479, R550). -/

/-- End a descriptor with a status; a silent end writes nothing to host memory. -/
def closeDesc (s : State) (d : Desc) (status : Nat) (silent : Bool) : State :=
  if silent then dropDesc s d.fn d.ring d.index else completeDesc s d.fn d.ring d.index status
/-- A capture entry no longer gathers from a bank. -/
def dropUser (s : State) (n : Nat) : State :=
  freeBanks { s with sched := { s.sched with banks := s.sched.banks.map fun p =>
    (p.1, p.2.map fun x => { x with users := x.users.filter (· != n) }) } }
/-- Stop a fetched descriptor that has not completed. A schedule entry that has fired goes on unless the owner is reset; so
does a running maintenance activity. -/
def stopDesc (s : State) (d : Desc) (status : Nat) (silent reset : Bool) : State :=
  match d.phase with
  | .job id => stopJob s id status silent
  | .scheduled n =>
    (match getSched s n with
      | none => closeDesc s d status silent
      | some e =>
        if !e.fired ∨ reset then
          (let s1 := if silent then { s with maint := { s.maint with queued := s.maint.queued.filter fun q => q.desc != some (d.fn, d.ring, d.index, n) } }
             else mntWithdraw s n status
           match findDesc s1 d.fn d.ring d.index with
           | none => s1
           | some _ =>
             let s2 := dropUser s1 n
             if silent then dropDesc (setSched s2 n none) d.fn d.ring d.index else schedEnd s2 n status)
        else mntWithdraw s n status)
  | _ =>
    let s1 := pkeCancel (dropMoves (dropXfer s d) d.fn d.ring d.index) (.desc d.fn d.ring d.index)
    let s2 : State := { s1 with sectors := tmap none (·.map fun x =>
      if x.releasing = some (d.ring * 65536 + d.index) ∧ x.owner = d.fn then { x with releasing := none } else x) s1.sectors }
    closeDesc s2 d status silent

/-- CANCEL (R407). -/
def execCancel (f r i : Nat) (s : State) : StepOut :=
  .next <|
    match rowDesc s f r i 9 with
    | none => s
    | some d =>
      match findDesc s f (bits (ow d.bytes 8) 4 0) (bits (ow d.bytes 0xC) 15 0) with
      | none => completeDesc s f r i stNoTarget
      | some e => completeDesc (stopDesc s e stCancelled false false) f r i 0

/-- FENCE (R406). -/
def execFence (f r i : Nat) (s : State) : StepOut :=
  .next <|
    match rowDesc s f r i 6 with
    | none => s
    | some d =>
      let inScope (e : Desc) : Bool := decide (e.order < d.order) && (bit (ow d.bytes 8) 0 || e.ring == r)
      if (getFn s f).descs.any inScope then s else completeDesc s f r i 0

/-! COPY. -/

/-- Status of a COPY's fields: ownership of both handles first, as at stage 3 of a job (Table 1.6). -/
def copyStatus (s : State) (d : Desc) : Nat :=
  let n := ow d.bytes 0x20
  let dst := refAt d.bytes 0x14
  let src := refAt d.bytes 8
  let sts := [if src.kind = 0 then 0 else (refAddr s d.fn src n false).1, if dst.kind = 0 then 0 else (refAddr s d.fn dst n true).1]
  if n = 0 then stParam else if sts.contains stNotOwner then stNotOwner else firstBad sts
/-- The move of a COPY. -/
def copyMove (s : State) (d : Desc) : Option Move := s.moves.find? fun m => m.owner == .copy d.fn d.ring d.index
/-- The end of a COPY: DONE, or DONE_POISONED where source bytes or host completions were poisoned (Table 0.4). To the host,
posted writes carry the bytes. -/
def copyEnd (s : State) (d : Desc) (m : Move) : State :=
  let dst := refAt d.bytes 0x14
  let s1 := dropMoves (dropXfer s d) d.fn d.ring d.index
  let st := if m.poisoned then stDonePoisoned else 0
  match m.dst with
  | none => completeWith (emit s1 (.hostWrite d.fn (refHost dst) ((moveBytes m).map (·.b)))) d.fn d.ring d.index st 0 0 [] []
  | some a =>
    let outs : List OutBind := if dst.kind = 1 then [⟨dst.lo, dst.hi, false, memBytes s a (ow d.bytes 0x20)⟩] else []
    completeWith s1 d.fn d.ring d.index st 0 0 outs []
/-- A COPY begins to move its bytes: those that have come in from the host, or reads of its source. Its reads and writes of
device memories wait in their queues like any other (R331, R338, R344 to R346). -/
def copyBegin (s : State) (d : Desc) (come : Option (List TByte)) : State :=
  let n := ow d.bytes 0x20
  let src := refAt d.bytes 8
  let dst := refAt d.bytes 0x14
  let (st, a) := if dst.kind = 0 then (0, 0) else refAddr s d.fn dst n true
  let dest := if dst.kind = 0 then none else some a
  let o := MoveOwner.copy d.fn d.ring d.index
  let mv := s.moveSeq
  if st ≠ 0 then failDesc (dropXfer s d) d.fn d.ring d.index st
  else match come with
    | some bs => moveGot (setPhase (beginMove s o dest n []) d .working) mv 0 bs
    | none => setPhase (beginMove s o dest n [((refAddr s d.fn src n false).2, 0, n)]) d .working
/-- COPY (R404, R422): its checks, then its bytes, then its completion once every request has ended. -/
def execCopy (f r i : Nat) (s : State) : StepOut :=
  .next <|
    match rowDesc s f r i 5 with
    | none => s
    | some d =>
      match d.phase with
      | .fetched =>
        (let st := copyStatus s d
         if st ≠ 0 then failDesc s f r i st
         else if !journalRoom s then s
         else if (refAt d.bytes 8).kind = 0 then startXfer (journalDesc s d) d (refHost (refAt d.bytes 8)) (ow d.bytes 0x20)
         else copyBegin (journalDesc s d) d none)
      | .arrived _ =>
        (match xferOf s d with
          | some x => copyBegin s d (some (xferBytes x))
          | none => s)
      | .working =>
        (match copyMove s d with
          | some m => if m.left = 0 then copyEnd s d m else s
          | none => s)
      | _ => s

/-! ALLOC and FREE. -/

/-- ALLOC (R360). -/
def execAlloc (f r i : Nat) (s : State) : StepOut :=
  .next <|
    match rowDesc s f r i 0x20 with
    | none => s
    | some d =>
      let size := ow d.bytes 8 + ow d.bytes 0xC * 2 ^ 32
      if size = 0 then completeDesc s f r i stParam
      else match allocBuf s f size with
        | none => completeDesc s f r i stMemory
        | some (h, s1) => completeWith s1 f r i 0 h 0 [] []

/-- Apertures that map a freed PF buffer turn OFF (R404). -/
def dropApertures (s : State) (h : Nat) : State :=
  (List.range 16).foldl (fun st a =>
    let o := fnBase 0 + 0x3000 + 8 * a
    if regFld st o 1 0 = 1 ∧ (regGet st (o + 4)).toNat = h then regSetFld st o 1 0 0 else st) s
/-- A stale handle: at most one Daymark record per function in 2^20 ticks (Table 10.11). -/
def staleRecord (s : State) (f h : Nat) : State :=
  let now := s.ftime.toNat
  if (match (getFn s f).staleMark with
    | some t => decide (now < t + 2 ^ 20)
    | none => false) then s
  else dayEvent (modFn s f fun x => { x with staleMark := some now }) 0x0401 0xFF 0 [f, h]

/-- FREE of a buffer (R361 to R363). -/
def execFreeBuffer (f r i : Nat) (s : State) : StepOut :=
  .next <|
    match rowDesc s f r i 7 with
    | none => s
    | some d =>
      if bits (ow d.bytes 0xC) 7 4 ≠ 0 then s
      else
        let h := ow d.bytes 8
        let force := bit (ow d.bytes 0xC) 0
        let b := getBuf s (hFn h) (hIdx h)
        if hFn h ≠ f ∧ !force then failDesc (dayEvent s 0x0402 0xFF 0 [f, h]) f r i stNotOwner
        else if hGen h = 0 ∨ !b.live ∨ b.gen ≠ hGen h then failDesc (staleRecord s f h) f r i stStale
        else
          let s1 := if force then dayEvent s 0x0403 0xFF 0 [hFn h, h] else s
          completeDesc (dropApertures (freeBuf s1 h) h) f r i 0

/-- Is a slot of a kind (1 parameters, 2 keys, 3 tables, 4 model) in use: the status, 0 if not (R405). -/
def slotUse (s : State) (f kind n : Nat) : Nat :=
  match kind with
  | 1 => if paramInUse s f n || roleNames s f n then 0x0118 else 0
  | 2 => if keyInUse s f n then 0x0303 else 0
  | 3 => if tableInUse s f n then 0x0131 else 0
  | _ => if modelInUse s f n then 0x0124 else 0
/-- Does a slot hold something? -/
def slotLoaded (s : State) (f kind n : Nat) : Bool :=
  match kind with
  | 1 => (getParam s f n).loaded
  | 2 => (getKeys s f n).loaded
  | 3 => (getTabs s f n).loaded
  | _ => (getModel s f n).loaded
/-- Empty a slot. -/
def emptySlot (s : State) (f kind n : Nat) : State :=
  match kind with
  | 1 =>
    let p := getParam s f n
    paramRegs (hbmRegs (setParam (dropHbm s p.conv) f n { ParamSlot.empty with lastGen := p.lastGen }) f) f n 0 false false
  | 2 =>
    keyPoisonReg (keyLoadedReg (hbmRegs (setKeys (dropHbm s (getKeys s f n).extents) f n KeySlot.empty) f) f n false) f n false
  | 3 => regSetFld (hbmRegs (setTabs (dropHbm s (getTabs s f n).extents) f n TableSlot.empty) f) (fnBase f + 0x2400) n n 0
  | _ => dropModel s f n

/-- FREE of a slot (R405). -/
def execFreeSlot (f r i : Nat) (s : State) : StepOut :=
  .next <|
    match rowDesc s f r i 7 with
    | none => s
    | some d =>
      let kind := bits (ow d.bytes 0xC) 7 4
      let n := bits (ow d.bytes 0x10) 5 0
      if kind = 0 then s
      else if [16, 64, 8, 8].getD (kind - 1) 0 ≤ n then completeDesc s f r i stParam
      else if slotUse s f kind n ≠ 0 then completeDesc s f r i (slotUse s f kind n)
      else if !slotLoaded s f kind n then failDesc s f r i stStale
      else completeDesc (emptySlot s f kind n) f r i 0

/-! Sectors. -/

/-- SECTOR_FORM (R404, R418). -/
def execSectorForm (f r i : Nat) (s : State) : StepOut :=
  .next <|
    match rowDesc s f r i 0x21 with
    | none => s
    | some d =>
      let n := bits (ow d.bytes 0xC) 8 0
      if n = 0 ∨ 400 < n then completeDesc s f r i stParam
      else
        let (lst, l) := tileList s f (ow d.bytes 8) n
        if lst ≠ 0 then failDesc s f r i lst
        else match chooseFor s f (placementOf s f) false n (some l) with
          | .fail e => completeDesc s f r i e
          | .tiles ts => (let (k, s1) := formSector s f ts none false; completeWith s1 f r i 0 k 0 [] [])
          | .shadow => (match formShadow s f false n none false with
            | some (k, s1) => completeWith s1 f r i 0 k 0 [] []
            | none => completeDesc s f r i stMemory)

/-- SECTOR_RELEASE (R404): the release waits for the sector's jobs. A model's sector is released only with its slot. -/
def execSectorRelease (f r i : Nat) (s : State) : StepOut :=
  .next <|
    match rowDesc s f r i 0x22 with
    | none => s
    | some d =>
      let n := bits (ow d.bytes 8) 5 0
      match getSector s n with
      | none => failDesc s f r i stNotOwner
      | some x =>
        if x.owner ≠ f then failDesc s f r i stNotOwner
        else if x.model.isSome then completeDesc s f r i stParam
        else if x.releasing.isSome then s
        else releaseDue (setPhase (setSector s n (some { x with releasing := some (r * 65536 + i) })) d .working) n

/-! FN_ADMIN (R413, R414). -/

/-- SET_QUOTA. -/
def execSetQuota (f r i : Nat) (s : State) : StepOut :=
  .next <|
    match rowDesc s f r i 0x23 with
    | none => s
    | some d =>
      if bits (ow d.bytes 8) 7 0 ≠ 1 then s
      else completeDesc (regSet s (fnBase (bits (ow d.bytes 8) 21 16) + 0x2500) (BitVec.ofNat 32 (ow d.bytes 0xC))) f r i 0
/-- SET_EXPERT. -/
def execSetExpert (f r i : Nat) (s : State) : StepOut :=
  .next <|
    match rowDesc s f r i 0x23 with
    | none => s
    | some d =>
      let v := ow d.bytes 0xC
      if bits (ow d.bytes 8) 7 0 ≠ 2 then s
      else if 1 < v then completeDesc s f r i stParam
      else completeDesc (regSetFld s (fnBase (bits (ow d.bytes 8) 21 16)) 8 8 v) f r i 0

/-! SCHEDULE (R476, R477). -/

/-- The checks of R476. -/
def scheduleStatus (s : State) (d : Desc) : Nat :=
  let act := bits (ow d.bytes 0x14) 7 0
  let arg := ow d.bytes 0x18
  let handle := if act = 3 then (resolve s d.fn arg).1 else 0
  if act = 0 ∨ 7 < act then 0x0140
  else if (act = 5 ∨ act = 6) ∧ d.fn ≠ 0 then 0x0141
  else if act = 4 ∧ ((getSector s (bits arg 5 0)).map (·.owner)) ≠ some d.fn then stNotOwner
  else if handle ≠ 0 then handle
  else if (getSched s (bits (ow d.bytes 8) 5 0)).isSome then 0x0803
  else 0
/-- SCHEDULE: the entry is written; a late one with late_drop is removed at once. -/
def execSchedule (f r i : Nat) (s : State) : StepOut :=
  .next <|
    match rowDesc s f r i 0x12 with
    | none => s
    | some d =>
      if d.phase ≠ .fetched then s
      else
        let st := scheduleStatus s d
        let n := bits (ow d.bytes 8) 5 0
        if st ≠ 0 then failDesc s f r i st
        else
          let now := s.ftime.toNat
          let t := ow d.bytes 0xC + ow d.bytes 0x10 * 2 ^ 32
          let late := decide (t ≤ now + 1)
          let drop := bit (ow d.bytes 0x14) 8
          let e : SchedEnt := {
            fn := f, ring := r, index := i, action := bits (ow d.bytes 0x14) 7 0, arg := ow d.bytes 0x18, t := t
            lateDrop := drop, written := now, late := late, due := false, fired := false, firedAt := 0 }
          let s1 := setPhase (setSched s n (some e)) d (.scheduled n)
          if late && drop then schedEnd (bump s1 0x30050) n 0x0802 else s1

/-! QUERY (R424, R561, R569). -/

/-- Words as bytes. -/
def wordBytes (l : List Nat) : List Byte := l.flatMap (leBytes 4)
/-- Numbers of enabled cores and tiles. -/
def enabledCores (s : State) : Nat := ((List.range nCores).filter fun g => !coreFenced s g).length
def enabledTiles (s : State) : Nat := ((List.range nTiles).filter fun t => !tileFenced s t).length
/-- A QUERY writes its result at dst, as much as fits, and completes. -/
def queryEnd (s : State) (d : Desc) (bs : List Byte) : State :=
  let dst := refAt d.bytes 0x10
  let out := bs.take (ow d.bytes 0x1C)
  let fin (s : State) : State := completeWith (dropXfer s d) d.fn d.ring d.index 0 bs.length 0 [] []
  if dst.kind = 0 then fin (if out.isEmpty then s else emit s (.hostWrite d.fn (refHost dst) out))
  else
    let (st, a) := refAddr s d.fn dst out.length true
    if st ≠ 0 then failDesc (dropXfer s d) d.fn d.ring d.index st else fin (writeT (engineAccess s a out.length) a (plain out))
/-- A QUERY of a kind: its target is checked, and its result formed. -/
def queryRow (kind : Nat) (status : State → Desc → Nat) (result : State → Desc → List Byte) (f r i : Nat) (s : State) : State :=
  match rowDesc s f r i 8 with
  | none => s
  | some d =>
    if bits (ow d.bytes 8) 7 0 ≠ kind then s
    else
      let st := status s d
      if st ≠ 0 then failDesc s f r i st else queryEnd s d (result s d)

/-- QUERY DEVICE. -/
def deviceResult (s : State) : List Byte :=
  let used := ((gddrRanges s).map (·.len)).sum
  wordBytes [0x11, enabledCores s, enabledTiles s, (regGet s 0x10000).toNat, (regGet s 0x10004).toNat, (regGet s 0x10008).toNat,
    (gddrAlloc s - used) / 2 ^ 20, 64 - sectorCount s, (freeTiles s).length]
def execQueryDevice (f r i : Nat) (s : State) : StepOut :=
  .next (queryRow 1 (fun _ _ => 0) (fun s _ => deviceResult s) f r i s)

/-- QUERY FUNCTION. -/
def functionResult (s : State) (f : Nat) : List Byte :=
  let own := (sectorsOf s f).foldl (fun a p => a ||| 2 ^ p.1) 0
  wordBytes [(regGet s (fnBase f + 0x2500)).toNat, (regGet s (fnBase f + 0x2504)).toNat, (regGet s (fnBase f + 0x2508)).toNat,
    own, own / 2 ^ 32, regFld s (fnBase f) 8 8]
def execQueryFunction (f r i : Nat) (s : State) : StepOut :=
  .next (queryRow 2 (fun _ _ => 0) (fun s d => functionResult s d.fn) f r i s)

/-- Does the function own the sector of a QUERY's target field? -/
def querySector (s : State) (d : Desc) (n : Nat) : Nat :=
  if (getSector s n).map (·.owner) = some d.fn then 0 else stNotOwner
/-- QUERY SECTOR: two tile numbers per word. -/
def sectorResult (s : State) (n : Nat) : List Byte :=
  match getSector s n with
  | none => []
  | some x =>
    let holder := if x.holder then n else (x.shared.find? fun k => ((getSector s k).map (·.holder)).getD false).getD n
    let ts := x.tiles.flatMap (leBytes 2)
    wordBytes [x.owner, x.tiles.length, x.lcores.length, x.lambda, holder] ++ ts ++ List.replicate (ts.length % 4) 0
def execQuerySector (f r i : Nat) (s : State) : StepOut :=
  .next (queryRow 3 (fun s d => querySector s d (bits (ow d.bytes 0xC) 15 0)) (fun s d => sectorResult s (bits (ow d.bytes 0xC) 15 0)) f r i s)

/-- QUERY MODEL. -/
def modelResult (s : State) (f m : Nat) : List Byte :=
  let q := getModel s f m
  if !q.loaded then List.replicate 72 0
  else wordBytes [blobT q.blob, tCountOf q.blob, blobGroups q.blob, if q.confidential then 1 else 0, q.received, q.received / 2 ^ 32] ++ q.hash
def execQueryModel (f r i : Nat) (s : State) : StepOut :=
  .next (queryRow 4 (fun _ d => if 8 ≤ bits (ow d.bytes 0xC) 15 0 then stNotOwner else 0)
    (fun s d => modelResult s d.fn (bits (ow d.bytes 0xC) 15 0)) f r i s)

/-- QUERY BUILTIN. -/
def builtinResult (s : State) (f n p : Nat) : List Byte :=
  wordBytes ((List.range 5).map fun k => (Config.builtinRing (pLogN (getParam s f p).obj) (((getSector s n).map (·.tiles)).getD [])).getD k 0)
def execQueryBuiltin (f r i : Nat) (s : State) : StepOut :=
  .next (queryRow 5
    (fun s d => firstBad [querySector s d (bits (ow d.bytes 0xC) 5 0),
      if (getParam s d.fn (bits (ow d.bytes 0xC) 11 8)).loaded then 0 else stParam])
    (fun s d => builtinResult s d.fn (bits (ow d.bytes 0xC) 5 0) (bits (ow d.bytes 0xC) 11 8)) f r i s)

/-- QUERY IDENTITY (Table 16.4). -/
def identityResult (s : State) : List Byte :=
  let key (k n : Nat) : List Byte := (Config.identityKey k ++ List.replicate n 0).take n
  wordBytes [0x59494431, 2 ^ 16] ++ serialBytes s ++ List.replicate 16 0 ++ key 0 97 ++ List.replicate 31 0 ++ key 1 97 ++
    List.replicate 31 0 ++ key 2 1568 ++ key 3 1952
def execQueryIdentity (f r i : Nat) (s : State) : StepOut :=
  .next (queryRow 7 (fun _ _ => 0) (fun s _ => identityResult s) f r i s)

/-- The signed body of an attestation report (Table 16.8). -/
def attestBody (s : State) (f : Nat) (nonce : List Byte) : List Byte :=
  let w (o : Nat) : Nat := (wordAt s o).toNat
  let kpr := w 0x60000
  let dig (b : Bool) (o : List Byte) : List Byte := digestOr (if b then some o else none)
  let body :=
    wordBytes [0x59415431, 2 ^ 16 + f] ++ serialBytes s ++ leBytes 8 s.ftime.toNat ++
    wordBytes [0x11 + bits kpr 9 8 * 2 ^ 8 + bits kpr 4 4 * 2 ^ 12, enabledCores s] ++ (nonce ++ List.replicate 32 0).take 32 ++
    (Config.bootRomDigest ++ List.replicate 48 0).take 48 ++ (Config.firmwareDigest ++ List.replicate 48 0).take 48 ++
    wordBytes [w (fnBase f + 0x2000), w (fnBase f + 0x2004), w (fnBase f + 0x2200), w (0xA0100 + 4 * f)] ++ List.replicate 16 0 ++
    ((List.range 16).flatMap fun n => dig (getParam s f n).loaded (getParam s f n).obj) ++
    ((List.range 8).flatMap fun m => if (getModel s f m).loaded then (getModel s f m).hash else List.replicate 48 0) ++
    ((List.range 4).flatMap fun n => ((tget none (getFn s f).signers n).map (·.2)).getD (List.replicate 48 0))
  (body ++ List.replicate 0x600 0).take 0x600
/-- n free bytes. -/
def freeList (s : State) (n : Nat) : List Byte × State :=
  ((List.range n).map fun i => BitVec.ofNat 8 (Config.freeValue (s.free + i)), { s with free := s.free + n })
/-- The nonce is in: the body is assembled and the two signatures are asked for (R569). -/
def attestSign (s : State) (d : Desc) (bs : List TByte) : State :=
  let owner := SecOwner.desc d.fn d.ring d.index
  let s1 := holdObject (dropXfer s d) d (plain (attestBody s d.fn (bs.map TByte.b)))
  pkeSubmit (pkeSubmit (setPhase s1 d (.security 2 0)) owner 2 1 none) owner 8 1 none
/-- The signatures are there, or one of them failed. -/
def attestEnd (s : State) (d : Desc) (bad : Nat) (bs : List TByte) : State :=
  if bad ≠ 0 then completeDesc (dropXfer s d) d.fn d.ring d.index bad
  else
    let (a, s1) := freeList s 96
    let (b, s2) := freeList s1 3309
    queryEnd (bump s2 0xA020C) d ((bs.map TByte.b ++ a ++ b ++ List.replicate 5120 0).take 5120)
/-- QUERY ATTEST: the nonce is read from dst, then the body is signed, then the report is written. -/
def execQueryAttest (f r i : Nat) (s : State) : StepOut :=
  .next <|
    match rowDesc s f r i 8 with
    | none => s
    | some d =>
      if bits (ow d.bytes 8) 7 0 ≠ 6 then s
      else
        let dst := refAt d.bytes 0x10
        match d.phase, xferOf s d with
        | .fetched, _ =>
          if dst.kind = 0 then startXfer s d (refHost dst) 32
          else
            (let (st, a) := refAddr s f dst 32 false
             if st ≠ 0 then failDesc s f r i st else
               let s1 := engineAccess s a 32
               attestSign s1 d (readT s1 a 32))
        | .arrived _, some x => attestSign s d (xferBytes x)
        | .security 0 bad, some x => attestEnd s d bad (xferBytes x)
        | _, _ => s

/-! Rings (R427). -/

/-- A write of a ring's CFG register. -/
def writeRingCfg (s : State) (f r : Nat) (v : Word) : State :=
  let o := ringReg f r 0x10
  let old := regGet s o
  let was := bit old.toNat 8
  let now := bit v.toNat 8
  if (getFn s f).resetting ∨ (was && !now && (getFn s f).descs.any fun d => d.ring == r) then s
  else
    let w := fieldWrite (fldsAt o) old v
    let s1 := regSet s o (if was then putBits w 3 0 (bits old.toNat 3 0) else w)
    if was && !now then
      ringErrors (regSetFld (regSetFld (regSetFld s1 (ringReg f r 0x14) 31 16 0) (ringReg f r 0x14) 0 0 0) (ringReg f r 0x18) 15 0 0) f
    else if now && !was then flushHeld s1 f r
    else s1
/-- RING_ENABLE: a write of CFG with en = 1. -/
def execRingEnable (f r : Nat) (v : Word) (s : State) : StepOut :=
  .next (if 64 ≤ f ∨ 17 ≤ r then s else writeRingCfg s f r (v ||| 0x100))
/-- RING_DISABLE: a write of CFG with en = 0. -/
def execRingDisable (f r : Nat) (v : Word) (s : State) : StepOut :=
  .next (if 64 ≤ f ∨ 17 ≤ r then s else writeRingCfg s f r (v &&& ~~~0x100#32))

/-! BAR2 (R397). -/

/-- Device address of BAR2 offset o, if some aperture maps it: the apertures are part of expert control of the PF (R413). -/
def aperByte (s : State) (o : Nat) : Option Nat :=
  let a := o / 2 ^ 32
  let x := o % 2 ^ 32
  let reg := fnBase 0 + 0x3000 + 8 * a
  let target := (regGet s (reg + 4)).toNat
  if 16 ≤ a ∨ !isExpert s 0 then none
  else match regFld s reg 1 0 with
    | 1 =>
      let (st, b) := resolve s 0 target
      if st = 0 ∧ x < b.size then some (b.base + x) else none
    | 2 =>
      (match getSector s (bits target 5 0) with
        | some y =>
          if y.owner ≠ 0 then none
          else if x < 2 ^ 31 then (y.lcores[x / 2 ^ 16]?).map fun g => csBase g + x % 2 ^ 16
          else (y.tiles[(x - 2 ^ 31) / 2 ^ 22]?).map fun t => tbBase t + (x - 2 ^ 31) % 2 ^ 22
        | none => none)
    | _ => none
/-- Runs of consecutive addresses under consecutive offsets: offset, address, length. -/
def runsOf (l : List (Nat × Nat)) : List (Nat × Nat × Nat) :=
  l.foldr (fun p acc => match acc with
    | (i, a, n) :: t => if i = p.1 + 1 ∧ a = p.2 + 1 then (p.1, p.2, n + 1) :: t else (p.1, p.2, 1) :: acc
    | [] => [(p.1, p.2, 1)]) []
/-- BAR2_ACCESS: n bytes from BAR2 offset off; bytes that fault read as zeros and are not written, and the access counts one
address fault (R54). The others wait in the queues of their memories (R331, R338, R344 to R346); a read is answered with
the last of them. -/
def execBar2Access (off n : Nat) (write : Bool) (data : List Byte) (s : State) : StepOut :=
  .next <|
    let n := if write then data.length else n
    let at_ (i : Nat) : Option Nat := (aperByte s (off + i)).filter fun a => accessOk s ⟨0, none, none⟩ a 1 write
    let s1 := if (List.range n).any fun i => (at_ i).isNone then bump s (fnBase 0 + 0x54) else s
    let runs := runsOf ((List.range n).filterMap fun i => (at_ i).map fun a => (i, a))
    let mv := s.moveSeq
    if write then
      bar2End (runs.foldl (fun st p => moveOut st mv p.2.1 (((data.drop p.1).take p.2.2).map fun b => ⟨b, false⟩))
        (beginMove s1 .bar2 none 0 [])) mv
    else bar2End (beginMove s1 .bar2 none n (runs.map fun p => (p.2.1, p.1, p.2.2))) mv

end Sys2Proof.Machine
end

