-- ==== Sys2Proof/Machine/Submit.lean ====
section
/-! DEFINITION. SUBMIT_CIRCUIT, DIRECT_OP and RAW_SECTOR through stages 3 and 4 (R57, R233, R293, R404, R406, R408, R409,
R570), the DIRECT_OP batch window, and BELL_POLL. -/

namespace Sys2Proof.Machine

/-- A job of a descriptor, with nothing bound yet. Sector 64 is none. -/
def blankJob (s : State) (d : Desc) (kind : JobKind) : Job where
  id := s.jobSeq
  fn := d.fn
  ring := d.ring
  index := d.index
  kind := kind
  phase := .stage4
  sector := 64
  param := 0
  key := none
  table := none
  model := none
  autoRefresh := false
  continue_ := false
  kr := [0, 0, 0, 1]
  ways := 1
  imageBuf := 0
  statsBuf := 0
  imageAt := ⟨0, 0⟩
  statsAt := ⟨0, 0⟩
  bindings := []
  image := none
  hdrs := []
  outHdr := []
  written := []
  opNext := 0
  opsIssued := []
  stridesDone := []
  active := []
  fails := []
  poisoned := false
  endAs := none
  late := false
  fault := none
  stats := { JobStats.zero with fetch := d.fetchTick }
  floor := none
  denseTicks := 0
  sliceNext := 0
  batch := []
  tabBatches := []
  refreshSlots := []
  staged := []
  encQueued := []
  encoded := []
  messaged := []
  skipped := []
  passDue := []
  passLeft := []
  passEnded := []
  lock := []
  inHash := 0
  receipt := 0
  digests := []
  imageHash := []
  sealed := 0
  ioDone := false
  secWait := 0
  queuedAt := s.ftime.toNat
  refreshing := []
  refreshed := []
  group := none
  passed := false

/-! Stage 3. -/

/-- Statuses of a list of handles: ownership of all of them first, then their generations (Table 1.6). -/
def handlesStatus (s : State) (f : Nat) (hs : List Nat) : Nat :=
  let sts := hs.map fun h => (resolve s f h).1
  if sts.contains stNotOwner then stNotOwner else firstBad sts
/-- The memory of a live buffer. -/
def bufExtent (s : State) (f h : Nat) : Extent := let b := (resolve s f h).2; ⟨b.base, b.size⟩
/-- A binding table entry (Table 12.8). -/
def bindingOf (b : List Byte) (o : Nat) : Binding :=
  let w2 := fieldAt b (o + 8) 4
  { handle := fieldAt b o 4, offset := fieldAt b (o + 4) 4, kind := bits w2 31 28, layout := bits w2 27 24, domain := bits w2 23 23
    output := bit w2 22, length := fieldAt b (o + 12) 4, addr := 0 }
/-- Is an entry well formed and inside its buffer, or the conversion block of parameter slot n (R408)? -/
def bindingOk (s : State) (f n : Nat) (rsv : Nat) (b : Binding) : Bool :=
  let x := bufExtent s f b.handle
  rsv == 0 && b.offset % 64 == 0 &&
    match b.kind with
    | 1 => b.length == 0 && decide (b.offset + 64 ≤ x.len)
    | 2 => b.length != 0 && decide (b.offset + b.length ≤ x.len)
    | 3 => b.handle == 0 && b.length == 0 && decide (b.offset < (convBlock (getParam s f n).obj).length)
    | _ => false
/-- The device address that a binding has from its buffer. -/
def placeBinding (s : State) (f : Nat) (b : Binding) : Binding :=
  if b.kind = 3 then b else { b with addr := (bufExtent s f b.handle).base + b.offset }
/-- Receipts need room in the statistics buffer (R570); statistics need 256 bytes (R409). -/
def statsStatus (s : State) (f stats : Nat) (receipts : Bool) : Nat :=
  if stats = 0 then (if receipts then stParam else 0)
  else if (bufExtent s f stats).len < (if receipts then 4352 else 256) then stParam else 0
/-- The parameter set, the key set and the table set named: loaded, and made for the parameter set. Empty key-set and
table-set slots are left to the operations' own checks. -/
def setsStatus (s : State) (f param : Nat) (key table : Option Nat) : Nat :=
  let p := getParam s f param
  let keyBad := match key with
    | some k => (getKeys s f k).loaded && (getKeys s f k).param != param
    | none => false
  let tabBad := match table with
    | some t => (getTabs s f t).loaded && ow (getTabs s f t).obj 8 != pCrc p.obj
    | none => false
  if !p.loaded || keyBad || tabBad then stParam else 0

/-- Bindings of an image job: as many as the image's header asks for, at most 1,024. -/
def readBindings (s : State) (f image table : Nat) : List (Binding × Nat) :=
  let im := bufExtent s f image
  let n := Nat.min (bits (leNat (memBytes s (im.base + 0x18) 4)) 31 16) 1024
  let bs := memBytes s (bufExtent s f table).base (16 * n)
  (List.range n).map fun k => (bindingOf bs (16 * k), bits (fieldAt bs (16 * k + 8) 4) 21 0)
/-- Does the binding table's buffer hold the bindings asked for? -/
def bindingsFit (s : State) (f image table : Nat) : Bool :=
  let im := bufExtent s f image
  decide (16 * Nat.min (bits (leNat (memBytes s (im.base + 0x18) 4)) 31 16) 1024 ≤ (bufExtent s f table).len)

/-- Stage 3's check of the parameter set against the ciphertext headers (Table 1.6): an input object's header that is intact and the
function's own, but fails check 3 of R77 against the bound slot (DEDUCED; log entry 62). -/
def headersStatus (s : State) (f param : Nat) (bs : List Binding) : Nat :=
  let q := getParam s f param
  let bad (b : Binding) : Bool :=
    let a := (placeBinding s f b).addr
    let raw := memBytes s a 64
    let h := hdrOf raw
    b.kind == 1 && !b.output && !anyPoison s a 64 && hdrFormOk raw && h.owner == f &&
      (h.gen != q.lastGen || h.dataBytes != kindBytes q.obj h || !shapeOk q.obj h)
  if bs.any bad then stParam else 0

/-- Stage 3 of an image job: the status, and the job. -/
def imageJob (s : State) (d : Desc) (j : Job) (image table stats : Nat) (model : Option Nat) (receipts : Bool) : Nat × Job :=
  let f := d.fn
  let base := [image, table] ++ (if stats = 0 then [] else [stats])
  let readable := (resolve s f image).1 = 0 ∧ (resolve s f table).1 = 0 ∧ bindingsFit s f image table
  let bs := if readable then readBindings s f image table else []
  let named := (bs.filter fun b => b.1.kind != 3).map fun b => b.1.handle
  let st := firstBad [
    handlesStatus s f (base ++ named),
    setsStatus s f j.param j.key j.table,
    (match model with
      | some m => if (getModel s f m).loaded then 0 else stParam
      | none => 0),
    if bindingsFit s f image table && bs.all (fun b => bindingOk s f j.param b.2 b.1) then 0 else stParam,
    headersStatus s f j.param (bs.map (·.1)),
    statsStatus s f stats receipts]
  let ok := stats ≠ 0 ∧ (resolve s f stats).1 = 0
  (st, { j with
    imageBuf := image, imageAt := bufExtent s f image, model := model
    statsBuf := if ok then stats else 0
    statsAt := if ok then bufExtent s f stats else ⟨0, 0⟩
    bindings := bs.map fun b => placeBinding s f b.1 })

/-- Does stage 3 owe the job a receipt? -/
def wantsReceipt (s : State) (f : Nat) : Bool := receiptsOf s f != 0

/-- SUBMIT_CIRCUIT (Table 12.7). -/
def circuitJob (s : State) (d : Desc) : Nat × Job :=
  let b := d.bytes
  let w := ow b 0x14
  let k := ow b 0x18
  let j := { blankJob s d .circuit with
    param := bits w 23 20
    key := if bit w 13 then none else some (bits w 19 14)
    table := if bit w 9 then none else some (bits w 12 10)
    autoRefresh := bit w 4
    continue_ := bit w 3
    kr := [bits k 31 16, bits k 15 9, bits k 8 6, bits k 5 1]
    ways := bits (ow b 0x1C) 4 0 }
  imageJob s d j (ow b 8) (ow b 0xC) (ow b 0x10) (if bit w 5 then none else some (bits w 8 6)) (wantsReceipt s d.fn)
/-- RAW_SECTOR. -/
def rawJob (s : State) (d : Desc) : Nat × Job :=
  let b := d.bytes
  imageJob s d { blankJob s d .raw with param := bits (ow b 0x14) 23 20 } (ow b 8) (ow b 0xC) (ow b 0x10) none false

/-- The operation entry of a DIRECT_OP (Table 12.7): bindings 0 dst, 1 src_a, 2 src_b; the target field of a refresh names
its table (R316). -/
def directEntry (b : List Byte) : ImgOp :=
  let op := bits (ow b 8) 31 24
  { op := op, first := 0, count := 1, dst := 0, srcA := 1, srcB := if ow b 0x1C = 0 then 0xFFFF else 2, galois := ow b 0x24
    tensor := if bit (ow b 0x2C) 0 then bits (ow b 0x2C) 31 16 else 0xFFFF
    target := if op = 12 ∨ op = 13 then bits (ow b 0x28) 31 16 else bits (ow b 0x28) 7 0 }
/-- The image that stands for a DIRECT_OP's built-in program: one operation of one stride (log entry 27). -/
def directImage (e : ImgOp) (cores cost : Nat) : Image := {
  bytes := 0, coreCount := cores, bindingCount := 3, paramCrc := 0, waitLimit := 0, publicBase := 0, publicBytes := 0
  classes := [], strides := [⟨0, 0, 0, cost⟩], ops := [e], chans := [], scalar := [], eprogs := [], segs := [], pub := none }
/-- Stage 3 of a DIRECT_OP. -/
def directJob (s : State) (d : Desc) : Nat × Job :=
  let f := d.fn
  let b := d.bytes
  let w := ow b 8
  let e := directEntry b
  let sec := bits w 23 18
  let tiles := ((getSector s sec).map (·.tiles)).getD []
  let logN := pLogN (getParam s f (bits w 17 14)).obj
  let ring := Config.builtinRing logN tiles
  let bind (o : Nat) (out : Bool) : Binding := {
    handle := ow b o, offset := ow b (o + 4), kind := 1, layout := if out then bits (ow b 0x34) 7 4 else 0
    domain := if out then bits (ow b 0x34) 3 3 else 0, output := out, length := 0, addr := 0 }
  let bs := [bind 0xC true, bind 0x14 false] ++ (if e.srcB = 2 then [bind 0x1C false] else [])
  let stats := ow b 0x30
  let model := if bit (ow b 0x2C) 0 then some (bits (ow b 0x2C) 10 8) else none
  let j := { blankJob s d .direct with
    param := bits w 17 14
    key := if bit w 1 then none else some (bits w 13 8)
    table := if bit w 2 then none else some (bits w 7 5)
    model := model
    autoRefresh := bit w 4
    continue_ := bit w 3
    kr := ring.drop 1
    image := some (directImage e (ring.getD 0 0) (Config.builtinCost e.op logN tiles)) }
  let st := firstBad [
    handlesStatus s f (bs.map (·.handle) ++ (if stats = 0 then [] else [stats])),
    setsStatus s f j.param j.key j.table,
    (match model with
      | some m =>
        let q := getModel s f m
        if !q.loaded ∨ tCountOf q.blob ≤ e.tensor then stParam
        else if q.confidential then 0x0123
        else if q.sector ≠ sec then stParam else 0
      | none => 0),
    if bs.all (bindingOk s f j.param 0) then 0 else stParam,
    headersStatus s f j.param bs,
    statsStatus s f stats (wantsReceipt s f)]
  let ok := stats ≠ 0 ∧ (resolve s f stats).1 = 0
  (st, { j with
    statsBuf := if ok then stats else 0
    statsAt := if ok then bufExtent s f stats else ⟨0, 0⟩
    bindings := bs.map (placeBinding s f) })

/-- A job ends with a status before it has a sector (R57): its outputs keep their headers, its statistics are written where
they can be (R409, R570). -/
def failJob (s : State) (jid st : Nat) : State := failStage5 s jid st
/-- A job fails stage 3. -/
def failStage3 (s : State) (d : Desc) (j : Job) (st : Nat) : State :=
  let s1 := countOutcome s d.fn st
  if j.statsBuf = 0 ∨ j.statsAt.len < 256 then completeDesc s1 d.fn d.ring d.index st
  else if j.kind ≠ .raw ∧ wantsReceipt s d.fn ∧ j.statsAt.len < 4352 then
    completeDesc (writeT s1 j.statsAt.base (plain (statsBytes { j with fails := [(st, 0xFFFF)], stats := statFail j.stats st } st s.ftime.toNat))) d.fn d.ring d.index st
  else
    let s2 : State := setJob { s1 with jobSeq := s1.jobSeq + 1 } j.id (some j)
    failJob (setPhase s2 d (.job j.id)) j.id st

/-! Stage 4. -/

/-- Does a job wait at stage 4 for a tile of its model (R588)? -/
def awaitsTile (s : State) (j : Job) : Bool := match j.model with
  | some m => !(getModel s j.fn m).named && !(getModel s j.fn m).fencedTiles.isEmpty
  | none => false
/-- The idle sector that a job without a model takes (R404): the fewest logical cores, then the lowest number. -/
def idleSector (s : State) (f p : Nat) : Option Nat :=
  let l := (sectorsOf s f).filter fun q =>
    q.2.model.isNone && q.2.running.isNone && q.2.queue.isEmpty && q.2.holder && q.2.shared.length ≤ 1 && q.2.releasing.isNone &&
      decide (p ≤ q.2.lcores.length)
  (l.foldl (fun acc q => match acc with
    | some b => if q.2.lcores.length < b.2.lcores.length then some q else some b
    | none => some q) (none : Option (Nat × Sector))).map (·.1)
/-- What stage 4 gives a job. -/
inductive SectorChoice where
  | use (n : Nat) (s : State)
  | fail (status : Nat)
/-- A named sector (expert control): owned, and the model's where the job names one. -/
def namedSector (s : State) (f n : Nat) (raw : Bool) (model : Option Nat) : SectorChoice :=
  match getSector s n with
  | none => .fail stNotOwner
  | some x =>
    if x.owner ≠ f then .fail stNotOwner
    else if raw && confidentialSector s x then .fail 0x0123
    else if model.isSome && x.model != model then .fail stParam
    else if (match x.model with
      | some m => (getModel s f m).named && !(getModel s f m).fencedTiles.isEmpty
      | none => false) then .fail stMemory
    else .use n s
/-- Choose or check the sector of a job (R48, R217, R404, R418). Two points of R48 are the model's own (DESIGN CHOICE; log entry 61): a
job that binds a key-set slot without a key set takes its reference placement from KSE_FN_CTRL.placement, as one that binds none;
and an image that declares a P of 0 or above 25,600, which stage 5 will reject, counts as one logical core for the choice. -/
def sectorFor (s : State) (d : Desc) (j : Job) : SectorChoice :=
  let f := j.fn
  match j.kind with
  | .direct => namedSector s f (bits (ow d.bytes 8) 23 18) false j.model
  | .raw => namedSector s f (bits (ow d.bytes 0x14) 31 24) true none
  | .circuit =>
    let named := bits (ow d.bytes 0x14) 31 24
    if isExpert s f ∧ named ≠ 0xFF then namedSector s f named false j.model
    else match j.model with
      | some m =>
        let q := getModel s f m
        if q.named && !q.fencedTiles.isEmpty then .fail stMemory else .use q.sector s
      | none =>
        let p0 := fieldAt (memBytes s j.imageAt.base 16) 0xC 4
        let p := if p0 = 0 ∨ 25600 < p0 then 1 else p0
        match idleSector s f p with
        | some n => .use n s
        | none =>
          let placement := match j.key with
            | some k => if (getKeys s f k).loaded then (getKeys s f k).placement else placementOf s f
            | none => placementOf s f
          match chooseFor s f placement true p none with
          | .tiles ts => (let (n, s1) := formSector s f ts none true; .use n s1)
          | .shadow => (match formShadow s f true p none true with
            | some (n, s1) => .use n s1
            | none => .fail stMemory)
          | .fail st => .fail st

/-- A job enters stage 4 (R57, R404, R421, Table 14.3): not while its ring is held, an earlier job of the ring waits there, or
its model waits for a tile. -/
def enterStage4 (s : State) (jid : Nat) : State :=
  match getJob s jid with
  | none => s
  | some j =>
    let earlier := s.jobs.any fun p => match p.2 with
      | some k => k.fn == j.fn && k.ring == j.ring && k.phase == .stage4 && decide (k.id < jid) && !awaitsTile s k
      | none => false
    match findDesc s j.fn j.ring j.index with
    | none => s
    | some d =>
      if j.phase ≠ .stage4 ∨ s.sched.holds.contains (j.fn * 16 + j.ring) ∨ earlier ∨ awaitsTile s j then s
      else match sectorFor s d j with
        | .fail st => failJob (countOutcome s j.fn st) jid st
        | .use n s1 =>
          let s2 := modJob s1 jid fun x => { x with phase := .queued, sector := n, queuedAt := s.ftime.toNat }
          let s3 := modSector s2 n fun x => { x with queue := x.queue ++ [jid], idleSince := none }
          updateSector (passIdleSet s3 (((getSector s3 n).map (·.shared)).getD [])) n

/-! Batches of DIRECT_OPs (R293). -/

/-- The key of a DIRECT_OP, if it needs one. -/
def directKey (s : State) (f : Nat) (b : List Byte) : Option (Nat × Nat) :=
  entryKey (getParam s f (bits (ow b 8) 17 14)).obj (directEntry b)
/-- Is descriptor d of one kind with a batch whose members' bytes are ms: same sector, sets and key, and no buffer that a
member writes? -/
def joins (s : State) (f : Nat) (ms : List (List Byte)) (b : List Byte) : Bool :=
  match ms with
  | [] => false
  | m :: _ =>
    dType b == 0x10 && (directKey s f b).isSome && directKey s f b == directKey s f m &&
      bits (ow b 8) 23 8 == bits (ow m 8) 23 8 && bit (ow b 8) 1 == bit (ow m 8) 1 &&
      ms.all fun x => ow x 0xC != ow b 0xC && ow x 0xC != ow b 0x14 && (ow b 0x1C == 0 || ow x 0xC != ow b 0x1C)
/-- Bytes of a batch's members that have not ended. -/
def batchBytes (s : State) (b : Batch) : List (List Byte) := b.members.filterMap fun i => (findDesc s b.fn b.ring i).map (·.bytes)
/-- Is the batch full, or closed by the next descriptor of its ring? -/
def batchDone (s : State) (b : Batch) : Bool :=
  let next := (b.members.getLastD 0 + 1) % 65536
  decide (batchCap s b.fn ≤ b.members.length) || decide (b.closes ≤ s.ftime.toNat) ||
    (ringFetched s b.fn b.ring != next && match findDesc s b.fn b.ring next with
      | some d => !joins s b.fn (batchBytes s b) d.bytes
      | none => true)
/-- Jobs of a batch's members. -/
def batchIds (s : State) (b : Batch) : List Nat :=
  b.members.filterMap fun i => (findDesc s b.fn b.ring i).bind fun d => match d.phase with
    | .job id => some id
    | _ => none
/-- A batch is dispatched: its jobs go on to stage 4 in ring order, and share a pass. -/
def dispatchBatch (s : State) (b : Batch) : State :=
  let ids := batchIds s b
  let s1 : State := { s with batches := s.batches.erase b }
  let s2 := if ids.length < 2 then s1 else ids.foldl (fun st k => modJob st k fun x => { x with group := ids.head? }) s1
  ids.foldl enterStage4 s2
/-- Dispatch the batches of a function that are done. -/
def closeBatches (s : State) (f : Nat) : State :=
  (s.batches.filter fun b => b.fn == f).foldl (fun st b => if batchDone st b then dispatchBatch st b else st) s
/-- Is a job held in a batch? -/
def heldInBatch (s : State) (j : Job) : Bool := s.batches.any fun b => b.fn == j.fn && b.ring == j.ring && b.members.contains j.index

/-- A DIRECT_OP that has passed stage 3 joins the batch of its ring, begins one, or goes on. -/
def placeDirect (s : State) (d : Desc) (j : Job) : State :=
  let f := d.fn
  let old := s.batches.find? fun b => b.fn == f && b.ring == d.ring
  let begin_ (s : State) : State :=
    if (directKey s f d.bytes).isNone then enterStage4 s j.id
    else { s with batches := s.batches ++ [⟨f, d.ring, [d.index], d.fetchTick + regFld s (fnBase f + 0x2300) 25 16⟩] }
  let s1 := match old with
    | some b =>
      if joins s f (batchBytes s b) d.bytes && d.index == (b.members.getLastD 0 + 1) % 65536 then
        { s with batches := s.batches.map fun x => if x = b then { x with members := x.members ++ [d.index] } else x }
      else begin_ (dispatchBatch s b)
    | none => begin_ s
  closeBatches s1 f

/-! The rows. -/

/-- A job row: stage 3 with journaling, then stage 4; a job that waits at stage 4, or to be closed, goes on at a later event. -/
def jobRow (t : Nat) (stage3 : State → Desc → Nat × Job) (place : State → Desc → Job → State) (f r i : Nat) (s : State) : State :=
  match rowDesc s f r i t with
  | none => s
  | some d =>
    match d.phase with
    | .fetched =>
      let (st, j) := stage3 s d
      if st ≠ 0 then failStage3 s d j st
      else if !journalRoom s then s
      else
        let s0 := readHdrs s j ((List.range j.bindings.length).filter fun v => ((j.bindings[v]?).map fun b => !b.output).getD false)
        let s1 : State := setJob { s0 with jobSeq := s0.jobSeq + 1 } j.id (some j)
        place (journalDesc (setPhase s1 d (.job j.id)) d) d j
    | .job id =>
      (match getJob s id with
        | some j => if j.phase = .stopping ∧ j.sector = 64 then closeJob s id else if heldInBatch s j then s else enterStage4 s id
        | none => s)
    | _ => s

/-- SUBMIT_CIRCUIT (R57, R404, R408, R409). -/
def execSubmitCircuit (f r i : Nat) (s : State) : StepOut :=
  .next (jobRow 4 circuitJob (fun s _ j => enterStage4 s j.id) f r i s)
/-- DIRECT_OP (R96, R293). -/
def execDirectOp (f r i : Nat) (s : State) : StepOut := .next (jobRow 0x10 directJob placeDirect f r i s)
/-- RAW_SECTOR (R404). -/
def execRawSector (f r i : Nat) (s : State) : StepOut :=
  .next (jobRow 0x11 rawJob (fun s _ j => enterStage4 s j.id) f r i s)

/-- DIRECT_OP_BATCH_WINDOW (R293): the window of ring r's batch has passed. -/
def execDirectOpBatchWindow (f r : Nat) (s : State) : StepOut :=
  .next <|
    match s.batches.find? fun b => b.fn == f && b.ring == r with
    | some b => if b.closes ≤ s.ftime.toNat then dispatchBatch s b else s
    | none => s

/-- BELL_POLL (R399, R400): the answers to the read of the bell block (none for an error) and of the descriptors that it
calls for, in the order fetched. -/
def execBellPoll (f : Nat) (bell : List Byte) (fetched : List (List Byte)) (s : State) : StepOut :=
  .next (closeBatches (pollBell s f bell fetched) f)

end Sys2Proof.Machine
end

