-- ==== Sys2Proof/Machine/Fabric.lean ====
section
/-! DEFINITION. Events of the Nguhi Link ports and of messages (R432 to R455, R462). -/

namespace Sys2Proof.Machine

/-! ### Ports -/

/-- PORT_LOCK_LOSS (R432): the port retrains. -/
def execPortLockLoss (p : Nat) (s : State) : StepOut :=
  .next (if 32 ≤ p ∨ portState s p < 2 then s else bump (setPortState s p 1) 0x20208)

/-- PORT_TRAINING_END (R436): the port is up with lanes trained, or, after three failures in a row, DOWN. -/
def execPortTrainingEnd (p : Nat) (ok : Bool) (lanes : Nat) (s : State) : StepOut :=
  .next <|
    if 32 ≤ p ∨ portState s p ≠ 1 then s
    else if ok then portUp s p (lanes % 16)
    else if 2 ≤ (getPort s p).trainFails then portDown s p
    else modPort s p fun x => { x with trainFails := x.trainFails + 1 }

/-- FLIT_TRANSMIT (R435): port p sends at a flit boundary. Port 32 stands for the loop of the device to itself. -/
def execFlitTransmit (p : Nat) (s : State) : StepOut := .next (if 32 < p then s else transmit s p)

/-- REPLAY_TIMEOUT (R436): no ack progress for 4 µs. -/
def execReplayTimeout (p : Nat) (s : State) : StepOut :=
  .next (if 32 ≤ p ∨ portState s p < 2 then s else beginReplay s p)

/-- A flit of type t arrives at a port (R434, R436): what is no good flit of the type counts as a CRC failure. -/
def receiveAs (t : Nat) (s : State) (p : Nat) (f : Flit) (good : Bool) : State × Bool :=
  if 32 < p then (s, false) else receive s p f (good && f.typ == t)

/-- IDLE (R435): acks and credits. -/
def execIdle (p : Nat) (fl : Flit) (good : Bool) (s : State) : StepOut := .next (receiveAs 0 s p fl good).1

/-- LNAK (R436): the sender resends from ack + 1. -/
def execLnak (p : Nat) (fl : Flit) (good : Bool) (s : State) : StepOut :=
  .next <|
    let r := receiveAs 3 s p fl good
    if r.2 then beginReplay r.1 p else r.1

/-- TICK (R471). A pair port carries none (R459). -/
def execTick (p : Nat) (fl : Flit) (good : Bool) (dt : Nat) (s : State) : StepOut :=
  .next <|
    let r := receiveAs 4 s p fl good
    if r.2 && !isPairPort r.1 p then acceptFlitTick r.1 p fl dt else r.1

/-- Receive buffer of a flit, none for one of the loop. -/
def bufferOf (p : Nat) (f : Flit) : Option (Nat × Nat) := if p = 32 then none else some (p, f.vc)

/-- What becomes of an accepted DATA or XCTRL flit: delivered here, forwarded, or dropped, by a device without an ID (R438),
and at a pair port (R459). The second component says that it is delivered. -/
def arriveFlit (s : State) (p : Nat) (f : Flit) : State × Bool :=
  let b := bufferOf p f
  if devId s = 0xFFFFF ∨ isPairPort s p then (oweCredit (bump s 0x20210) b, false)
  else if p = 32 ∨ deliveredHere s f.dst then (oweCredit s b, true)
  else (forward s f b, false)

/-! ### Messages in (R449 to R452) -/

/-- Fields of a message header (Table 13.5). -/
def msgEpoch (b : List Byte) : Nat := bits (fieldAt b 0 4) 31 16
def msgSlot (b : List Byte) : Nat := bits (fieldAt b 0 4) 11 0
def msgPool (b : List Byte) : Nat := bits (fieldAt b 4 4) 31 16
def msgBytes (b : List Byte) : Nat := fieldAt b 0xC 4

/-- The checks of Table 13.8: 0, or the NACK reason. -/
def ingressCheck (s : State) (b : List Byte) : Nat :=
  let slot := msgSlot b
  let r := roleAt s slot
  let ps := getParam s (slot / 64) (bits r.w3.toNat 3 0)
  if !isRecv r then 2
  else if msgEpoch b ≠ roleEpoch r then 1
  else if !ps.loaded ∨ fieldAt b 8 4 ≠ pCrc ps.obj then 3
  else if slotCount r ≤ msgPool b ∨ slotUnits r * 2048 < msgBytes b then 4
  else if poolAt s slot (msgPool b) ≠ .free then 5
  else 0

/-- The landing that a later flit belongs to: role slot and pool slot. -/
def landingOf (s : State) (f : Flit) : Option (Nat × Nat) :=
  (s.fab.pools.find? fun p => match p.2 with
    | .landing src id gen _ _ _ _ => src == f.src && id == f.msgId && gen == f.gen
    | _ => false).map fun p => (p.1 / 65536, p.1 % 65536)

/-- The header of a landed object (R451). -/
def landedHdr (s : State) (slot : Nat) (raw : List Byte) : List Byte :=
  let n := bits (roleAt s slot).w3.toNat 3 0
  let ps := getParam s (slot / 64) n
  let h := hdrOf raw
  hdrBytes { h with
    owner := slot / 64
    param := n
    gen := ps.lastGen
    noise := if h.noise < pFreshNoise ps.obj then pFreshNoise ps.obj else h.noise }

/-- RECEIVEs waiting for a pool slot take its message. -/
def wakeReceivers (s : State) (slot pool : Nat) : State := (waitersOf s slot pool).foldl claimMsg s

/-- A message is whole (R451): data, then header; a mirrored function's message goes to the rear before its ACK (R460). -/
def landMessage (s : State) (slot pool : Nat) (f : Flit) (bs : List Byte) : State :=
  match poolAddr s slot pool with
  | none => setPool s slot pool .free
  | some a =>
    let obj := (bs.drop 32).take (msgBytes bs)
    let hdr := landedHdr s slot (obj.take 64)
    let s1 := writeT (writeT (engineAccess s a obj.length) (a + 64) (plain (obj.drop 64))) a (plain hdr)
    let r := roleAt s slot
    let s2 := if mirroring s1 then
        pairSend s1 4 (leBytes 4 r.w1.toNat ++ leBytes 4 (pool * slotUnits r * 2048) ++ hdr ++ obj.drop 64) else s1
    let s3 := sendXctrl (setPool s2 slot pool .full) f.src 1 0 f.gen slot f.msgId 0
    wakeReceivers (bump s3 0x20228) slot pool

/-- A landing message is dropped (R452): its slot is free, RECEIVEs that wait on it fail INPUT_TRUNCATED. -/
def dropLanding (s : State) (slot pool : Nat) : State :=
  let s1 := bump (setPool s slot pool .free) 0x20220
  (waitersOf s1 slot pool).foldl (fun st w =>
    failOp { st with fab := { st.fab with recvs := st.fab.recvs.filter (· != w) } } w.job w.op Operand.absent stTruncated true) s1

/-- Bytes have arrived for a landing message: it waits for more, lands, or, ending short of its length, is dropped. -/
def landBytesAt (s : State) (slot pool p : Nat) (f : Flit) (bs : List Byte) : State :=
  if f.last then (if bs.length < 32 + msgBytes bs then dropLanding s slot pool else landMessage s slot pool f bs)
  else setPool s slot pool (.landing f.src f.msgId f.gen p bs.length s.ftime.toNat bs)

/-- A DATA flit for this device (R450). -/
def ingress (s : State) (p : Nat) (f : Flit) : State :=
  if f.first then
    let b := f.payload
    let reason := ingressCheck s b
    let slot := msgSlot b
    if reason ≠ 0 then sendXctrl s f.src 2 reason f.gen slot f.msgId (roleEpoch (roleAt s slot))
    else landBytesAt s slot (msgPool b) p f b
  else match landingOf s f with
    | none => bump s 0x2021C
    | some (slot, pool) => (match poolAt s slot pool with
        | .landing _ _ _ _ _ _ bs => landBytesAt s slot pool p f (bs ++ f.payload)
        | _ => s)

/-- DATA (R439 to R441, R450 to R452). -/
def execData (p : Nat) (fl : Flit) (good : Bool) (s : State) : StepOut :=
  .next <|
    let r := receiveAs 1 s p fl good
    if !r.2 then r.1
    else
      let a := arriveFlit r.1 p fl
      if a.2 then ingress a.1 p fl else a.1

/-- MESSAGE_INPUT_TIMEOUT (R452): no flit of a landing message for the owner's timeout_ms. -/
def execMessageInputTimeout (slot pool : Nat) (s : State) : StepOut :=
  .next (match poolAt s slot pool with
    | .landing _ _ _ _ _ _ _ => dropLanding s slot pool
    | _ => s)

/-! ### Answers (R453) -/

/-- An XCTRL flit of a kind arrives; the second component says that it is delivered here. -/
def receiveXctrl (kind : Nat) (s : State) (p : Nat) (f : Flit) (good : Bool) : State × Bool :=
  let r := receiveAs 2 s p f (good && bits (fieldAt f.payload 0 4) 31 28 == kind)
  if !r.2 then (r.1, false) else arriveFlit r.1 p f

/-- The SEND that an answer names, which waits for it. -/
def answered (s : State) (f : Flit) : Option SendMsg :=
  s.fab.sends.find? fun m => m.msgId == fieldAt f.payload 4 4 && m.gen == bits (fieldAt f.payload 0 4) 23 22 && m.phase == .waitAck

/-- ACK: the SEND completes. -/
def execAck (p : Nat) (fl : Flit) (good : Bool) (s : State) : StepOut :=
  .next <|
    let r := receiveXctrl 1 s p fl good
    if !r.2 then r.1
    else match answered r.1 fl with
      | some m => sendAcked r.1 m
      | none => r.1

/-- Replace a SEND. -/
def setSend (s : State) (m n : SendMsg) : State :=
  { s with fab := { s.fab with sends := s.fab.sends.map fun x => if x = m then n else x } }
/-- Has the SEND's entry been committed with another epoch than the message's (R453)? -/
def newEpoch (s : State) (m : SendMsg) : Bool := isSend (roleAt s m.slot) && roleEpoch (roleAt s m.slot) != m.epoch

/-- A NACK's reason is acted on (Table 13.9). -/
def nacked (s : State) (m : SendMsg) (reason : Nat) : State :=
  if m.resent then sendFailed s m 0x0401
  else if reason = 1 ∨ reason = 2 then
    (if newEpoch s m then resendMsg s m true
     else setSend s m { m with phase := .waitEpoch, lastTx := s.ftime.toNat })
  else if reason = 5 then setSend s m { m with phase := .waitBusy, lastTx := s.ftime.toNat }
  else if reason = 3 ∨ reason = 4 then sendFailed s m 0x0404
  else if reason = 6 ∨ reason = 7 then sendFailed s m 0x0402
  else s

/-- NACK (Table 13.9). -/
def execNack (p : Nat) (fl : Flit) (good : Bool) (s : State) : StepOut :=
  .next <|
    let r := receiveXctrl 2 s p fl good
    if !r.2 then r.1
    else match answered r.1 fl with
      | some m => nacked r.1 m (bits (fieldAt fl.payload 0 4) 27 24)
      | none => r.1

/-- ACK_TIMEOUT: the i-th SEND under way has had no answer within ack_timeout of its last transmission. -/
def execAckTimeout (i : Nat) (s : State) : StepOut :=
  .next (match s.fab.sends[i]? with
    | some m => if m.phase = .waitAck ∧ m.lastTx + ackTimeout s ≤ s.ftime.toNat then sendFailed s m 0x0403 else s
    | none => s)

/-- RESEND_WAIT_EXPIRY: the wait for an entry with another epoch ends. -/
def execResendWaitExpiry (i : Nat) (s : State) : StepOut :=
  .next (match s.fab.sends[i]? with
    | some m =>
      if m.phase ≠ .waitEpoch then s
      else if newEpoch s m then resendMsg s m true
      else if m.lastTx + resendWait s ≤ s.ftime.toNat then sendFailed s m 0x0401
      else s
    | none => s)

/-- BUSY_RETRY_EXPIRY: busy_retry ticks after a BUSY answer, until ack_timeout has passed since the first transmission. -/
def execBusyRetryExpiry (i : Nat) (s : State) : StepOut :=
  .next (match s.fab.sends[i]? with
    | some m =>
      if m.phase ≠ .waitBusy ∨ s.ftime.toNat < m.lastTx + busyRetry s then s
      else if m.firstTx + ackTimeout s ≤ s.ftime.toNat then sendFailed s m 0x0403
      else resendMsg s m false
    | none => s)

/-! ### Roles (R445, R446) -/

/-- Status of a commit of an entry (R446). -/
def roleStatus (s : State) (slot : Nat) (r : Role) : Nat :=
  if !isRecv r then 0
  else
    let f := slot / 64
    let (st, b) := resolve s f r.w1.toNat
    if st ≠ 0 then st
    else if b.size < slotCount r * slotUnits r * 2048 then stParam
    else if !(getParam s f (bits r.w3.toNat 3 0)).loaded then stParam
    else 0

/-- Put an entry into the role table (R446): a change of its pool frees every pool slot, and SENDs that wait for it go out. -/
def putRole (s : State) (slot : Nat) (r : Role) : State :=
  let old := roleAt s slot
  let same := isRecv old == isRecv r && old.w1 == r.w1 && old.w2 == r.w2
  let s1 : State := { s with fab := { s.fab with
    roles := tset Role.empty s.fab.roles slot r
    pools := if same then s.fab.pools else s.fab.pools.filter fun p => p.1 / 65536 != slot } }
  (s1.fab.sends.filter fun m => m.slot == slot && m.phase == .waitEpoch).foldl (fun st m =>
    if newEpoch st m then resendMsg st m true else st) s1

/-- A STATE item of a role commit (log entry 16). -/
def roleItem (slot : Nat) (r : Role) : List Byte :=
  leBytes 1 1 ++ leBytes 2 slot ++ leBytes 4 r.w0.toNat ++ leBytes 4 r.w1.toNat ++ leBytes 4 r.w2.toNat ++ leBytes 4 r.w3.toNat

/-- Bits of a role entry that Table 13.6 gives. -/
def roleMask (r : Role) : Role :=
  let k := bit r.w0.toNat 30
  { w0 := r.w0 &&& 0xC000FFFF
    w1 := if k then r.w1 else r.w1 &&& 0xFFFFF
    w2 := if k then r.w2 else r.w2 &&& 0xFFF
    w3 := if k then r.w3 &&& 0xF else 0 }

/-- A write of FAB_ROLE_CMD.commit: W0 to W3 go into the slot that FAB_ROLE_IDX names, or are refused with a status. -/
def roleCommit (s : State) : State :=
  let slot := regFld s 0x20010 11 0
  let r := roleMask ⟨regGet s 0x20014, regGet s 0x20018, regGet s 0x2001C, regGet s 0x20020⟩
  let st := roleStatus s slot r
  let s1 := regSetFld (countOutcome s (slot / 64) st) 0x20028 31 16 st
  if st ≠ 0 then s1
  else
    let s2 := putRole s1 slot r
    if mirroring s2 then pairSend s2 2 (roleItem slot r) else s2

/-- A write of FAB_ROLE_CMD.read. -/
def roleRead (s : State) : State :=
  let r := roleAt s (regFld s 0x20010 11 0)
  regSet (regSet (regSet (regSet s 0x20014 r.w0) 0x20018 r.w1) 0x2001C r.w2) 0x20020 r.w3

end Sys2Proof.Machine
end

