-- ==== Sys2Proof/Machine/Reset.lean ====
section
/-! DEFINITION. Function resets (R415 to R417) and the end of a tile's zeroing (R239). -/

namespace Sys2Proof.Machine

/-! ### Function resets -/

/-- Stop every fetched descriptor of a function with FUNCTION_RESET, in fetch order (R416, step 2). -/
def stopAll (s : State) (f : Nat) (silent : Bool) : State :=
  ((getFn s f).descs.map fun d => (d.ring, d.index)).foldl (fun st p =>
    match findDesc st f p.1 p.2 with
    | none => st
    | some d => stopDesc st d stReset silent true) s

/-- Fetched descriptors of a function that have not completed. -/
def openDescs (s : State) (f : Nat) : Nat := (getFn s f).descs.length

/-- Empty the loaded slots of a kind (R90, R242). -/
def emptySlots (s : State) (f kind n : Nat) : State :=
  (List.range n).foldl (fun st k => if slotLoaded st f kind k then emptySlot st f kind k else st) s

/-- Free every buffer of a function (R365). -/
def freeBufs (s : State) (f : Nat) : State :=
  (liveBufs s f).foldl (fun st p => freeBuf st (handleOf f p.2.gen p.1)) s

/-- What units hold on behalf of a function ends: passes, transfers, batches, ring holds, held completions (R299, R422,
R477). -/
def dropWork (s : State) (f : Nat) : State :=
  { s with
    passes := s.passes.filter fun p => p.fn != f
    xfers := s.xfers.filter fun x => x.fn != f
    batches := s.batches.filter fun b => b.fn != f
    sched := { s.sched with holds := s.sched.holds.filter fun h => h / 16 != f }
    fab := { s.fab with heldCpl := s.fab.heldCpl.filter fun c => c.1 != f } }

/-- Release the function's objects and sectors (R416, step 3): models and their sectors, other sectors, buffers, table
sets, key sets, parameter sets with their generations, and the work of other units. -/
def releaseFn (s : State) (f : Nat) : State :=
  let s1 := dropWork s f
  let s2 := emptySlots s1 f 4 8
  let s3 := (sectorsOf s2 f).foldl (fun st p => releaseSector st p.1) s2
  let s4 := freeBufs s3 f
  let s5 := emptySlots (emptySlots (emptySlots s4 f 3 8) f 2 64) f 1 16
  modFn s5 f fun x => { x with params := [], keys := [], tables := [], models := [], descs := [] }

/-- Does an offset of function f's register space keep its value through a reset of the function: HIF_FN_LAST_RESET,
MEM_FN_QUOTA and, in a register reset, the MSI-X table (log entry 13)? HIF_FN_CTRL is handled apart. -/
def keptInReset (f : Nat) (pcie : Bool) (o : Nat) : Bool :=
  let x := o - fnBase f
  x == 0x2C || x == 0x2500 || (!pcie && decide (0x30000 ≤ x))

/-- Is an offset in function f's register space? -/
def inFnSpace (f o : Nat) : Bool := decide (fnBase f ≤ o) && decide (o < fnBase f + 0x40000)

/-- The function's registers return to their reset values (R416, step 4); HIF_FN_CTRL.expert stays. -/
def resetFnRegs (s : State) (f : Nat) (pcie : Bool) : State :=
  let expert := regFld s (fnBase f) 8 8
  let gone (k : Nat) : Bool := inFnSpace f (k % 2 ^ 32)
  let s1 : State := { s with
    regs := s.regs.filter fun p => !inFnSpace f p.1 || keptInReset f pcie p.1
    shadows := s.shadows.filter fun p => !gone p.1
    holds := s.holds.filter fun p => !gone p.1 }
  regSetFld s1 (fnBase f) 8 8 expert

/-- What returns to its reset value only when the PF is reset: every function's expert bit, quota, signer slots and
SEC_FNf_CTRL settings (R413, R414, R564). -/
def resetPfKept (s : State) : State :=
  let fs := List.range 64
  let s1 := fs.foldl (fun st f => regSet (regSet (regSetFld st (fnBase f) 8 8 0) (fnBase f + 0x2500) (regReset (fnBase f + 0x2500)))
    (0xA0100 + 4 * f) (regReset (0xA0100 + 4 * f))) s
  { s1 with fns := tmap Fn.fresh (fun x => { x with signers := [] }) s1.fns }

/-- The end of a function reset: registers at their reset values, reset_busy 0. -/
def finishFnReset (s : State) (f : Nat) : State :=
  let cause := regFld s (fnBase f + 0x2C) 1 0
  let s1 := resetFnRegs s f (cause != 1)
  let s2 := modFn s1 f fun x => { Fn.fresh with signers := x.signers, bufs := x.bufs }
  if f = 0 then resetPfKept s2 else s2

/-- A function is reset (R416). cause: 1 register, 2 PCIe, 3 VF Enable cleared. The reset ends once the tiles that the
function held are zeroed. A reset of a function already under reset, or during a device reset, is absorbed (R592). -/
def resetFn (s : State) (f cause : Nat) : State :=
  if 64 ≤ f ∨ (getFn s f).resetting ∨ s.start.phase ≠ 8 then s
  else
    let n := openDescs s f
    let s1 := modFn s f fun x => { x with resetting := true }
    let s2 := stopAll s1 f (cause != 1)
    let held := (sectorsOf s f).flatMap fun p => if p.2.holder then p.2.tiles else []
    let s3 := releaseFn s2 f
    let s4 := regSet s3 (fnBase f + 0x2C) (BitVec.ofNat 32 (n % 2 ^ 16 * 2 ^ 16 + cause))
    let left := held.filter s4.zeroing.contains
    if left.isEmpty then finishFnReset s4 f
    else modFn s4 f fun x => { x with resetTiles := left }

/-- HIF_FN_RESET_GO (R415): a write of 1 to HIF_FN_RESET.go. -/
def execHifFnResetGo (f : Nat) (s : State) : StepOut := .next (resetFn s f 1)
/-- FUNCTION_LEVEL_RESET (R415): that of the PF also clears VF Enable, which resets every VF. -/
def execFunctionLevelReset (f : Nat) (s : State) : StepOut :=
  .next <|
    let s1 := resetFn s f 2
    if f = 0 then ((List.range 63).map (· + 1)).foldl (fun st k => resetFn st k 3) s1 else s1
/-- VF_ENABLE_CLEAR (R415): every VF is reset. -/
def execVfEnableClear (s : State) : StepOut :=
  .next (((List.range 63).map (· + 1)).foldl (fun st k => resetFn st k 3) s)

/-! ### Zeroing of tiles -/

/-- A tile's zeroing has ended: the resets that wait for it go on. -/
def resetsGoOn (s : State) (t : Nat) : State :=
  (List.range 64).foldl (fun st f =>
    let x := getFn st f
    if !x.resetting ∨ !x.resetTiles.contains t then st
    else
      let left := x.resetTiles.filter (· != t)
      let s1 := modFn st f fun y => { y with resetTiles := left }
      if left.isEmpty then finishFnReset s1 f else s1) s

/-- SECTOR_ZEROING_END (R239, R343): the tile's Tile Bank and Core Stores hold zeros and may be used again. -/
def execSectorZeroingEnd (t : Nat) (s : State) : StepOut :=
  .next <|
    if !s.zeroing.contains t then s
    else
      let s1 := clearTile s t
      resetsGoOn { s1 with zeroing := s1.zeroing.filter (· != t) } t

end Sys2Proof.Machine
end

