-- ==== Sys2Proof/Machine/Fence.lean ====
section
/-! DEFINITION. The fence map and the in-field map (R580 to R589): fences in the field, hardware checks, row repairs. -/

namespace Sys2Proof.Machine

/-! ### The in-field map (R582, R583) -/

/-- An update of the in-field map goes to the other copy, with the next sequence number (R582). -/
def writeField (s : State) (g : FieldMap → FieldMap) : State :=
  let m := g s.start.field
  { s with start := { s.start with
    field := { m with seq := s.start.field.seq + 1 }
    other := s.start.field
    useB := !s.start.useB } }

/-- Add a number to a list without repeats. -/
def addNew (l : List Nat) (n : Nat) : List Nat := if l.contains n then l else l ++ [n]

/-- Spare rows that a bank has in use (R358, R368). -/
def sparesUsed (m : FieldMap) (kind unit bank : Nat) : Nat :=
  (m.remaps.filter fun r => r.kind == kind && r.unit == unit && r.bank == bank).length
/-- Cause for which a row cannot be repaired (Table 17.6): 1 and 2 for a bank with no spare row left, 3 for a full list of
records; 0 where it can. -/
def repairCause (m : FieldMap) (r : Remap) : Nat :=
  if (if r.kind = 1 then 2 else 8) ≤ sparesUsed m r.kind r.unit r.bank then (if r.kind = 1 then 1 else 2)
  else if 15360 ≤ m.remaps.length then 3
  else 0
/-- Redirect a row to the next spare row of its bank. -/
def addRemap (m : FieldMap) (r : Remap) : FieldMap :=
  { m with remaps := m.remaps ++ [{ r with spare := sparesUsed m r.kind r.unit r.bank }] }
/-- TB_SPARE and CS_SPARE fields of the bank of a record (R368). -/
def spareReg (s : State) (r : Remap) : State :=
  let n := sparesUsed s.start.field r.kind r.unit r.bank
  if r.kind = 1 then
    let o := tileBase (r.unit / 64) + 0x100 + 4 * (r.unit % 64)
    regSetFld s o (2 * r.bank + 1) (2 * r.bank) n
  else
    let o := tileBase r.unit + 4 * (r.bank / 8)
    regSetFld s o (4 * (r.bank % 8) + 3) (4 * (r.bank % 8)) n

/-! ### The fence map (R580, R581) -/

/-- Cores and tiles that a start fences (R581), and why: fuse map, in-field map, units of R589, phase 4. -/
def tileFencedAtStart (s : State) (t : Nat) : Bool :=
  s.start.fuseTiles.contains t || s.start.field.tiles.contains t || s.start.badTiles.contains t
def coreFencedAtStart (s : State) (g : Nat) : Bool :=
  s.start.fuseCores.contains g || s.start.field.cores.contains g || s.start.badCores.contains g ||
    tileFencedAtStart s (tileOfCore g)

/-- Mark a core in FEN_CORE_MAP. -/
def markCore (s : State) (g : Nat) : State := regSetFld s (0xC0100 + 4 * (g / 32)) (g % 32) (g % 32) 1
/-- Mark a tile in FEN_TILE_MAP, and its cores (R581). -/
def markTile (s : State) (t : Nat) : State :=
  (coresOf t).foldl markCore (regSetFld s (0xC0E00 + 4 * (t / 32)) (t % 32) (t % 32) 1)
/-- FEN_STATUS follows the fence map; below 25,600 enabled cores, an alert (R580). -/
def fenceStatus (s : State) : State :=
  let n := enabledCores s
  let s1 := regSet s 0xC0000 (BitVec.ofNat 32 ((if n < 25600 then 2 ^ 31 else 0) + enabledTiles s * 2 ^ 16 + n))
  if n < 25600 then sbAlert s1 else s1

/-! ### Stopping a sector (R585, R586) -/

/-- A sector's running job stops as under R172 and completes with HW_CHECK. A suspended job of the sector counts as
running. -/
def checkStop (s : State) (sec : Nat) : State :=
  match runningJob s sec with
  | none => s
  | some j =>
    let live := j.phase == .running || j.phase == .suspended ||
      (j.phase == .stopping && (List.range 4).any fun k => (tget none j.active k).isSome)
    if !live then s else stopSector s sec j stHwCheck

/-- Sectors with a tile. -/
def sectorsWith (s : State) (t : Nat) : List Nat :=
  s.sectors.filterMap fun p => match p.2 with
    | some x => if x.tiles.contains t then some p.1 else none
    | none => none

/-- A core loses what it held; requests that wait for it end (R586). -/
def loseCore (s : State) (g : Nat) : State :=
  let mine (r : MemReq) : Bool := match r.port with
    | .stream c _ => c == g
    | .credit c => c == g
    | _ => false
  loseReqs (setCore s g Core.fresh) mine

/-- A sector that has lost tile t (R588): a model's tile waits for its replacement; a sector with no tile left is released. -/
def loseTile (s : State) (cause t n : Nat) : State :=
  match getSector s n with
  | none => s
  | some x =>
    let y := { x with tiles := x.tiles.filter (· != t), reform := true }
    let s1 := setSector s n (some y)
    match x.model with
    | some m =>
      let q := getModel s1 x.owner m
      let u := (q.tiles.findIdx? (· == t)).getD 0
      let s2 := modModel s1 x.owner m fun z => { z with fencedTiles := addNew z.fencedTiles u }
      let s3 := if q.named then x.queue.foldl (fun st j => failJob st j stMemory) s2 else s2
      if !q.named ∧ (freeTiles s3).isEmpty then fenceEvent s3 (some x.owner) 4 cause n t 0x1FF (some m) else s3
    | none =>
      if y.tiles.isEmpty then
        let s2 := x.queue.foldl (fun st j => failJob st j stMemory) s1
        match getSector s2 n with
        | none => s2
        | some z =>
          let s3 := releaseSector s2 n
          (match z.releasing with
            | some d => completeDesc s3 z.owner (d / 65536) (d % 65536) 0
            | none => s3)
      else s1

/-- What every fence records (R586, step 4): Daymark, the counter, and the events to the owners and to the PF. -/
def fenceRecord (s : State) (tile : Bool) (n cause : Nat) (owners : List (Nat × Nat × Option Nat)) : State :=
  let die := if tile then dieOfTile n else dieOfCore n
  let kind := if tile then 2 else 1
  let s1 := bump (dayEvent s 0x0901 die 0 [kind, n, cause]) 0xC0F00
  match owners with
  | [] => fenceEvent s1 none kind cause 0 n 0x1FF none
  | l => l.foldl (fun st o => fenceEvent st (some o.2.1) kind cause o.1 n 0x1FF o.2.2) s1

/-- Sectors with a tile, with their owners and models, for the events. -/
def ownersOf (s : State) (t : Nat) : List (Nat × Nat × Option Nat) :=
  (sectorsWith s t).filterMap fun n => (getSector s n).map fun x => (n, x.owner, x.model)

/-- Fence a core in the field (R584, R586). -/
def fenceCore (s : State) (g cause : Nat) : State :=
  if nCores ≤ g ∨ coreFenced s g then s
  else
    let t := tileOfCore g
    let owners := ownersOf s t
    let ns := sectorsWith s t
    let s1 := fenceStatus (markCore (writeField s fun m => { m with cores := addNew m.cores g }) g)
    let s2 := ns.foldl (fun st n => modSector st n fun x => { x with reform := true }) s1
    let s3 := ns.foldl checkStop s2
    fenceRecord (loseCore s3 g) false g cause owners

/-- Fence a tile in the field (R584, R586, R588). Cause 7 is not written to the in-field map. -/
def fenceTile (s : State) (t cause : Nat) : State :=
  if nTiles ≤ t ∨ tileFenced s t then s
  else
    let owners := ownersOf s t
    let ns := sectorsWith s t
    let s0 := if cause = 7 then s else writeField s fun m => { m with tiles := addNew m.tiles t }
    let s1 := fenceStatus (markTile s0 t)
    let s2 := ns.foldl (fun st n => modSector st n fun x => { x with reform := true }) s1
    let s3 := ns.foldl checkStop s2
    let s4 := (coresOf t).foldl loseCore s3
    let inTile (r : MemReq) : Bool := match r.port with
      | .bank k _ => k == t
      | .bankWait k _ => k == t
      | _ => false
    let s5 : State := { loseReqs s4 inTile with zeroing := s4.zeroing.filter (· != t) }
    let s6 := ns.foldl (fun st n => loseTile st cause t n) s5
    loseExpanders (resetsGoOn (fenceRecord s6 true t cause owners) t)

/-- Fence the unit of a row that has no repair (R358, R583). -/
def fenceRow (s : State) (r : Remap) (cause : Nat) : State :=
  if r.kind = 1 then fenceCore s r.unit cause else fenceTile s r.unit cause

/-! ### Hardware checks (R585) -/

/-- HARDWARE_CHECK: unit 0, a parity error or attributed Signal Net timeout of core g; unit 1, the shared parts of tile g. -/
def execHardwareCheck (g unit : Nat) (s : State) : StepOut :=
  .next <|
    let t := if unit = 0 then tileOfCore g else g
    if s.start.phase ≠ 8 ∨ nTiles ≤ t ∨ tileFenced s t ∨ (unit = 0 ∧ coreFenced s g) then s
    else
      let s1 := bump (raiseSrc s (dieOfTile t) (2 + t % 34)) 0xC0F04
      if unit ≠ 0 then fenceTile s1 t 6
      else if s.start.hwChecked.contains g then fenceCore s1 g 4
      else
        let s2 : State := { s1 with start := { s1.start with hwChecked := s1.start.hwChecked ++ [g] } }
        let s3 := (sectorsWith s2 t).foldl (fun st n => match getSector st n with
          | some x => if x.lcores.contains g then checkStop st n else st
          | none => st) s2
        mntNeed s3 2 (2 ^ 20 + t)

/-! ### Commands of the fence block (Table 17.16) -/

/-- The unit that FEN_IDX names: a tile or a core, and its number. -/
def fenUnit (s : State) : Bool × Nat := (regFld s 0xC0004 31 31 == 1, regFld s 0xC0004 14 0)
/-- Is the unit of FEN_IDX one of the device? -/
def fenValid (s : State) : Bool := let (t, n) := fenUnit s; decide (n < if t then nTiles else nCores)

/-- FEN_CMD_FENCE (R584, cause 8). -/
def execFenCmdFence (s : State) : StepOut :=
  .next (if s.start.phase ≠ 8 then s
    else
      let (t, n) := fenUnit s
      if t then fenceTile s n 8 else fenceCore s n 8)

/-- State of a unit for FEN_CMD_STATUS (Table 17.16): 0 enabled, 1 fuse-fenced, 2 fenced in the field, 3 fenced for this
start only. A core follows its tile. -/
def fenState (s : State) (tile : Bool) (n : Nat) : Nat :=
  let t := if tile then n else tileOfCore n
  if s.start.fuseTiles.contains t || (!tile && s.start.fuseCores.contains n) then 1
  else if s.start.field.tiles.contains t || (!tile && s.start.field.cores.contains n) then 2
  else if (if tile then tileFenced s n else coreFenced s n) then 3
  else 0

/-- FEN_CMD_READ (R601). -/
def execFenCmdRead (s : State) : StepOut :=
  .next (if s.start.phase ≠ 8 ∨ !fenValid s then s
    else let (t, n) := fenUnit s; regSetFld s 0xC000C 31 30 (fenState s t n))

/-- FEN_CMD_UNFENCE (R589): the unit leaves the in-field map and stays fenced until the next start; denied for one that is
fenced in the fuse map or for this start only. -/
def execFenCmdUnfence (s : State) : StepOut :=
  .next <|
    let (t, n) := fenUnit s
    if s.start.phase ≠ 8 ∨ !fenValid s then s
    else
      let st := fenState s t n
      if st = 1 ∨ st = 3 then regSetFld s 0xC000C 16 16 1
      else if t then
        (if s.start.field.tiles.contains n then writeField s fun m => { m with tiles := m.tiles.filter (· != n) } else s)
      else if s.start.field.cores.contains n then writeField s fun m => { m with cores := m.cores.filter (· != n) }
      else s

end Sys2Proof.Machine
end

