-- ==== Sys2Proof/Machine/Startup.lean ====
section
/-! DEFINITION. Power, start-up and device resets (R508, R509, R517 to R519, R575 to R579, R590 to R592, R607 to R612). -/

namespace Sys2Proof.Machine

/-! ### The main rails -/

/-- Registers on the standby rail: KPR and DAY blocks (R546), and the start's own report. -/
def standbyReg (o : Nat) : Bool := decide (0x60000 ≤ o ∧ o < 0x80000) || decide (0xB0040 ≤ o ∧ o < 0xB0060)

/-- The ceilings that the Keeper holds dies to outlast the registers that show them (R515). -/
def keepCeilings (old s : State) : State :=
  (List.range nDies).foldl (fun st d => regSetFld st (0x400C0 + 4 * d) 2 0 (ceilingOf old d)) s

/-- Everything on the main rails at its reset value; what the Keeper holds stays. -/
def mainReset (s : State) (keep : Nat → Bool) : State :=
  keepCeilings s { State.reset with
    regs := s.regs.filter fun p => keep p.1
    day := s.day
    keeper := s.keeper
    start := s.start
    outputs := s.outputs
    free := s.free
    pending := s.pending }

/-- The main rails go down: all that they feed is lost. -/
def powerDown (s : State) : State :=
  let s1 := mainReset s standbyReg
  { s1 with start := { s1.start with
    phase := 0, pendingReset := none, depth := 0, grace := false, rails := false, warm := false, hwChecked := [], ueRows := []
    badCores := [], badTiles := [] } }

/-- KPR_STATUS.state and the state that sensor 0x0600 shows. -/
def setModState (s : State) (m : ModState) : State :=
  let v := match m with
    | .off => 0
    | .dead => 0
    | .standby => 1
    | .starting => 2
    | .resetting => 2
    | .ready => 3
    | .shutdown => 4
    | .failed => 1
  regSetFld { s with keeper := { s.keeper with state := m } } 0x60000 2 0 v

/-- MNT_START_STATUS (Table 17.15). -/
def setStartStatus (s : State) (phase reason : Nat) : State := regSet s 0xB0040 (BitVec.ofNat 32 (phase * 2 ^ 28 + reason))

/-- A shutdown (R518): rails down, the record and cause, an alert. Freezes end with it (R529). -/
def shutdown (s : State) (cause index value : Nat) : State :=
  let s1 := dayEvent (powerDown (dayEndFreezes s)) 0x0104 0xFF 0 [cause, index, value]
  let s2 := setModState s1 .shutdown
  sbAlert (regSet s2 0x60004 (BitVec.ofNat 32 (cause * 256 + index % 256)))

/-- A start fails (R579). -/
def failStart (s : State) (phase reason : Nat) : State :=
  let s1 := setStartStatus (setModState (powerDown s) .failed) phase reason
  sbAlert (dayEvent s1 0x0107 0xFF 0 [phase, reason])

/-! ### Starts -/

/-- Enter a phase. -/
def enterPhase (s : State) (p : Nat) : State :=
  setStartStatus { s with start := { s.start with phase := p } } p 0

/-- A start begins with a phase (R575, R590): depth 3 for a cold reset, 0 for a power-on. -/
def beginStart (s : State) (p depth : Nat) (byPerst : Bool) : State :=
  let s1 : State := { s with start := { s.start with
    depth := depth, byPerst := byPerst, railRetry := false, badCores := [], badTiles := [], hwChecked := [], ueRows := []
    pendingReset := none, grace := false, warm := false } }
  enterPhase (setModState s1 (if depth = 0 then .starting else .resetting)) p

/-- The I/O dies are released (R468, R612): the clocks run, fabric time is zero, the fused values show. -/
def railsUp (s : State) : State :=
  let s1 : State := { s with start := { s.start with rails := true }, ftime := 0 }
  let s2 := regSet (regSetPair s1 0x30008 0) 0x50000 (BitVec.ofNat 32 0x13FFF)
  let s3 := regSetPair s2 0xA0004 Config.serial
  regSet s3 0xA0000 (BitVec.ofNat 32 (Config.firmwareSvn % 2 ^ 16 * 2 ^ 16 + (if Config.fk0Revoked then 4 else 0) +
    (if Config.jtagLocked then 2 else 0)))

/-- Pseudo-channels and devices that no mark takes out (R327, R328, R336). -/
def pcsLeft (s : State) (h : Nat) : List Nat := (List.range 32).filter fun p => !s.start.mapOut.contains (32 * h + p)
def gddrLeft (s : State) : List Nat := (List.range 16).filter fun n => !s.start.mapOut.contains (256 + n)
def halfCount (s : State) (die : Nat) : Nat := ((List.range 4).map fun k => (pcsLeft s (4 * die + k)).length).sum
/-- A word with the bits of a list set. -/
def bitsOf (l : List Nat) : Nat := (l.map fun n => 2 ^ n).sum
/-- The shape of device memory after training (R327, R328, R336, Table 10.17). -/
def memoryShape (s : State) : State :=
  let s1 := (List.range 8).foldl (fun st h =>
    let on := bitsOf (pcsLeft s h)
    regSet (regSet st (0x10020 + 4 * h) (BitVec.ofNat 32 on)) (0x10040 + 4 * h) (BitVec.ofNat 32 (2 ^ 32 - 1 - on))) s
  let n := (gddrLeft s).length
  let dev := bitsOf (gddrLeft s)
  let s2 := regSet (regSet s1 0x10000 (BitVec.ofNat 32 (halfCount s 0 * 1152))) 0x10004 (BitVec.ofNat 32 (halfCount s 1 * 1152))
  let s3 := regSet (regSet s2 0x10008 (BitVec.ofNat 32 (n * 3072))) 0x1000C (BitVec.ofNat 32 (n * 3072 - 256))
  regSet s3 0x10010 (BitVec.ofNat 32 ((2 ^ 16 - 1 - dev) * 2 ^ 16 + dev))
/-- Enough memory for device ready (R336)? -/
def memoryEnough (s : State) : Bool :=
  decide (16 ≤ halfCount s 0) && decide (16 ≤ halfCount s 1) && decide (4 ≤ (gddrLeft s).length)

/-- What phase 4 does with the rows to repair and the failures that it found (R578, R581, R583): repairs and fences go to
the in-field map in one update. -/
def testResults (s : State) (rep : PhaseReport) : State :=
  let (m, cs, ts) := rep.remaps.foldl (fun (a : FieldMap × List Nat × List Nat) r =>
    if repairCause a.1 r = 0 then (addRemap a.1 r, a.2.1, a.2.2)
    else if r.kind = 1 then (a.1, addNew a.2.1 r.unit, a.2.2)
    else (a.1, a.2.1, addNew a.2.2 r.unit)) (s.start.field, rep.badCores, rep.badTiles)
  let m1 := { m with cores := cs.foldl addNew m.cores, tiles := ts.foldl addNew m.tiles }
  let s1 := if m1 = s.start.field then s else writeField s fun _ => m1
  { s1 with start := { s1.start with badCores := cs, badTiles := ts } }

/-- The fence map of a start (R581), with FEN_STATUS. -/
def buildFences (s : State) : State :=
  let fenReg (o : Nat) : Bool := decide (0xC0100 ≤ o ∧ o < 0xC0F00)
  let s1 : State := { s with regs := s.regs.filter fun p => !fenReg p.1 }
  let f := s.start
  let s2 := (f.fuseCores ++ f.field.cores ++ f.badCores).foldl markCore s1
  fenceStatus ((f.fuseTiles ++ f.field.tiles ++ f.badTiles).foldl markTile s2)

/-- Spare-row fields from the in-field map (R368). -/
def spareRegs (s : State) : State := s.start.field.remaps.foldl spareReg s

/-- The Keeper writes every EIC_SRCn_CFG and locks them (R539). -/
def setEics (s : State) : State :=
  let cfg (o : Nat) : Bool := decide (0x80000 ≤ o ∧ o < 0x8E000) && decide (o % 0x1000 < 0x800)
  (List.range 14).foldl (fun st e => regSet st (eicBase e + 0x844) 1) { s with regs := s.regs.filter fun p => !cfg p.1 }

/-- Every tile at PWR_CTRL.idle_pace, at the end of phase 6. -/
def idleTiles (s : State) : State :=
  let p := restPaceOf (regFld s 0x40000 6 4)
  let s1 := (List.range nTiles).foldl (fun st t => setTilePace st t p) s
  if p = 2 then s1 else (List.range nDies).foldl updateHub { s1 with cores := [] }

/-- Device ready (R577, R610): every function in its reset state; WAKE# goes low unless PERST# caused the start. -/
def deviceReady (s : State) : State :=
  let s1 := setModState { s with start := { s.start with phase := 8, depth := 0 } } .ready
  let s2 := setStartStatus s1 8 0
  if s.start.byPerst then s2 else emit { s2 with start := { s2.start with wake := true } } (.wakePin true)

/-- A cold reset, a warm reset and a power-off taken at the end of a phase (R592): a warm one resumes from phase 5, or from
phase 2 while the main rails are still down. -/
def resumeReset (s : State) (d : Nat) : State :=
  let s1 : State := { s with start := { s.start with pendingReset := none } }
  if d = 4 then shutdown s1 7 0 0
  else if d = 3 then beginStart (powerDown s1) 2 3 false
  else
    let s2 : State := { s1 with start := { s1.start with depth := Nat.max 2 s1.start.depth } }
    enterPhase (setModState s2 .resetting) (if s.start.rails then 5 else 2)

/-- What follows a phase that has passed. -/
def afterPhase (s : State) (p : Nat) : State :=
  match s.start.pendingReset with
  | some d => resumeReset s d
  | none => if p = 7 then deviceReady s else enterPhase s (p + 1)

/-- START_PHASE_END (R575 to R578). -/
def execStartPhaseEnd (rep : PhaseReport) (s : State) : StepOut :=
  .next <|
    let p := s.start.phase
    if p = 0 ∨ 7 < p ∨ s.start.warm then s
    else if p = 7 ∧ s.start.perst then s
    else
      let s0 := regSet s (0xB0044 + 4 * (p - 1)) (BitVec.ofNat 32 (rep.ms % 2 ^ 16))
      match p with
      | 2 =>
        if rep.railBad then
          (if s.start.railRetry then failStart s0 2 2 else { s0 with start := { s0.start with railRetry := true } })
        else afterPhase (railsUp s0) 2
      | 3 =>
        let s1 := memoryShape (rep.badCtls.foldl (fun st c => if c < 272 then markMapOut st c 1 else st) s0)
        if memoryEnough s1 then afterPhase s1 3 else failStart s1 3 3
      | 4 => afterPhase (testResults s0 rep) 4
      | 5 =>
        let s1 := setEics (spareRegs (buildFences s0))
        if (List.range nTiles).any fun t => !tileFenced s1 t then afterPhase s1 5 else failStart s1 5 7
      | 6 =>
        if rep.pcieFail then failStart (dayEvent s0 0x0103 12 0 [1]) 6 4
        else if rep.pkeFail then failStart (dayEvent s0 0x0103 12 0 [2]) 6 5
        else afterPhase (idleTiles (regSetFld s0 0xA0000 0 0 1)) 6
      | _ => afterPhase s0 p

/-- PHASE_TIMEOUT (R576): a phase has run for more than twice its budget; that of phase 7 runs from PERST# deassertion. -/
def execPhaseTimeout (s : State) : StepOut :=
  .next <|
    let p := s.start.phase
    if p = 0 ∨ 7 < p ∨ s.start.warm ∨ (p = 7 ∧ s.start.perst) then s else failStart s p 6

/-! ### The Keeper's boot (R508, R509, R533, R582) -/

/-- The copy of the in-field map that the Keeper uses, given the state of both copies (0 valid, 1 bad magic, 2 bad crc): with
neither valid it records that and writes a fresh copy. -/
def readFieldMaps (s : State) (a b : Nat) : State :=
  let (cur, oth) := if s.start.useB then (b, a) else (a, b)
  let st := s.start
  if cur = 0 then { s with start := { st with other := if oth = 0 then st.other else FieldMap.empty } }
  else if oth = 0 then { s with start := { st with field := st.other, other := FieldMap.empty, useB := !st.useB } }
  else
    let s1 := dayEvent { s with start := { st with field := FieldMap.empty, other := FieldMap.empty } } 0x0903 0xFF 0 [a, b]
    writeField s1 fun m => m

/-- Can the Keeper of IOD0, or IOD1, run: its self-test passes and an image is good (R508)? -/
def keeperRuns (fail image : Nat) : Bool := fail == 0 && decide (image < 2)

/-- Keeper k (1 IOD0, 2 IOD1) runs image im. -/
def keeperUp (s : State) (k im : Nat) : State :=
  let s1 : State := { s with keeper := { s.keeper with active := k } }
  regSet s1 0x60000 (BitVec.ofNat 32 (Config.firmwareVersion % 2 ^ 16 * 2 ^ 16 + k * 2 ^ 8 + im * 2 ^ 4 + regFld s1 0x60000 2 0))
/-- The records of a boot (R509, R533): KEEPER_FAILOVER first where the Keeper of IOD1 has taken over for reason step. -/
def bootRecords (s : State) (k im : Nat) (step : Option Nat) (retry : FlashResult) : State :=
  let s1 := match step with
    | some d => dayEvent s 0x0102 0xFF 0 [d]
    | none => s
  dayRetry (dayRegs (dayEvent s1 0x0101 0xFF 0 [im, k - 1])) retry

/-- A Keeper boots (R33, R508, R509): that of IOD0 unless it has failed for reason out; none, where neither can run. -/
def bootKeeper (s : State) (rep : BootReport) (out : Option Nat) : Option State :=
  if out.isNone ∧ keeperRuns rep.fail0 rep.image0 then
    some (bootRecords (keeperUp s 1 rep.image0) 1 rep.image0 none rep.retry)
  else if keeperRuns rep.fail1 rep.image1 then
    -- no step of the self-test has failed where only the images are bad: the record's d0 is then a free value
    let (n, s1) := drawFree s
    let d := match out with
      | some d => d
      | none => if rep.fail0 = 0 then Config.freeValue n else rep.fail0
    some (bootRecords (keeperUp (if out.isNone ∧ rep.fail0 = 0 then s1 else s) 2 rep.image1) 2 rep.image1 (some d) rep.retry)
  else none

/-- The standby rail has dropped: staged records, the latch and every register are lost; flash keeps what it holds. -/
def standbyLoss (s : State) (vin : Nat) : State :=
  let seqs := s.day.flash.filterMap fun p => p.2.map (·.seq)
  { State.reset with
    day := { Daymark.init with
      flash := s.day.flash
      next := match seqs with
        | [] => 0
        | a :: r => (r.foldl Nat.max a + 1) % 2 ^ 32 }
    keeper := { Keeper.init with state := .dead, savedSeconds := s.keeper.savedSeconds, savedCycles := s.keeper.savedCycles }
    start := { Startup.init with
      perst := s.start.perst, vin := vin, fuseCores := s.start.fuseCores, fuseTiles := s.start.fuseTiles
      field := s.start.field, other := s.start.other, useB := s.start.useB, mapOut := s.start.mapOut }
    outputs := s.outputs
    free := s.free
    pending := s.pending }

/-- POWER_APPLIED (R508, R511, R575): 48 V is applied and reaches 40 V, in units of 0.1 V; the Keeper boots, and a start
begins with phase 1. -/
def execPowerApplied (vin : Nat) (rep : BootReport) (s : State) : StepOut :=
  .next <|
    if vin < 400 then s
    else
      let s0 := standbyLoss s vin
      let s1 : State := { s0 with keeper := { s0.keeper with savedCycles := (s0.keeper.savedCycles + 1) % 2 ^ 32 } }
      let s2 := regSet (regSet s1 0x60080 (BitVec.ofNat 32 s1.keeper.savedSeconds)) 0x60084 (BitVec.ofNat 32 s1.keeper.savedCycles)
      match bootKeeper s2 rep none with
      | none => s1
      | some s3 => beginStart (readFieldMaps s3 rep.copyA rep.copyB) 1 0 s.start.perst

/-- KEEPER_WATCHDOG (R509): the Keeper restarts; a third restart of that of IOD0 within an hour hands over to that of IOD1.
Where no Keeper runs any more the main rails go down. -/
def execKeeperWatchdog (rep : BootReport) (s : State) : StepOut :=
  .next <|
    if s.keeper.active = 0 then s
    else
      let now := opSeconds s
      let recent := (s.keeper.restarts.filter fun t => decide (now < t + 3600)) ++ [now]
      let s1 : State := { s with keeper := { s.keeper with restarts := recent, restarting := true } }
      let out : Option Nat := if s.keeper.active = 2 ∨ 3 ≤ recent.length then some 4 else none
      if s.keeper.active = 2 then
        (if keeperRuns rep.fail1 rep.image1 then bootRecords (keeperUp s1 2 rep.image1) 2 rep.image1 none rep.retry
         else setModState { powerDown s1 with keeper := { (powerDown s1).keeper with active := 0 } } .dead)
      else match bootKeeper s1 rep out with
        | some s2 => s2
        | none => setModState { powerDown s1 with keeper := { (powerDown s1).keeper with active := 0 } } .dead

/-! ### Power failures -/

/-- Program the first n staged records. -/
def dayFlushN (s : State) (n : Nat) : State :=
  if dayDegraded s then s else (s.day.staged.take n).foldl (fun st r => dayPut st r true) s

/-- POWER_FAIL (R519): the input falls below 38 V. From 40 V or more there is time to program every staged record;
otherwise how many are programmed is a free value. -/
def execPowerFail (vin : Nat) (s : State) : StepOut :=
  .next <|
    if 380 ≤ vin ∨ s.keeper.state = .off then s
    else
      let old := s.start.vin
      let s0 := powerDown { s with start := { s.start with vin := vin } }
      if s.keeper.active = 0 then s0
      else
        let s1 := dayEvent (dayEndFreezes s0) 0x0104 0xFF 0 [5, 0, vin]
        let s2 := regSet (setModState s1 .shutdown) 0x60004 (BitVec.ofNat 32 (5 * 256))
        let n := s2.day.staged.length
        if 400 ≤ old then saveCounts (dayFlushN s2 n)
        else
          let (k, s3) := drawFree s2
          let m := Config.freeValue k % (n + 2)
          let s4 := dayFlushN s3 m
          if m ≤ n then s4 else saveCounts s4

/-- The main rails have gone down without a shutdown: the module stands by, unless it was off already. -/
def standBy (s : State) : State :=
  let m := s.keeper.state
  if s.keeper.active = 0 ∨ m = .shutdown ∨ m = .failed then powerDown s else setModState (powerDown s) .standby

/-- MODULE_WITHDRAWAL (R608): PRSNT48# opens. -/
def execModuleWithdrawal (vin : Nat) (s : State) : StepOut :=
  .next <|
    if s.keeper.state = .off ∨ s.start.withdrawn then s
    else
      let s1 := standBy { s with start := { s.start with withdrawn := true } }
      if 380 < vin then dayEvent s1 0x0106 0xFF 0 [2] else s1

/-- INPUT_PROTECTION_TRIP (R607): the input is cut until 48 V is removed. -/
def execInputProtectionTrip (s : State) : StepOut :=
  .next <|
    if s.keeper.state = .off ∨ s.start.tripped then s
    else
      dayEvent (standBy { s with start := { s.start with tripped := true } }) 0x0106 0xFF 0 [1]

/-- HW_THERMAL_TRIP (R517): the comparator on a sensor of a compute or I/O die trips. -/
def execHwThermalTrip (sensor : Nat) (s : State) : StepOut :=
  .next <|
    if 108 ≤ sensor ∨ !s.start.rails then s
    else if s.keeper.active = 0 then powerDown s
    else
      let t := (tget Quantity.none s.keeper.q sensor).y / 256
      shutdown s 6 sensor (t % 2 ^ 32).toNat

/-! ### Device resets (R590 to R592) -/

/-- Registers that a warm reset keeps (Table 17.8): KPR, DAY and FEN blocks, the start's report, the fabric-time counter; and
those that phases 1 to 4 set and that a warm reset does not run again: the shape of memory, the clocks, the serial number,
the Keeper's input voltage, spare rows. -/
def warmReg (o : Nat) : Bool :=
  standbyReg o || decide (0xC0000 ≤ o ∧ o < 0xD0000) || o == 0x30008 || o == 0x3000C ||
    decide (0x10000 ≤ o ∧ o < 0x10014) || decide (0x10020 ≤ o ∧ o < 0x10060) || o == 0x50000 ||
    o == 0xA0000 || o == 0xA0004 || o == 0xA0008 || o == 0x40004 ||
    (decide (tileBase 0 ≤ o ∧ o < tileBase nTiles) &&
      (decide ((o - tileBase 0) % 0x1000 < 8) || decide (0x100 ≤ (o - tileBase 0) % 0x1000)))

/-- A warm reset begins: every function is reset, nothing more is written to the host, registers are at their reset values;
memory is zeroed and the ports retrain until WARM_RESET_ZEROING_END. -/
def beginWarm (s : State) : State :=
  let s1 := mainReset s warmReg
  let s2 : State := { s1 with
    mem := s.mem
    sramPoison := s.sramPoison
    poison0 := s.poison0
    poison1 := s.poison1
    ftime := s.ftime
    sched := { s1.sched with unlocked := s.sched.unlocked }
    start := { s1.start with phase := 5, depth := 2, warm := true, grace := false, pendingReset := none, byPerst := true } }
  setModState (regSetFld s2 0xA0000 0 0 0) .resetting

/-- A device reset of a depth goes ahead: 2 warm, 3 cold, 4 main rails off. -/
def takeReset (s : State) (d : Nat) : State :=
  if d = 4 then shutdown s 7 0 0
  else if d = 3 then beginStart (powerDown s) 2 3 false
  else beginWarm s

/-- WARM_RESET_ZEROING_END (R590): device memory holds zeros, the ports are trained, phases 5 to 7 begin. -/
def execWarmResetZeroingEnd (s : State) : StepOut :=
  .next <|
    if !s.start.warm then s
    else
      let s1 : State := { s with mem := [], sramPoison := [], poison0 := [], poison1 := [], start := { s.start with warm := false } }
      enterPhase s1 5

/-- Milliseconds of the reset grace period (Table 17.15). -/
def graceMs (s : State) : Nat := Nat.min (regFld s 0xB0000 15 6) 1000

/-- A device reset is asked for over the sideband (R591, R592). -/
def requestReset (s : State) (d : Nat) : State :=
  let more (s : State) : State := { s with start := { s.start with pendingReset := some (Nat.max d (s.start.pendingReset.getD 0)) } }
  if s.start.warm then (if 2 < d then takeReset (raiseSrc s 12 39) d else s)
  else if s.start.phase = 8 then
    (if s.start.grace then more s
     else
       let s1 := raiseSrc s 12 39
       if graceMs s1 ≠ 0 then
         let s2 := (List.range 64).foldl (fun st f => resetFn st f 1) s1
         more { s2 with start := { s2.start with grace := true } }
       else takeReset s1 d)
  else if s.start.phase = 0 then s
  else if d ≤ s.start.depth then s
  else more (raiseSrc s 12 39)

/-- RESET_GRACE_EXPIRY (R591): the reset proceeds, and the link goes down. -/
def execResetGraceExpiry (s : State) : StepOut :=
  .next (if s.start.grace then takeReset s (s.start.pendingReset.getD 2) else s)

/-- PERST_ASSERT (R590, R610): after device ready a warm reset that writes nothing to the host; WAKE# is released. -/
def execPerstAssert (s : State) : StepOut :=
  .next <|
    if s.start.perst then s
    else
      let s1 : State := { s with start := { s.start with perst := true } }
      let s2 := if s.start.wake then emit { s1 with start := { s1.start with wake := false } } (.wakePin false) else s1
      if s.start.phase ≠ 8 then s2
      else takeReset (dayEvent s2 0x0105 0xFF 0 [3, 0]) (Nat.max 2 (s2.start.pendingReset.getD 0))

/-- PERST_DEASSERT (R577): the link may train; device ready waits for it. -/
def execPerstDeassert (s : State) : StepOut := .next { s with start := { s.start with perst := false } }

/-- WAKE_RELEASE (R610): 100 ms have passed. -/
def execWakeRelease (s : State) : StepOut :=
  .next (if s.start.wake then emit { s with start := { s.start with wake := false } } (.wakePin false) else s)

/-! ### Configuration requests (R391, R392) -/

/-- The dwords of a configuration header that Table 12.1 gives: IDs, revision and class, subsystem IDs. -/
def cfgWord (f off : Nat) : Option Nat :=
  if off = 0 then some (if f = 0 then 0x02501FB4 else 0xFFFFFFFF)
  else if off = 8 then some 0x12000011
  else if off = 0x2C then some 0x00011FB4
  else none

/-- CONFIG_REQUEST: Request Retry Status until device ready; then a read gives the values of Table 12.1, and a free value where
the layout is that of the PCIe specification. -/
def execConfigRequest (f off : Nat) (write : Bool) (_v : Word) (s : State) : StepOut :=
  .next <|
    if s.start.perst ∨ !s.start.rails ∨ 64 ≤ f then s
    else if s.start.phase ≠ 8 then emit s (.config true 0)
    else if write then emit s (.config false 0)
    else match cfgWord f (off / 4 * 4) with
      | some v => emit s (.config false v)
      | none =>
        let (n, s1) := drawFree s
        emit s1 (.config false (Config.freeValue n % 2 ^ 32))

end Sys2Proof.Machine
end

