-- ==== Sys2Proof/Machine/Keeper.lean ====
section
/-! DEFINITION. The Keeper's samples and decisions (R511 to R518), and the PLLs (R489). -/

namespace Sys2Proof.Machine

/-! ### Filters (R513) -/

/-- Put an integer in its place in a rising list. -/
def insInt (x : Int) : List Int → List Int
  | [] => [x]
  | y :: l => if x ≤ y then x :: y :: l else y :: insInt x l
/-- Median of five samples. -/
def median (l : List Int) : Int := (l.foldr insInt []).getD 2 0
/-- One step of filter(q, x) with shift k: y has 8 fraction bits, the division truncates toward zero. -/
def filterStep (k : Nat) (q : Quantity) (x : Int) : Quantity :=
  if q.last5.isEmpty then ⟨List.replicate 5 x, x * 256⟩
  else
    let l := (x :: q.last5).take 5
    ⟨l, q.y + Int.tdiv (median l * 256 - q.y) (2 ^ k : Nat)⟩
/-- KPR_FILTER shifts, at most 8: k_temp for temperatures, k_rail for rails. -/
def filterShift (s : State) (i : Nat) : Nat :=
  Nat.min (if i < 128 then regFld s 0x60010 3 0 else regFld s 0x60010 7 4) 8
/-- Filter every quantity of a sample, by KPR_SENSOR_IDX. -/
def filterAll (s : State) (p : Sample) : State :=
  let xs := p.temps.take 128 ++ List.replicate (128 - p.temps.length) 0 ++ (p.volts.take 64 ++ List.replicate (64 - p.volts.length) 0) ++
    (p.amps.take 64 ++ List.replicate (64 - p.amps.length) 0)
  let q := (List.range 256).foldl (fun t i =>
    tset Quantity.none t i (filterStep (filterShift s i) (tget Quantity.none t i) (xs.getD i 0))) s.keeper.q
  { s with keeper := { s.keeper with q := q } }

/-! ### Conditions of Table 15.4 -/

/-- One sample of a condition: it comes into force once its trigger has held for n samples, and is lifted once its lifting
condition has held for 100 samples (10 ms). -/
def stepCond (n : Nat) (trig lift : Bool) (c : Cond) : Cond :=
  if c.active then
    (if lift then (if 100 ≤ c.samples + 1 then Cond.off else { c with samples := c.samples + 1 }) else { c with samples := 0 })
  else if trig then (if n ≤ c.samples + 1 then ⟨true, 0⟩ else { c with samples := c.samples + 1 })
  else Cond.off
/-- Condition of a row of Table 15.4 (from 1) on a sensor, rail or the input. -/
def condAt (s : State) (row i : Nat) : Cond := tget Cond.off s.keeper.conds (row * 256 + i)
/-- Step a condition. -/
def runCond (s : State) (row i n : Nat) (trig lift : Bool) : State :=
  { s with keeper := { s.keeper with
    conds := tset Cond.off s.keeper.conds (row * 256 + i) (stepCond n trig lift (condAt s row i)) } }

/-- A rail's filtered voltage in 1/256 mV and current in 1/256 of 10 mA. -/
def railVolt (s : State) (r : Nat) : Int := filtered s (128 + r)
def railAmp (s : State) (r : Nat) : Int := filtered s (192 + r)
/-- Logic and SRAM rails of the compute dies (Table 15.3). -/
def dieRails : List Nat := (List.range 24).map (· + 2)
/-- A rail outside ±10 % of its nominal voltage. -/
def railOut (s : State) (r : Nat) : Bool :=
  let n : Int := 256 * (Config.railNominal r : Int)
  decide (10 * railVolt s r < 9 * n) || decide (11 * n < 10 * railVolt s r)

/-- Step every condition of Table 15.4. Rails are judged while the main rails are up; rail 0, the input, has rows of its
own. -/
def runConds (s : State) : State :=
  let s1 := (List.range 128).foldl (fun st n =>
    let c := sensorClass n
    let x := filtered st n
    let at_ (k : Nat) : Int := 256 * (threshold st c k : Int)
    runCond (runCond st 1 n 1 (decide (at_ 0 ≤ x)) (decide (x ≤ at_ 0 - 1280)))
      2 n 1 (decide (at_ 1 ≤ x)) (decide (x ≤ at_ 1 - 1280))) s
  let lim (r : Nat) : Int := 256 * (Config.railLimit r : Int)
  let s2 := dieRails.foldl (fun st r =>
    runCond st 4 r 1 (st.start.rails && decide (lim r < railAmp st r)) (decide (10 * railAmp st r < 9 * lim r))) s1
  let s3 := (List.range 62).foldl (fun st i =>
    let r := i + 2
    runCond st 6 r 10 (st.start.rails && railOut st r) (!railOut st r)) s2
  let p := inputPower s3
  let v := railVolt s3 0
  let mv (x : Int) : Int := 256 * x
  let s4 := runCond s3 7 0 1 (decide (mv 1500 < p)) (decide (p < mv 1400))
  let s5 := runCond s4 8 0 10 (decide (v < mv 40000)) (decide (mv 41000 < v))
  runCond s5 9 0 10 (decide (mv 60000 < v)) (decide (v ≤ mv 60000))

/-- A value as the data word of a record: whole units. -/
def unitWord (x : Int) : Nat := (x / 256 % 2 ^ 32).toNat
/-- The shutdown that Table 15.4 calls for, in the table's order: cause, index and value of the record. -/
def shutCause (s : State) : Option (Nat × Nat × Nat) :=
  let hot := (List.range 128).find? fun n => decide (256 * (threshold s (sensorClass n) 2 : Int) ≤ filtered s n)
  let current := if s.start.rails then (List.range 64).find? fun r => decide (125 * 256 * (Config.railLimit r : Int) < 100 * railAmp s r) else none
  let out := (List.range 64).find? fun r => (condAt s 6 r).active
  match hot with
  | some n => some (1, n, unitWord (filtered s n))
  | none => match current with
    | some r => some (2, r, unitWord (railAmp s r))
    | none => match out with
      | some r => some (3, r, unitWord (railVolt s r))
      | none => if (condAt s 9 0).active then some (4, 0, unitWord (railVolt s 0)) else none

/-! ### Ceilings (R515) -/

/-- Ceilings that the conditions put on die d: (row, pace). -/
def ceilingRows (s : State) (d : Nat) : List (Nat × Nat) :=
  let any (row : Nat) : Bool := (List.range 128).any fun n => governs n d && (condAt s row n).active
  (if any 1 then [(1, 1)] else []) ++ (if any 2 then [(2, 2)] else []) ++
    (if (condAt s 4 (2 + d)).active || (condAt s 4 (14 + d)).active then [(4, 2)] else []) ++
    (if (condAt s 7 0).active then [(7, 1)] else []) ++ (if (condAt s 8 0).active then [(8, 2)] else [])
/-- KPR_SB_CAPd.pace, at most Black. -/
def sbPace (s : State) (d : Nat) : Nat := Nat.min (regFld s (0x60040 + 4 * d) 10 8) 4
/-- The ceiling of a die (R515): the lowest pace that anything holds it to. -/
def wantCeiling (s : State) (d : Nat) : Nat := ((ceilingRows s d).map (·.2)).foldl Nat.max (sbPace s d)
/-- The row that holds a die to a pace: the first in the table, 0 for the sideband's cap. -/
def ceilingCause (rows : List (Nat × Nat)) (p : Nat) : Nat := match rows.find? fun r => r.2 == p with
  | some r => r.1
  | none => 0
/-- Bring a die's ceiling in line (R515). A change names the row that brings it; a lift, the row that is lifted. -/
def setCeiling (old : State) (s : State) (d : Nat) : State :=
  let was := ceilingOf s d
  let now := wantCeiling s d
  if was = now then s
  else
    let cause := if was < now then ceilingCause (ceilingRows s d) now else ceilingCause (ceilingRows old d) was
    let s1 := regSetFld s (0x400C0 + 4 * d) 2 0 now
    let s2 := if s.start.rails then bump s1 0x40308 else s1
    let s3 := if now = 2 then bump s2 0x6010C else s2
    let s4 := dayEvent s3 0x0201 d d [was, now, cause]
    if s.start.rails then ((List.range 34).map (34 * d + ·)).foldl updateTile s4 else s4
/-- Every die's ceiling. -/
def setCeilings (old s : State) : State := (List.range nDies).foldl (setCeiling old) s

/-! ### The sample -/

/-- PWR_RAMP shows the input voltage in 0.1 V and the slot time of R500. -/
def rampReg (s : State) : State :=
  let v := (railVolt s 0 / 25600).toNat
  let s1 : State := { s with start := { s.start with vin := v } }
  if !s.start.rails then s1
  else
    let ns := if 480 ≤ v ∨ v = 0 then 300 else ceilDiv (300 * 480) (10 * v) * 10
    regSet s1 0x40004 (BitVec.ofNat 32 (v % 2 ^ 16 * 2 ^ 16 + ns % 1024))
/-- 10,000 samples make an operating second (R511). -/
def countSecond (s : State) : State :=
  if s.keeper.samples + 1 < 10000 then { s with keeper := { s.keeper with samples := s.keeper.samples + 1 } }
  else
    let s1 : State := { s with keeper := { s.keeper with samples := 0 } }
    regSet s1 0x60080 (regGet s1 0x60080 + 1)

/-- KEEPER_SAMPLE (R513 to R516, R518): a running Keeper takes a sample of every sensor and rail and decides. -/
def execKeeperSample (smp : Sample) (s : State) : StepOut :=
  .next <|
    if s.keeper.active = 0 then s
    else
      let s1 := countSecond { s with keeper := { s.keeper with restarting := false } }
      let s2 := runConds (rampReg (filterAll s1 smp))
      match (if s2.start.phase = 0 then none else shutCause s2) with
      | some (c, i, v) => shutdown s2 c i v
      | none => setCeilings s s2

/-- OP_SECONDS_SAVE (R511). -/
def execOpSecondsSave (s : State) : StepOut := .next (if s.keeper.active = 0 then s else saveCounts s)

/-! ### PLLs (R489) -/

/-- Is a domain one of the die's (Table 15.9): 0 to 3 of a compute die, 4 of an I/O die? -/
def pllExists (die dom : Nat) : Bool := decide (die < 12 ∧ dom < 4) || decide ((die = 12 ∨ die = 13) ∧ dom = 4)
/-- Relock attempts of a PLL that has lost lock, plus 1; 0 while it is locked. -/
def pllTries (s : State) (die dom : Nat) : Nat := tget 0 s.sched.unlocked (8 * die + dom)
def setPll (s : State) (die dom n : Nat) : State :=
  let s1 : State := { s with sched := { s.sched with unlocked := tset 0 s.sched.unlocked (8 * die + dom) n } }
  let bad := (List.range 5).any fun k => pllTries s1 die k != 0
  regSetFld s1 0x50000 die die (if bad then 0 else 1)
/-- Jobs with a stride on a compute die. -/
def jobsOnDie (s : State) (d : Nat) : List Nat :=
  (List.range 64).filterMap fun n => match getSector s n, runningJob s n with
    | some x, some j => if x.lcores.any (fun g => dieOfCore g == d) then some j.id else none
    | _, _ => none

/-- PLL_UNLOCK: the blocks that the PLL clocks stop; jobs with strides on the die end INTERNAL_FAULT. -/
def execPllUnlock (die dom : Nat) (s : State) : StepOut :=
  .next <|
    if !pllExists die dom ∨ !s.start.rails ∨ pllTries s die dom ≠ 0 then s
    else
      let s1 := loseExpanders (bump (setPll s die dom 1) 0x50008)
      let s2 := raiseSrc s1 die (if die < 12 then 70 else 37)
      if die < 12 then (jobsOnDie s2 die).foldl (fun st j => stopJob st j stInternal false) s2 else s2

/-- PLL_RELOCK: a relock attempt ends. After three failures a compute die is fenced with cause 7; the Keeper's record says how
it went. -/
def execPllRelock (die dom : Nat) (ok : Bool) (s : State) : StepOut :=
  .next <|
    let n := pllTries s die dom
    if n = 0 ∨ 4 ≤ n then s
    else if ok then dayEvent (setPll s die dom 0) 0x0202 die dom [n, 0]
    else if n < 3 then setPll s die dom (n + 1)
    else
      let s1 := dayEvent (setPll s die dom 4) 0x0202 die dom [3, 1]
      if die < 12 ∧ s.start.phase = 8 then ((List.range 34).map (34 * die + ·)).foldl (fun st t => fenceTile st t 7) s1 else s1

end Sys2Proof.Machine
end

