-- ==== Sys2Proof/Machine/Kse.lean ====
section
/-! DEFINITION. The Key Stream Engines at work: passes become active, bursts are read, slices land, passes end (R284 to
R289, R296). -/

namespace Sys2Proof.Machine

/-- Change pass p. -/
def modPass (s : State) (p : Nat) (f : Pass → Pass) : State := { s with passes := s.passes.map fun x => if x.id = p then f x else x }
/-- Pass p. -/
def getPass (s : State) (p : Nat) : Option Pass := s.passes.find? fun x => x.id == p
/-- Active passes of a fetch unit. -/
def activePasses (s : State) (die : Nat) : List Pass := s.passes.filter fun p => p.active && passOnDie s p die

/-- The contexts that run strides of some entries of a job stop, the strides being over. -/
def endStrides (s : State) (j : Job) (es : List Nat) : State :=
  match getSector s j.sector with
  | none => s
  | some x =>
    let mine (n : Nat) : Bool := (n == builtinStride && es.contains n) || ((j.image.bind fun i => i.strides[n]?).map fun t => es.contains t.opIndex).getD false
    let ks := (List.range 4).filter fun k => match tget none j.active k with
      | some n => mine n
      | none => false
    let s1 := x.lcores.foldl (fun st g => ks.foldl (fun st k => modCore st g fun c =>
      modCtx c k fun y => { y with run := .halted, miss := none, creditWait := none, waitSince := none }) st) s
    modJob s1 j.id fun y => { y with active := ks.foldl (fun a k => tset none a k none) y.active }

/-- No expander is available: every operation of a pass's batch fails with INTERNAL_FAULT (R286), and the operation for which a
refresh was inserted (R98). -/
def failPass (s : State) (p : Pass) : State :=
  let mine (q : Pass) : Bool := q.members == p.members
  let s0 : State := { s with passes := s.passes.filter fun x => x.id != p.id }
  match getJob s0 p.job with
  | none => s0
  | some j =>
    let inserted := p.members == [builtinStride]
    let m := ((batchJobs s0 j).find? fun m => inserted && !m.refreshing.isEmpty).getD j
    let ops := if inserted then m.refreshing.map fun r => r.1 / 65536 else p.members
    let s1 := endStrides s0 j p.members
    let s2 := modJob s1 j.id fun x => { x with
      passLeft := x.passLeft.filter fun q => !mine q, passDue := x.passDue.filter fun q => !mine q.2
      refreshing := if inserted then [] else x.refreshing }
    let s3 := if inserted then modJob s2 m.id fun x => { x with refreshing := [] } else s2
    ops.foldl (fun st n => failOp st m.id n Operand.absent stInternal true) s3

/-- KEY_PASS_ACTIVATE (R286, R287, R296): the oldest queued pass of a fetch unit becomes active; one of both units when it is the
oldest of each. -/
def execKeyPassActivate (iod : Nat) (s : State) : StepOut :=
  .next <|
    match queuedPasses s iod with
    | [] => s
    | p :: _ =>
      let room := ([0, 1] : List Nat).all fun d => !passOnDie s p d ||
        (decide ((activePasses s d).length < 16) && ((queuedPasses s d).head?.map (·.id)) == some p.id)
      if !room ∨ 2 ≤ iod ∨ ioStopped s iod then s
      else
        let q := getKeys s p.fn p.key
        let xs := if (passEnt s p).compressed then (List.range nDies).filter (expanderFree s) else []
        if (passEnt s p).compressed && xs.isEmpty then requestNext (failPass s p)
        else
          let dead := match keyAddr (keyParam s p.fn p.key) q (0x80 + 64 * p.entry) with
            | some a => anyPoison s a 64
            | none => false
          let s1 := modPass s p.id fun x => { x with active := true, dead := dead, exps := xs }
          let s2 := if dead then markKeyEntry s1 p.fn p.key p.entry else s1
          requestNext ((List.range nDies).foldl updateHub s2)

/-- The next pass that a fetch unit serves: in turn, those with credit (R287). -/
def nextPass (s : State) (die : Nat) : Option Pass :=
  let l := (activePasses s die).filter fun p => burstReady s p die
  let turn := tget 0 s.kseTurn die
  (l.find? fun p => decide (turn < p.id + 1)).orElse fun _ => l.head?

/-- Slice i of a pass leaves for every member (R282, R284, R288). -/
def sendSlice (s : State) (p : Pass) (i : Nat) : State :=
  let n := p.first + i
  let sw := passSw p
  (passMembers p).foldl (fun st m => match memberCore st p m with
    | some g =>
      if coreFenced st g then modPass st p.id fun x => { x with landed := x.landed ++ [(m, n)] }
      else
        let data := (sliceWords st p i m).flatMap wordTBytes
        pushReq st (.stream g 3) true (csBase g + p.krBase + n % Nat.max 1 p.krDepth * (8 * sw)) (8 * sw) data (.keySlice p.id m n)
    | none => st) s

/-- Serve burst r of slice i of a pass, with the error that its read meets. A unit of memory that cannot be delivered marks the
entry poisoned (R296); the burst that ends a slice sends it. -/
def serveBurst (s : State) (p : Pass) (iod i r : Nat) (err : MemErr) : State :=
  let (place, n) := burstPlace s p i r
  let s1 := match place with
    | some a => engineAccess s a n
    | none => s
  let s2 := match place with
    | some a =>
      let s2 := memErr s1 a n err false
      if anyPoison s2 a n then markKeyEntry s2 p.fn p.key p.entry else s2
    | none => s1
  let s3 := modPass s2 p.id fun x => { x with bursts := tset 0 x.bursts iod (tget 0 x.bursts iod + 1) }
  let s4 : State := { s3 with kseTurn := tset 0 s3.kseTurn iod (p.id + 1) }
  let o := fnBase p.fn + 0x2318
  let s5 := regSetPair s4 o ((regPair s4 o + n) % 2 ^ 64)
  if r + 1 = ceilDiv (sliceBytes s5 p i) 2048 ∧ passRaw s5 p = false then sendSlice s5 p i else s5

/-- KEY_BURST (R287, R296): a fetch unit reads one burst of the next active pass that has credit. -/
def execKeyBurst (b : BurstRead) (s : State) : StepOut :=
  .next <|
    match (if ioStopped s b.iod then none else nextPass s b.iod) with
    | none => s
    | some p =>
      match nextBurst s p b.iod with
      | none => s
      | some (i, r) => serveBurst s p b.iod i r b.err

/-- KEY_SLICE_LANDED (R285): the next slice of a pass has landed whole in member m, with every earlier one of the job: its
counter 2 advances. A built-in program returns each slice at once (log entry 27). -/
def execKeySliceLanded (p mem : Nat) (s : State) : StepOut :=
  .next <|
    match getPass s p with
    | none => s
    | some x =>
      let n := tget 0 x.counted mem
      let earlier := s.passes.any fun y => y.job == x.job && y.groups != 0 && decide (y.first < x.first) &&
        decide (tget 0 y.counted mem < y.slices)
      if x.dropped ∨ earlier ∨ !x.landed.contains (mem, x.first + n) then s
      else
        let s1 := modPass s p fun y => { y with
          landed := y.landed.erase (mem, y.first + n), counted := tset 0 y.counted mem (n + 1) }
        match memberCore s1 x mem with
        | some g =>
          let s2 := engineInc s1 g 2
          if x.builtin then engineInc s2 g 3 else s2
        | none => s1

/-- Add n to a counter of core g (R285). -/
def engineAdd (s : State) (g i n : Nat) : State := (List.range n).foldl (fun st _ => engineInc st g i) s
/-- A pass of a built-in program has ended: its words are there for the job, and for the jobs of its DIRECT_OP batch (R293). The
image's cores outside its members take part in the count of slices (log entry 27). -/
def builtinPassEnd (s : State) (x : Pass) : State :=
  match getJob s x.job, getSector s x.sector with
  | some j, some y =>
    let js := j.id :: (batchJobs s j).map (·.id)
    let s1 := js.foldl (fun st k => modJob st k fun z => { z with passEnded := z.passEnded ++ [x] }) s
    if x.groups = 0 ∨ j.kind = .direct then s1
    else (y.lcores.drop (x.groups * x.width)).foldl (fun st g => engineAdd (engineAdd st g 2 x.slices) g 3 x.slices) s1
  | _, _ => s

/-- KEY_PASS_END (R284, R299): a pass has been read, and has delivered its last slice in every member; a dropped pass ends once
nothing of it is in flight. -/
def execKeyPassEnd (p : Nat) (s : State) : StepOut :=
  .next <|
    match getPass s p with
    | none => s
    | some x =>
      let s1 : State := { s with passes := s.passes.filter fun y => y.id != p }
      if x.dropped then (List.range nDies).foldl updateHub s1
      else if !x.active || !passRead s x || !(passMembers x).all (fun m => (memberCore s x m).isNone || tget 0 x.counted m == x.slices) then s
      else
        let s2 := bump s1 (fnBase x.fn + 0x2310)
        let s3 := modJob s2 x.job fun j => { j with stats := { j.stats with passes := j.stats.passes + 1 } }
        let s4 := if x.builtin then builtinPassEnd s3 x else s3
        advanceAll (requestNext ((List.range nDies).foldl updateHub s4))

end Sys2Proof.Machine
end

