-- ==== Sys2Proof/Machine/Maint.lean ====
section
/-! DEFINITION. Maintenance activities (R594 to R599), patrol scrub (R354) and DRAM refresh (R331). -/

namespace Sys2Proof.Machine

/-! ### Activities -/

/-- Tile of a target, if it is one. -/
def targetTile (target : Nat) : Option Nat := if bits target 23 20 = 1 then some (bits target 19 0) else none
/-- Does an activity of a class need its tile idle (Table 17.10)? -/
def needsIdle (cls : Nat) : Bool := cls == 2 || cls == 3

/-- MAINTENANCE_ACTIVITY_BEGIN (R594): a granted activity begins once its tile is idle; a port is DOWN during LINK_RETRAIN. -/
def execMaintenanceActivityBegin (a : Nat) (s : State) : StepOut :=
  .next <|
    match mntFind s a with
    | none => s
    | some r =>
      let busy := needsIdle r.req.cls && (targetTile r.req.target).any (tileRunsJob s)
      if r.begun ∨ busy then s
      else
        let s1 : State := { s with maint := { s.maint with
          running := s.maint.running.map fun x => if x.id = a then { x with begun := true } else x } }
        if r.req.cls = 5 then portDown (bump s1 0x20208) (bits r.req.target 19 0) else s1

/-- CORE_RETEST of tile t (Table 17.6, cause 5): each failing core is fenced, or the tile if its shared parts fail. -/
def retestEnd (s : State) (t : Nat) (rep : MntReport) : State :=
  if rep.shared then fenceTile s t 5
  else (rep.badCores.filter fun g => tileOfCore g == t).foldl (fun st g => fenceCore st g 5) s

/-- One row of tile t is remapped, or its unit fenced (R358, R583). -/
def remapRow (t : Nat) (s : State) (r : Remap) : State :=
  let mine := if r.kind = 1 then tileOfCore r.unit == t else r.kind == 2 && r.unit == t
  if !mine then s
  else
    let c := repairCause s.start.field r
    if c = 0 then bump (spareReg (writeField s fun m => addRemap m r) r) 0x1006C else fenceRow s r c
/-- ROW_REMAP (R358): rows of a tile, or of a pseudo-channel, whose repaired rows no longer count towards Table 10.4; a
GDDR7 device has no repair. -/
def remapEnd (s : State) (target : Nat) (rep : MntReport) : State :=
  let x := bits target 19 0
  match bits target 23 20 with
  | 1 => rep.remaps.foldl (remapRow x) s
  | 2 =>
    if rep.ok then
      (let s1 : State := { s with start := { s.start with ueRows := s.start.ueRows.filter fun r => r / 2 ^ 32 != x } }
       rep.remaps.foldl (fun st _ => bump st 0x1006C) s1)
    else s
  | _ => s

/-- Controllers of a MEM_RETRAIN target. -/
def retrained (target : Nat) : List Nat :=
  let x := bits target 19 0
  if bits target 23 20 = 3 then (List.range 32).map (32 * x + ·) else [256 + x]

/-- What an activity that has run leaves, and its status (R599). -/
def activityEnd (s : State) (r : MntReq) (rep : MntReport) : State × Nat :=
  let st := if rep.ok then 0 else 0x0703
  match r.cls with
  | 2 => ((targetTile r.target).elim s fun t => retestEnd s t rep, st)
  | 3 => (remapEnd s r.target rep, st)
  | 4 =>
    let bad := rep.badCores.filter fun c => (retrained r.target).contains c
    (bad.foldl (fun m c => markRetrain m c 1) s, if bad.isEmpty then st else 0x0703)
  | 5 =>
    let p := bits r.target 19 0
    if rep.ok && bit (regGet s (0x20100 + 8 * p)).toNat 0 then (portUp s p (rep.lanes % 16), 0) else (s, 0x0703)
  | _ => (s, st)

/-- MAINTENANCE_ACTIVITY_END (R598, R599). -/
def execMaintenanceActivityEnd (a : Nat) (rep : MntReport) (s : State) : StepOut :=
  .next <|
    match mntFind s a with
    | none => s
    | some r =>
      if !r.begun then s
      else
        let e := activityEnd s r.req rep
        mntFinish e.1 a e.2

/-- MNT_IDLE_TIMEOUT (R594): an activity that has not begun within idle_limit ticks of its grant. -/
def execMntIdleTimeout (a : Nat) (s : State) : StepOut :=
  .next <|
    match mntFind s a with
    | none => s
    | some r =>
      if r.begun ∨ s.ftime.toNat < r.granted + Nat.max 1 (regFld s 0xB0000 31 16) then s else mntFinish s a 0x0704

/-! ### Patrol scrub and refresh -/

/-- Patrol scrubs a Core Store line in a phase-3 cycle in which nothing is pending at the stream port (R133, R380). -/
def scrubStore (s : State) (g n a : Nat) (err : MemErr) : State :=
  if n % 4 ≠ 3 ∨ n < (getCore s g).scrubFrom ∨ (List.range 4).any (portPending s g) = true ∨
      s.zeroing.contains (tileOfCore g) = true then s
  else memErr (modCore s g fun c => { c with scrubFrom := n + 64 }) a 32 err true
/-- It scrubs a line in each bank of a Tile Bank in a phase-7 cycle: the 16 lines of an aligned run (R337). -/
def scrubBank (s : State) (t n a : Nat) (err : MemErr) : State :=
  if n % 8 ≠ 7 ∨ n < tget 0 s.bankScrub t ∨ s.zeroing.contains t = true then s
  else memErr { s with bankScrub := tset 0 s.bankScrub t (n + 64) } a 1024 err true
/-- A unit of a pseudo-channel or device is due dram_interval ticks after the last. It is scrubbed in an idle cycle of the
controller; one that finds none for as long again joins the queue (R354, R355). -/
def scrubDram (s : State) (a : Nat) (err : MemErr) : State :=
  let c := controllerOf s a
  let step := Nat.max 1 (regFld s 0x10014 7 0)
  let due := tget 0 s.dramScrub c + step
  let now := s.ftime.toNat
  let s1 : State := { s with dramScrub := tset 0 s.dramScrub c now }
  if now < due ∨ ctlHeld s c = true then s
  else if (oldest s (.dram c)).isNone then memErr s1 a 2048 err true
  else if due + step ≤ now then pushReq s1 (.dram c) false a 2048 [] .scrub
  else s

/-- PATROL_SCRUB (R354 to R356): in a core-domain cycle of its memory, a line or unit is read and rewritten, with the error that
the read meets. -/
def execPatrolScrub (p : ScrubSlot) (err : MemErr) (s : State) : StepOut :=
  .next <|
    if s.start.phase ≠ 8 then s
    else match patrolUnit s p.addr with
      | none => s
      | some u =>
        let a := p.addr / u * u
        match regionOf s p.addr with
        | .cs g _ => scrubStore s g p.cyc a err
        | .tb t _ => scrubBank s t p.cyc a err
        | _ => scrubDram s a err

/-- DRAM_REFRESH (R331): it takes time only. -/
def execDramRefresh (_ctl : Nat) (s : State) : StepOut := .next s

end Sys2Proof.Machine
end

