-- ==== Sys2Proof/Machine/Pair.lean ====
section
/-! DEFINITION. The range pair (R456 to R464): activation, the front's mirroring of its whole state, the rear's application
of the items, probes, takeover and handover. The byte layouts of the items are log entry 16. -/

namespace Sys2Proof.Machine

/-! ### The front mirrors its whole state (R458) -/

/-- A synthesised descriptor of type t: word 0x14 and the length. -/
def synthDesc (t w14 len : Nat) : List Byte :=
  leBytes 4 (t * 2 ^ 24) ++ List.replicate 16 0 ++ leBytes 4 w14 ++ leBytes 8 len ++ List.replicate 32 0
/-- A synthesised FN_ADMIN descriptor. -/
def synthAdmin (f action v : Nat) : List Byte :=
  leBytes 4 (0x23 * 2 ^ 24) ++ leBytes 4 0 ++ leBytes 4 (f * 2 ^ 16 + action) ++ leBytes 4 v ++ List.replicate 48 0

/-- STATE items of function f: parameter sets, buffers, key and table sets, models, quota and expert level. -/
def fnItems (s : State) (f : Nat) : List (List Byte) :=
  let x := getFn s f
  let b1 (b : Bool) : List Byte := leBytes 1 (if b then 1 else 0)
  let paramOf (crc : Nat) : Nat := ((List.range 16).find? fun n => (getParam s f n).loaded && pCrc (getParam s f n).obj == crc).getD 0
  (x.params.map fun p => leBytes 1 3 ++ leBytes 1 f ++ leBytes 1 p.1 ++ leBytes 2 p.2.lastGen ++ b1 p.2.loaded ++ p.2.obj) ++
  (x.bufs.map fun p => leBytes 1 2 ++ leBytes 1 f ++ leBytes 2 p.1 ++ leBytes 2 p.2.gen ++ b1 p.2.live ++ leBytes 8 p.2.base ++
    leBytes 8 p.2.size ++ if p.2.live then memBytes s p.2.base p.2.size else []) ++
  ((x.keys.filter (·.2.loaded)).map fun p => stateItem f 0 (synthDesc 2 (p.1 * 2 ^ 16 + p.2.param) p.2.obj.length) p.2.obj) ++
  ((x.tables.filter (·.2.loaded)).map fun p =>
    stateItem f 0 (synthDesc 2 (p.1 * 2 ^ 16 + paramOf (ow p.2.obj 8)) p.2.obj.length) p.2.obj) ++
  ((x.models.filter (·.2.loaded)).map fun p =>
    stateItem f 0 (synthDesc 3 p.1 p.2.received) (memBytes s p.2.home.base p.2.received)) ++
  [stateItem 0 16 (synthAdmin f 1 (regGet s (fnBase f + 0x2500)).toNat) [],
   stateItem 0 16 (synthAdmin f 2 (regFld s (fnBase f) 8 8)) []]

/-- STATE items of the sectors that no model owns, and of the role table. -/
def sharedItems (s : State) : List (List Byte) :=
  (s.sectors.filterMap fun p => match p.2 with
    | some x => if x.model.isNone then
        some (leBytes 1 4 ++ leBytes 1 p.1 ++ leBytes 1 x.owner ++ x.tiles.flatMap (leBytes 2)) else none
    | none => none) ++
  s.fab.roles.map fun p => roleItem p.1 p.2

/-- The front enters SYNCING and sends every item that exists (R458). -/
def startSync (s : State) : State :=
  let s1 := setPairState { s with fab := { s.fab with commitLog := [] } } 1
  let s2 := (((s.fns.map (·.1)).flatMap (fnItems s)) ++ sharedItems s).foldl (fun st b => pairSend st 2 b) s1
  s.fab.journal.foldl (fun st j => pairSend st 3 (leBytes 1 j.fn ++ leBytes 1 j.ring ++ leBytes 2 j.index ++ j.bytes)) s2

/-- Ports follow FAB_PAIR_CTRL: an up pair port reads PAIR, another UP (R459). -/
def settlePairPorts (s : State) : State :=
  (List.range 32).foldl (fun st p =>
    if portState st p < 2 then st else setPortState st p (if isPairPort st p then 3 else 2)) s

/-- A pair becomes active (R456, R458): the front mirrors, the rear waits for its items. -/
def pairActivate (s : State) : State :=
  let s1 : State := settlePairPorts { s with fab := { s.fab with
    heard := s.ftime.toNat, probe := none, serving := false, handover := false, tookOver := 0, pairIn := [], commitLog := [] } }
  if isRear s1 then setPairState (setJournal s1 []) 1 else startSync s1
/-- A pair is switched off: no journal, no pair ports. -/
def pairDeactivate (s : State) : State :=
  setPairState (setJournal (settlePairPorts { s with fab := { s.fab with
    probe := none, serving := false, handover := false, tookOver := 0, pairIn := [], commitLog := [], rerun := [] } }) []) 0

/-- PAIR_RESYNC: a write of resync (R458). -/
def pairResync (s : State) : State := if pairOn s && !isRear s then startSync s else s
/-- PAIR_RESYNC (R458). -/
def execPairResync (s : State) : StepOut := .next (pairResync s)

/-- PAIR_MIRROR_DONE (R458): all that the resync queued has gone out. -/
def execPairMirrorDone (s : State) : StepOut :=
  .next <|
    let sent (p : Nat) : Bool := (getPort s p).pair.all fun q => q.flit.payload.headD 0 == 1
    if pairOn s && !isRear s && pairState s == 1 && (pairPorts s).all sent then setPairState s 2 else s

/-! ### Takeover and handover -/

/-- The rear's unretired journal entries of a function come back as fetched descriptors of its rings (R462). -/
def rerunEntry (s : State) (j : JEntry) : State :=
  let d : Desc := {
    fn := j.fn, ring := j.ring, index := j.index, bytes := j.bytes, order := (getFn s j.fn).order
    fetchTick := s.ftime.toNat, phase := .fetched, placement := placementOf s j.fn }
  modFn s j.fn fun x => { x with descs := x.descs ++ [d], order := x.order + 1 }

/-- The rear takes over (R462): kind 1 after lost heartbeats, 2 by a write. Only in state PAIRED (R457). -/
def takeOver (s : State) (kind : Nat) : State :=
  if !pairOn s || !isRear s || s.fab.serving || pairState s != 2 then s
  else
    let js := s.fab.journal
    let s1 := takeoverOn (sendXctrl s s.fab.peer 5 0 0 0 0 0) (pairPorts s)
    let s2 : State := { s1 with fab := { s1.fab with serving := true, tookOver := kind, probe := none, rerun := js } }
    sbAlert (setJournal (js.foldl rerunEntry s2) [])

/-- PAIR_TAKEOVER_WRITE: a write of takeover on a rear. -/
def pairTakeover (s : State) : State := takeOver s 2
/-- PAIR_TAKEOVER_WRITE (R462). -/
def execPairTakeoverWrite (s : State) : StepOut := .next (pairTakeover s)

/-- A write of handover on a PAIRED front (R464): fetching stops; the rest follows when its jobs have committed. -/
def pairHandover (s : State) : State :=
  if pairOn s && !isRear s && pairState s == 2 then handoverStep { s with fab := { s.fab with handover := true } } else s
/-- PAIR_HANDOVER (R464). -/
def execPairHandover (s : State) : StepOut := .next (pairHandover s)

/-- FAB_PAIR_TIMING: miss_ticks and probe_ticks, 1 to 1,000. -/
def missTicks (s : State) : Nat := Nat.min 1000 (Nat.max 1 (regFld s 0x2003C 9 0))
def probeTicks (s : State) : Nat := Nat.min 1000 (Nat.max 1 (regFld s 0x2003C 25 16))

/-- HEARTBEAT_MISS (R462): the rear sends a PROBE to the front's device ID. -/
def execHeartbeatMiss (s : State) : StepOut :=
  .next <|
    let now := s.ftime.toNat
    if pairOn s && isRear s && pairState s == 2 && !s.fab.serving && s.fab.probe.isNone &&
        decide (s.fab.heard + missTicks s ≤ now) then
      { sendXctrl s s.fab.peer 3 0 0 0 0 0 with fab := { (sendXctrl s s.fab.peer 3 0 0 0 0 0).fab with probe := some now } }
    else s

/-- PROBE_TIMEOUT (R462): no PROBE_ACK within probe_ticks. -/
def execProbeTimeout (s : State) : StepOut :=
  .next (match s.fab.probe with
    | some t => if t + probeTicks s ≤ s.ftime.toNat then takeOver s 1 else s
    | none => s)

/-- PROBE: answered with PROBE_ACK; a front whose PROBE is answered is ALONE (R462). -/
def execProbe (p : Nat) (fl : Flit) (good : Bool) (s : State) : StepOut :=
  .next <|
    let r := receiveXctrl 3 s p fl good
    if !r.2 then r.1
    else
      let s1 := sendXctrl r.1 fl.src 4 0 0 0 0 0
      if pairOn s1 && !isRear s1 && (pairState s1 == 1 || pairState s1 == 2 || pairState s1 == 3) then setPairState s1 4 else s1

/-- PROBE_ACK: the rear does not take over (R462). -/
def execProbeAck (p : Nat) (fl : Flit) (good : Bool) (s : State) : StepOut :=
  .next <|
    let r := receiveXctrl 4 s p fl good
    if !r.2 then r.1
    else if pairOn r.1 && isRear r.1 then
      { r.1 with fab := { r.1.fab with probe := none, heard := r.1.ftime.toNat } }
    else r.1

/-- A job of a fenced front ends with PAIR_FENCED, unless it had failed before (R24, R462). -/
def fenceJob (s : State) (jid : Nat) : State :=
  let s1 := pkeCancel (pkeCancel s (.jobInput jid)) (.jobOutput jid)
  finishJob (voidOutputs (addFail s1 jid 0x0405 0xFFFF true) jid) jid false

/-- A front that receives TAKEOVER (R462). -/
def fenceFront (s : State) : State :=
  let s1 := setPairState s 5
  let s2 := ((List.range 32).filter fun p => !isPairPort s1 p && portState s1 p != 0).foldl portDown s1
  (s2.jobs.map (·.1)).foldl fenceJob s2

/-- The rear of a handover becomes the front (R464). -/
def becomeFront (s : State) : State :=
  let s1 := regSetFld s 0x20034 30 30 0
  setJournal { s1 with fab := { s1.fab with serving := false, probe := none, heard := s.ftime.toNat, commitLog := [] } } []

/-- TAKEOVER, over the fabric or on a pair port (R462, R464). -/
def execTakeover (p : Nat) (fl : Flit) (good : Bool) (s : State) : StepOut :=
  .next <|
    let act (s : State) : State := if !pairOn s then s else if isRear s then becomeFront s else fenceFront s
    if p < 32 ∧ isPairPort s p then
      (let r := receiveAs 2 s p fl (good && bits (fieldAt fl.payload 0 4) 31 28 == 5)
       if r.2 then act (oweCredit r.1 (bufferOf p fl)) else r.1)
    else
      let r := receiveXctrl 5 s p fl good
      if r.2 then act r.1 else r.1

/-! ### The rear applies the items (R460, R461) -/

/-- Does this module take a front's items? -/
def mirrorsFront (s : State) : Bool := pairOn s && isRear s && !s.fab.serving

/-- A PAIR flit of a kind arrives: the item that it completes, on a rear. Off a pair port it is dropped. -/
def receivePair (kind : Nat) (s : State) (p : Nat) (f : Flit) (good : Bool) : State × Option (List Byte) :=
  let r := receiveAs 5 s p f (good && (f.payload.headD 0).toNat == kind)
  if !r.2 then (r.1, none)
  else
    let s1 := oweCredit r.1 (bufferOf p f)
    if !isPairPort s1 p || !mirrorsFront s1 then (s1, none)
    else
      let bs := (if f.first then [] else tget [] s1.fab.pairIn p) ++ f.payload.drop 1
      let keep (l : List Byte) : State := { s1 with fab := { s1.fab with pairIn := tset [] s1.fab.pairIn p l } }
      if f.last then (keep [], some ((bs.drop 4).take (fieldAt bs 0 4))) else (keep bs, none)

/-- A PAIR row: what the rear does with a whole item. -/
def pairRow (kind : Nat) (act : State → List Byte → State) (p : Nat) (f : Flit) (good : Bool) (s : State) : StepOut :=
  .next <|
    let r := receivePair kind s p f good
    match r.2 with
    | some b => act r.1 b
    | none => r.1

/-- A failed apply (Table 13.12). -/
def notReady (s : State) : State := setPairState s 3

/-- HEARTBEAT: fabric time and state of the front, and its device ID. The rear's state follows the front's; from NOT_READY
only a resync leads out (R461). -/
def takeHeartbeat (s : State) (b : List Byte) : State :=
  let v := fieldAt b 8 4 % 8
  let s1 : State := { s with fab := { s.fab with heard := s.ftime.toNat, peer := fieldAt b 12 4 % 2 ^ 20 } }
  let old := pairState s
  if v = 1 ∧ old ≠ 1 then setPairState (setJournal { s1 with fab := { s1.fab with commitLog := [] } } []) 1
  else if old = 3 then s1
  else setPairState s1 v
/-- HEARTBEAT (R460, R462). -/
def execHeartbeat (p : Nat) (fl : Flit) (good : Bool) (s : State) : StepOut := pairRow 1 takeHeartbeat p fl good s

/-- Run the row of a mirrored descriptor (R460). -/
def applyRow (t : Nat) (b : List Byte) (f i : Nat) (s : State) : StepOut :=
  match t with
  | 1 => execLoadParams f mirrorRing i s
  | 2 => execLoadKeys f mirrorRing i s
  | 3 => execLoadModel f mirrorRing i s
  | 7 => if bits (ow b 0xC) 7 4 = 0 then execFreeBuffer f mirrorRing i s else execFreeSlot f mirrorRing i s
  | 0x20 => execAlloc f mirrorRing i s
  | 0x21 => execSectorForm f mirrorRing i s
  | 0x22 => execSectorRelease f mirrorRing i s
  | 0x23 => if bits (ow b 8) 7 0 = 1 then execSetQuota f mirrorRing i s else execSetExpert f mirrorRing i s
  | _ => .next s

/-- A mirrored descriptor with its object: a descriptor of the mirror ring, applied at once. -/
def applyDesc (s : State) (b : List Byte) : State :=
  let f := fieldAt b 1 1 % 64
  let d64 := (b.drop 3).take 64
  let obj := b.drop 67
  let t := dType d64
  let i := (((getFn s f).descs.filter fun d => d.ring == mirrorRing).map (·.index + 1)).foldl Nat.max 0
  let x : Xfer := ⟨s.xferSeq, s.xferSeq / 2 ^ 16 % 2 ^ 16, f, mirrorRing, i, obj.length, tsetRun none [] 0 (obj.map fun v => some ⟨v, false⟩)⟩
  let load := t == 1 || t == 2 || t == 3
  let d : Desc := {
    fn := f, ring := mirrorRing, index := i, bytes := d64, order := (getFn s f).order, fetchTick := s.ftime.toNat
    phase := if load then .arrived x.id else .fetched
    placement := placementOf s f }
  let s1 := modFn s f fun y => { y with descs := y.descs ++ [d], order := y.order + 1 }
  let s2 : State := if load then { s1 with xfers := s1.xfers ++ [x], xferSeq := s1.xferSeq + 1 } else s1
  match applyRow t d64 f i s2 with
  | .next s3 => s3
  | _ => s2

/-- A mirrored buffer as it stands. -/
def applyBuf (s : State) (b : List Byte) : State :=
  let f := fieldAt b 1 1 % 64
  let x : Buf := ⟨fieldAt b 4 2, fieldAt b 6 1 == 1, fieldAt b 7 8, fieldAt b 15 8⟩
  let s1 := memRegs (modFn s f fun y => { y with bufs := tset Buf.free y.bufs (fieldAt b 2 2) x }) f
  if x.live then writeT s1 x.base (plain ((b.drop 23).take x.size)) else s1
/-- A mirrored parameter-set slot as it stands. -/
def applyParam (s : State) (b : List Byte) : State :=
  let f := fieldAt b 1 1 % 64
  let n := fieldAt b 2 1 % 16
  let gen := fieldAt b 3 2
  let o := b.drop 6
  let s1 := emptySlot s f 1 n
  if fieldAt b 5 1 = 0 then setParam s1 f n { ParamSlot.empty with lastGen := gen }
  else match takeHbm true ((placementDies (placementOf s f)).map fun p => (p, convBytes o)) s1 with
    | none => notReady s
    | some (conv, s2) =>
      let s3 := conv.foldl (fun st e => setBytes st e.2.base (convBlock o)) s2
      paramRegs (hbmRegs (setParam s3 f n ⟨gen, true, o, !pMeetsFloor o, conv⟩) f) f n gen true (!pMeetsFloor o)
/-- A mirrored sector: formed of the same tiles under the same number. -/
def applySector (s : State) (b : List Byte) : State :=
  let n := fieldAt b 1 1
  let f := fieldAt b 2 1 % 64
  let ts := (chunksOf 2 (b.drop 3)).map leNat
  match getSector s n with
  | some x => if x.owner = f ∧ x.tiles = ts then s else notReady s
  | none =>
    if 64 ≤ n ∨ !ts.all (tileFree s) then notReady s
    else
      let x := freshSector s f ts none false
      updateSector (bindCores (resetSectorPwr (setSector s n (some x)) n) n x) n
/-- A mirrored commit of a role entry. -/
def applyRole (s : State) (b : List Byte) : State :=
  let slot := fieldAt b 1 2 % 4096
  let w (k : Nat) : Word := BitVec.ofNat 32 (fieldAt b (3 + 4 * k) 4)
  let r : Role := ⟨w 0, w 1, w 2, w 3⟩
  if roleStatus s slot r = 0 then putRole s slot r else notReady s

/-- A STATE item. -/
def takeState (s : State) (b : List Byte) : State :=
  match fieldAt b 0 1 with
  | 0 => applyDesc s b
  | 1 => applyRole s b
  | 2 => applyBuf s b
  | 3 => applyParam s b
  | _ => applySector s b
/-- STATE (R460): the rear applies the item; a failure enters NOT_READY. -/
def execState (p : Nat) (fl : Flit) (good : Bool) (s : State) : StepOut := pairRow 2 takeState p fl good s

/-- JOURNAL (R460): the rear stores the entry, up to 4,096 of them. -/
def execJournal (p : Nat) (fl : Flit) (good : Bool) (s : State) : StepOut :=
  pairRow 3 (fun s b =>
    if s.fab.journal.length < 4096 then
      setJournal s (s.fab.journal ++ [⟨fieldAt b 0 1 % 64, fieldAt b 1 1, fieldAt b 2 2, (b.drop 4).take 64⟩])
    else notReady s) p fl good s

/-- MIRROR (R460): the bytes go to the same handle and offset. -/
def execMirror (p : Nat) (fl : Flit) (good : Bool) (s : State) : StepOut :=
  pairRow 4 (fun s b =>
    let h := fieldAt b 0 4
    let o := fieldAt b 4 4
    let bs := b.drop 8
    let r := resolve s (hFn h) h
    if r.1 ≠ 0 ∨ r.2.size < o + bs.length then notReady s else writeT s (r.2.base + o) (plain bs)) p fl good s

/-- What an output of a COMMIT item contributes to the rear's digest: the bytes that the rear stored (R461). -/
def storedOut (s : State) (b : List Byte) : List Byte :=
  let h := fieldAt b 0 4
  let o := fieldAt b 4 4
  let r := resolve s (hFn h) h
  commitOut ⟨h, o, fieldAt b 12 4 == 1, if r.1 = 0 then memBytes s (r.2.base + o) (fieldAt b 8 4) else []⟩
/-- COMMIT (R460, R461): the journal entry is retired, and the commit joins the rear's digest. -/
def execCommit (p : Nat) (fl : Flit) (good : Bool) (s : State) : StepOut :=
  pairRow 5 (fun s b =>
    let mine (j : JEntry) : Bool := j.fn == fieldAt b 0 1 && j.ring == fieldAt b 1 1 && j.index == fieldAt b 2 2
    let s1 := setJournal s (s.fab.journal.filter fun j => !mine j)
    { s1 with fab := { s1.fab with
      commitLog := s1.fab.commitLog ++ b.take 6 ++ (chunksOf 16 (b.drop 6)).flatMap (storedOut s1) } }) p fl good s

/-- DIGEST (R461): the rear compares; a difference is counted, recorded and alerted, and the pair is NOT_READY. -/
def execDigest (p : Nat) (fl : Flit) (good : Bool) (s : State) : StepOut :=
  pairRow 6 (fun s b =>
    let s1 : State := { s with fab := { s.fab with commitLog := [] } }
    if b = digestBytes (sha384 s.fab.commitLog) then s1
    else notReady (sbAlert (dayEvent (bump s1 0x2022C) 0x0601 0xFF 0 []))) p fl good s

end Sys2Proof.Machine
end

