-- ==== Sys2Proof/Machine/RegHooks.lean ====
section
/-! DEFINITION. Register accesses as commands (R15 to R20, R393 to R396, R416, R427, R446, R523, R543, R545, R619): who may
make them, and the registers whose write does more than set fields. Offsets are those of the Registers region; the PF's
function registers are also reached at BAR0 offsets from 0x03FC_0000. -/

namespace Sys2Proof.Machine

/-- The state that a row leaves. -/
def after (o : StepOut) (s : State) : State := match o with
  | .next t => t
  | _ => s

/-! ### Who may make an access -/

/-- An offset as the register region has it: the top 256 KiB of the PF's BAR0 are the PF's function registers (R394). -/
def regOff (o : Nat) : Nat := if 0x03FC0000 ≤ o ∧ o < 0x04000000 then o + 0x40000 else o
/-- Does an offset lie in the KPR or DAY block, which answer without the main rails (R522, R546)? -/
def standbyOff (o : Nat) : Bool := decide (0x60000 ≤ o ∧ o < 0x80000)
/-- Is it a host access? -/
def fromHost : Master → Bool
  | .bar0 _ => true
  | .proc .host => true
  | _ => false
/-- Can a master make accesses now: the host at device ready, the others while what they reach has power? -/
def masterUp (s : State) (m : Master) (o : Nat) : Bool :=
  if fromHost m then s.start.phase == 8
  else match m with
    | .proc .sideband => s.keeper.active != 0 && (s.start.rails || standbyOff o)
    | .proc (.keeper _) => s.keeper.active != 0 && (s.start.rails || standbyOff o)
    | _ => s.start.rails
/-- Registers that only the sideband writes, and always may (R523): KPR_SB_CFG and KPR_SB_CAPd. -/
def sbOwn (o : Nat) : Bool := o == 0x60018 || (decide (0x60040 ≤ o ∧ o < 0x60070) && o % 4 == 0)
/-- Are other writes from the sideband denied: while the PF's HIF_FN_CTRL.enable is 1 (R523)? -/
def sbDenied (s : State) : Bool := bit (regGet s (fnBase 0)).toNat 0

/-! ### Registers with a rule of their own -/

/-- JOB_OBJ_POLICY (R619): judged against sig_lock as it stood before the write. -/
def policyWrite (s : State) (f : Nat) (v : Word) : State :=
  let o := fnBase f + 0x2000
  let old := regGet s o
  let w := fieldWrite (fldsAt o) old v
  regSet s o (if bit old.toNat 4 then putBits w 3 3 (bits old.toNat 3 3) else w)

/-- MSI-X vector control (PRESUMED of PCIe, log entry 13): unmasking a vector with its pending bit set sends its message. -/
def msixCtrl (s : State) (f k : Nat) (v : Word) : State :=
  let o := fnBase f + 0x3000C + 16 * k
  let s1 := regSet s o (fieldWrite (fldsAt o) (regGet s o) v)
  let p := fnBase f + 0x38000 + 4 * (k / 32)
  if !bit v.toNat 0 && bit (regGet s1 p).toNat (k % 32) then emit (regSetFld s1 p (k % 32) (k % 32) 0) (.msix f k) else s1

/-- A write into function f's register space, at offset x of it (R416, R427). -/
def fnWrite (s : State) (m f x : Nat) (v : Word) : State :=
  let o := fnBase f + x
  let r := (x - 0x1000) / 0x20
  let inRing := decide (0x1000 ≤ x ∧ x < 0x1000 + 17 * 0x20)
  if (getFn s f).resetting then s
  else if x = 0x24 then (if bit v.toNat 0 then resetFn s f 1 else s)
  else if inRing && x % 0x20 == 0x10 then writeRingCfg s f r v
  else if inRing && decide (x % 0x20 < 0x10) then
    (if bit (regGet s (ringReg f r 0x10)).toNat 8 then s else writeFields s m o v)
  else if x = 0x2000 then policyWrite s f v
  else if 0x3000C ≤ x ∧ x < 0x30400 ∧ x % 16 = 0xC then msixCtrl s f ((x - 0x30000) / 16) v
  else writeFields s m o v

/-- FAB_ROUTE_DIMS: a write that breaks R439 is discarded. -/
def dimsOk (v : Word) : Bool :=
  let w (i : Nat) : Nat := bits v.toNat (4 * i + 3) (4 * i)
  ([0, 1, 2, 3].all fun i => decide (w i ≤ 12)) && decide (w 0 + w 1 + w 2 + w 3 ≤ 20)
/-- FAB_PORTp_CTRL: an enabled port trains, a disabled one goes DOWN. -/
def portCtrl (s : State) (m p : Nat) (v : Word) : State :=
  let o := 0x20100 + 8 * p
  let was := bit (regGet s o).toNat 0
  let s1 := writeFields s m o v
  if !was && bit v.toNat 0 then setPortState s1 p 1
  else if was && !bit v.toNat 0 then portDown s1 p
  else s1
/-- FAB_PAIR_CTRL: en and the ports, then resync, handover and takeover (R456 to R464). -/
def pairCtrl (s : State) (m : Nat) (v : Word) : State :=
  let was := pairOn s
  let s1 := writeFields s m 0x20034 v
  let s2 := if !was && pairOn s1 then pairActivate s1 else if was && !pairOn s1 then pairDeactivate s1
    else if was then settlePairPorts s1 else s1
  let s3 := if bit v.toNat 2 then pairResync s2 else s2
  let s4 := if bit v.toNat 1 then pairHandover s3 else s3
  if bit v.toNat 0 then pairTakeover s4 else s4
/-- FAB_ROLE_CMD. -/
def roleCmd (s : State) (v : Word) : State :=
  let s1 := if bit v.toNat 0 then roleCommit s else s
  if bit v.toNat 1 then roleRead s1 else s1
/-- KPR_LIMITc: a write that leaves warn ≥ hold or hold ≥ shut is discarded. -/
def limitOk (v : Word) : Bool :=
  decide (bits v.toNat 7 0 < bits v.toNat 15 8) && decide (bits v.toNat 15 8 < bits v.toNat 23 16)
/-- Outcome of the test programming of a retry that a plain register write asks for: nothing tells it. -/
def freeFlash (s : State) : FlashResult × State :=
  let d := drawFree s
  (([FlashResult.ok, .program, .verify, .erase, .stagingRam].getD (Config.freeValue d.1 % 5) .ok), d.2)
/-- DAY_CMD, lowest bit first. -/
def dayCmd (s : State) (v : Word) : State :=
  let on (k : Nat) (f : State → StepOut) (s : State) : State := if bit v.toNat k then after (f s) s else s
  let retry (s : State) : StepOut := let (r, s1) := freeFlash s; execDayCmdRetry r s1
  on 5 execDayCmdNext (on 4 execDayCmdClearLatch (on 3 retry (on 2 execDayCmdThaw (on 1 execDayCmdFreeze (on 0 execDayCmdLoad s)))))
/-- PKE_CURVE_CMD. -/
def curveCmd (s : State) (v : Word) : State :=
  let n := regFld s 0x90004 2 0
  let s1 := if bit v.toNat 0 then curveLoad s n else s
  let s2 := if bit v.toNat 1 then curveClear s1 n else s1
  if bit v.toNat 2 then curveRead s2 n else s2
/-- SEC_SIGNER_CMD. -/
def signerCmd (s : State) (v : Word) : State :=
  let f := regFld s 0xA0010 13 8
  let n := regFld s 0xA0010 1 0
  let s1 := if bit v.toNat 0 then signerWrite s f n else s
  let s2 := if bit v.toNat 1 then signerClear s1 f n else s1
  if bit v.toNat 2 then signerRead s2 f n else s2
/-- FEN_CMD. -/
def fenCmd (s : State) (v : Word) : State :=
  let on (k : Nat) (f : State → StepOut) (s : State) : State := if bit v.toNat k then after (f s) s else s
  on 0 execFenCmdRead (on 2 execFenCmdUnfence (on 1 execFenCmdFence s))
/-- A write to EIC e by one of the Y25's processors, through the window of its die (R545). -/
def eicWrite (s : State) (who : Option Proc) (e x : Nat) (v : Word) : State :=
  match who with
  | none => s
  | some p =>
    if x < 0x800 then (if x = 0 then s else writeSrcCfg s e (x / 4) v)
    else if x = 0x840 then after (execEicSwset e (v.toNat % 512) p s) s
    else if x = 0x844 then after (execEicLock e v s) s
    else if 0x904 ≤ x ∧ x < 0xA00 ∧ (x - 0x904) % 64 = 0 then after (execEicComplete e ((x - 0x904) / 64) (v.toNat % 512) s) s
    else s
/-- The EIC and the register of it that an offset of the per-die windows of Table 10.2 names (R329, R545): EIC d at 0x80000 of
die d's block, that of IODi at 0x800000 of its block. -/
def eicAt (o : Nat) : Option (Nat × Nat) :=
  let die := (o - 0x12000000) / 0x100000
  let io := (o - 0x13000000) / 0x1000000
  let x := (o - 0x12000000) % 0x100000
  let y := (o - 0x13000000) % 0x1000000
  if 0x12000000 ≤ o ∧ die < 12 ∧ 0x80000 ≤ x ∧ x < 0x81000 then some (die, x - 0x80000)
  else if 0x13000000 ≤ o ∧ io < 2 ∧ 0x800000 ≤ y ∧ y < 0x801000 then some (12 + io, y - 0x800000)
  else none
/-- The processor of the Y25 behind a master, if it is one. -/
def procOfMaster : Master → Option Proc
  | .proc .host => none
  | .proc .sideband => none
  | .proc p => some p
  | .bar0 _ => none
/-- KPR_SB_CFG and KPR_SB_CAPd, written by the sideband: a cap takes effect at once on the ceilings (R515). -/
def sbOwnWrite (s : State) (o : Nat) (v : Word) : State :=
  if o = 0x60018 then regSet s o (v &&& BitVec.ofNat 32 0x7F0000)
  else setCeilings s (regSet s o (v &&& BitVec.ofNat 32 0x7FF))

/-- A 32-bit aligned write that has been let through. -/
def regWrite (s : State) (m : Master) (o : Nat) (v : Word) : State :=
  let n := masterNo m
  match fnOfOff o with
  | some f => fnWrite s n f (o - fnBase f) v
  | none =>
    if o = 0x2000C then
      { s with fab := { s.fab with routes := tset 0 s.fab.routes (regFld s 0x20008 13 12 * 4096 + regFld s 0x20008 11 0) (v &&& 0xFFFF#32) } }
    else if o = 0x20004 then (if dimsOk v then writeFields s n o v else s)
    else if o = 0x20024 then roleCmd s v
    else if o = 0x20034 then pairCtrl s n v
    else if 0x20100 ≤ o ∧ o < 0x20200 ∧ o % 8 = 0 then portCtrl s n ((o - 0x20100) / 8) v
    else if o = 0x30010 then regSetFld (writeFields s n o v) 0x30004 5 5 1
    else if 0x60020 ≤ o ∧ o < 0x6003C then (if limitOk v then writeFields s n o v else s)
    else if sbOwn o then (if m = .proc .sideband then sbOwnWrite s o v else s)
    else if o = 0x70014 then dayCmd s v
    else if 0x80000 ≤ o ∧ o < 0x8E000 then s
    else if o = 0x90008 then curveCmd s v
    else if o = 0xA0018 then signerCmd s v
    else if o = 0xB0000 then mntOffer (writeFields s n o v)
    else if o = 0xC0008 then fenCmd s v
    else writeFields s n o v

/-- A 32-bit aligned write by a master: it may not reach the offset, or be denied (R523), or act. -/
def masterWrite (s : State) (m : Master) (o : Nat) (v : Word) : State :=
  if !masterUp s m o ∨ !mayReach m o then s
  else if m = .proc .sideband ∧ !sbOwn o ∧ sbDenied s then bump s 0x60104
  else match eicAt o with
    | some (e, x) => eicWrite s (procOfMaster m) e x v
    | none => regWrite s m o v

/-! ### The rows -/

/-- REGISTER_WRITE (R15, R16, R19): width bytes of v at an offset. -/
def execRegisterWrite (m : Master) (off width v : Nat) (s : State) : StepOut :=
  .next <|
    let o := regOff off
    if width = 4 ∧ o % 4 = 0 then masterWrite s m o (BitVec.ofNat 32 v)
    else if masterUp s m o && mayReach m o then badAccess s m
    else s

/-- Is an offset EIC_CLAIM of an interface, as an EIC's 4 KiB block has it? -/
def claimOff (x : Nat) : Bool := decide (0x900 ≤ x ∧ x < 0xA00) && x % 64 == 0
/-- Does a read of an offset meet CLAIM in the mirror of the device register space, which reads 0 and claims nothing (R545)? -/
def mirrorClaim (o : Nat) : Bool := decide (0x80000 ≤ o ∧ o < 0x8E000) && claimOff (o % 0x1000)
/-- What a read by a master returns and leaves: zero and nothing of another width or alignment (R19), and where it may not
reach. A processor reads an EIC through its die's window. -/
def masterRead (s : State) (m : Master) (o width n : Nat) : Word × State :=
  if width ≠ 4 ∨ o % 4 ≠ 0 ∨ !masterUp s m o ∨ !mayReach m o ∨ mirrorClaim o then (0, s)
  else match eicAt o with
    | some (e, x) => if (procOfMaster m).isSome then readReg s (masterNo m) (eicBase e + x) n else (0, s)
    | none => readReg s (masterNo m) o n

/-- The EIC and interface whose CLAIM a read by a processor takes (R536). -/
def claimRead (s : State) (m : Master) (o width : Nat) : Option (Nat × Nat × Proc) :=
  match eicAt o, procOfMaster m with
  | some (e, x), some p =>
    if width = 4 ∧ masterUp s m o ∧ claimOff x then some (e, (x - 0x900) / 64, p) else none
  | _, _ => none

/-- RC_READ (R18): the value from before coincident events of the same cycle, which then count on the cleared field. A read
of EIC_CLAIM by its processor claims (R536). -/
def execRcRead (m : Master) (at_ : RegSpan) (coincident : Nat) (s : State) : StepOut :=
  let o := regOff at_.off
  match claimRead s m o at_.width with
  | some (e, t, p) => execEicClaim e t p s
  | none =>
    let r := masterRead s m o at_.width coincident
    .next (emit r.2 (.value r.1))

/-- Half of a pair at an offset. -/
def halfAt (o : Nat) : PairHalf := match regAt o with
  | some (_, h) => h
  | none => .no

/-- PAIR_LO_READ (R20): bits [31:0]; bits [63:32] go into the master's read shadow. -/
def execPairLoRead (m : Master) (at_ : RegSpan) (s : State) : StepOut :=
  let o := regOff at_.off
  if halfAt o = .lo then
    let r := masterRead s m o at_.width 0
    .next (emit r.2 (.value r.1))
  else .next s
/-- PAIR_HI_WRITE (R20): the master's holding register only. -/
def execPairHiWrite (m : Master) (off : Nat) (v : Word) (s : State) : StepOut :=
  .next (if halfAt (regOff off) = .hi then masterWrite s m (regOff off) v else s)
/-- PAIR_LO_WRITE (R20): the 64-bit value takes effect. -/
def execPairLoWrite (m : Master) (off : Nat) (v : Word) (s : State) : StepOut :=
  .next (if halfAt (regOff off) = .lo then masterWrite s m (regOff off) v else s)

/-- JOB_OBJ_POLICY_WRITE (R619): by the host, through function f's BAR0. -/
def execJobObjPolicyWrite (f : Nat) (v : Word) (s : State) : StepOut :=
  .next (if f < 64 then masterWrite s (.bar0 f) (fnBase f + 0x2000) v else s)

/-- ROLE_COMMIT (R446): a write of FAB_ROLE_CMD with commit = 1. -/
def execRoleCommit (m : Master) (v : Word) (s : State) : StepOut := .next (masterWrite s m 0x20024 (v ||| 1))
/-- ROLE_READ (R466): a write of FAB_ROLE_CMD with read = 1. -/
def execRoleRead (m : Master) (v : Word) (s : State) : StepOut := .next (masterWrite s m 0x20024 (v ||| 2))

end Sys2Proof.Machine
end

