-- ==== Sys2Proof/Machine/Sideband.lean ====
section
/-! DEFINITION. The sideband port: SMBus and MCTP, PLDM and the vendor commands (R515, R518, R520 to R523, R590). Statuses are
those of Table 15.6, and PLDM completion codes for PLDM commands. -/

namespace Sys2Proof.Machine

/-- A row of the sideband: nothing answers while no Keeper runs (R520). -/
def sbRow (act : State → State) (s : State) : StepOut := .next (if sbUp s then act s else s)
/-- An answer of n free bytes, for content that the spec leaves to another document. -/
def sbFree (s : State) (n : Nat) : State := let (bs, s1) := freeList s n; sbAnswer s1 0 bs

/-- SMBUS_ARP (R520): answered; what the SMBus specification puts into the answer is free. -/
def execSmbusArp (_cmd : Nat) (s : State) : StepOut := sbRow (fun s => sbFree s 19) s

/-- MCTP_CONTROL (R520): a packet with a bad PEC is discarded and counted. Get Message Type Support (5) names the three types;
other answers are those of DSP0236, and free. -/
def execMctpControl (pecOk : Bool) (cmd : Nat) (data : List Byte) (s : State) : StepOut :=
  sbRow (fun s =>
    if !pecOk then bump s 0x60108
    else if cmd = 5 then sbAnswer s 0 [3, 0x00, 0x01, 0x7E]
    else sbFree s (data.length + 1)) s

/-! ### PLDM (R521) -/

/-- PLDM_SET_EVENT_RECEIVER. -/
def execPldmSetEventReceiver (eid : Nat) (s : State) : StepOut :=
  sbRow (fun s => sbAnswer { s with keeper := { s.keeper with receiver := some eid } } 0 []) s
/-- PLDM_EVENT_ACK: SMBALERT# is released. -/
def execPldmEventAck (s : State) : StepOut :=
  sbRow (fun s => if s.keeper.smbalert then emit { s with keeper := { s.keeper with smbalert := false } } (.alertPin false) else s) s

/-- A filtered quantity in whole reporting units, as 32 bits. -/
def wholeUnits (x : Int) : Nat := (x / 256 % 2 ^ 32).toNat
/-- State sensor 0x0600 (Table 17.3); free in standby, for which the table has no value. -/
def moduleState (s : State) : Nat × State :=
  match s.keeper.state with
  | .starting => (1, s)
  | .ready => (2, s)
  | .resetting => (3, s)
  | .failed => (4, s)
  | .shutdown => (5, s)
  | _ => (Config.freeValue (drawFree s).1 % 2 ^ 32, (drawFree s).2)
/-- Reading of a sensor of Tables 15.5 and 17.3; none for another ID. -/
def sensorReading (s : State) (id : Nat) : Option (Nat × State) :=
  if 0x100 ≤ id ∧ id < 0x180 then some (wholeUnits (filtered s (id - 0x100)), s)
  else if 0x200 ≤ id ∧ id < 0x240 then some (wholeUnits (filtered s (128 + (id - 0x200))), s)
  else if 0x300 ≤ id ∧ id < 0x340 then some (wholeUnits (filtered s (192 + (id - 0x300))), s)
  else if id = 0x400 then some (wholeUnits (inputPower s), s)
  else if 0x500 ≤ id ∧ id < 0x50C then some (ceilingOf s (id - 0x500), s)
  else if id = 0x600 then some (moduleState s)
  else none
/-- PLDM_GET_SENSOR_READING. -/
def execPldmGetSensorReading (id : Nat) (s : State) : StepOut :=
  sbRow (fun s => match sensorReading s id with
    | some (v, s1) => sbAnswer s1 0 (leBytes 4 v)
    | none => sbAnswer s 0x80 []) s

/-- FRU record data (R8, R521): the ordering code and the revision code. -/
def fruData : List Byte := [0x51, 0x59, 0x32, 0x35, 0x2D, 0x4D, 0x31, 0x11]
/-- PLDM_FRU_READ. -/
def execPldmFruRead (off n : Nat) (s : State) : StepOut := sbRow (fun s => sbAnswer s 0 ((fruData.drop off).take n)) s

/-- Is any temperature sensor at or above its warn threshold (R518)? -/
def tooWarm (s : State) : Bool :=
  (List.range 128).any fun n => decide ((threshold s (sensorClass n) 0 : Int) * 256 ≤ filtered s n) &&
    (s.keeper.q.any fun p => p.1 == n)
/-- PLDM_POWER_ON (R518, R607, R608): phases 2 to 7, or ERROR_NOT_READY (PRESUMED code 4 of DSP0240) while a sensor is at or
above warn or the input is gone. -/
def execPldmPowerOn (s : State) : StepOut :=
  sbRow (fun s =>
    let off := s.keeper.state == .standby || s.keeper.state == .shutdown || s.keeper.state == .failed
    if s.start.phase ≠ 0 ∨ s.start.warm ∨ !off then sbAnswer s 0 []
    else if tooWarm s || s.start.tripped || s.start.withdrawn then sbAnswer s 4 []
    else beginStart (sbAnswer (dayEvent s 0x0105 0xFF 0 [1, 1]) 0 []) 2 0 false) s
/-- A reset or power-off is asked for (R590): recorded while the module is on or starting. -/
def powerAction (d0 d1 d : Nat) (s : State) : State :=
  if s.start.phase = 0 ∧ !s.start.warm then sbAnswer s 0 []
  else requestReset (sbAnswer (dayEvent s 0x0105 0xFF 0 [d0, d1]) 0 []) d
/-- PLDM_POWER_OFF, PLDM_WARM_RESET and PLDM_COLD_RESET (R590, R591). -/
def execPldmPowerOff (s : State) : StepOut := sbRow (powerAction 2 1 4) s
def execPldmWarmReset (s : State) : StepOut := sbRow (powerAction 3 1 2) s
def execPldmColdReset (s : State) : StepOut := sbRow (powerAction 3 1 3) s

/-- PLDM_SET_CAP_WATTS (R495, R523). -/
def execPldmSetCapWatts (d w : Nat) (s : State) : StepOut :=
  sbRow (fun s => if nDies ≤ d then sbAnswer s 0x80 [] else sbAnswer (regSetFld s (0x60040 + 4 * d) 7 0 (w % 256)) 0 []) s
/-- PLDM_SET_CAP_PACE (R515). -/
def execPldmSetCapPace (d p : Nat) (s : State) : StepOut :=
  sbRow (fun s =>
    if nDies ≤ d then sbAnswer s 0x80 []
    else sbAnswer (setCeilings s (regSetFld s (0x60040 + 4 * d) 10 8 (p % 8))) 0 []) s

/-! ### Vendor commands (R522, R523) -/

/-- Offsets of a command's words. -/
def sbOffs (off count : Nat) : List Nat := (List.range count).map fun k => off + 4 * k
/-- BAD_REQUEST (3), then UNAVAILABLE (1), else 0. -/
def sbStatus (s : State) (off count : Nat) : Nat :=
  if off % 4 ≠ 0 ∨ count = 0 ∨ 16 < count ∨ 0x03FC0000 < off + 4 * count then 3
  else if !s.start.rails && !(sbOffs off count).all standbyOff then 1
  else 0
/-- Read one word after another. -/
def sbRead (p : State × List Byte) (o : Nat) : State × List Byte :=
  let r := masterRead p.1 (.proc .sideband) o 4 0
  (r.2, p.2 ++ leBytes 4 r.1.toNat)
/-- REG_READ. -/
def execRegRead (off count : Nat) (s : State) : StepOut :=
  sbRow (fun s =>
    let st := sbStatus s off count
    if st ≠ 0 then sbAnswer s st []
    else
      let r := (sbOffs off count).foldl sbRead (s, [])
      sbAnswer r.1 0 r.2) s
/-- REG_WRITE: DENIED (2) while the PF is enabled, unless every word is one that only the sideband writes; one denial per
command. -/
def execRegWrite (off : Nat) (ws : List Word) (s : State) : StepOut :=
  sbRow (fun s =>
    let os := sbOffs off ws.length
    let st := sbStatus s off ws.length
    if st ≠ 0 then sbAnswer s st []
    else if sbDenied s && !os.all sbOwn then sbAnswer (bump s 0x60104) 2 []
    else sbAnswer ((os.zip ws).foldl (fun m p => masterWrite m (.proc .sideband) p.1 p.2) s) 0 []) s

end Sys2Proof.Machine
end

