-- ==== Sys2Proof/Machine/Dispatch.lean ====
section
/-! DEFINITION. One arm per command: its meaning. -/

namespace Sys2Proof.Machine

def exec (i : Instr) (s : State) : Host.Outcome State Fault Refusal :=
  match i with
  | .powerApplied vin rep => Sys2Proof.Machine.execPowerApplied vin rep s
  | .startPhaseEnd rep => Sys2Proof.Machine.execStartPhaseEnd rep s
  | .phaseTimeout => Sys2Proof.Machine.execPhaseTimeout s
  | .perstDeassert => Sys2Proof.Machine.execPerstDeassert s
  | .perstAssert => Sys2Proof.Machine.execPerstAssert s
  | .wakeRelease => Sys2Proof.Machine.execWakeRelease s
  | .configRequest f off write v => Sys2Proof.Machine.execConfigRequest f off write v s
  | .moduleWithdrawal vin => Sys2Proof.Machine.execModuleWithdrawal vin s
  | .powerFail vin => Sys2Proof.Machine.execPowerFail vin s
  | .hwThermalTrip sensor => Sys2Proof.Machine.execHwThermalTrip sensor s
  | .keeperWatchdog rep => Sys2Proof.Machine.execKeeperWatchdog rep s
  | .keeperSample smp => Sys2Proof.Machine.execKeeperSample smp s
  | .opSecondsSave => Sys2Proof.Machine.execOpSecondsSave s
  | .pllUnlock die dom => Sys2Proof.Machine.execPllUnlock die dom s
  | .pllRelock die dom ok => Sys2Proof.Machine.execPllRelock die dom ok s
  | .smbusArp cmd => Sys2Proof.Machine.execSmbusArp cmd s
  | .mctpControl pecOk cmd data => Sys2Proof.Machine.execMctpControl pecOk cmd data s
  | .pldmSetEventReceiver eid => Sys2Proof.Machine.execPldmSetEventReceiver eid s
  | .pldmEventAck => Sys2Proof.Machine.execPldmEventAck s
  | .pldmGetSensorReading id => Sys2Proof.Machine.execPldmGetSensorReading id s
  | .pldmFruRead off n => Sys2Proof.Machine.execPldmFruRead off n s
  | .pldmPowerOn => Sys2Proof.Machine.execPldmPowerOn s
  | .pldmPowerOff => Sys2Proof.Machine.execPldmPowerOff s
  | .pldmWarmReset => Sys2Proof.Machine.execPldmWarmReset s
  | .pldmColdReset => Sys2Proof.Machine.execPldmColdReset s
  | .resetGraceExpiry => Sys2Proof.Machine.execResetGraceExpiry s
  | .pldmSetCapWatts d w => Sys2Proof.Machine.execPldmSetCapWatts d w s
  | .pldmSetCapPace d p => Sys2Proof.Machine.execPldmSetCapPace d p s
  | .regRead off count => Sys2Proof.Machine.execRegRead off count s
  | .regWrite off ws => Sys2Proof.Machine.execRegWrite off ws s
  | .dayLoad seq => Sys2Proof.Machine.execDayLoad seq s
  | .dayHoldFreeze => Sys2Proof.Machine.execDayHoldFreeze s
  | .dayHoldThaw => Sys2Proof.Machine.execDayHoldThaw s
  | .latchRead => Sys2Proof.Machine.execLatchRead s
  | .daymarkProgram res => Sys2Proof.Machine.execDaymarkProgram res s
  | .freezeLimitExpiry m => Sys2Proof.Machine.execFreezeLimitExpiry m s
  | .dayCmdLoad => Sys2Proof.Machine.execDayCmdLoad s
  | .dayCmdNext => Sys2Proof.Machine.execDayCmdNext s
  | .dayCmdFreeze => Sys2Proof.Machine.execDayCmdFreeze s
  | .dayCmdThaw => Sys2Proof.Machine.execDayCmdThaw s
  | .dayCmdRetry res => Sys2Proof.Machine.execDayCmdRetry res s
  | .dayCmdClearLatch => Sys2Proof.Machine.execDayCmdClearLatch s
  | .eicClaim e t who => Sys2Proof.Machine.execEicClaim e t who s
  | .eicComplete e t src => Sys2Proof.Machine.execEicComplete e t src s
  | .eicSwset e src who => Sys2Proof.Machine.execEicSwset e src who s
  | .eicLock e v => Sys2Proof.Machine.execEicLock e v s
  | .hubWake d => Sys2Proof.Machine.execHubWake d s
  | .registerWrite m off width v => Sys2Proof.Machine.execRegisterWrite m off width v s
  | .rcRead m r coincident => Sys2Proof.Machine.execRcRead m r coincident s
  | .pairLoRead m r => Sys2Proof.Machine.execPairLoRead m r s
  | .pairHiWrite m off v => Sys2Proof.Machine.execPairHiWrite m off v s
  | .pairLoWrite m off v => Sys2Proof.Machine.execPairLoWrite m off v s
  | .jobObjPolicyWrite f v => Sys2Proof.Machine.execJobObjPolicyWrite f v s
  | .hifFnResetGo f => Sys2Proof.Machine.execHifFnResetGo f s
  | .functionLevelReset f => Sys2Proof.Machine.execFunctionLevelReset f s
  | .vfEnableClear => Sys2Proof.Machine.execVfEnableClear s
  | .ringEnable f r v => Sys2Proof.Machine.execRingEnable f r v s
  | .ringDisable f r v => Sys2Proof.Machine.execRingDisable f r v s
  | .bar2Access off n write data => Sys2Proof.Machine.execBar2Access off n write data s
  | .bellPoll f bell fetched => Sys2Proof.Machine.execBellPoll f bell fetched s
  | .inputSegmentArrival f x gen off data poison bad => Sys2Proof.Machine.execInputSegmentArrival f x gen off data poison bad s
  | .segmentTimeout x => Sys2Proof.Machine.execSegmentTimeout x s
  | .readCompletionTimeout x off n => Sys2Proof.Machine.execReadCompletionTimeout x off n s
  | .loadParams f r idx => Sys2Proof.Machine.execLoadParams f r idx s
  | .loadKeys f r idx => Sys2Proof.Machine.execLoadKeys f r idx s
  | .loadModel f r idx => Sys2Proof.Machine.execLoadModel f r idx s
  | .submitCircuit f r idx => Sys2Proof.Machine.execSubmitCircuit f r idx s
  | .directOp f r idx => Sys2Proof.Machine.execDirectOp f r idx s
  | .rawSector f r idx => Sys2Proof.Machine.execRawSector f r idx s
  | .copy f r idx => Sys2Proof.Machine.execCopy f r idx s
  | .fence f r idx => Sys2Proof.Machine.execFence f r idx s
  | .freeBuffer f r idx => Sys2Proof.Machine.execFreeBuffer f r idx s
  | .freeSlot f r idx => Sys2Proof.Machine.execFreeSlot f r idx s
  | .queryDevice f r idx => Sys2Proof.Machine.execQueryDevice f r idx s
  | .queryFunction f r idx => Sys2Proof.Machine.execQueryFunction f r idx s
  | .querySector f r idx => Sys2Proof.Machine.execQuerySector f r idx s
  | .queryModel f r idx => Sys2Proof.Machine.execQueryModel f r idx s
  | .queryBuiltin f r idx => Sys2Proof.Machine.execQueryBuiltin f r idx s
  | .queryAttest f r idx => Sys2Proof.Machine.execQueryAttest f r idx s
  | .queryIdentity f r idx => Sys2Proof.Machine.execQueryIdentity f r idx s
  | .cancel f r idx => Sys2Proof.Machine.execCancel f r idx s
  | .schedule f r idx => Sys2Proof.Machine.execSchedule f r idx s
  | .alloc f r idx => Sys2Proof.Machine.execAlloc f r idx s
  | .sectorForm f r idx => Sys2Proof.Machine.execSectorForm f r idx s
  | .sectorRelease f r idx => Sys2Proof.Machine.execSectorRelease f r idx s
  | .setQuota f r idx => Sys2Proof.Machine.execSetQuota f r idx s
  | .setExpert f r idx => Sys2Proof.Machine.execSetExpert f r idx s
  | .directOpBatchWindow f r => Sys2Proof.Machine.execDirectOpBatchWindow f r s
  | .programLoad sec => Sys2Proof.Machine.execProgramLoad sec s
  | .operationIssue sec => Sys2Proof.Machine.execOperationIssue sec s
  | .recvTimeout sec op => Sys2Proof.Machine.execRecvTimeout sec op s
  | .admissionWalk => Sys2Proof.Machine.execAdmissionWalk s
  | .strideEnd sec k => Sys2Proof.Machine.execStrideEnd sec k s
  | .jobComplete sec => Sys2Proof.Machine.execJobComplete sec s
  | .denseFloorExpiry sec => Sys2Proof.Machine.execDenseFloorExpiry sec s
  | .sectorZeroingEnd t => Sys2Proof.Machine.execSectorZeroingEnd t s
  | .swapIn sec => Sys2Proof.Machine.execSwapIn sec s
  | .stageGroup sec grp => Sys2Proof.Machine.execStageGroup sec grp s
  | .weightReload sec => Sys2Proof.Machine.execWeightReload sec s
  | .refreshTableCopy sec => Sys2Proof.Machine.execRefreshTableCopy sec s
  | .encodeRequestStart fe => Sys2Proof.Machine.execEncodeRequestStart fe s
  | .encodeRequestDone fe => Sys2Proof.Machine.execEncodeRequestDone fe s
  | .keyPassActivate iod => Sys2Proof.Machine.execKeyPassActivate iod s
  | .keyBurst b => Sys2Proof.Machine.execKeyBurst b s
  | .keySliceLanded p mem => Sys2Proof.Machine.execKeySliceLanded p mem s
  | .keyPassEnd p => Sys2Proof.Machine.execKeyPassEnd p s
  | .quantumExpiry sec => Sys2Proof.Machine.execQuantumExpiry sec s
  | .sliceSuspend sec => Sys2Proof.Machine.execSliceSuspend sec s
  | .restDelayExpiry sec => Sys2Proof.Machine.execRestDelayExpiry sec s
  | .startSlot => Sys2Proof.Machine.execStartSlot s
  | .paceChangeEnd t => Sys2Proof.Machine.execPaceChangeEnd t s
  | .syncInEdge dt => Sys2Proof.Machine.execSyncInEdge dt s
  | .localTick dt => Sys2Proof.Machine.execLocalTick dt s
  | .tickWatchdogExpiry dt => Sys2Proof.Machine.execTickWatchdogExpiry dt s
  | .ringHold n => Sys2Proof.Machine.execRingHold n s
  | .ringRelease n => Sys2Proof.Machine.execRingRelease n s
  | .capture n => Sys2Proof.Machine.execCapture n s
  | .captureGatherEnd n => Sys2Proof.Machine.execCaptureGatherEnd n s
  | .pace n => Sys2Proof.Machine.execPace n s
  | .checkpoint n => Sys2Proof.Machine.execCheckpoint n s
  | .maintenance n => Sys2Proof.Machine.execMaintenance n s
  | .mark n => Sys2Proof.Machine.execMark n s
  | .maintenanceActivityBegin a => Sys2Proof.Machine.execMaintenanceActivityBegin a s
  | .maintenanceActivityEnd a rep => Sys2Proof.Machine.execMaintenanceActivityEnd a rep s
  | .mntIdleTimeout a => Sys2Proof.Machine.execMntIdleTimeout a s
  | .patrolScrub p err => Sys2Proof.Machine.execPatrolScrub p err s
  | .dramRefresh ctl => Sys2Proof.Machine.execDramRefresh ctl s
  | .deviceMemoryResponse ctl err => Sys2Proof.Machine.execDeviceMemoryResponse ctl err s
  | .memoryRequestTimeout ctl => Sys2Proof.Machine.execMemoryRequestTimeout ctl s
  | .hardwareCheck g unit => Sys2Proof.Machine.execHardwareCheck g unit s
  | .sectorReform sec => Sys2Proof.Machine.execSectorReform sec s
  | .modelTileReplace f slot u => Sys2Proof.Machine.execModelTileReplace f slot u s
  | .fenCmdFence => Sys2Proof.Machine.execFenCmdFence s
  | .fenCmdUnfence => Sys2Proof.Machine.execFenCmdUnfence s
  | .fenCmdRead => Sys2Proof.Machine.execFenCmdRead s
  | .pkeYield cyc => Sys2Proof.Machine.execPkeYield cyc s
  | .pkeJobEnd j res => Sys2Proof.Machine.execPkeJobEnd j res s
  | .drbgHealthFail test => Sys2Proof.Machine.execDrbgHealthFail test s
  | .curveLoad slot => Sys2Proof.Machine.execCurveLoad slot s
  | .curveCheckEnd => Sys2Proof.Machine.execCurveCheckEnd s
  | .curveClear slot => Sys2Proof.Machine.execCurveClear slot s
  | .curveRead slot => Sys2Proof.Machine.execCurveRead slot s
  | .signerWrite f slot => Sys2Proof.Machine.execSignerWrite f slot s
  | .signerClear f slot => Sys2Proof.Machine.execSignerClear f slot s
  | .signerRead f slot => Sys2Proof.Machine.execSignerRead f slot s
  | .roleCommit m v => Sys2Proof.Machine.execRoleCommit m v s
  | .roleRead m v => Sys2Proof.Machine.execRoleRead m v s
  | .pairResync => Sys2Proof.Machine.execPairResync s
  | .pairHandover => Sys2Proof.Machine.execPairHandover s
  | .pairTakeoverWrite => Sys2Proof.Machine.execPairTakeoverWrite s
  | .portLockLoss p => Sys2Proof.Machine.execPortLockLoss p s
  | .portTrainingEnd p ok lanes => Sys2Proof.Machine.execPortTrainingEnd p ok lanes s
  | .flitTransmit p => Sys2Proof.Machine.execFlitTransmit p s
  | .replayTimeout p => Sys2Proof.Machine.execReplayTimeout p s
  | .idle p fl good => Sys2Proof.Machine.execIdle p fl good s
  | .lnak p fl good => Sys2Proof.Machine.execLnak p fl good s
  | .data p fl good => Sys2Proof.Machine.execData p fl good s
  | .messageInputTimeout slot pool => Sys2Proof.Machine.execMessageInputTimeout slot pool s
  | .ack p fl good => Sys2Proof.Machine.execAck p fl good s
  | .nack p fl good => Sys2Proof.Machine.execNack p fl good s
  | .ackTimeout idx => Sys2Proof.Machine.execAckTimeout idx s
  | .resendWaitExpiry idx => Sys2Proof.Machine.execResendWaitExpiry idx s
  | .busyRetryExpiry idx => Sys2Proof.Machine.execBusyRetryExpiry idx s
  | .probe p fl good => Sys2Proof.Machine.execProbe p fl good s
  | .probeAck p fl good => Sys2Proof.Machine.execProbeAck p fl good s
  | .takeover p fl good => Sys2Proof.Machine.execTakeover p fl good s
  | .heartbeatMiss => Sys2Proof.Machine.execHeartbeatMiss s
  | .probeTimeout => Sys2Proof.Machine.execProbeTimeout s
  | .tick p fl good dt => Sys2Proof.Machine.execTick p fl good dt s
  | .heartbeat p fl good => Sys2Proof.Machine.execHeartbeat p fl good s
  | .state p fl good => Sys2Proof.Machine.execState p fl good s
  | .journal p fl good => Sys2Proof.Machine.execJournal p fl good s
  | .mirror p fl good => Sys2Proof.Machine.execMirror p fl good s
  | .commit p fl good => Sys2Proof.Machine.execCommit p fl good s
  | .digest p fl good => Sys2Proof.Machine.execDigest p fl good s
  | .bundleIssue g n => Sys2Proof.Machine.execBundleIssue g n s
  | .programFault sec => Sys2Proof.Machine.execProgramFault sec s
  | .waitTimeout g k n => Sys2Proof.Machine.execWaitTimeout g k n s
  | .signalAction g n => Sys2Proof.Machine.execSignalAction g n s
  | .barrierComplete sec ch n => Sys2Proof.Machine.execBarrierComplete sec ch n s
  | .arrayResultReady g n => Sys2Proof.Machine.execArrayResultReady g n s
  | .coreStoreLoadService g n err => Sys2Proof.Machine.execCoreStoreLoadService g n err s
  | .coreStoreStoreService g n => Sys2Proof.Machine.execCoreStoreStoreService g n s
  | .loadDataReturn g k n => Sys2Proof.Machine.execLoadDataReturn g k n s
  | .segldComplete g n => Sys2Proof.Machine.execSegldComplete g n s
  | .streamPortService g n err => Sys2Proof.Machine.execStreamPortService g n err s
  | .tileBankService t n err => Sys2Proof.Machine.execTileBankService t n err s
  | .creditGrant g => Sys2Proof.Machine.execCreditGrant g s
  | .streamRequestIssue g => Sys2Proof.Machine.execStreamRequestIssue g s
  | .chunkLanded g k => Sys2Proof.Machine.execChunkLanded g k s
  | .outChunkAck g k => Sys2Proof.Machine.execOutChunkAck g k s
  | .streamEnd g k => Sys2Proof.Machine.execStreamEnd g k s
  | .pairMirrorDone => Sys2Proof.Machine.execPairMirrorDone s
  | .inputProtectionTrip => Sys2Proof.Machine.execInputProtectionTrip s
  | .elementResultWrite g n => Sys2Proof.Machine.execElementResultWrite g n s
  | .transformAssistResult g n => Sys2Proof.Machine.execTransformAssistResult g n s
  | .hashLaneDigestDone lane => Sys2Proof.Machine.execHashLaneDigestDone lane s
  | .warmResetZeroingEnd => Sys2Proof.Machine.execWarmResetZeroingEnd s

end Sys2Proof.Machine
end

