-- ==== Sys2Proof/Safety.lean ====
section
/-! DEFINITION. The states that every run stays in: each sparse table of the state in its one canonical form, and the start
in one of its phases; and the parts of the state that each command may change. Equal memories, register files and tables
are then equal data. -/

namespace Sys2Proof.Machine

/-- The invariant that every step keeps. -/
structure State.Inv (s : State) : Prop where
  mem : Memory.wf s.mem = true
  poison : twf false s.sramPoison = true
  regs : kwf regReset s.regs = true
  cores : twf Core.fresh s.cores = true
  fns : twf Fn.fresh s.fns = true
  sectors : twf none s.sectors = true
  jobs : twf none s.jobs = true
  /-- phase 0 (no start) to 8 (device ready), Table 17.1 -/
  phase : s.start.phase ≤ 8

/-- A part of the state: a group of its fields. -/
inductive Part where
  /-- the registers, their shadows and their holding registers -/
  | regs
  /-- device memory and its poison -/
  | mem
  /-- requests in the memory system -/
  | memq
  /-- the Crossbow Cores -/
  | cores
  /-- the functions: descriptors, slots, buffers, signers -/
  | fns
  /-- sectors -/
  | sectors
  /-- jobs -/
  | jobs
  /-- what allocation holds -/
  | alloc
  /-- encode requests -/
  | encQ
  /-- key passes -/
  | passes
  /-- transfers and batches of DIRECT_OP -/
  | xfers
  /-- tiles being zeroed -/
  | zeroing
  /-- the Daymark -/
  | day
  /-- the Keeper -/
  | keeper
  /-- the claim stacks of the EICs -/
  | eic
  /-- start-up, rails and field maps -/
  | start
  /-- maintenance requests -/
  | maint
  /-- schedule, energy admission, Paces and wakes -/
  | sched
  /-- the security unit -/
  | pke
  /-- the fabric -/
  | fab
  /-- fabric time -/
  | ftime
  /-- what the block has sent out -/
  | outputs
  deriving DecidableEq, Repr

/-- Every part. -/
def allParts : List Part :=
  [.regs, .mem, .memq, .cores, .fns, .sectors, .jobs, .alloc, .encQ, .passes, .xfers, .zeroing, .day, .keeper, .eic, .start, .maint, .sched, .pke, .fab, .ftime, .outputs]

/-- Every part but these. -/
def except (l : List Part) : List Part := allParts.filter fun p => !l.contains p

/-- The parts that a command may change. A command leaves every other part as it is. -/
def partsOf : Instr → List Part
  | .powerApplied _ _ => allParts
  | .startPhaseEnd _ => allParts
  | .phaseTimeout => allParts
  | .perstDeassert => [.start]
  | .perstAssert => allParts
  | .wakeRelease => [.start, .outputs]
  | .configRequest _ _ _ _ => [.outputs]
  | .moduleWithdrawal _ => allParts
  | .powerFail _ => allParts
  | .hwThermalTrip _ => allParts
  | .keeperWatchdog _ => allParts
  | .keeperSample _ => allParts
  | .opSecondsSave => [.keeper]
  | .pllUnlock _ _ => except [.xfers, .eic, .maint, .ftime]
  | .pllRelock _ _ _ => except [.xfers, .eic, .maint, .ftime]
  | .smbusArp _ => [.outputs]
  | .mctpControl _ _ _ => [.regs, .outputs]
  | .pldmSetEventReceiver _ => [.keeper, .outputs]
  | .pldmEventAck => [.keeper, .outputs]
  | .pldmGetSensorReading _ => [.outputs]
  | .pldmFruRead _ _ => [.outputs]
  | .pldmPowerOn => [.regs, .day, .keeper, .start, .outputs]
  | .pldmPowerOff => allParts
  | .pldmWarmReset => allParts
  | .pldmColdReset => allParts
  | .resetGraceExpiry => allParts
  | .pldmSetCapWatts _ _ => [.regs, .outputs]
  | .pldmSetCapPace _ _ => [.regs, .day, .sched, .outputs]
  | .regRead _ _ => [.regs, .outputs]
  | .regWrite _ _ => except [.ftime]
  | .dayLoad _ => [.outputs]
  | .dayHoldFreeze => [.regs, .day, .outputs]
  | .dayHoldThaw => [.regs, .day, .outputs]
  | .latchRead => [.outputs]
  | .daymarkProgram _ => [.regs, .fns, .day, .keeper, .sched, .outputs]
  | .freezeLimitExpiry _ => [.regs, .day]
  | .dayCmdLoad => [.regs]
  | .dayCmdNext => [.regs]
  | .dayCmdFreeze => [.regs, .day]
  | .dayCmdThaw => [.regs, .day]
  | .dayCmdRetry _ => [.regs, .fns, .day, .keeper, .outputs]
  | .dayCmdClearLatch => [.regs]
  | .eicClaim _ _ _ => [.regs, .eic, .outputs]
  | .eicComplete _ _ _ => [.regs, .day, .eic, .sched]
  | .eicSwset _ _ _ => [.regs, .sched]
  | .eicLock _ _ => [.regs]
  | .hubWake _ => [.sched]
  | .registerWrite _ _ _ _ => except [.ftime]
  | .rcRead _ _ _ => [.regs, .eic, .outputs]
  | .pairLoRead _ _ => [.regs, .outputs]
  | .pairHiWrite _ _ _ => except [.ftime]
  | .pairLoWrite _ _ _ => except [.ftime]
  | .jobObjPolicyWrite _ _ => except [.ftime]
  | .hifFnResetGo _ => except [.eic, .ftime]
  | .functionLevelReset _ => except [.eic, .ftime]
  | .vfEnableClear => except [.eic, .ftime]
  | .ringEnable _ _ _ => [.regs, .fab, .outputs]
  | .ringDisable _ _ _ => [.regs, .fab, .outputs]
  | .bar2Access _ _ _ _ => [.regs, .memq, .outputs]
  | .bellPoll _ _ _ => except [.eic, .maint, .ftime]
  | .inputSegmentArrival _ _ _ _ _ _ _ => [.regs, .fns, .xfers, .fab, .outputs]
  | .segmentTimeout _ => [.regs, .fns, .xfers, .fab, .outputs]
  | .readCompletionTimeout _ _ _ => [.outputs]
  | .loadParams _ _ _ => except [.sectors, .jobs, .encQ, .zeroing, .eic, .maint, .pke, .ftime]
  | .loadKeys _ _ _ => except [.sectors, .encQ, .zeroing, .eic, .maint, .ftime]
  | .loadModel _ _ _ => except [.encQ, .eic, .maint, .ftime]
  | .submitCircuit _ _ _ => except [.xfers, .eic, .maint, .ftime]
  | .directOp _ _ _ => except [.eic, .maint, .ftime]
  | .rawSector _ _ _ => except [.xfers, .eic, .maint, .ftime]
  | .copy _ _ _ => [.regs, .memq, .fns, .xfers, .fab, .outputs]
  | .fence _ _ _ => [.regs, .fns, .fab, .outputs]
  | .freeBuffer _ _ _ => [.regs, .fns, .alloc, .day, .fab, .outputs]
  | .freeSlot _ _ _ => [.regs, .cores, .fns, .sectors, .alloc, .zeroing, .sched, .fab, .outputs]
  | .queryDevice _ _ _ => except [.sectors, .jobs, .alloc, .encQ, .zeroing, .eic, .maint, .pke, .ftime]
  | .queryFunction _ _ _ => except [.sectors, .jobs, .alloc, .encQ, .zeroing, .eic, .maint, .pke, .ftime]
  | .querySector _ _ _ => except [.sectors, .jobs, .alloc, .encQ, .zeroing, .eic, .maint, .pke, .ftime]
  | .queryModel _ _ _ => except [.sectors, .jobs, .alloc, .encQ, .zeroing, .eic, .maint, .pke, .ftime]
  | .queryBuiltin _ _ _ => except [.sectors, .jobs, .alloc, .encQ, .zeroing, .eic, .maint, .pke, .ftime]
  | .queryAttest _ _ _ => except [.sectors, .alloc, .encQ, .zeroing, .eic, .maint, .ftime]
  | .queryIdentity _ _ _ => except [.sectors, .jobs, .alloc, .encQ, .zeroing, .eic, .maint, .pke, .ftime]
  | .cancel _ _ _ => except [.eic, .ftime]
  | .schedule _ _ _ => [.regs, .fns, .sched, .fab, .outputs]
  | .alloc _ _ _ => [.regs, .mem, .fns, .fab, .outputs]
  | .sectorForm _ _ _ => [.regs, .cores, .fns, .sectors, .sched, .fab, .outputs]
  | .sectorRelease _ _ _ => [.regs, .cores, .fns, .sectors, .alloc, .zeroing, .sched, .fab, .outputs]
  | .setQuota _ _ _ => [.regs, .fns, .fab, .outputs]
  | .setExpert _ _ _ => [.regs, .fns, .fab, .outputs]
  | .directOpBatchWindow _ _ => except [.eic, .maint, .ftime]
  | .programLoad _ => except [.xfers, .eic, .maint, .ftime]
  | .operationIssue _ => except [.fns, .sectors, .alloc, .xfers, .zeroing, .eic, .maint, .pke, .ftime]
  | .recvTimeout _ _ => except [.fns, .sectors, .alloc, .encQ, .xfers, .zeroing, .eic, .maint, .pke, .ftime]
  | .admissionWalk => [.regs, .cores, .jobs, .passes, .sched]
  | .strideEnd _ _ => [.regs, .mem, .memq, .cores, .jobs, .passes, .day, .keeper, .start, .sched, .outputs]
  | .jobComplete _ => except [.xfers, .eic, .maint, .ftime]
  | .denseFloorExpiry _ => except [.xfers, .eic, .maint, .pke, .ftime]
  | .sectorZeroingEnd _ => [.regs, .mem, .fns, .zeroing]
  | .swapIn _ => except [.encQ, .xfers, .zeroing, .eic, .maint, .pke, .fab, .ftime]
  | .stageGroup _ _ => except [.fns, .sectors, .alloc, .xfers, .zeroing, .eic, .maint, .pke, .fab, .ftime]
  | .weightReload _ => [.regs, .mem, .fns, .day, .keeper, .start, .sched, .outputs]
  | .refreshTableCopy _ => [.regs, .mem, .cores, .jobs, .passes, .day, .keeper, .start, .sched, .outputs]
  | .encodeRequestStart _ => [.regs, .memq, .cores, .jobs, .encQ, .passes, .sched]
  | .encodeRequestDone _ => [.regs, .cores, .jobs, .encQ]
  | .keyPassActivate _ => except [.sectors, .alloc, .encQ, .xfers, .zeroing, .eic, .maint, .pke, .ftime]
  | .keyBurst _ => except [.sectors, .alloc, .encQ, .xfers, .zeroing, .eic, .pke, .fab, .ftime]
  | .keySliceLanded _ _ => [.cores, .passes]
  | .keyPassEnd _ => [.regs, .cores, .jobs, .passes, .sched]
  | .quantumExpiry _ => [.sectors]
  | .sliceSuspend _ => [.regs, .mem, .cores, .sectors, .jobs, .alloc, .zeroing, .sched]
  | .restDelayExpiry _ => [.regs, .sched]
  | .startSlot => [.sched]
  | .paceChangeEnd _ => [.regs, .cores, .sectors, .zeroing, .sched]
  | .syncInEdge _ => except [.mem, .sectors, .alloc, .encQ, .xfers, .zeroing, .keeper, .eic, .start, .pke]
  | .localTick _ => except [.mem, .sectors, .alloc, .encQ, .xfers, .zeroing, .keeper, .eic, .start, .pke]
  | .tickWatchdogExpiry _ => except [.mem, .sectors, .alloc, .encQ, .xfers, .zeroing, .eic, .start, .pke]
  | .ringHold _ => [.regs, .fns, .day, .maint, .sched, .fab, .outputs]
  | .ringRelease _ => [.regs, .fns, .day, .maint, .sched, .fab, .outputs]
  | .capture _ => [.regs, .fns, .day, .maint, .sched, .fab, .outputs]
  | .captureGatherEnd _ => except [.sectors, .jobs, .alloc, .encQ, .xfers, .zeroing, .eic, .maint, .pke, .ftime]
  | .pace _ => [.regs, .fns, .day, .maint, .sched, .fab, .outputs]
  | .checkpoint _ => [.regs, .fns, .day, .maint, .sched, .fab, .outputs]
  | .maintenance _ => [.regs, .fns, .day, .maint, .sched, .fab, .outputs]
  | .mark _ => [.regs, .fns, .day, .maint, .sched, .fab, .outputs]
  | .maintenanceActivityBegin _ => [.regs, .maint, .sched, .fab]
  | .maintenanceActivityEnd _ _ => except [.xfers, .eic, .ftime]
  | .mntIdleTimeout _ => [.regs, .fns, .day, .maint, .sched, .fab, .outputs]
  | .patrolScrub _ _ => except [.sectors, .alloc, .encQ, .passes, .xfers, .zeroing, .eic, .pke, .fab, .ftime]
  | .dramRefresh _ => []
  | .deviceMemoryResponse _ _ => except [.sectors, .alloc, .encQ, .xfers, .zeroing, .eic, .pke, .fab, .ftime]
  | .memoryRequestTimeout _ => [.regs, .mem, .memq, .cores, .passes, .day, .keeper, .start, .sched, .outputs]
  | .hardwareCheck _ _ => except [.xfers, .eic, .ftime]
  | .sectorReform _ => [.cores, .sectors]
  | .modelTileReplace _ _ _ => [.regs, .cores, .fns, .sectors, .zeroing, .sched, .outputs]
  | .fenCmdFence => except [.xfers, .eic, .maint, .ftime]
  | .fenCmdUnfence => [.regs, .start]
  | .fenCmdRead => [.regs]
  | .pkeYield _ => [.regs, .sched, .pke]
  | .pkeJobEnd _ _ => [.regs, .fns, .jobs, .day, .sched, .pke]
  | .drbgHealthFail _ => [.regs, .fns, .jobs, .day, .pke]
  | .curveLoad _ => [.regs, .fns, .jobs, .pke]
  | .curveCheckEnd => [.regs, .pke]
  | .curveClear _ => [.regs, .pke]
  | .curveRead _ => [.regs]
  | .signerWrite _ _ => [.regs, .fns]
  | .signerClear _ _ => [.regs, .fns]
  | .signerRead _ _ => [.regs]
  | .roleCommit _ _ => except [.ftime]
  | .roleRead _ _ => except [.ftime]
  | .pairResync => [.regs, .fab]
  | .pairHandover => [.regs, .fab]
  | .pairTakeoverWrite => [.regs, .fns, .keeper, .fab, .outputs]
  | .portLockLoss _ => [.regs, .sched]
  | .portTrainingEnd _ _ _ => [.regs, .sched, .fab]
  | .flitTransmit _ => [.fab, .outputs]
  | .replayTimeout _ => [.regs, .sched, .fab]
  | .idle _ _ _ => [.regs, .fab]
  | .lnak _ _ _ => [.regs, .sched, .fab]
  | .data _ _ _ => except [.fns, .sectors, .alloc, .encQ, .xfers, .zeroing, .eic, .maint, .pke, .ftime]
  | .messageInputTimeout _ _ => except [.fns, .sectors, .alloc, .encQ, .xfers, .zeroing, .eic, .maint, .pke, .ftime]
  | .ack _ _ _ => [.regs, .cores, .jobs, .passes, .sched, .fab]
  | .nack _ _ _ => except [.fns, .sectors, .alloc, .encQ, .xfers, .zeroing, .eic, .maint, .pke, .ftime]
  | .ackTimeout _ => except [.fns, .sectors, .alloc, .encQ, .xfers, .zeroing, .eic, .maint, .pke, .ftime]
  | .resendWaitExpiry _ => except [.fns, .sectors, .alloc, .encQ, .xfers, .zeroing, .eic, .maint, .pke, .ftime]
  | .busyRetryExpiry _ => except [.fns, .sectors, .alloc, .encQ, .xfers, .zeroing, .eic, .maint, .pke, .ftime]
  | .probe _ _ _ => [.regs, .fab]
  | .probeAck _ _ _ => [.regs, .fab]
  | .takeover _ _ _ => except [.xfers, .eic, .maint, .ftime]
  | .heartbeatMiss => [.regs, .fab]
  | .probeTimeout => [.regs, .fns, .keeper, .fab, .outputs]
  | .tick _ _ _ _ => except [.mem, .sectors, .alloc, .encQ, .xfers, .zeroing, .keeper, .eic, .start, .pke]
  | .heartbeat _ _ _ => [.regs, .fab]
  | .state _ _ _ => except [.encQ, .eic, .maint, .ftime]
  | .journal _ _ _ => [.regs, .fab]
  | .mirror _ _ _ => [.regs, .mem, .day, .keeper, .start, .sched, .fab, .outputs]
  | .commit _ _ _ => [.regs, .fab]
  | .digest _ _ _ => [.regs, .day, .keeper, .fab, .outputs]
  | .bundleIssue _ _ => [.regs, .mem, .memq, .cores, .sectors, .jobs, .day, .keeper, .start, .sched, .outputs]
  | .programFault _ => except [.xfers, .eic, .maint, .ftime]
  | .waitTimeout _ _ _ => [.regs, .mem, .cores, .sectors, .jobs, .day, .keeper, .start, .sched, .outputs]
  | .signalAction _ _ => [.regs, .mem, .cores, .sectors, .day, .keeper, .start, .sched, .outputs]
  | .barrierComplete _ _ _ => [.regs, .mem, .cores, .sectors, .day, .keeper, .start, .sched, .outputs]
  | .arrayResultReady _ _ => [.regs, .mem, .cores, .sectors, .day, .keeper, .start, .sched, .outputs]
  | .coreStoreLoadService _ _ _ => except [.alloc, .encQ, .passes, .xfers, .zeroing, .eic, .pke, .fab, .ftime]
  | .coreStoreStoreService _ _ => [.regs, .mem, .cores, .sectors, .day, .keeper, .start, .sched, .outputs]
  | .loadDataReturn _ _ _ => [.regs, .mem, .cores, .sectors, .jobs, .day, .keeper, .start, .sched, .outputs]
  | .segldComplete _ _ => [.regs, .mem, .cores, .sectors, .day, .keeper, .start, .sched, .outputs]
  | .streamPortService _ _ _ => except [.alloc, .encQ, .xfers, .zeroing, .eic, .pke, .fab, .ftime]
  | .tileBankService _ _ _ => except [.sectors, .alloc, .encQ, .xfers, .zeroing, .eic, .pke, .fab, .ftime]
  | .creditGrant _ => [.memq, .cores, .encQ]
  | .streamRequestIssue _ => [.regs, .memq, .cores, .jobs, .sched]
  | .chunkLanded _ _ => [.cores]
  | .outChunkAck _ _ => [.cores]
  | .streamEnd _ _ => [.regs, .memq, .cores, .jobs]
  | .pairMirrorDone => [.regs]
  | .inputProtectionTrip => allParts
  | .elementResultWrite _ _ => [.regs, .mem, .cores, .sectors, .day, .keeper, .start, .sched, .outputs]
  | .transformAssistResult _ _ => [.regs, .mem, .cores, .sectors, .day, .keeper, .start, .sched, .outputs]
  | .hashLaneDigestDone _ => [.regs, .fns, .jobs, .pke]
  | .warmResetZeroingEnd => [.regs, .mem, .start]

end Sys2Proof.Machine
end

