-- ==== Sys2Proof/Certificates/Slice0/Obligations.lean ====
section
/-! DEFINITION. The statements for the provers. "Completes" means that exec answers the next state named, for every state and
every operands that meet the hypotheses. -/

open Sys2Proof Sys2Proof.Machine

/-! ### The machine as a whole -/

/-- A step runs the command at the front of the queue, on the state with the queue's rest (log entry 1). -/
def Obligations.StepRunsFrontCommand : Prop :=
  ∀ (c : Instr) (l : List Instr) (s : State), step { s with pending := c :: l } = exec c { s with pending := l }

/-- With no command waiting the block idles (the model's choice, log entry 1). -/
def Obligations.EmptyQueueIdles : Prop :=
 ∀ s : State, s.pending = [] → step s = .next s

/-- No command ends a run: each answers a next state, leaves the queue alone, and draws free values forward only (the model's
choice, log entries 1, 4 and 8). -/
def Obligations.EveryCommandAnswersANextState : Prop :=
  ∀ (c : Instr) (s : State), ∃ t, exec c s = .next t ∧ t.pending = s.pending ∧ s.free ≤ t.free

/-- The state after reset: the invariant holds, no memory is listed, no command waits, fabric time is zero, no start has
begun, and every register reads the reset value of its fields. -/
def Obligations.ResetStateIsCanonicalAndEmpty : Prop :=
  State.reset.Inv ∧ State.reset.mem = [] ∧ State.reset.pending = [] ∧ State.reset.ftime = 0 ∧ State.reset.start.phase = 0 ∧
    (∀ a, memByte State.reset a = 0) ∧ ∀ o, regGet State.reset o = regReset o

/-- The invariant of Safety.lean: every table in its one canonical form, the start in one of its phases. Every step from a
state that meets it ends in one that does. -/
def Obligations.EveryStepKeepsTheInvariant : Prop :=
 ∀ s t : State, s.Inv → step s = .next t → t.Inv

/-! ### Frames: the parts of the state that a command leaves alone -/

/-- A command that does not have the registers among its parts leaves every register, shadow and holding register. -/
def Obligations.FrameOfRegisters : Prop :=
  ∀ (c : Instr) (s t : State), exec c s = .next t → Part.regs ∉ partsOf c →
    (∀ o, regGet t o = regGet s o) ∧ t.shadows = s.shadows ∧ t.holds = s.holds

/-- A command that does not have memory among its parts leaves every byte of device memory, and its poison. -/
def Obligations.FrameOfMemory : Prop :=
  ∀ (c : Instr) (s t : State), exec c s = .next t → Part.mem ∉ partsOf c →
    (∀ a, memByte t a = memByte s a) ∧ t.sramPoison = s.sramPoison ∧ t.poison0 = s.poison0 ∧ t.poison1 = s.poison1

/-- Cores, functions, sectors and jobs stay as they are under a command that does not have them among its parts. -/
def Obligations.FrameOfCoresFunctionsSectorsJobs : Prop :=
  ∀ (c : Instr) (s t : State), exec c s = .next t →
    (Part.cores ∉ partsOf c → ∀ g, getCore t g = getCore s g) ∧
    (Part.fns ∉ partsOf c → ∀ f, getFn t f = getFn s f) ∧
    (Part.sectors ∉ partsOf c → ∀ n, getSector t n = getSector s n) ∧
    (Part.jobs ∉ partsOf c → ∀ j, getJob t j = getJob s j)

/-- The queues of work in flight, and what patrol has scrubbed, stay as they are under a command that does not have them among its parts. -/
def Obligations.FrameOfWorkInFlight : Prop :=
  ∀ (c : Instr) (s t : State), exec c s = .next t →
    (Part.memq ∉ partsOf c → t.memq = s.memq ∧ t.moves = s.moves ∧ t.bufEvents = s.bufEvents ∧
      t.bankScrub = s.bankScrub ∧ t.dramScrub = s.dramScrub) ∧ (Part.encQ ∉ partsOf c → t.encQ = s.encQ) ∧
    (Part.passes ∉ partsOf c → t.passes = s.passes) ∧ (Part.xfers ∉ partsOf c → t.xfers = s.xfers ∧ t.batches = s.batches) ∧
    (Part.zeroing ∉ partsOf c → t.zeroing = s.zeroing) ∧
    (Part.alloc ∉ partsOf c → t.zombies = s.zombies ∧ t.gddrUsed = s.gddrUsed ∧ t.hbmUsed = s.hbmUsed) ∧
    (Part.outputs ∉ partsOf c → t.outputs = s.outputs)

/-- The Daymark, the Keeper, the claim stacks of the Event Interrupt Controllers, the start, maintenance, fabric time, the schedule with the energy credit and
the Paces, the fabric and the security unit stay as they are under a command that does not have them among its parts; fabric time changes
only by the rows of the tick and by those that start or reset the module. -/
def Obligations.FrameOfKeeperTimeAndFabric : Prop :=
  (∀ (c : Instr) (s t : State), exec c s = .next t →
    (Part.day ∉ partsOf c → t.day = s.day) ∧ (Part.keeper ∉ partsOf c → t.keeper = s.keeper) ∧
    (Part.eic ∉ partsOf c → ∀ e i, eicStack t e i = eicStack s e i) ∧ (Part.start ∉ partsOf c → t.start = s.start) ∧
    (Part.maint ∉ partsOf c → t.maint = s.maint)) ∧
  (∀ (c : Instr) (s t : State), exec c s = .next t →
    (Part.ftime ∉ partsOf c → t.ftime = s.ftime) ∧ (Part.sched ∉ partsOf c → t.sched = s.sched) ∧
    (Part.fab ∉ partsOf c → t.fab = s.fab) ∧ (Part.pke ∉ partsOf c → t.pke = s.pke))

/-! ### Register accesses -/

/-- Table 0.3 (R15, R16): what each bit of a register becomes under a write, where the fields do not overlap. A reserved bit, and
one of a field that no write changes, stays. -/
def Obligations.FieldWriteFollowsTheAccessTypes : Prop :=
  ∀ (fs : List Fld) (old v : Word) (i : Nat),
    (fieldWrite fs old v).getLsbD i =
      if (maskOfAcc fs (· == .w1s)).getLsbD i && v.getLsbD i then true
      else if (maskOfAcc fs (· == .w1c)).getLsbD i && v.getLsbD i then false
      else if (maskOfAcc fs (· == .rw)).getLsbD i then v.getLsbD i
      else old.getLsbD i

/-- REGISTER_WRITE, 32 bits wide and aligned, of a register of the power and clock blocks, whose writes have no rule of their own:
the fields take the write by their access types (R15); a reserved offset takes none (R16); a write of the sideband port is denied and
counted while the PF is enabled (R523). -/
def Obligations.RegisterWriteCompletes : Prop :=
  (∀ (m : Master) (off v : Nat) (s : State) (fs : List Fld), 0x40000 ≤ off → off < 0x60000 → off % 4 = 0 →
    masterUp s m off = true → mayReach m off = true → (m = .proc .sideband → sbDenied s = false) → regAt off = some (fs, .no) →
    exec (.registerWrite m off 4 v) s = .next (regSet s off (fieldWrite fs (regGet s off) (BitVec.ofNat 32 v)))) ∧
  (∀ (m : Master) (off v : Nat) (s : State), 0x40000 ≤ off → off < 0x60000 → off % 4 = 0 →
    masterUp s m off = true → mayReach m off = true → (m = .proc .sideband → sbDenied s = false) → regAt off = none →
    exec (.registerWrite m off 4 v) s = .next s) ∧
  ∀ (off v : Nat) (s : State), 0x40000 ≤ off → off < 0x60000 → off % 4 = 0 →
    masterUp s (.proc .sideband) off = true → sbDenied s = true →
    exec (.registerWrite (.proc .sideband) off 4 v) s = .next (bump s 0x60104)

/-- A register write of another width or alignment is discarded and sets bad_reg_access of the function whose BAR0 carried it (R19);
in the device register space, which only the PF's BAR0 reaches, that of the PF. -/
def Obligations.BadRegisterWriteIsDiscardedAndFlagged : Prop :=
  ∀ (f off width v : Nat) (s : State), s.start.phase = 8 → mayReach (.bar0 f) (regOff off) = true →
    (width ≠ 4 ∨ regOff off % 4 ≠ 0) → (getFn s f).resetting = false →
    exec (.registerWrite (.bar0 f) off width v) s = .next (regSetFld s (fnBase f + 4) 0 0 1)

/-- RC_READ (R18): the read returns the value from before the events of its cycle, clears the RC fields, and the n events then count
on the cleared field, so that none is lost. A read of another width or alignment returns zero and changes nothing (R19). -/
def Obligations.RcReadLosesNoEvent : Prop :=
  (∀ (m : Master) (off n : Nat) (s : State) (fs : List Fld), masterUp s m (regOff off) = true → mayReach m (regOff off) = true →
    regOff off % 4 = 0 → mirrorClaim (regOff off) = false → eicAt (regOff off) = none →
    (∀ f, fnOfOff (regOff off) = some f → (getFn s f).resetting = false) →
    regAt (regOff off) = some (fs, .no) → maskOfAcc fs (· == .rc) ≠ 0 →
    exec (.rcRead m ⟨off, 4⟩ n) s =
      .next (emit (bumpN (regSet s (regOff off) (fieldClear fs (regGet s (regOff off)))) (regOff off) n)
        (.value (wordAt s (regOff off))))) ∧
  ∀ (m : Master) (off w n : Nat) (s : State), (w ≠ 4 ∨ regOff off % 4 ≠ 0) → exec (.rcRead m ⟨off, w⟩ n) s = .next (emit s (.value 0))

/-- PAIR_LO_READ (R20): the read returns bits [31:0] and captures bits [63:32] into the master's own read shadow; every later read
of _HI by that master returns the shadow and leaves it. -/
def Obligations.PairLoReadCapturesTheShadow : Prop :=
  ∀ (m : Master) (off : Nat) (s t : State) (fs : List Fld), masterUp s m (regOff off) = true → mayReach m (regOff off) = true →
    regOff off % 4 = 0 → mirrorClaim (regOff off) = false → eicAt (regOff off) = none → regAt (regOff off) = some (fs, .lo) →
    t = { s with shadows := tset (regReset (regOff off + 4)) s.shadows (pairKey (masterNo m) (regOff off + 4)) (wordAt s (regOff off + 4)) } →
    exec (.pairLoRead m ⟨off, 4⟩) s = .next (emit t (.value (wordAt s (regOff off))))

/-- PAIR_HI_WRITE and PAIR_LO_WRITE on FT_SET (R20, R474): a write of _HI reaches the master's own holding register and nothing else;
a write of _LO takes effect with bits [63:32] from the holding register, which keeps its content, and arms FT_SET. -/
def Obligations.PairWritesTakeEffectAtTheLowHalf : Prop :=
  (∀ (m : Master) (v : Word) (s : State), masterUp s m 0x30014 = true → mayReach m 0x30014 = true →
    (m = .proc .sideband → sbDenied s = false) →
    exec (.pairHiWrite m 0x30014 v) s =
      .next { s with holds := tset (regReset 0x30014) s.holds (pairKey (masterNo m) 0x30014) v }) ∧
  ∀ (m : Master) (v : Word) (s : State), s.Inv → masterUp s m 0x30010 = true → mayReach m 0x30010 = true →
    (m = .proc .sideband → sbDenied s = false) →
    ∃ t, exec (.pairLoWrite m 0x30010 v) s = .next t ∧ regGet t 0x30010 = v ∧ regGet t 0x30014 = holdOf s (masterNo m) 0x30014 ∧
      t.holds = s.holds ∧ regFld t 0x30004 5 5 = 1

/-- JOB_OBJ_POLICY_WRITE (R619): without the lock every field takes its written value; under it sig_required stays as stored; and
from the end of a write that leaves the lock set, sig_required reads 1. -/
def Obligations.JobObjPolicyLocks : Prop :=
  (∀ (f : Nat) (v : Word) (s : State), f < 64 → s.start.phase = 8 → (getFn s f).resetting = false →
    bit (regGet s (fnBase f + 0x2000)).toNat 4 = false →
    exec (.jobObjPolicyWrite f v) s = .next (regSet s (fnBase f + 0x2000)
      (fieldWrite (fldsAt (fnBase f + 0x2000)) (regGet s (fnBase f + 0x2000)) v))) ∧
  (∀ (f : Nat) (v : Word) (s : State), f < 64 → s.start.phase = 8 → (getFn s f).resetting = false →
    bit (regGet s (fnBase f + 0x2000)).toNat 4 = true →
    exec (.jobObjPolicyWrite f v) s = .next (regSet s (fnBase f + 0x2000)
      (putBits (fieldWrite (fldsAt (fnBase f + 0x2000)) (regGet s (fnBase f + 0x2000)) v) 3 3
        (bits (regGet s (fnBase f + 0x2000)).toNat 3 3)))) ∧
  ∀ w : Word, bit w.toNat 4 = true → bit (policyRead w).toNat 3 = true

/-- ROLE_COMMIT and ROLE_READ (R446, R466): a commit that a check refuses leaves every role entry and shows its status; one that
passes puts the entry, with its reserved bits clear, into the slot that FAB_ROLE_IDX names; a read copies the named slot into W0 to W3. -/
def Obligations.RoleCommandsComplete : Prop :=
  (∀ (m : Master) (v : Word) (s : State) (slot : Nat) (r : Role), masterUp s m 0x20024 = true → mayReach m 0x20024 = true →
    (m = .proc .sideband → sbDenied s = false) → bit v.toNat 1 = false → slot = regFld s 0x20010 11 0 →
    r = roleMask ⟨regGet s 0x20014, regGet s 0x20018, regGet s 0x2001C, regGet s 0x20020⟩ → roleStatus s slot r ≠ 0 →
    ∃ t, exec (.roleCommit m v) s = .next t ∧ t.fab = s.fab ∧
      t = regSetFld (countOutcome s (slot / 64) (roleStatus s slot r)) 0x20028 31 16 (roleStatus s slot r)) ∧
  (∀ (m : Master) (v : Word) (s : State) (slot : Nat) (r : Role), masterUp s m 0x20024 = true → mayReach m 0x20024 = true →
    (m = .proc .sideband → sbDenied s = false) → bit v.toNat 1 = false → slot = regFld s 0x20010 11 0 →
    r = roleMask ⟨regGet s 0x20014, regGet s 0x20018, regGet s 0x2001C, regGet s 0x20020⟩ → roleStatus s slot r = 0 →
    mirroring (putRole (regSetFld (countOutcome s (slot / 64) 0) 0x20028 31 16 0) slot r) = false →
    exec (.roleCommit m v) s = .next (putRole (regSetFld (countOutcome s (slot / 64) 0) 0x20028 31 16 0) slot r)) ∧
  ∀ (m : Master) (v : Word) (s : State) (r : Role), masterUp s m 0x20024 = true → mayReach m 0x20024 = true →
    (m = .proc .sideband → sbDenied s = false) → bit v.toNat 0 = false → r = roleAt s (regFld s 0x20010 11 0) →
    exec (.roleRead m v) s =
      .next (regSet (regSet (regSet (regSet s 0x20014 r.w0) 0x20018 r.w1) 0x2001C r.w2) 0x20020 r.w3)

/-! ### Event Interrupt Controllers -/

/-- EIC_CLAIM (R536): a read by the processor of the interface returns the eligible source of highest priority, among equals the
highest number, clears its pending bit and pushes it with its priority; with none eligible it returns 0 and changes nothing; a read by
any other agent returns 0 and claims nothing. -/
def Obligations.ClaimTakesTheBestEligibleSource : Prop :=
  (∀ (e t n : Nat) (who : Proc) (s : State), e < 14 → t < 4 → (12 ≤ e → t ≠ 0) → procOf s e t = some who →
    1 ≤ n → n < 512 → eicEligible s e t n = true →
    (∀ m, 1 ≤ m → m < 512 → eicEligible s e t m = true →
      eicPriority s e m < eicPriority s e n ∨ (eicPriority s e m = eicPriority s e n ∧ m ≤ n)) →
    exec (.eicClaim e t who) s = .next (emit
      (setEicStack (setPendingBit s e n false) e t ((n, eicPriority s e n) :: eicStack s e t)) (.value (BitVec.ofNat 32 n)))) ∧
  (∀ (e t : Nat) (who : Proc) (s : State), (∀ m, 1 ≤ m → m < 512 → eicEligible s e t m = false) →
    exec (.eicClaim e t who) s = .next (emit s (.value 0))) ∧
  ∀ (e t : Nat) (who : Proc) (s : State), procOf s e t ≠ some who → exec (.eicClaim e t who) s = .next (emit s (.value 0))

/-- EIC_COMPLETE (R537): a write of the source on top pops the stack; any other write is a stack fault: every source on the stack pends
again, the stack is emptied, the written value and the former top are recorded and counted, source 1 is raised, and the Keeper writes a
record. -/
def Obligations.CompletePopsOrFaults : Prop :=
  (∀ (e t src p : Nat) (l : List (Nat × Nat)) (s : State), e < 14 → t < 4 → (12 ≤ e → t ≠ 0) → src < 512 →
    eicStack s e t = (src, p) :: l → exec (.eicComplete e t src) s = .next (setEicStack s e t l)) ∧
  (∀ (e t src : Nat) (s : State), e < 14 → t < 4 → (12 ≤ e → t ≠ 0) → src < 512 → eicStack s e t = [] →
    exec (.eicComplete e t src) s = .next (dayEvent (raiseSrc (bump (regSet (setEicStack s e t [])
      (eicBase e + 0x900 + 0x40 * t + 0xC) (BitVec.ofNat 32 (src * 2 ^ 16))) (eicBase e + 0x900 + 0x40 * t + 0x10)) e 1)
      0x0701 e 0 [t, src, 0])) ∧
  ∀ (e t src n p : Nat) (l : List (Nat × Nat)) (s u : State), e < 14 → t < 4 → (12 ≤ e → t ≠ 0) → src < 512 →
    twf [] s.eicStack = true → eicStack s e t = (n, p) :: l → n ≠ src →
    u = ((n, p) :: l).foldl (fun a x => setPendingBit a e x.1 true) s →
    ∃ v, exec (.eicComplete e t src) s = .next v ∧ eicStack v e t = [] ∧
      v = dayEvent (raiseSrc (bump (regSet (setEicStack u e t [])
        (eicBase e + 0x900 + 0x40 * t + 0xC) (BitVec.ofNat 32 (src * 2 ^ 16 + n))) (eicBase e + 0x900 + 0x40 * t + 0x10)) e 1)
        0x0701 e 0 [t, src, n]

/-- EIC_SWSET, EIC_LOCK and HUB_WAKE (R539, R541): a software source from 256 to 511 written by a processor is raised, another number,
or one written by another agent, is discarded; a 1 sets the lock and a 0 leaves it; a hub with a wake request leaves Slate. -/
def Obligations.SoftwareSourcesLockAndWake : Prop :=
  (∀ (e src : Nat) (who : Proc) (s : State), e < 14 → 256 ≤ src → src < 512 → who ≠ .host → who ≠ .sideband → s.Inv →
    e ∉ s.sched.slateHubs →
    ∃ t, exec (.eicSwset e src who) s = .next t ∧ eicPending t e src = true ∧ t = setPendingBit s e src true) ∧
  (∀ (e src : Nat) (who : Proc) (s : State), (src < 256 ∨ 512 ≤ src ∨ who = .host ∨ who = .sideband) →
    exec (.eicSwset e src who) s = .next s) ∧
  (∀ (e : Nat) (v : Word) (s : State), e < 14 → bit v.toNat 0 = true → s.Inv →
    ∃ t, exec (.eicLock e v) s = .next t ∧ regFld t (eicBase e + 0x844) 0 0 = 1 ∧ t = regSetFld s (eicBase e + 0x844) 0 0 1) ∧
  (∀ (e : Nat) (v : Word) (s : State), bit v.toNat 0 = false → exec (.eicLock e v) s = .next s) ∧
  ∀ (d : Nat) (s : State), d ∈ s.sched.hubWakes →
    ∃ t, exec (.hubWake d) s = .next t ∧ d ∉ t.sched.slateHubs ∧ d ∉ t.sched.hubWakes ∧
      (∀ k, k ≠ d → (k ∈ t.sched.slateHubs ↔ k ∈ s.sched.slateHubs) ∧ (k ∈ t.sched.hubWakes ↔ k ∈ s.sched.hubWakes)) ∧
      t.regs = s.regs ∧ t.eicStack = s.eicStack

/-! ### Daymark -/

/-- DAY_CMD_LOAD and DAY_CMD_NEXT (R528): the host's window shows the record with the cursor's sequence number, in flash or staged, with
status VALID (1); otherwise the window reads zero, with GONE (2) below the next sequence number and NOT_YET (3) from there up; next
first adds 1 to the cursor. -/
def Obligations.DaymarkWindowShowsTheRecord : Prop :=
  (∀ (s : State), s.keeper.active ≠ 0 → s.Inv →
    ∃ t, exec .dayCmdLoad s = .next t ∧ regGet t 0x70018 = BitVec.ofNat 32 (dayLookup s (regGet s 0x70010).toNat).1 ∧
      regGet t 0x70010 = regGet s 0x70010 ∧
      ∀ k, k < 16 → regGet t (0x70040 + 4 * k) = BitVec.ofNat 32 (fieldAt (dayLookup s (regGet s 0x70010).toNat).2 (4 * k) 4)) ∧
  (∀ (s : State), s.keeper.active ≠ 0 → s.Inv →
    ∃ t, exec .dayCmdNext s = .next t ∧ regGet t 0x70010 = regGet s 0x70010 + 1 ∧
      regGet t 0x70018 = BitVec.ofNat 32 (dayLookup s (regGet s 0x70010 + 1).toNat).1 ∧
      ∀ k, k < 16 → regGet t (0x70040 + 4 * k) = BitVec.ofNat 32 (fieldAt (dayLookup s (regGet s 0x70010 + 1).toNat).2 (4 * k) 4)) ∧
  (∀ (s : State) (r : DayRec), r ∈ dayRecords s → (∀ q ∈ dayRecords s, q.seq = r.seq → q = r) → dayLookup s r.seq = (1, dayBytes r)) ∧
  ∀ (s : State) (n : Nat), (∀ q ∈ dayRecords s, q.seq ≠ n) →
    dayLookup s n = (if s.day.next ≤ n then 3 else 2, List.replicate 64 0)

/-- DAY_CMD_FREEZE, DAY_CMD_THAW, DAY_HOLD_FREEZE, DAY_HOLD_THAW and FREEZE_LIMIT_EXPIRY (R529): each master holds a freeze of its own;
a master that already holds one, or does not hold one, changes nothing by freezing or thawing; a freeze ends after freeze_limit
seconds; when the last is released one THAW_SUMMARY record tells what was missed. -/
def Obligations.FreezesAreHeldByEachMaster : Prop :=
  (∀ (s : State), s.keeper.active ≠ 0 → twf none s.day.freezes = true → tget none s.day.freezes 0 = none →
    ∃ t, exec .dayCmdFreeze s = .next t ∧ tget none t.day.freezes 0 = some (opSeconds s) ∧ tget none t.day.freezes 1 = tget none s.day.freezes 1 ∧
      t.day.staged = s.day.staged) ∧
  (∀ (s : State), tget none s.day.freezes 0 ≠ none → exec .dayCmdFreeze s = .next s) ∧
  (∀ (s : State), tget none s.day.freezes 0 = none → exec .dayCmdThaw s = .next s) ∧
  (∀ (s : State), s.keeper.active ≠ 0 → tget none s.day.freezes 0 ≠ none → tget none s.day.freezes 1 = none →
    twf none s.day.freezes = true → exec .dayCmdThaw s = .next (dayEvent
      (regSetFld { s with day := { s.day with freezes := tset none s.day.freezes 0 none } } 0x70004 0 0 0) 0x0801 0xFF 0
      [s.day.missed, s.day.firstMissed, s.day.lastMissed, opSeconds s - s.day.frozenSince])) ∧
  (∀ (s : State), s.keeper.active ≠ 0 → tget none s.day.freezes 1 = none →
    ∃ t, exec .dayHoldFreeze s = .next t ∧ t = emit (dayFreeze s 1) (.sideband 0 [])) ∧
  (∀ (s : State), s.keeper.active ≠ 0 → tget none s.day.freezes 1 ≠ none →
    exec .dayHoldFreeze s = .next (emit s (.sideband 0 [])) ∧
    exec .dayHoldThaw s = .next (emit (dayThaw s 1) (.sideband 0 []))) ∧
  ∀ (m b : Nat) (s : State), m < 2 → tget none s.day.freezes m = some b → b + Nat.max 1 (regFld s 0x70000 15 0) ≤ opSeconds s →
    exec (.freezeLimitExpiry m) s = .next (dayThaw s m)

/-- DAYMARK_PROGRAM, DAY_CMD_RETRY, DAY_CMD_CLEAR_LATCH, DAY_LOAD and LATCH_READ (R526, R528, R530, R533): a record that programs
without error leaves the staging ring for its slot of the flash; a failing program operation is a failure of kind 1; a retry in
DEGRADED mode that succeeds leaves that mode, flushes the staging ring and reports what was lost and latched, one that fails writes
the latch and changes nothing else, and without DEGRADED mode a retry does nothing; clear_latch
empties the latch and its overflow count; the sideband reads a record, and the latch, without moving the host's cursor. -/
def Obligations.DaymarkCommandsComplete : Prop :=
  (∀ (r : DayRec) (s : State), dayDue s = some r → s.day.dropped = 0 →
    exec (.daymarkProgram .ok) s = .next (dayPut s r true) ∧
    exec (.daymarkProgram .program) s = .next (dayFail s 1 (daySectorOf r.seq) r.seq)) ∧
  (∀ (r : DayRec) (s : State), dayDue s = some r → s.day.retried = false →
    exec (.daymarkProgram .verify) s = .next { s with day := { s.day with retried := true } }) ∧
  (∀ (res : FlashResult) (s : State), s.keeper.active ≠ 0 → dayDegraded s = false → exec (.dayCmdRetry res) s = .next s) ∧
  (∀ (s : State), s.keeper.active ≠ 0 → dayDegraded s = true →
    exec (.dayCmdRetry .program) s = .next (latchFailure s 1 (retrySector s))) ∧
  (∀ (s u v w : State), s.keeper.active ≠ 0 → dayDegraded s = true →
    u = dayFlush (regSetFld (dayErase s (retrySector s)) 0x70004 2 2 0) →
    v = dayEvent u 0x0803 0xFF 0 [(u.day.next + 2 ^ 32 - u.day.ramFrom) % 2 ^ 32] →
    w = (if (∀ k, k < 4 → regFld u (0x70080 + 4 * k) 30 28 = 0) then v
      else dayEvent v 0x0802 0xFF 0 ((List.range 4).map (fun k => (regGet u (0x70080 + 4 * k)).toNat) ++ [regFld v 0x70090 15 0])) →
    exec (.dayCmdRetry .ok) s =
      .next (postEvent w 0 3 (payload4 [2 * 2 ^ 24, 0, u.day.next, regFld w 0x70090 15 0]))) ∧
  (∀ (s : State), s.keeper.active ≠ 0 → s.Inv →
    ∃ t, exec .dayCmdClearLatch s = .next t ∧ (∀ k, k < 4 → regGet t (0x70080 + 4 * k) = 0) ∧ regFld t 0x70090 15 0 = 0) ∧
  (∀ (n : Nat) (s : State), s.keeper.active ≠ 0 → n < 2 ^ 32 →
    exec (.dayLoad n) s = .next (emit s (.sideband 0 (leBytes 1 (dayLookup s n).1 ++ (dayLookup s n).2)))) ∧
  ∀ (s : State), s.keeper.active ≠ 0 →
    exec .latchRead s = .next (emit s (.sideband 0 ((List.range 5).flatMap fun n => leBytes 4 (regGet s (0x70080 + 4 * n)).toNat)))

/-! ### Power, start-up and device resets -/

/-- POWER_APPLIED and START_PHASE_END (R508, R575, R576, R578): 40 V starts phase 1 under the Keeper of IOD0 when its self-test
passes and an image is good; a phase that passes is followed by the next, phase 2 with fabric time zero; phase 7, with PERST#
deasserted, ends in device ready; a second rail failure fails the start with reason 2. -/
def Obligations.StartPhasesFollowInOrder : Prop :=
  (∀ (vin : Nat) (rep : BootReport) (s : State), 400 ≤ vin → keeperRuns rep.fail0 rep.image0 = true →
    ∃ t, exec (.powerApplied vin rep) s = .next t ∧ t.start.phase = 1 ∧ t.start.vin = vin ∧ t.keeper.state = .starting ∧
      t.start.depth = 0 ∧ t.mem = [] ∧ t.ftime = 0) ∧
  (∀ (rep : PhaseReport) (s : State), s.start.phase = 1 → s.start.warm = false → s.start.pendingReset = none →
    ∃ t, exec (.startPhaseEnd rep) s = .next t ∧ t = enterPhase (regSet s 0xB0044 (BitVec.ofNat 32 (rep.ms % 2 ^ 16))) 2) ∧
  (∀ (rep : PhaseReport) (s : State), s.start.phase = 2 → s.start.warm = false → s.start.pendingReset = none → rep.railBad = false →
    ∃ t, exec (.startPhaseEnd rep) s = .next t ∧ t.start.phase = 3 ∧ t.start.rails = true ∧ t.ftime = 0) ∧
  (∀ (rep : PhaseReport) (s : State), s.start.phase = 2 → s.start.warm = false → rep.railBad = true → s.start.railRetry = true →
    ∃ t, exec (.startPhaseEnd rep) s = .next t ∧ t.start.phase = 0 ∧ t.start.rails = false ∧ t.keeper.state = .failed) ∧
  (∀ (rep : PhaseReport) (s : State), s.start.phase = 7 → s.start.warm = false → s.start.perst = false → s.start.pendingReset = none →
    ∃ t, exec (.startPhaseEnd rep) s = .next t ∧ t.start.phase = 8 ∧ t.keeper.state = .ready ∧ (s.start.byPerst = false → t.start.wake = true)) ∧
  ∀ s : State, s.start.phase ≠ 0 → s.start.phase < 8 → s.start.warm = false → (s.start.phase = 7 → s.start.perst = false) →
    ∃ t, exec .phaseTimeout s = .next t ∧ t = failStart s s.start.phase 6 ∧ t.start.phase = 0 ∧ t.keeper.state = .failed

/-- PERST_DEASSERT, PERST_ASSERT, WAKE_RELEASE, WARM_RESET_ZEROING_END and CONFIG_REQUEST (R391, R392, R577, R590, R610): PERST# asserted
after device ready begins a warm reset, which keeps fabric time and drops every function, job and sector; when memory is zeroed
phases 5 to 7 follow; until device ready a configuration request gets Request Retry Status, then the values of Table 12.1. -/
def Obligations.PinsResetsAndConfigurationComplete : Prop :=
  (∀ s : State, exec .perstDeassert s = .next { s with start := { s.start with perst := false } }) ∧
  (∀ s : State, s.start.perst = false → s.start.phase ≠ 8 → s.start.wake = false →
    exec .perstAssert s = .next { s with start := { s.start with perst := true } }) ∧
  (∀ s : State, s.start.perst = false → s.start.phase = 8 → s.start.pendingReset = none →
    ∃ t, exec .perstAssert s = .next t ∧ t.start.perst = true ∧ t.start.wake = false ∧ t.start.warm = true ∧ t.start.phase = 5 ∧
      t.keeper.state = .resetting ∧ t.ftime = s.ftime ∧ t.fns = [] ∧ t.sectors = [] ∧ t.jobs = []) ∧
  (∀ s : State, s.start.wake = true →
    exec .wakeRelease s = .next (emit { s with start := { s.start with wake := false } } (.wakePin false))) ∧
  (∀ s : State, s.start.warm = true →
    ∃ t, exec .warmResetZeroingEnd s = .next t ∧ t.mem = [] ∧ (∀ a, memByte t a = 0) ∧ t.start.phase = 5 ∧ t.start.warm = false) ∧
  (∀ (f off : Nat) (w : Bool) (v : Word) (s : State), s.start.perst = false → s.start.rails = true → f < 64 → s.start.phase ≠ 8 →
    exec (.configRequest f off w v) s = .next (emit s (.config true 0))) ∧
  (∀ (off : Nat) (v : Word) (s : State), s.start.perst = false → s.start.rails = true → s.start.phase = 8 → off < 4 →
    exec (.configRequest 0 off false v) s = .next (emit s (.config false 0x02501FB4))) ∧
  (∀ (f off : Nat) (v : Word) (s : State), s.start.perst = false → s.start.rails = true → s.start.phase = 8 → 1 ≤ f → f < 64 → off < 4 →
    exec (.configRequest f off false v) s = .next (emit s (.config false 0xFFFFFFFF))) ∧
  (∀ (f off : Nat) (v : Word) (s : State), s.start.perst = false → s.start.rails = true → s.start.phase = 8 → f < 64 → off / 4 = 2 →
    exec (.configRequest f off false v) s = .next (emit s (.config false 0x12000011))) ∧
  ∀ (f off : Nat) (v : Word) (s : State), s.start.perst = false → s.start.rails = true → s.start.phase = 8 → f < 64 →
    exec (.configRequest f off true v) s = .next (emit s (.config false 0))

/-- MODULE_WITHDRAWAL, INPUT_PROTECTION_TRIP, HW_THERMAL_TRIP and POWER_FAIL (R517 to R519, R607, R608): each takes the main rails
down; the Keeper records the withdrawal with d0 = 2, the trip of the input with d0 = 1, a thermal trip as a shutdown with cause 6
and the input's loss as one with cause 5. -/
def Obligations.ModuleProtectionTakesTheRailsDown : Prop :=
  (∀ (vin : Nat) (s : State), s.keeper.state ≠ .off → s.start.withdrawn = false → 380 < vin →
    ∃ t, exec (.moduleWithdrawal vin) s = .next t ∧ t.start.rails = false ∧ t.start.phase = 0 ∧ t.start.withdrawn = true ∧
      t = dayEvent (standBy { s with start := { s.start with withdrawn := true } }) 0x0106 0xFF 0 [2]) ∧
  (∀ s : State, s.keeper.state ≠ .off → s.start.tripped = false →
    ∃ t, exec .inputProtectionTrip s = .next t ∧ t.start.rails = false ∧ t.start.phase = 0 ∧ t.start.tripped = true ∧
      t = dayEvent (standBy { s with start := { s.start with tripped := true } }) 0x0106 0xFF 0 [1]) ∧
  (∀ (sensor : Nat) (s : State), sensor < 108 → s.start.rails = true → s.keeper.active ≠ 0 →
    ∃ t, exec (.hwThermalTrip sensor) s = .next t ∧ t.start.rails = false ∧ t.start.phase = 0 ∧ t.keeper.state = .shutdown ∧
      t = shutdown s 6 sensor ((tget Quantity.none s.keeper.q sensor).y / 256 % 2 ^ 32).toNat) ∧
  ∀ (vin : Nat) (s : State), vin < 380 → s.keeper.state ≠ .off → s.keeper.active ≠ 0 → dayDegraded s = false →
    ∃ t, exec (.powerFail vin) s = .next t ∧ t.start.rails = false ∧ t.start.phase = 0 ∧ t.start.vin = vin ∧ t.keeper.state = .shutdown

/-- KEEPER_WATCHDOG, RESET_GRACE_EXPIRY, OP_SECONDS_SAVE and KEEPER_SAMPLE (R509, R511, R513 to R516, R591): a restart of a Keeper that
runs a good image leaves it active; the grace period ends in the pending reset; operating seconds are saved; a sample that calls for no
shutdown ends with every die at its ceiling.

PLL_UNLOCK and PLL_RELOCK (R489): a loss of lock on an I/O die clears the die's lock bit, counts, and raises EIC source 37; on a
compute die it raises source 70 and every job with a stride on the die completes INTERNAL_FAULT. A relock sets the lock and is recorded. -/
def Obligations.KeeperAndPllCommandsComplete : Prop :=
  ((∀ (rep : BootReport) (s : State), s.keeper.active = 2 → keeperRuns rep.fail1 rep.image1 = true →
    ∃ t, exec (.keeperWatchdog rep) s = .next t ∧ t.keeper.active = 2 ∧ t.start = s.start ∧ t.mem = s.mem) ∧
  (∀ (rep : BootReport) (s : State), s.keeper.active = 1 → keeperRuns rep.fail0 rep.image0 = true →
    (s.keeper.restarts.filter fun t => decide (opSeconds s < t + 3600)).length < 2 →
    ∃ t, exec (.keeperWatchdog rep) s = .next t ∧ t.keeper.active = 1 ∧ t.start = s.start ∧ t.mem = s.mem) ∧
  (∀ (rep : BootReport) (s : State), s.keeper.active = 1 → keeperRuns rep.fail1 rep.image1 = true →
    2 ≤ (s.keeper.restarts.filter fun t => decide (opSeconds s < t + 3600)).length →
    ∃ t, exec (.keeperWatchdog rep) s = .next t ∧ t.keeper.active = 2 ∧ t.start = s.start ∧ t.mem = s.mem) ∧
  (∀ s : State, s.start.grace = true → s.start.pendingReset = some 2 → ∃ t, exec .resetGraceExpiry s = .next t ∧ t.start.warm = true ∧
    t.start.phase = 5 ∧ t.start.grace = false ∧ t.ftime = s.ftime) ∧
  (∀ s : State, s.start.grace = true → s.start.pendingReset = some 3 → ∃ t, exec .resetGraceExpiry s = .next t ∧ t.start.rails = false ∧
    t.start.phase = 2 ∧ t.start.grace = false) ∧
  (∀ s : State, s.keeper.active ≠ 0 → ∃ t, exec .opSecondsSave s = .next t ∧ t.keeper.savedSeconds = opSeconds s) ∧
  ∀ (smp : Sample) (s u : State), s.keeper.active ≠ 0 →
    u = runConds (rampReg (filterAll (countSecond { s with keeper := { s.keeper with restarting := false } }) smp)) →
    (u.start.phase = 0 ∨ shutCause u = none) → exec (.keeperSample smp) s = .next (setCeilings s u)) ∧
  ((∀ (die : Nat) (s : State), (die = 12 ∨ die = 13) → s.start.rails = true → pllTries s die 4 = 0 → s.Inv →
    ∃ t, exec (.pllUnlock die 4) s = .next t ∧ pllTries t die 4 = 1 ∧ t = raiseSrc (loseExpanders (bump (setPll s die 4 1) 0x50008)) die 37) ∧
  (∀ (die dom : Nat) (s u : State), die < 12 → dom < 4 → s.start.rails = true → pllTries s die dom = 0 →
    u = raiseSrc (loseExpanders (bump (setPll s die dom 1) 0x50008)) die 70 →
    exec (.pllUnlock die dom) s = .next ((jobsOnDie u die).foldl (fun st j => stopJob st j stInternal false) u)) ∧
  (∀ (die dom n : Nat) (s : State), pllTries s die dom = n → 1 ≤ n → n < 4 →
    exec (.pllRelock die dom true) s = .next (dayEvent (setPll s die dom 0) 0x0202 die dom [n, 0])) ∧
  (∀ (die dom n : Nat) (s : State), pllTries s die dom = n → 1 ≤ n → n < 3 →
    exec (.pllRelock die dom false) s = .next (setPll s die dom (n + 1))) ∧
  ∀ (die dom : Nat) (s u : State), pllTries s die dom = 3 → die < 12 → s.start.phase = 8 →
    u = dayEvent (setPll s die dom 4) 0x0202 die dom [3, 1] →
    ∃ t, exec (.pllRelock die dom false) s = .next t ∧ t = ((List.range 34).map (34 * die + ·)).foldl (fun st k => fenceTile st k 7) u)

/-- HIF_FN_RESET_GO, FUNCTION_LEVEL_RESET, VF_ENABLE_CLEAR and SECTOR_ZEROING_END (R239, R343, R415 to R417, R592): a reset of a function that
holds no tile being zeroed ends at once with the function fresh, and is absorbed while the function is under reset or the device is not ready;
that of the PF resets every VF; a tile leaves the list of those being zeroed. -/
def Obligations.FunctionResetsComplete : Prop :=
  (∀ (f : Nat) (s : State), 64 ≤ f ∨ (getFn s f).resetting = true ∨ s.start.phase ≠ 8 →
    exec (.hifFnResetGo f) s = .next s) ∧
  (∀ (f : Nat) (s : State), f < 64 → (getFn s f).resetting = false → s.start.phase = 8 → s.zeroing = [] → sectorsOf s f = [] → s.Inv →
    ∃ t, exec (.hifFnResetGo f) s = .next t ∧ (getFn t f).resetting = false ∧ (getFn t f).descs = [] ∧ (getFn t f).models = [] ∧
      (getFn t f).keys = [] ∧
      (f ≠ 0 → ∀ o, 4 ≤ o → o < 0x30000 → o ≠ 0x2C → o ≠ 0x2500 → regGet t (fnBase f + o) = regReset (fnBase f + o))) ∧
  (∀ (f : Nat) (s : State), f ≠ 0 → exec (.functionLevelReset f) s = .next (resetFn s f 2)) ∧
  (∀ (s t : State), exec .vfEnableClear (resetFn s 0 2) = .next t → exec (.functionLevelReset 0) s = .next t) ∧
  (∀ s : State, exec .vfEnableClear s = .next ((List.range' 1 63).foldl (fun st k => resetFn st k 3) s)) ∧
  ∀ (t : Nat) (s : State), t ∈ s.zeroing → ∃ u, exec (.sectorZeroingEnd t) s = .next u ∧
    u = resetsGoOn { clearTile s t with zeroing := (clearTile s t).zeroing.filter (· != t) } t

/-! ### The sideband -/

/-- SMBUS_ARP, MCTP_CONTROL, PLDM_SET_EVENT_RECEIVER, PLDM_EVENT_ACK, PLDM_GET_SENSOR_READING and PLDM_FRU_READ (R520, R521, Tables 15.5 and 15.6): nothing
answers without a running Keeper; a bad PEC is discarded and counted; an acknowledgement releases SMBALERT#; a sensor answers its
filtered reading in whole units; the FRU data holds the ordering and revision codes. -/
def Obligations.SidebandReadsComplete : Prop :=
  (∀ (cmd : Nat) (s : State), s.keeper.active ≠ 0 → exec (.smbusArp cmd) s = .next (sbFree s 19)) ∧
  (∀ (cmd : Nat) (s : State), s.keeper.active = 0 → exec (.smbusArp cmd) s = .next s) ∧
  (∀ (cmd : Nat) (data : List Byte) (s : State), s.keeper.active ≠ 0 → exec (.mctpControl false cmd data) s = .next (bump s 0x60108)) ∧
  (∀ (data : List Byte) (s : State), s.keeper.active ≠ 0 →
    exec (.mctpControl true 5 data) s = .next (emit s (.sideband 0 [3, 0x00, 0x01, 0x7E]))) ∧
  (∀ (eid : Nat) (s : State), s.keeper.active ≠ 0 → exec (.pldmSetEventReceiver eid) s =
    .next (emit { s with keeper := { s.keeper with receiver := some eid } } (.sideband 0 []))) ∧
  (∀ s : State, s.keeper.active ≠ 0 → s.keeper.smbalert = true →
    exec .pldmEventAck s = .next (emit { s with keeper := { s.keeper with smbalert := false } } (.alertPin false))) ∧
  (∀ (n : Nat) (s : State), s.keeper.active ≠ 0 → n < 128 → exec (.pldmGetSensorReading (0x100 + n)) s =
    .next (emit s (.sideband 0 (leBytes 4 (wholeUnits (filtered s n)))))) ∧
  (∀ (n : Nat) (s : State), s.keeper.active ≠ 0 → n < 64 → exec (.pldmGetSensorReading (0x200 + n)) s =
    .next (emit s (.sideband 0 (leBytes 4 (wholeUnits (filtered s (128 + n))))))) ∧
  (∀ (d : Nat) (s : State), s.keeper.active ≠ 0 → d < 12 → exec (.pldmGetSensorReading (0x500 + d)) s =
    .next (emit s (.sideband 0 (leBytes 4 (ceilingOf s d))))) ∧
  (∀ s : State, s.keeper.active ≠ 0 → s.keeper.state = .ready →
    exec (.pldmGetSensorReading 0x600) s = .next (emit s (.sideband 0 (leBytes 4 2)))) ∧
  (∀ (off n : Nat) (s : State), s.keeper.active ≠ 0 →
    exec (.pldmFruRead off n) s = .next (emit s (.sideband 0 ((fruData.drop off).take n))))

/-- PLDM_POWER_ON, PLDM_POWER_OFF, PLDM_WARM_RESET and PLDM_COLD_RESET (R518, R590 to R592, R607, R608): a power-on is refused with ERROR_NOT_READY
(code 4, the model's, log entry 51) while a sensor is at or above warn, and otherwise starts phase 2; after device ready, with no
grace period, a power-off is a shutdown with cause 7, a cold reset starts phase 2 and a warm reset phase 5. -/
def Obligations.PldmPowerCommandsComplete : Prop :=
  (∀ s : State, s.keeper.active ≠ 0 → s.start.phase = 0 → s.start.warm = false → s.keeper.state = .shutdown → tooWarm s = true →
    exec .pldmPowerOn s = .next (emit s (.sideband 4 []))) ∧
  (∀ s : State, s.keeper.active ≠ 0 → s.start.phase = 0 → s.start.warm = false →
    (s.keeper.state = .standby ∨ s.keeper.state = .shutdown ∨ s.keeper.state = .failed) →
    tooWarm s = false → s.start.tripped = false → s.start.withdrawn = false →
    ∃ t, exec .pldmPowerOn s = .next t ∧ t.start.phase = 2 ∧ t.keeper.state = .starting ∧ t.start.byPerst = false ∧
      t = beginStart (emit (dayEvent s 0x0105 0xFF 0 [1, 1]) (.sideband 0 [])) 2 0 false) ∧
  (∀ (s u : State), s.keeper.active ≠ 0 → s.start.phase = 8 → s.start.warm = false → s.start.grace = false →
    u = raiseSrc (emit (dayEvent s 0x0105 0xFF 0 [2, 1]) (.sideband 0 [])) 12 39 → graceMs u = 0 →
    exec .pldmPowerOff s = .next (shutdown u 7 0 0)) ∧
  (∀ (s u : State), s.keeper.active ≠ 0 → s.start.phase = 8 → s.start.warm = false → s.start.grace = false →
    u = raiseSrc (emit (dayEvent s 0x0105 0xFF 0 [3, 1]) (.sideband 0 [])) 12 39 → graceMs u = 0 →
    ∃ t, exec .pldmWarmReset s = .next t ∧ t.start.phase = 5 ∧ t.start.warm = true ∧ t.keeper.state = .resetting ∧ t = beginWarm u) ∧
  (∀ (s u : State), s.keeper.active ≠ 0 → s.start.phase = 8 → s.start.warm = false → s.start.grace = false →
    u = raiseSrc (emit (dayEvent s 0x0105 0xFF 0 [3, 1]) (.sideband 0 [])) 12 39 → graceMs u = 0 →
    ∃ t, exec .pldmColdReset s = .next t ∧ t.start.phase = 2 ∧ t.start.rails = false ∧ t.mem = [] ∧ t = beginStart (powerDown u) 2 3 false)

/-- PLDM_SET_CAP_WATTS, PLDM_SET_CAP_PACE, REG_READ and REG_WRITE (R515, R522, R523): the caps of a die go to its register, and the
ceilings follow a cap of the Pace; a bad address or count is a bad request, and a register off the standby rail is unavailable
while the main rails are down; a write while the PF is enabled is denied and counted, unless it is of registers of the sideband's own. -/
def Obligations.SidebandCapsAndRegistersComplete : Prop :=
  (∀ (d w : Nat) (s : State), s.keeper.active ≠ 0 → d < 12 → exec (.pldmSetCapWatts d w) s =
    .next (emit (regSetFld s (0x60040 + 4 * d) 7 0 (w % 256)) (.sideband 0 []))) ∧
  (∀ (d p : Nat) (s : State), s.keeper.active ≠ 0 → d < 12 → exec (.pldmSetCapPace d p) s =
    .next (emit (setCeilings s (regSetFld s (0x60040 + 4 * d) 10 8 (p % 8))) (.sideband 0 []))) ∧
  (∀ (off n : Nat) (s : State), s.keeper.active ≠ 0 → (off % 4 ≠ 0 ∨ n = 0 ∨ 16 < n) →
    exec (.regRead off n) s = .next (emit s (.sideband 3 []))) ∧
  (∀ (off : Nat) (s : State), s.keeper.active ≠ 0 → off % 4 = 0 → off + 4 ≤ 0x03FC0000 → s.start.rails = false → standbyOff off = false →
    exec (.regRead off 1) s = .next (emit s (.sideband 1 []))) ∧
  (∀ (off : Nat) (s : State) (r : Word × State), s.keeper.active ≠ 0 → off % 4 = 0 → off + 4 ≤ 0x03FC0000 →
    (s.start.rails = true ∨ standbyOff off = true) → r = masterRead s (.proc .sideband) off 4 0 →
    exec (.regRead off 1) s = .next (emit r.2 (.sideband 0 (leBytes 4 r.1.toNat)))) ∧
  (∀ (off : Nat) (v : Word) (s : State), s.keeper.active ≠ 0 → off % 4 = 0 → off + 4 ≤ 0x03FC0000 →
    (s.start.rails = true ∨ standbyOff off = true) → sbDenied s = true → sbOwn off = false →
    exec (.regWrite off [v]) s = .next (emit (bump s 0x60104) (.sideband 2 []))) ∧
  ∀ (off : Nat) (v : Word) (s : State), s.keeper.active ≠ 0 → off % 4 = 0 → off + 4 ≤ 0x03FC0000 →
    (s.start.rails = true ∨ standbyOff off = true) → (sbDenied s = false ∨ sbOwn off = true) →
    exec (.regWrite off [v]) s = .next (emit (masterWrite s (.proc .sideband) off v) (.sideband 0 []))

/-! ### Maintenance -/

/-- MAINTENANCE_ACTIVITY_BEGIN, MAINTENANCE_ACTIVITY_END, MNT_IDLE_TIMEOUT, PATROL_SCRUB and DRAM_REFRESH (R331, R354, R356, R594, R598, R599, log entry 55): an
activity that needs an idle tile begins only on one, or ends with the idle timeout; one that ends frees its place; the scrub repairs
or reports what it finds in its unit, in its own slot (R355: behind the requests that wait, where its interval has passed twice); a refresh changes nothing that software sees.

START_SLOT, PACE_CHANGE_END and REST_DELAY_EXPIRY (R491 to R493, R500): a start slot goes to the first tile
that waits for one; a change that waits for no slot ends with the tile at its new Pace. -/
def Obligations.MaintenanceAndPaceComplete : Prop :=
  ((∀ (a : Nat) (s : State) (r : MntRun), mntFind s a = some r → r.begun = false → r.req.cls ≠ 5 →
    (needsIdle r.req.cls && (targetTile r.req.target).any (tileRunsJob s)) = false →
    exec (.maintenanceActivityBegin a) s = .next { s with maint := { s.maint with
      running := s.maint.running.map fun x => if x.id = a then { x with begun := true } else x } }) ∧
  (∀ (a : Nat) (s : State) (r : MntRun), mntFind s a = some r → (r.begun = true ∨
    (needsIdle r.req.cls && (targetTile r.req.target).any (tileRunsJob s)) = true) →
    exec (.maintenanceActivityBegin a) s = .next s) ∧
  (∀ (a : Nat) (rep : MntReport) (s : State) (r : MntRun), mntFind s a = some r → r.begun = true →
    exec (.maintenanceActivityEnd a rep) s = .next (mntFinish (activityEnd s r.req rep).1 a (activityEnd s r.req rep).2)) ∧
  (∀ (a : Nat) (s : State) (r : MntRun), mntFind s a = some r → r.begun = false →
    r.granted + Nat.max 1 (regFld s 0xB0000 31 16) ≤ s.ftime.toNat →
    exec (.mntIdleTimeout a) s = .next (mntFinish s a 0x0704)) ∧
  (∀ (g x addr n : Nat) (err : MemErr) (s : State), s.start.phase = 8 → patrolUnit s addr = some 32 → regionOf s addr = .cs g x →
    n % 4 = 3 → (getCore s g).scrubFrom ≤ n → (∀ k, k < 4 → portPending s g k = false) → tileOfCore g ∉ s.zeroing →
    exec (.patrolScrub ⟨addr, n⟩ err) s =
      .next (memErr (modCore s g fun c => { c with scrubFrom := n + 64 }) (addr / 32 * 32) 32 err true)) ∧
  (∀ (t x addr n : Nat) (err : MemErr) (s : State), s.start.phase = 8 → patrolUnit s addr = some 1024 → regionOf s addr = .tb t x →
    n % 8 = 7 → tget 0 s.bankScrub t ≤ n → t ∉ s.zeroing → exec (.patrolScrub ⟨addr, n⟩ err) s =
      .next (memErr { s with bankScrub := tset 0 s.bankScrub t (n + 64) } (addr / 1024 * 1024) 1024 err true)) ∧
  (∀ (addr n c : Nat) (err : MemErr) (s : State), s.start.phase = 8 → patrolUnit s addr = some 2048 →
    (regionOf s addr = .hbm ∨ regionOf s addr = .gddr) → c = controllerOf s (addr / 2048 * 2048) → ctlHeld s c = false →
    oldest s (.dram c) = none → tget 0 s.dramScrub c + Nat.max 1 (regFld s 0x10014 7 0) ≤ s.ftime.toNat →
    exec (.patrolScrub ⟨addr, n⟩ err) s =
      .next (memErr { s with dramScrub := tset 0 s.dramScrub c s.ftime.toNat } (addr / 2048 * 2048) 2048 err true)) ∧
  (∀ (addr n c : Nat) (r : MemReq) (err : MemErr) (s : State), s.start.phase = 8 → patrolUnit s addr = some 2048 →
    (regionOf s addr = .hbm ∨ regionOf s addr = .gddr) → c = controllerOf s (addr / 2048 * 2048) → ctlHeld s c = false →
    oldest s (.dram c) = some r → tget 0 s.dramScrub c + 2 * Nat.max 1 (regFld s 0x10014 7 0) ≤ s.ftime.toNat →
    exec (.patrolScrub ⟨addr, n⟩ err) s = .next (pushReq { s with dramScrub := tset 0 s.dramScrub c s.ftime.toNat }
      (.dram c) false (addr / 2048 * 2048) 2048 [] .scrub)) ∧
  (∀ (p : ScrubSlot) (err : MemErr) (s : State), (s.start.phase ≠ 8 ∨ patrolUnit s p.addr = none) → exec (.patrolScrub p err) s = .next s) ∧
  ∀ (c : Nat) (s : State), exec (.dramRefresh c) s = .next s) ∧
  ((∀ s : State, s.sched.startQ = [] → exec .startSlot s = .next s) ∧
  (∀ (t : Nat) (q : List Nat) (m : PaceMove) (s : State), s.sched.startQ = t :: q → tget none s.sched.moves t = some m →
    exec .startSlot s = .next (setMove { s with sched := { s.sched with startQ := q } } t (some { m with waits := false }))) ∧
  (∀ (t : Nat) (q : List Nat) (s : State), s.sched.startQ = t :: q → tget none s.sched.moves t = none →
    exec .startSlot s = .next { s with sched := { s.sched with startQ := q } }) ∧
  (∀ (t : Nat) (s : State), tget none s.sched.moves t = none → exec (.paceChangeEnd t) s = .next s) ∧
  (∀ (t : Nat) (s : State), exec (.paceChangeEnd t) s = .next (endMove s t)) ∧
  (∀ (sec : Nat) (s : State), exec (.restDelayExpiry sec) s = .next (updateSector s sec)))

/-! ### Fabric time and the schedule -/

/-- SYNC_IN_EDGE, LOCAL_TICK, TICK and TICK_WATCHDOG_EXPIRY (R468 to R475): a candidate less than 250 ns after the last accepted tick is
counted and changes nothing else; any other advances fabric time by 1, or to an armed value above it; a TICK takes the value of its
flit if that is above the counter; the watchdog without fallback leaves fabric time alone, sets missing, and tells the Keeper. -/
def Obligations.AcceptedTicksAdvanceFabricTime : Prop :=
  (∀ (dt : Nat) (s : State), timeRuns s = true → tickSource s = 0 → dt < 25 → exec (.syncInEdge dt) s = .next (bump s 0x30040)) ∧
  (∀ (dt : Nat) (s : State), timeRuns s = true → tickSource s = 0 → 25 ≤ dt → s.Inv → bit (regGet s 0x30004).toNat 5 = false →
    ∃ t, exec (.syncInEdge dt) s = .next t ∧ t.ftime = s.ftime + 1) ∧
  (∀ (dt : Nat) (s : State), timeRuns s = true → tickSource s = 0 → 25 ≤ dt → s.Inv → bit (regGet s 0x30004).toNat 5 = true →
    ∃ t, exec (.syncInEdge dt) s = .next t ∧
      t.ftime = if s.ftime.toNat < regPair s 0x30010 then BitVec.ofNat 64 (regPair s 0x30010) else s.ftime + 1) ∧
  (∀ (dt : Nat) (s : State), timeRuns s = true → localRuns s = true → s.sched.localInt ≤ dt → 25 ≤ dt → tickSource s ≠ 1 → s.Inv →
    bit (regGet s 0x30004).toNat 5 = false → ∃ t, exec (.localTick dt) s = .next t ∧ t.ftime = s.ftime + 1) ∧
  (∀ (p dt : Nat) (fl : Flit) (good : Bool) (s u : State), receiveAs 4 s p fl good = (u, true) → isPairPort u p = false →
    timeRuns u = true → tickSource u = 1 → p = regFld u 0x30000 12 8 → 25 ≤ dt → u.ftime.toNat < fieldAt fl.payload 0 8 →
    ∃ t, exec (.tick p fl good dt) s = .next t ∧ t.ftime = BitVec.ofNat 64 (fieldAt fl.payload 0 8)) ∧
  (∀ (dt : Nat) (s u : State), timeRuns s = true → tickSource s ≠ 2 → 100 * watchdogLimit s ≤ dt →
    u = raiseSrc (sbAlert (dayEvent (regSetFld s 0x30004 0 0 1) 0x0203 12 0 [tickSource s])) 12 34 →
    bit (regGet u 0x30000).toNat 16 = false → ∃ t, exec (.tickWatchdogExpiry dt) s = .next t ∧ t = u ∧ t.ftime = s.ftime)

/-- RING_HOLD, RING_RELEASE, CAPTURE, PACE, CHECKPOINT, MAINTENANCE and MARK (R476 to R480, Table 14.3): the next due entry, of the row's
action, fires and is marked with the tick at which it fired; a hold is taken and released on the entry's ring, a Pace is written for
a sector of the entry's function, and a mark completes.

CAPTURE_GATHER_END and ADMISSION_WALK (R480, R483, R484, R497): a gather goes to the buffer of its entry as the records of Table 14.6, and
the bank is free with its last user; the walk waits for every due entry of the tick, and then settles what the tick left. -/
def Obligations.DueEntriesFireAndGather : Prop :=
  ((∀ (n : Nat) (e : SchedEnt) (s : State), nextFiring s = some n → getSched s n = some e →
    (e.action = 1 → exec (.ringHold n) s = .next (fireEntry s n)) ∧ (e.action = 2 → exec (.ringRelease n) s = .next (fireEntry s n)) ∧
    (e.action = 3 → exec (.capture n) s = .next (fireEntry s n)) ∧ (e.action = 4 → exec (.pace n) s = .next (fireEntry s n)) ∧
    (e.action = 5 → exec (.checkpoint n) s = .next (fireEntry s n)) ∧ (e.action = 6 → exec (.maintenance n) s = .next (fireEntry s n)) ∧
    (e.action = 7 → exec (.mark n) s = .next (fireEntry s n))) ∧
  (∀ (n r : Nat) (e x : SchedEnt) (s : State), nextFiring s = some n → getSched s n = some e → e.action = 1 → e.late = false →
    bits e.arg 4 0 = r → r < 16 → s.sched.holds.contains (e.fn * 16 + r) = false → x = { e with due := false, fired := true, firedAt := s.ftime.toNat } →
    exec (.ringHold n) s = .next (schedEnd { setSched s n (some x) with
      sched := { (setSched s n (some x)).sched with holds := s.sched.holds ++ [e.fn * 16 + r] } } n 0)) ∧
  (∀ (n r : Nat) (e x : SchedEnt) (s : State), nextFiring s = some n → getSched s n = some e → e.action = 2 → e.late = false →
    bits e.arg 4 0 = r → r < 16 → x = { e with due := false, fired := true, firedAt := s.ftime.toNat } →
    exec (.ringRelease n) s = .next (schedEnd (dropHold (setSched s n (some x)) e.fn r) n 0)) ∧
  (∀ (n : Nat) (e x : SchedEnt) (y : Sector) (s : State), nextFiring s = some n → getSched s n = some e → e.action = 4 → e.late = false →
    getSector s (bits e.arg 5 0) = some y → y.owner = e.fn → x = { e with due := false, fired := true, firedAt := s.ftime.toNat } →
    exec (.pace n) s = .next (schedEnd (regSet (setSched s n (some x)) (0x40100 + 4 * bits e.arg 5 0)
      (BitVec.ofNat 32 (bits e.arg 31 16 * 2 ^ 16 + bits e.arg 14 12 * 2 ^ 12 + bits e.arg 10 8 * 2 ^ 8))) n 0)) ∧
  (∀ (n : Nat) (e x : SchedEnt) (s : State), nextFiring s = some n → getSched s n = some e → e.action = 7 → e.late = false →
    x = { e with due := false, fired := true, firedAt := s.ftime.toNat } → exec (.mark n) s = .next (schedEnd (setSched s n (some x)) n 0))) ∧
  ((∀ (n : Nat) (x : CapBank) (e : SchedEnt) (b : Buf) (bs : List Byte) (s : State), tget none s.sched.banks 0 = some x → x.users = [n] → getSched s n = some e →
    resolve s e.fn e.arg = (0, b) →
    bs = captureBytes s e.fn (tget [] x.tiles n) x → exec (.captureGatherEnd n) s =
      .next (schedEnd (setBank (writeT (engineAccess s b.base bs.length) b.base (plain bs)) 0 none) n 0)) ∧
  (∀ s : State, nextFiring s ≠ none → exec .admissionWalk s = .next s) ∧
  (∀ s : State, nextFiring s = none → s.sched.walkDue = false → exec .admissionWalk s = .next (admitWalk s)) ∧
  (∀ s : State, nextFiring s = none → s.sched.walkDue = true →
    exec .admissionWalk s = .next (freeBanks (countWaits (admitWalk { s with sched := { s.sched with walkDue := false } })))))

/-! ### Memories and streams -/

/-- DEVICE_MEMORY_RESPONSE and MEMORY_REQUEST_TIMEOUT (R331, R333 to R335): the controller serves its oldest request: a write puts its bytes, or,
its link's retries exhausted, poisons them (log entry 65), a read takes the bytes after any error is acted on; a request without a response within
64 µs counts, marks its memory, and gives poisoned data or poisons what it would have written; an access ends with its last request.

TILE_BANK_SERVICE, STREAM_PORT_SERVICE and CREDIT_GRANT (R133, R338 to R346, R380): a tile being zeroed serves nothing; otherwise the class
of the wheel's phase is served in every bank; the stream port serves up to 8 lines of one class in a phase-3 cycle; a remote write that
the receiver's credit covers takes its credits and joins the stream port's queue, and one that it does not cover waits. -/
def Obligations.MemoryCommandsComplete : Prop :=
  ((∀ (ctl : Nat) (err : MemErr) (s : State), oldest s (.dram ctl) = none → exec (.deviceMemoryResponse ctl err) s = .next s) ∧
  (∀ (ctl : Nat) (err : MemErr) (r : MemReq) (s : State), oldest s (.dram ctl) = some r → ctlHeld s ctl = false → r.write = true →
    (err ≠ .linkCrc ∨ controllerOf s r.addr < 256) →
    exec (.deviceMemoryResponse ctl err) s = .next (partDone (writeT (popReq s r.id) r.addr r.data) r [])) ∧
  (∀ (ctl : Nat) (r : MemReq) (s : State), oldest s (.dram ctl) = some r → ctlHeld s ctl = false → r.write = true →
    256 ≤ controllerOf s r.addr → exec (.deviceMemoryResponse ctl .linkCrc) s =
      .next (partDone (poisonSpan (markRetrain (popReq s r.id) (controllerOf s r.addr) 4) r.addr r.len) r [])) ∧
  (∀ (ctl : Nat) (err : MemErr) (r : MemReq) (s u : State), oldest s (.dram ctl) = some r → ctlHeld s ctl = false → r.write = false →
    u = popReq (memErr s r.addr r.len err (r.origin == .scrub)) r.id →
    exec (.deviceMemoryResponse ctl err) s = .next (partDone u r (readT u r.addr r.len))) ∧
  (∀ (r : MemReq) (bs : List TByte) (s : State), (∀ q ∈ s.memq, q.acc ≠ r.acc) → r.base = r.addr → r.total = bs.length → r.got = [] →
    r.write = false → partDone s r bs = delivered s r bs) ∧
  (∀ (ctl : Nat) (r : MemReq) (s : State), oldest s (.dram ctl) = some r → r.write = false → exec (.memoryRequestTimeout ctl) s =
    .next (partDone (markMapOut (bump (popReq s r.id) 0x10070) ctl 3) r (List.replicate r.len ⟨0, true⟩))) ∧
  ∀ (ctl : Nat) (r : MemReq) (s : State), oldest s (.dram ctl) = some r → r.write = true → exec (.memoryRequestTimeout ctl) s =
    .next (partDone (poisonSpan (markMapOut (bump (popReq s r.id) 0x10070) ctl 3) r.addr r.len) r [])) ∧
  ((∀ (t n : Nat) (err : MemErr) (s : State), t ∈ s.zeroing → exec (.tileBankService t n err) s = .next s) ∧
  (∀ (t n cls : Nat) (s : State), t ∉ s.zeroing → t < 408 → wheelClass s t n = some cls → (∀ r ∈ s.memq, r.merged = []) →
    exec (.tileBankService t n .none) s =
      .next (admitBank (finishPort ((List.range 16).foldl (fun st b => bankCycle st t cls b []) s) [.bank t cls] n) t cls)) ∧
  (∀ (g n : Nat) (err : MemErr) (s : State), n % 4 ≠ 3 → exec (.streamPortService g n err) s = .next s) ∧
  (∀ (g n : Nat) (err : MemErr) (s : State), tileOfCore g ∈ s.zeroing → exec (.streamPortService g n err) s = .next s) ∧
  (∀ (g n : Nat) (err : MemErr) (s u : State), n % 4 = 3 → g < 26112 → tileOfCore g ∉ s.zeroing → u = settle s g n → portClass u g n = some 3 →
    exec (.streamPortService g n err) s = .next (finishPort (portLoop 8 u g 3) [.stream g 3] n)) ∧
  (∀ (g n : Nat) (err : MemErr) (s u : State), n % 4 = 3 → g < 26112 → tileOfCore g ∉ s.zeroing → u = settle s g n → portClass u g n = some 0 →
    exec (.streamPortService g n err) s =
      .next (finishPort (portLoop 8 (modCore u g fun c => { c with portTurn := 0 }) g 0) [.stream g 0] n)) ∧
  (∀ (g n cls : Nat) (err : MemErr) (s u : State), n % 4 = 3 → g < 26112 → tileOfCore g ∉ s.zeroing → u = settle s g n →
    portClass u g n = some cls → (cls = 1 ∨ cls = 2) → exec (.streamPortService g n err) s = .next (finishPort (portLoop 8
      (memErr (modCore u g fun c => { c with portTurn := cls }) (csBase g) 0x8000 err false) g cls) [.stream g cls] n)) ∧
  (∀ (g : Nat) (r : MemReq) (s : State), oldest s (.credit g) = some r → (getCore s g).credits < lines32 r.addr r.len →
    exec (.creditGrant g) s = .next s) ∧
  (∀ (g fe id h : Nat) (r : MemReq) (s : State), oldest s (.credit g) = some r → lines32 r.addr r.len ≤ (getCore s g).credits →
    r.origin = .land fe id h → exec (.creditGrant g) s =
      .next (grantLanding (popReq (modCore s g fun c => { c with credits := c.credits - lines32 r.addr r.len }) r.id) fe id g)) ∧
  ∀ (g : Nat) (r : MemReq) (s : State), oldest s (.credit g) = some r → lines32 r.addr r.len ≤ (getCore s g).credits →
    twf Core.fresh s.cores = true → (∀ h id, r.origin ≠ .store h id) → (∀ fe id h, r.origin ≠ .land fe id h) →
    ∃ t, exec (.creditGrant g) s = .next t ∧ (getCore t g).credits = (getCore s g).credits - lines32 r.addr r.len ∧
      t.memq = (s.memq.filter fun x => x.id != r.id) ++ [{ r with port := .stream g 0, linesLeft := portLines (.stream g 0) r.addr r.len }])

/-- STREAM_REQUEST_ISSUE, CHUNK_LANDED, OUT_CHUNK_ACK and STREAM_END (R374 to R378, R384, R385): requests issue while the core runs; the next chunk
in order that has landed, or been acknowledged, is counted once and advances the stream; a stream ends when every chunk is released. -/
def Obligations.StreamCommandsComplete : Prop :=
  (∀ (g : Nat) (s : State), coreRuns s g = true → exec (.streamRequestIssue g) s = .next (issueStreamReq s g)) ∧
  (∀ (g : Nat) (s : State), coreRuns s g = false → exec (.streamRequestIssue g) s = .next s) ∧
  (∀ (g k : Nat) (st : Stream) (c : Chunk) (s : State), getStr s g k = some st → st.chunks.find? (fun c => c.n == st.sigma) = some c →
    st.desc.out = false → c.landed = true → c.counted = false → chunkLate s st.desc.ringCore st.desc.sigCnt = false →
    exec (.chunkLanded g k) s = .next (engineInc (setStr s g k (some { st with
      sigma := st.sigma + 1
      chunks := st.chunks.map fun x => if x.n = st.sigma then { x with counted := true } else x })) st.desc.ringCore st.desc.sigCnt)) ∧
  (∀ (g k : Nat) (st : Stream) (c : Chunk) (s : State), getStr s g k = some st → st.chunks.find? (fun c => c.n == st.sigma) = some c →
    st.desc.out = true → c.landed = true → c.counted = false →
    exec (.outChunkAck g k) s = .next (engineInc (setStr s g k (some { st with
      sigma := st.sigma + 1
      used := st.used + 1
      chunks := st.chunks.map fun x => if x.n = st.sigma then { x with counted := true, released := true } else x }))
      st.desc.ringCore st.desc.sigCnt)) ∧
  ∀ (g k : Nat) (st x : Stream) (s : State), getStr s g k = some st → x = releaseChunks s st → isStager x = false → strTotal x.desc ≠ 0 →
    x.nextOff = strTotal x.desc → x.reqs = [] → x.sigma = strChunks x.desc → (∀ c ∈ x.chunks, c.released = true) →
    exec (.streamEnd g k) s = .next (setStr (accountStream (writeRecord s g k 1 0 x) g (strCounts x 0)) g k none)

/-! ### Crossbow Cores -/

/-- BUNDLE_ISSUE, WAIT_TIMEOUT, BARRIER_COMPLETE, ARRAY_RESULT_READY, TRANSFORM_ASSIST_RESULT and ELEMENT_RESULT_WRITE (R115, R119, R123, R129, R140,
R148, R173): in a cycle that has not passed, on a core that runs, what is due by that cycle settles first; then the row's results are in
place, or its contexts issue; in a cycle that has passed nothing changes.

CORE_STORE_LOAD_SERVICE, CORE_STORE_STORE_SERVICE, LOAD_DATA_RETURN, SEGLD_COMPLETE and SIGNAL_ACTION (R130, R133, R135, R145, R146, R165): what
is due by the cycle settles first; then the oldest local load or store is served, the data that came back is written, the segment is
loaded, or the signals of the cycle are performed. -/
def Obligations.CoreCommandsComplete : Prop :=
  ((∀ (g n : Nat) (s u : State), coreRuns s g = true → (getCore s g).cyc ≤ n → u = trackWaits (settle (settleArrivals s g n) g n) g →
    exec (.bundleIssue g n) s = .next (closeCycle (issueCycle u g n) g n)) ∧
  (∀ (g n : Nat) (s : State), coreRuns s g = true → n < (getCore s g).cyc → exec (.bundleIssue g n) s = .next s) ∧
  (∀ (g k n sn : Nat) (sec : Sector) (t0 : Nat) (s u : State), coreRuns s g = true → (getCore s g).cyc ≤ n →
    u = trackWaits (settle (settleArrivals s g n) g n) g → coreSector u g = some (sn, sec) → (getCtx (getCore u g) k).waitSince = some t0 →
    0 < waitLimit u sec → waitLimit u sec < u.ftime.toNat - t0 → (getCtx (getCore u g) k).run = .running →
    exec (.waitTimeout g k n) s = .next (faultCtx u g k (getCtx (getCore u g) k).pc [fWaitTimeout] 0)) ∧
  (∀ (g n : Nat) (s : State), coreAt s g n = true → exec (.arrayResultReady g n) s =
    .next (modCore (settleLoop (settleFuel (getCore s g)) s g n) g fun c => landEngine c n .array)) ∧
  (∀ (g n : Nat) (s : State), coreAt s g n = true → exec (.transformAssistResult g n) s = .next (settle s g n)) ∧
  (∀ (g n : Nat) (s : State), coreAt s g n = true →
    exec (.elementResultWrite g n) s = .next (closeCycle (landEu (settle s g n) g n) g n)) ∧
  ∀ (sn ch n g : Nat) (x : Sector) (e : ImgChan) (s : State), getSector s sn = some x → chanEntry x ch = some e →
    (x.lcores.drop e.first).take (e.last + 1 - e.first) = [g] → coreAt s g n = true →
    exec (.barrierComplete sn ch n) s =
      .next (closeCycle (performSigs (settle (settleArrivals s g n) g n) g n fun p => p.kind == 9 && p.sel == ch) g n)) ∧
  ((∀ (g n : Nat) (s : State), coreAt s g n = true →
    exec (.coreStoreLoadService g n .none) s = .next (closeCycle (serveLoads (settle s g n) g n) g n) ∧
    exec (.coreStoreStoreService g n) s = .next (closeCycle (serveStores (settle s g n) g n) g n) ∧
    exec (.segldComplete g n) s = .next (closeCycle (landSegs (settle s g n) g n) g n) ∧
    exec (.signalAction g n) s = .next (closeCycle (performSigs (settle s g n) g n fun _ => true) g n)) ∧
  (∀ (g k n : Nat) (s : State), coreAt s g n = true →
    exec (.loadDataReturn g k n) s = .next (closeCycle (landLoad (landEu (landMiss (settle s g n) g k n) g n) g n) g n)) ∧
  ∀ (g k n : Nat) (s : State), coreAt s g n = false →
    exec (.coreStoreLoadService g n .none) s = .next s ∧ exec (.coreStoreStoreService g n) s = .next s ∧
    exec (.segldComplete g n) s = .next s ∧ exec (.signalAction g n) s = .next s ∧ exec (.loadDataReturn g k n) s = .next s)

/-! ### Nguhi Link and messages -/

/-- PORT_LOCK_LOSS, PORT_TRAINING_END, FLIT_TRANSMIT and REPLAY_TIMEOUT (R432, R435, R436): a port that loses lock retrains and is counted;
one that has trained is up with its lanes; the third failure in a row takes it DOWN; a port with held flits replays them from the oldest,
and the sixteenth replay without progress makes it retrain.

IDLE, LNAK and DATA (R433, R435, R436, R438 to R441, R450 to R452): a bad flit is counted and answered by one LNAK; a good IDLE gives its
ack and credits to the port; a good LNAK also begins a replay; a DATA flit out of sequence is not taken; one in sequence is forwarded, or,
where it is for this device, goes to the message that it belongs to, and its credit is owed back. -/
def Obligations.LinkCommandsComplete : Prop :=
  ((∀ (p : Nat) (s : State), p < 32 → 2 ≤ portState s p →
    exec (.portLockLoss p) s = .next (bump (setPortState s p 1) 0x20208)) ∧
  (∀ (p : Nat) (s : State), portState s p < 2 → exec (.portLockLoss p) s = .next s ∧ exec (.replayTimeout p) s = .next s) ∧
  (∀ (p lanes : Nat) (s : State), p < 32 → portState s p = 1 → exec (.portTrainingEnd p true lanes) s = .next (portUp s p (lanes % 16))) ∧
  (∀ (p lanes : Nat) (s : State), p < 32 → portState s p = 1 → (getPort s p).trainFails < 2 →
    exec (.portTrainingEnd p false lanes) s = .next (modPort s p fun x => { x with trainFails := x.trainFails + 1 })) ∧
  (∀ (p lanes : Nat) (s : State), p < 32 → portState s p = 1 → 2 ≤ (getPort s p).trainFails →
    exec (.portTrainingEnd p false lanes) s = .next (portDown s p)) ∧
  (∀ (p : Nat) (s : State), p ≤ 32 → 2 ≤ portState s p → exec (.flitTransmit p) s = .next (transmit s p)) ∧
  (∀ (p : Nat) (s : State), p < 32 → 2 ≤ portState s p → (getPort s p).replay ≠ [] → (getPort s p).stuck < 15 →
    exec (.replayTimeout p) s =
      .next (setPort (bump s 0x20204) p { getPort s p with stuck := (getPort s p).stuck + 1, resend := 0 })) ∧
  ∀ (p : Nat) (s : State), p < 32 → 2 ≤ portState s p → (getPort s p).replay ≠ [] → 15 ≤ (getPort s p).stuck →
    exec (.replayTimeout p) s = .next (bump (setPortState (setPort (bump s 0x20204) p
      { getPort s p with stuck := 0, resend := 0 }) p 1) 0x20208)) ∧
  ((∀ (p : Nat) (fl : Flit) (s : State), p < 32 → 2 ≤ portState s p → exec (.idle p fl false) s =
    .next (bump (modPort s p fun x => if x.ignoring then x else { x with ignoring := true, lnakDue := true }) 0x20200)) ∧
  (∀ (p : Nat) (fl : Flit) (s : State), p < 32 → 2 ≤ portState s p → fl.typ = 0 →
    exec (.idle p fl true) s = .next (setPort s p (takeAck (getPort s p) fl))) ∧
  (∀ (p : Nat) (fl : Flit) (s : State), p < 32 → 2 ≤ portState s p → fl.typ = 3 →
    exec (.lnak p fl true) s = .next (beginReplay (setPort s p (takeAck (getPort s p) fl)) p)) ∧
  (∀ (p : Nat) (fl : Flit) (s u : State), p < 32 → 2 ≤ portState s p → fl.typ = 1 → fl.seq ≠ (getPort s p).rxExp →
    u = setPort s p (takeAck (getPort s p) fl) →
    exec (.data p fl true) s =
      .next (bump (modPort u p fun x => if x.ignoring then x else { x with ignoring := true, lnakDue := true }) 0x20200)) ∧
  (∀ (p : Nat) (fl : Flit) (s u : State), p < 32 → receiveAs 1 s p fl true = (u, true) → devId u ≠ 0xFFFFF → isPairPort u p = false →
    deliveredHere u fl.dst = true → exec (.data p fl true) s = .next (ingress (oweCredit u (some (p, fl.vc))) p fl)) ∧
  ∀ (p : Nat) (fl : Flit) (s u : State), p < 32 → receiveAs 1 s p fl true = (u, true) → devId u ≠ 0xFFFFF → isPairPort u p = false →
    deliveredHere u fl.dst = false → exec (.data p fl true) s = .next (forward u fl (some (p, fl.vc))))

/-- ACK, NACK, MESSAGE_INPUT_TIMEOUT, ACK_TIMEOUT, RESEND_WAIT_EXPIRY and BUSY_RETRY_EXPIRY (R452 to R455, Tables 13.8 and 13.9): an ACK completes
the SEND that it answers; a NACK ends it, sends it again under another epoch, or lets it wait; a message whose input stops is dropped; a
SEND without an answer fails with 0x0403. -/
def Obligations.MessageAnswersAndTimeoutsComplete : Prop :=
  (∀ (p : Nat) (fl : Flit) (good : Bool) (m : SendMsg) (s u : State), receiveXctrl 1 s p fl good = (u, true) → answered u fl = some m →
    exec (.ack p fl good) s = .next (sendAcked u m)) ∧
  (∀ (p reason : Nat) (fl : Flit) (good : Bool) (m : SendMsg) (s u : State), receiveXctrl 2 s p fl good = (u, true) →
    answered u fl = some m → reason = bits (fieldAt fl.payload 0 4) 27 24 → m.resent = false →
    (reason = 5 → exec (.nack p fl good) s = .next (setSend u m { m with phase := .waitBusy, lastTx := u.ftime.toNat })) ∧
    ((reason = 3 ∨ reason = 4) → exec (.nack p fl good) s = .next (sendFailed u m 0x0404)) ∧
    ((reason = 6 ∨ reason = 7) → exec (.nack p fl good) s = .next (sendFailed u m 0x0402)) ∧
    ((reason = 1 ∨ reason = 2) → newEpoch u m = true → exec (.nack p fl good) s = .next (resendMsg u m true)) ∧
    ((reason = 1 ∨ reason = 2) → newEpoch u m = false →
      exec (.nack p fl good) s = .next (setSend u m { m with phase := .waitEpoch, lastTx := u.ftime.toNat }))) ∧
  (∀ (slot pool src id gen port len t : Nat) (bs : List Byte) (s : State), poolAt s slot pool = .landing src id gen port len t bs →
    exec (.messageInputTimeout slot pool) s = .next (dropLanding s slot pool)) ∧
  (∀ (i : Nat) (m : SendMsg) (s : State), s.fab.sends[i]? = some m → m.phase = .waitAck → m.lastTx + ackTimeout s ≤ s.ftime.toNat →
    exec (.ackTimeout i) s = .next (sendFailed s m 0x0403)) ∧
  (∀ (i : Nat) (m : SendMsg) (s : State), s.fab.sends[i]? = some m → m.phase = .waitEpoch → newEpoch s m = false →
    m.lastTx + resendWait s ≤ s.ftime.toNat → exec (.resendWaitExpiry i) s = .next (sendFailed s m 0x0401)) ∧
  ∀ (i : Nat) (m : SendMsg) (s : State), s.fab.sends[i]? = some m → m.phase = .waitBusy → m.lastTx + busyRetry s ≤ s.ftime.toNat →
    (m.firstTx + ackTimeout s ≤ s.ftime.toNat → exec (.busyRetryExpiry i) s = .next (sendFailed s m 0x0403)) ∧
    (s.ftime.toNat < m.firstTx + ackTimeout s → exec (.busyRetryExpiry i) s = .next (resendMsg s m false))

/-! ### Range pairs -/

/-- PAIR_RESYNC, PAIR_MIRROR_DONE, PAIR_HANDOVER, PAIR_TAKEOVER_WRITE, HEARTBEAT_MISS and PROBE_TIMEOUT (R456 to R464): only a front resyncs or hands over,
and a mirror that is done makes it PAIRED; only a paired rear takes over, by a write with kind 2, or, its probe unanswered, with kind 1; a
rear that has missed heartbeats probes its front. -/
def Obligations.PairRolesComplete : Prop :=
  (∀ s : State, pairOn s = true → isRear s = false → exec .pairResync s = .next (startSync s)) ∧
  (∀ s : State, (pairOn s = false ∨ isRear s = true) → exec .pairResync s = .next s ∧ exec .pairHandover s = .next s) ∧
  (∀ s : State, pairOn s = true → isRear s = false → pairState s = 1 → s.Inv →
    (∀ p ∈ pairPorts s, ∀ q ∈ (getPort s p).pair, q.flit.payload.headD 0 = 1) →
    ∃ t, exec .pairMirrorDone s = .next t ∧ pairState t = 2 ∧ t = regSetFld s 0x20040 2 0 2) ∧
  (∀ s : State, pairOn s = true → isRear s = false → pairState s = 2 → (∃ x ∈ s.jobs, x.2.isSome = true) →
    exec .pairHandover s = .next { s with fab := { s.fab with handover := true } }) ∧
  (∀ s : State, (pairOn s = false ∨ isRear s = false ∨ pairState s ≠ 2) → exec .pairTakeoverWrite s = .next s) ∧
  (∀ s : State, pairOn s = true → isRear s = true → pairState s = 2 → s.fab.serving = false → s.fab.journal = [] →
    ∃ t, exec .pairTakeoverWrite s = .next t ∧ t.fab.serving = true ∧ t.fab.tookOver = 2 ∧ t.fab.journal = []) ∧
  (∀ (s : State) (n : Nat), pairOn s = true → isRear s = true → pairState s = 2 → s.fab.serving = false → s.fab.journal = [] →
    s.fab.probe = some n → n + probeTicks s ≤ s.ftime.toNat →
    ∃ t, exec .probeTimeout s = .next t ∧ t.fab.serving = true ∧ t.fab.tookOver = 1) ∧
  ∀ s : State, pairOn s = true → isRear s = true → pairState s = 2 → s.fab.serving = false → s.fab.probe = none →
    s.fab.heard + missTicks s ≤ s.ftime.toNat → ∃ t, exec .heartbeatMiss s = .next t ∧ t.fab.probe = some s.ftime.toNat

/-- PROBE, PROBE_ACK, TAKEOVER, HEARTBEAT, STATE, JOURNAL, MIRROR, COMMIT and DIGEST (R456 to R464): a probe is answered, and a paired front that gets
one is ALONE; an answer ends the probe; TAKEOVER fences a front and makes a rear the front; the rear takes each item of the pair: its
peer's time and state, state items, journal entries up to 4,096, mirrored bytes, commits, and a digest that must match its own. -/
def Obligations.PairItemsComplete : Prop :=
  (∀ (p : Nat) (fl : Flit) (good : Bool) (s u : State), receiveXctrl 3 s p fl good = (u, true) → pairOn (sendXctrl u fl.src 4 0 0 0 0 0) = false →
    exec (.probe p fl good) s = .next (sendXctrl u fl.src 4 0 0 0 0 0)) ∧
  (∀ (p : Nat) (fl : Flit) (good : Bool) (s u v : State), receiveXctrl 3 s p fl good = (u, true) → v = sendXctrl u fl.src 4 0 0 0 0 0 →
    pairOn v = true → isRear v = false → pairState v = 2 → exec (.probe p fl good) s = .next (setPairState v 4)) ∧
  (∀ (p : Nat) (fl : Flit) (good : Bool) (s u : State), receiveXctrl 4 s p fl good = (u, true) → pairOn u = true → isRear u = true →
    exec (.probeAck p fl good) s = .next { u with fab := { u.fab with probe := none, heard := u.ftime.toNat } }) ∧
  (∀ (p : Nat) (fl : Flit) (good : Bool) (s u : State), 32 ≤ p ∨ isPairPort s p = false → receiveXctrl 5 s p fl good = (u, true) →
    pairOn u = true → exec (.takeover p fl good) s = .next (if isRear u then becomeFront u else fenceFront u)) ∧
  (∀ (p : Nat) (fl : Flit) (good : Bool) (b : List Byte) (s u : State), receivePair 1 s p fl good = (u, some b) →
    exec (.heartbeat p fl good) s = .next (takeHeartbeat u b)) ∧
  (∀ (p : Nat) (fl : Flit) (good : Bool) (b : List Byte) (s u : State), receivePair 2 s p fl good = (u, some b) →
    exec (.state p fl good) s = .next (takeState u b)) ∧
  (∀ (p : Nat) (fl : Flit) (good : Bool) (b : List Byte) (s u : State), receivePair 3 s p fl good = (u, some b) →
    (u.fab.journal.length < 4096 → exec (.journal p fl good) s =
      .next (setJournal u (u.fab.journal ++ [⟨fieldAt b 0 1 % 64, fieldAt b 1 1, fieldAt b 2 2, (b.drop 4).take 64⟩]))) ∧
    (4096 ≤ u.fab.journal.length → exec (.journal p fl good) s = .next (setPairState u 3))) ∧
  (∀ (p : Nat) (fl : Flit) (good : Bool) (b : List Byte) (x : Buf) (s u : State), receivePair 4 s p fl good = (u, some b) →
    resolve u (hFn (fieldAt b 0 4)) (fieldAt b 0 4) = (0, x) → fieldAt b 4 4 + (b.drop 8).length ≤ x.size →
    exec (.mirror p fl good) s = .next (writeT u (x.base + fieldAt b 4 4) (plain (b.drop 8)))) ∧
  (∀ (p : Nat) (fl : Flit) (good : Bool) (b : List Byte) (s u v : State), receivePair 5 s p fl good = (u, some b) →
    v = setJournal u (u.fab.journal.filter fun j => !(j.fn == fieldAt b 0 1 && j.ring == fieldAt b 1 1 && j.index == fieldAt b 2 2)) →
    exec (.commit p fl good) s = .next { v with fab := { v.fab with
      commitLog := v.fab.commitLog ++ b.take 6 ++ (chunksOf 16 (b.drop 6)).flatMap (storedOut v) } }) ∧
  ∀ (p : Nat) (fl : Flit) (good : Bool) (b : List Byte) (s u v : State), receivePair 6 s p fl good = (u, some b) →
    v = { u with fab := { u.fab with commitLog := [] } } →
    (b = digestBytes (sha384 u.fab.commitLog) → exec (.digest p fl good) s = .next v) ∧
    (b ≠ digestBytes (sha384 u.fab.commitLog) →
      exec (.digest p fl good) s = .next (setPairState (sbAlert (dayEvent (bump v 0x2022C) 0x0601 0xFF 0 [])) 3))

/-! ### Rings, transfers and the aperture -/

/-- RING_ENABLE, RING_DISABLE, BELL_POLL, BAR2_ACCESS, INPUT_SEGMENT_ARRIVAL, SEGMENT_TIMEOUT and READ_COMPLETION_TIMEOUT (R393 to R400, R422,
R424): a ring is enabled or disabled by its configuration register; a segment that names no transfer of the function is counted and
discarded; one that arrives is kept, and the last one lets the descriptor go on; a corrupt or missing segment truncates the transfer; a
read through the aperture asks for the bytes it may reach and answers them as they come, zero elsewhere; a write sends them on. -/
def Obligations.RingsAndTransfersComplete : Prop :=
  (∀ (f r : Nat) (v : Word) (s : State), f < 64 → r < 17 → exec (.ringEnable f r v) s = .next (writeRingCfg s f r (v ||| 0x100)) ∧
    exec (.ringDisable f r v) s = .next (writeRingCfg s f r (v &&& ~~~0x100#32))) ∧
  (∀ (f : Nat) (bell : List Byte) (fetched : List (List Byte)) (s : State),
    exec (.bellPoll f bell fetched) s = .next (closeBatches (pollBell s f bell fetched) f)) ∧
  (∀ (f x gen off : Nat) (data : List Byte) (poison bad : Bool) (s : State), findXfer s x = none →
    exec (.inputSegmentArrival f x gen off data poison bad) s = .next (bump s (fnBase f + 0x48))) ∧
  (∀ (f x gen off : Nat) (data : List Byte) (poison bad : Bool) (y : Xfer) (s : State), findXfer s x = some y →
    (y.gen ≠ gen ∨ y.fn ≠ f ∨ y.length < off + data.length) →
    exec (.inputSegmentArrival f x gen off data poison bad) s = .next (bump s (fnBase f + 0x48))) ∧
  (∀ (x off : Nat) (data : List Byte) (poison : Bool) (y : Xfer) (s : State), findXfer s x = some y → off + data.length ≤ y.length →
    exec (.inputSegmentArrival y.fn x y.gen off data poison true) s = .next (truncate s y)) ∧
  (∀ (x off : Nat) (data : List Byte) (poison : Bool) (y : Xfer) (s u : State) (got : Tbl (Option TByte)), findXfer s x = some y →
    off + data.length ≤ y.length → got = tsetRun none y.got off (data.map fun b => some ⟨b, poison⟩) →
    u = { s with xfers := s.xfers.map fun z => if z.id = x then { z with got := got } else z } →
    exec (.inputSegmentArrival y.fn x y.gen off data poison false) s =
      .next (if got.length = y.length then modDesc u y.fn y.ring y.index (fun d => { d with phase := .arrived x }) else u)) ∧
  (∀ (x : Nat) (y : Xfer) (s : State), findXfer s x = some y → y.got.length ≠ y.length →
    exec (.segmentTimeout x) s = .next (truncate s y)) ∧
  (∀ (x off n : Nat) (y : Xfer) (d : Desc) (s : State), findXfer s x = some y → findDesc s y.fn y.ring y.index = some d →
    exec (.readCompletionTimeout x off n) s = .next (emit s (.hostRead y.fn
      (refHost (refAt d.bytes (if dType d.bytes = 8 then 0x10 else 8)) + off) n x))) ∧
  (∀ (off n a : Nat) (s : State), 0 < n → (∀ i, i < n → aperByte s (off + i) = some (a + i) ∧ accessOk s ⟨0, none, none⟩ (a + i) 1 false = true) →
    exec (.bar2Access off n false []) s = .next (bar2End (beginMove s .bar2 none n [(a, 0, n)]) s.moveSeq)) ∧
  (∀ (mv : Nat) (bs : List TByte) (s : State), bs ≠ [] → s.moves = [⟨mv, .bar2, none, 1, [], bs.length, false⟩] →
    moveGot s mv 0 bs = emit { s with moves := [] } (.bytes (bs.map (·.b)))) ∧
  (∀ (off n a : Nat) (data : List Byte) (s : State), data ≠ [] →
    (∀ i, i < data.length → aperByte s (off + i) = some (a + i) ∧ accessOk s ⟨0, none, none⟩ (a + i) 1 true = true) →
    exec (.bar2Access off n true data) s =
      .next (bar2End (moveOut (beginMove s .bar2 none 0 []) s.moveSeq a (data.map fun b => ⟨b, false⟩)) s.moveSeq)) ∧
  ∀ (off n : Nat) (s : State), 0 < n → (∀ i, i < n → aperByte s (off + i) = none) → (∀ m ∈ s.moves, m.id < s.moveSeq) →
    exec (.bar2Access off n false []) s =
      .next (emit { bump s (fnBase 0 + 0x54) with moveSeq := s.moveSeq + 1 } (.bytes (List.replicate n 0)))

/-! ### Descriptors -/

/-- LOAD_PARAMS, LOAD_KEYS, LOAD_MODEL and COPY (R70 to R75, R87, R214 to R222, R404, R422, R565, R567, log entries 39 to 41): a descriptor just fetched fetches its
object; with the object in, every check runs on the whole of it and the object is installed or the descriptor fails; the end of the
security unit's work ends the load; a COPY moves its bytes by requests to the memories, and completes, DONE_POISONED if a byte of them was
poisoned, once the last of them has ended. -/
def Obligations.LoadsAndCopyComplete : Prop :=
  (∀ (f r i x : Nat) (d : Desc) (y : Xfer) (s : State), rowDesc s f r i 1 = some d → d.phase = .arrived x → xferOf s d = some y →
    exec (.loadParams f r i) s = .next (checkParams s d (xferBytes y))) ∧
  (∀ (f r i x : Nat) (d : Desc) (y : Xfer) (s : State), rowDesc s f r i 2 = some d → d.phase = .arrived x → xferOf s d = some y →
    exec (.loadKeys f r i) s = .next (checkKeys s d (xferBytes y))) ∧
  (∀ (f r i x : Nat) (d : Desc) (y : Xfer) (s : State), rowDesc s f r i 3 = some d → d.phase = .arrived x → xferOf s d = some y →
    exec (.loadModel f r i) s = .next (checkModel s d (xferBytes y))) ∧
  (∀ (f r i bad : Nat) (d : Desc) (y : Xfer) (s : State), rowDesc s f r i 3 = some d → d.phase = .security 0 bad → xferOf s d = some y →
    exec (.loadModel f r i) s = .next (finishModel s d bad (xferBytes y))) ∧
  (∀ (f r i bad : Nat) (d : Desc) (y : Xfer) (s : State), rowDesc s f r i 2 = some d → d.phase = .security 0 bad → xferOf s d = some y →
    exec (.loadKeys f r i) s = .next (finishKeys s d bad (xferBytes y))) ∧
  -- with every check passed, the object is installed and the descriptor completes with status 0
  (∀ (f r i x n gen : Nat) (d : Desc) (y : Xfer) (o : List Byte) (conv : List (Nat × Extent)) (s u v : State), rowDesc s f r i 1 = some d → d.fn = f →
    d.phase = .arrived x → xferOf s d = some y → o = (xferBytes y).map (·.b) → n = bits (ow d.bytes 0x14) 3 0 →
    paramChecks (bit (regGet s (fnBase f + 0x2000)).toNat 5) o = 0 →
    takeHbm true ((placementDies d.placement).map fun p => (p, convBytes o)) s = some (conv, u) → paramInUse s f n = false → pMeetsFloor o = true →
    gen = (if (getParam u f n).lastGen = 0xFFFF then 1 else (getParam u f n).lastGen + 1) →
    v = conv.foldl (fun st e => setBytes st e.2.base (convBlock o)) (dropHbm u (getParam u f n).conv) →
    exec (.loadParams f r i) s =
      .next (endLoad (paramRegs (hbmRegs (setParam v f n ⟨gen, true, o, false, conv⟩) f) f n gen true false) d 0 gen)) ∧
  (∀ (f r i x k n : Nat) (d : Desc) (y : Xfer) (p o : List Byte) (ext : List (Nat × Extent)) (s u v : State), rowDesc s f r i 2 = some d → d.fn = f →
    d.phase = .arrived x → xferOf s d = some y → o = (xferBytes y).map (·.b) → n = bits (ow d.bytes 0x14) 3 0 → k = bits (ow d.bytes 0x14) 21 16 →
    p = (getParam s f n).obj → ow o 0 ≠ 0x59544231 → keyChecks p o = 0 → kSigned o = false →
    bits (regGet s (fnBase f + 0x2000)).toNat 4 3 = 0 → isRepair s f k o = false → keyInUse s f k = false →
    takeHbm false ([0, 1].map fun die => (die, pieceSize (keyPieces p o d.placement die))) s = some (ext, u) →
    v = putShares (dropHbm u (getKeys s f k).extents) (xferBytes y) (keyPieces p o d.placement) ext →
    exec (.loadKeys f r i) s = .next (endLoad (keyPoisonReg (keyLoadedReg (hbmRegs
      (setKeys v f k ⟨true, o, n, d.placement, ext, []⟩) f) f k true) f k false) d 0 0)) ∧
  (∀ (f r i x m : Nat) (d : Desc) (y : Xfer) (raw : List Byte) (ts : List Nat) (s : State), rowDesc s f r i 3 = some d → d.fn = f →
    d.phase = .arrived x → xferOf s d = some y → raw = (xferBytes y).map (·.b) → m = bits (ow d.bytes 0x14) 2 0 →
    (takeGddr s f raw.length).isSome = true → ow raw 0 ≠ 0x59454E31 → blobStatus raw false = 0 → ow d.bytes 0x20 = 0 →
    chooseFor s f (placementOf s f) false (blobT raw) none = .tiles ts → modelInUse s f m = false → (∀ t ∈ ts, t ∉ s.zeroing) →
    exec (.loadModel f r i) s = .next (endLoad (installModel s f m (xferBytes y) raw false false (.tiles ts)) d 0 0)) ∧
  (∀ (f m n : Nat) (raw : List TByte) (clear : List Byte) (ts : List Nat) (e : Extent) (s u v : State) (q : ModelSlot),
    takeGddr s f raw.length = some (e, u) → formSector (writeT u e.base raw) f ts (some m) false = (n, v) →
    (getModel s f m).loaded = false → q = ⟨true, false, clear, raw.length, e, digestBytes (sha384 clear), n,
      ((getSector v n).map (·.tiles)).getD [], [], false, [], []⟩ →
    installModel s f m raw clear false false (.tiles ts) = memRegs (placeModel (regSetFld (regSetFld (regSetFld (modModel v f m fun _ => q)
      (fnBase f + 0x2200) m m 1) (fnBase f + 0x2200) (8 + m) (8 + m) 0) (fnBase f + 0x2200) (16 + m) (16 + m) 0) f m (tilePairs q)) f) ∧
  (∀ (f r i : Nat) (d : Desc) (s : State), rowDesc s f r i 5 = some d → d.phase = .fetched → copyStatus s d ≠ 0 →
    exec (.copy f r i) s = .next (failDesc s f r i (copyStatus s d))) ∧
  (∀ (f r i : Nat) (d : Desc) (s : State), rowDesc s f r i 5 = some d → d.phase = .fetched → copyStatus s d = 0 → journalRoom s = true →
    ((refAt d.bytes 8).kind = 0 → exec (.copy f r i) s = .next (startXfer (journalDesc s d) d (refHost (refAt d.bytes 8)) (ow d.bytes 0x20))) ∧
    ((refAt d.bytes 8).kind ≠ 0 → exec (.copy f r i) s = .next (copyBegin (journalDesc s d) d none))) ∧
  (∀ (f r i x : Nat) (d : Desc) (y : Xfer) (s : State), rowDesc s f r i 5 = some d → d.phase = .arrived x → xferOf s d = some y →
    exec (.copy f r i) s = .next (copyBegin s d (some (xferBytes y)))) ∧
  (∀ (a b n : Nat) (d : Desc) (s : State), (refAt d.bytes 8).kind ≠ 0 → (refAt d.bytes 0x14).kind ≠ 0 → n = ow d.bytes 0x20 →
    refAddr s d.fn (refAt d.bytes 0x14) n true = (0, b) → refAddr s d.fn (refAt d.bytes 8) n false = (0, a) →
    copyBegin s d none = setPhase (beginMove s (.copy d.fn d.ring d.index) (some b) n [(a, 0, n)]) d .working) ∧
  (∀ (mv off a : Nat) (bs : List TByte) (m : Move) (s u : State), findMove s mv = some m → m.dst = some a →
    u = modMove s mv (fun m => { m with poisoned := m.poisoned || bs.any (·.tag) }) →
    moveGot s mv off bs = moveLess (moveOut u mv (a + off) bs) mv) ∧
  ∀ (f r i : Nat) (d : Desc) (m : Move) (s u : State), rowDesc s f r i 5 = some d → d.phase = .working → copyMove s d = some m → m.left = 0 →
    u = dropMoves (dropXfer s d) d.fn d.ring d.index →
    (m.dst = none → exec (.copy f r i) s = .next (completeWith (emit u (.hostWrite d.fn (refHost (refAt d.bytes 0x14)) ((moveBytes m).map (·.b))))
      d.fn d.ring d.index (if m.poisoned then stDonePoisoned else 0) 0 0 [] [])) ∧
    ∀ a, m.dst = some a → (refAt d.bytes 0x14).kind ≠ 1 → exec (.copy f r i) s =
      .next (completeWith u d.fn d.ring d.index (if m.poisoned then stDonePoisoned else 0) 0 0 [] [])

/-- SUBMIT_CIRCUIT, DIRECT_OP, RAW_SECTOR and DIRECT_OP_BATCH_WINDOW (R57, R293, R404, R408, R409): a descriptor that fails a check of
stage 3 completes with the status of that check; one that passes becomes a job, is journaled, and enters stage 4, or, for DIRECT_OP, its
ring's batch; a batch whose window has passed is dispatched. -/
def Obligations.JobsStart : Prop :=
  (∀ (f r i st : Nat) (d : Desc) (j : Job) (s : State), rowDesc s f r i 4 = some d → d.phase = .fetched → circuitJob s d = (st, j) → st ≠ 0 →
    exec (.submitCircuit f r i) s = .next (failStage3 s d j st)) ∧
  (∀ (f r i : Nat) (d : Desc) (j : Job) (s u : State), rowDesc s f r i 4 = some d → d.phase = .fetched → circuitJob s d = (0, j) →
    journalRoom s = true → u = readHdrs s j ((List.range j.bindings.length).filter fun v => ((j.bindings[v]?).map fun b => !b.output).getD false) →
    exec (.submitCircuit f r i) s =
      .next (enterStage4 (journalDesc (setPhase (setJob { u with jobSeq := u.jobSeq + 1 } j.id (some j)) d (.job j.id)) d) j.id)) ∧
  (∀ (f r i st : Nat) (d : Desc) (j : Job) (s : State), rowDesc s f r i 0x10 = some d → d.phase = .fetched → directJob s d = (st, j) → st ≠ 0 →
    exec (.directOp f r i) s = .next (failStage3 s d j st)) ∧
  (∀ (f r i : Nat) (d : Desc) (j : Job) (s u : State), rowDesc s f r i 0x10 = some d → d.phase = .fetched → directJob s d = (0, j) →
    journalRoom s = true → u = readHdrs s j ((List.range j.bindings.length).filter fun v => ((j.bindings[v]?).map fun b => !b.output).getD false) →
    exec (.directOp f r i) s =
      .next (placeDirect (journalDesc (setPhase (setJob { u with jobSeq := u.jobSeq + 1 } j.id (some j)) d (.job j.id)) d) d j)) ∧
  (∀ (f r i st : Nat) (d : Desc) (j : Job) (s : State), rowDesc s f r i 0x11 = some d → d.phase = .fetched → rawJob s d = (st, j) → st ≠ 0 →
    exec (.rawSector f r i) s = .next (failStage3 s d j st)) ∧
  (∀ (f r i : Nat) (d : Desc) (j : Job) (s u : State), rowDesc s f r i 0x11 = some d → d.phase = .fetched → rawJob s d = (0, j) →
    journalRoom s = true → u = readHdrs s j ((List.range j.bindings.length).filter fun v => ((j.bindings[v]?).map fun b => !b.output).getD false) →
    exec (.rawSector f r i) s =
      .next (enterStage4 (journalDesc (setPhase (setJob { u with jobSeq := u.jobSeq + 1 } j.id (some j)) d (.job j.id)) d) j.id)) ∧
  (∀ (f r : Nat) (b : Batch) (s : State), (s.batches.find? fun b => b.fn == f && b.ring == r) = some b →
    b.closes ≤ s.ftime.toNat → exec (.directOpBatchWindow f r) s = .next (dispatchBatch s b)) ∧
  ∀ (f r : Nat) (b : Batch) (s : State), (s.batches.find? fun b => b.fn == f && b.ring == r) = some b →
    s.ftime.toNat < b.closes → exec (.directOpBatchWindow f r) s = .next s

/-- CANCEL (R407): a descriptor that is not found completes the CANCEL with NO_TARGET; one that is found ends CANCELLED, and the CANCEL
completes with OK. -/
def Obligations.CancelComplete : Prop :=
  (∀ (f r i : Nat) (d : Desc) (s : State), rowDesc s f r i 9 = some d →
    findDesc s f (bits (ow d.bytes 8) 4 0) (bits (ow d.bytes 0xC) 15 0) = none →
    exec (.cancel f r i) s = .next (completeDesc s f r i stNoTarget)) ∧
  ∀ (f r i : Nat) (d e : Desc) (s : State), rowDesc s f r i 9 = some d →
    findDesc s f (bits (ow d.bytes 8) 4 0) (bits (ow d.bytes 0xC) 15 0) = some e →
    exec (.cancel f r i) s = .next (completeDesc (stopDesc s e stCancelled false false) f r i 0)

/-- FENCE, ALLOC, FREE_BUFFER and FREE_SLOT (R360 to R363, R405, R406): a fence completes when no earlier descriptor in its scope is open; an
allocation of no bytes is bad, and one that succeeds answers its handle; only a live buffer of the function, or, by force, of any, is
freed; a slot in use is not, and an empty one is stale. -/
def Obligations.FenceAndMemoryRowsComplete : Prop :=
  (∀ (f r i : Nat) (d : Desc) (s : State), rowDesc s f r i 6 = some d →
    (∀ e ∈ (getFn s f).descs, e.order < d.order → bit (ow d.bytes 8) 0 = false ∧ e.ring ≠ r) →
    exec (.fence f r i) s = .next (completeDesc s f r i 0)) ∧
  (∀ (f r i : Nat) (d e : Desc) (s : State), rowDesc s f r i 6 = some d → e ∈ (getFn s f).descs → e.order < d.order →
    (bit (ow d.bytes 8) 0 = true ∨ e.ring = r) → exec (.fence f r i) s = .next s) ∧
  (∀ (f r i : Nat) (d : Desc) (s : State), rowDesc s f r i 0x20 = some d → ow d.bytes 8 = 0 → ow d.bytes 0xC = 0 →
    exec (.alloc f r i) s = .next (completeDesc s f r i stParam)) ∧
  (∀ (f r i h : Nat) (d : Desc) (s u : State), rowDesc s f r i 0x20 = some d → ow d.bytes 8 + ow d.bytes 0xC * 2 ^ 32 ≠ 0 →
    allocBuf s f (ow d.bytes 8 + ow d.bytes 0xC * 2 ^ 32) = some (h, u) →
    exec (.alloc f r i) s = .next (completeWith u f r i 0 h 0 [] [])) ∧
  (∀ (f r i : Nat) (d : Desc) (s : State), rowDesc s f r i 0x20 = some d → ow d.bytes 8 + ow d.bytes 0xC * 2 ^ 32 ≠ 0 →
    allocBuf s f (ow d.bytes 8 + ow d.bytes 0xC * 2 ^ 32) = none →
    exec (.alloc f r i) s = .next (completeDesc s f r i stMemory)) ∧
  (∀ (f r i h : Nat) (d : Desc) (s : State), rowDesc s f r i 7 = some d → bits (ow d.bytes 0xC) 7 4 = 0 → h = ow d.bytes 8 →
    hFn h = f → bit (ow d.bytes 0xC) 0 = false → hGen h ≠ 0 → (getBuf s f (hIdx h)).live = true → (getBuf s f (hIdx h)).gen = hGen h →
    exec (.freeBuffer f r i) s = .next (completeDesc (dropApertures (freeBuf s h) h) f r i 0)) ∧
  (∀ (f r i h : Nat) (d : Desc) (s : State), rowDesc s f r i 7 = some d → bits (ow d.bytes 0xC) 7 4 = 0 → h = ow d.bytes 8 →
    hFn h ≠ f → bit (ow d.bytes 0xC) 0 = false →
    exec (.freeBuffer f r i) s = .next (failDesc (dayEvent s 0x0402 0xFF 0 [f, h]) f r i stNotOwner)) ∧
  (∀ (f r i kind n : Nat) (d : Desc) (s : State), rowDesc s f r i 7 = some d → kind = bits (ow d.bytes 0xC) 7 4 → kind ≠ 0 →
    n = bits (ow d.bytes 0x10) 5 0 → n < [16, 64, 8, 8].getD (kind - 1) 0 →
    (slotUse s f kind n ≠ 0 → exec (.freeSlot f r i) s = .next (completeDesc s f r i (slotUse s f kind n))) ∧
    (slotUse s f kind n = 0 → slotLoaded s f kind n = false → exec (.freeSlot f r i) s = .next (failDesc s f r i stStale)) ∧
    (slotUse s f kind n = 0 → slotLoaded s f kind n = true →
      exec (.freeSlot f r i) s = .next (completeDesc (emptySlot s f kind n) f r i 0)))

/-- SECTOR_FORM, SECTOR_RELEASE, SET_QUOTA, SET_EXPERT and SCHEDULE (R44 to R48, R404, R413, R414, R418, R476, R477): a sector forms on the tiles that placement
chooses; only its owner releases it, and not a model's; a quota and the expert bit of a function are written; an entry of the schedule is
late at or below the write time plus 1, and a late one with late_drop ends SCHED_DROPPED at once. -/
def Obligations.SectorsQuotasAndScheduleComplete : Prop :=
  (∀ (f r i n : Nat) (d : Desc) (l ts : List Nat) (s : State), rowDesc s f r i 0x21 = some d → n = bits (ow d.bytes 0xC) 8 0 → 1 ≤ n → n ≤ 400 →
    tileList s f (ow d.bytes 8) n = (0, l) → chooseFor s f (placementOf s f) false n (some l) = .tiles ts →
    exec (.sectorForm f r i) s =
      .next (completeWith (formSector s f ts none false).2 f r i 0 (formSector s f ts none false).1 0 [] [])) ∧
  (∀ (f r i n : Nat) (d : Desc) (s : State), rowDesc s f r i 0x21 = some d → n = bits (ow d.bytes 0xC) 8 0 → (n = 0 ∨ 400 < n) →
    exec (.sectorForm f r i) s = .next (completeDesc s f r i stParam)) ∧
  (∀ (f r i n : Nat) (d : Desc) (x : Sector) (s : State), rowDesc s f r i 0x22 = some d → n = bits (ow d.bytes 8) 5 0 → getSector s n = some x →
    (x.owner ≠ f → exec (.sectorRelease f r i) s = .next (failDesc s f r i stNotOwner)) ∧
    (x.owner = f → x.model.isSome = true → exec (.sectorRelease f r i) s = .next (completeDesc s f r i stParam)) ∧
    (x.owner = f → x.model = none → x.releasing = none → exec (.sectorRelease f r i) s =
      .next (releaseDue (setPhase (setSector s n (some { x with releasing := some (r * 65536 + i) })) d .working) n))) ∧
  (∀ (f r i : Nat) (d : Desc) (s : State), rowDesc s f r i 0x23 = some d → bits (ow d.bytes 8) 7 0 = 1 → exec (.setQuota f r i) s =
    .next (completeDesc (regSet s (fnBase (bits (ow d.bytes 8) 21 16) + 0x2500) (BitVec.ofNat 32 (ow d.bytes 0xC))) f r i 0)) ∧
  (∀ (f r i : Nat) (d : Desc) (s : State), rowDesc s f r i 0x23 = some d → bits (ow d.bytes 8) 7 0 = 2 →
    (ow d.bytes 0xC ≤ 1 → exec (.setExpert f r i) s =
      .next (completeDesc (regSetFld s (fnBase (bits (ow d.bytes 8) 21 16)) 8 8 (ow d.bytes 0xC)) f r i 0)) ∧
    (1 < ow d.bytes 0xC → exec (.setExpert f r i) s = .next (completeDesc s f r i stParam))) ∧
  (∀ (f r i : Nat) (d : Desc) (s : State), rowDesc s f r i 0x12 = some d → d.phase = .fetched → scheduleStatus s d ≠ 0 →
    exec (.schedule f r i) s = .next (failDesc s f r i (scheduleStatus s d))) ∧
  ∀ (f r i n t : Nat) (d : Desc) (e : SchedEnt) (s u : State), rowDesc s f r i 0x12 = some d → d.phase = .fetched → scheduleStatus s d = 0 →
    n = bits (ow d.bytes 8) 5 0 → t = ow d.bytes 0xC + ow d.bytes 0x10 * 2 ^ 32 →
    e = { fn := f, ring := r, index := i, action := bits (ow d.bytes 0x14) 7 0, arg := ow d.bytes 0x18, t := t
          lateDrop := bit (ow d.bytes 0x14) 8, written := s.ftime.toNat, late := decide (t ≤ s.ftime.toNat + 1)
          due := false, fired := false, firedAt := 0 } →
    u = setPhase (setSched s n (some e)) d (.scheduled n) →
    ((s.ftime.toNat + 1 < t ∨ e.lateDrop = false) → exec (.schedule f r i) s = .next u) ∧
    (t ≤ s.ftime.toNat + 1 → e.lateDrop = true → exec (.schedule f r i) s = .next (schedEnd (bump u 0x30050) n 0x0802))

/-- The seven QUERY kinds (R404, R424, R561, R569, Table 12.12, log entry 43): each of device, function, sector, model, builtin and identity ends with the result of its kind;
a sector or a model that is not the function's own is refused; an attestation takes its nonce from the host or from memory. -/
def Obligations.QueriesComplete : Prop :=
  (∀ (f r i : Nat) (d : Desc) (s : State), rowDesc s f r i 8 = some d →
    (bits (ow d.bytes 8) 7 0 = 1 → exec (.queryDevice f r i) s = .next (queryEnd s d (deviceResult s))) ∧
    (bits (ow d.bytes 8) 7 0 = 2 → exec (.queryFunction f r i) s = .next (queryEnd s d (functionResult s d.fn))) ∧
    (bits (ow d.bytes 8) 7 0 = 7 → exec (.queryIdentity f r i) s = .next (queryEnd s d (identityResult s)))) ∧
  (∀ (f r i n : Nat) (d : Desc) (s : State), rowDesc s f r i 8 = some d → bits (ow d.bytes 8) 7 0 = 3 → n = bits (ow d.bytes 0xC) 15 0 →
    ((getSector s n).map (·.owner) = some d.fn → exec (.querySector f r i) s = .next (queryEnd s d (sectorResult s n))) ∧
    ((getSector s n).map (·.owner) ≠ some d.fn → exec (.querySector f r i) s = .next (failDesc s f r i stNotOwner))) ∧
  (∀ (f r i n : Nat) (d : Desc) (s : State), rowDesc s f r i 8 = some d → bits (ow d.bytes 8) 7 0 = 4 → n = bits (ow d.bytes 0xC) 15 0 →
    (n < 8 → exec (.queryModel f r i) s = .next (queryEnd s d (modelResult s d.fn n))) ∧
    (8 ≤ n → exec (.queryModel f r i) s = .next (failDesc s f r i stNotOwner))) ∧
  (∀ (f r i sec k : Nat) (d : Desc) (s : State), rowDesc s f r i 8 = some d → bits (ow d.bytes 8) 7 0 = 5 → sec = bits (ow d.bytes 0xC) 5 0 →
    k = bits (ow d.bytes 0xC) 11 8 → (getSector s sec).map (·.owner) = some d.fn → (getParam s d.fn k).loaded = true →
    exec (.queryBuiltin f r i) s = .next (queryEnd s d (builtinResult s d.fn sec k))) ∧
  (∀ (f r i : Nat) (d : Desc) (s : State), rowDesc s f r i 8 = some d → bits (ow d.bytes 8) 7 0 = 6 → d.phase = .fetched →
    (refAt d.bytes 0x10).kind = 0 → exec (.queryAttest f r i) s = .next (startXfer s d (refHost (refAt d.bytes 0x10)) 32)) ∧
  (∀ (f r i a : Nat) (d : Desc) (s : State), rowDesc s f r i 8 = some d → bits (ow d.bytes 8) 7 0 = 6 → d.phase = .fetched →
    (refAt d.bytes 0x10).kind ≠ 0 → refAddr s f (refAt d.bytes 0x10) 32 false = (0, a) →
    exec (.queryAttest f r i) s = .next (attestSign (engineAccess s a 32) d (readT (engineAccess s a 32) a 32))) ∧
  ∀ (f r i bad : Nat) (d : Desc) (y : Xfer) (s : State), rowDesc s f r i 8 = some d → bits (ow d.bytes 8) 7 0 = 6 →
    d.phase = .security 0 bad → xferOf s d = some y → exec (.queryAttest f r i) s = .next (attestEnd s d bad (xferBytes y))

/-! ### Jobs on a sector -/

/-- PROGRAM_LOAD, JOB_COMPLETE, DENSE_FLOOR_EXPIRY, PROGRAM_FAULT and RECV_TIMEOUT (R57, R171, R172, R180, R181, R228, R449): a sector with nothing queued, or not yet
ready, loads nothing; an image that reads as poisoned fails with 0x0120, and one that fails a check with that check's status; a job whose
every stride and entry has ended is closed; the dense floor ends a finished job; a fault stops the job with PROGRAM_FAULT. -/
def Obligations.JobsLoadAndEnd : Prop :=
  (∀ (sec jid : Nat) (l : List Nat) (x y : Sector) (j0 j : Job) (s w u : State), getSector s sec = some x → x.queue = jid :: l → getJob s jid = some j0 →
    stage5Ready s sec x = true → owesReceipt s j0 = false → w = engineAccess s j0.imageAt.base j0.imageAt.len →
    u = takeSector (modJob w jid (withPolicy w)) sec jid →
    getJob u jid = some j → getSector u sec = some y → j.kind ≠ .direct →
    (anyPoison u j.imageAt.base (Nat.min j.imageAt.len (fieldAt (memBytes u j.imageAt.base j.imageAt.len) 8 4)) = true →
      exec (.programLoad sec) s = .next (failStage5 u jid 0x0120)) ∧
    (anyPoison u j.imageAt.base (Nat.min j.imageAt.len (fieldAt (memBytes u j.imageAt.base j.imageAt.len) 8 4)) = false →
      stage5Status u j y (memBytes u j.imageAt.base j.imageAt.len) j.imageAt.len ≠ 0 →
      exec (.programLoad sec) s =
        .next (failStage5 u jid (stage5Status u j y (memBytes u j.imageAt.base j.imageAt.len) j.imageAt.len))) ∧
    (anyPoison u j.imageAt.base (Nat.min j.imageAt.len (fieldAt (memBytes u j.imageAt.base j.imageAt.len) 8 4)) = false →
      stage5Status u j y (memBytes u j.imageAt.base j.imageAt.len) j.imageAt.len = 0 → blobDense (jobBlob u j) = false →
      exec (.programLoad sec) s = .next (beginJob u sec y j (readImage (memBytes u j.imageAt.base j.imageAt.len)) 0))) ∧
  (∀ (sec : Nat) (x : Sector) (s : State), getSector s sec = some x → x.queue = [] → exec (.programLoad sec) s = .next s) ∧
  (∀ (sec : Nat) (j : Job) (s : State), runningJob s sec = some j →
    (jobOver j = true → exec (.jobComplete sec) s = .next (closeJob s j.id)) ∧ (jobOver j = false → exec (.jobComplete sec) s = .next s)) ∧
  (∀ (sec f : Nat) (j : Job) (s : State), runningJob s sec = some j → j.phase = .dense f →
    (f ≤ s.ftime.toNat → exec (.denseFloorExpiry sec) s = .next (endJob s j.id false)) ∧
    (s.ftime.toNat < f → exec (.denseFloorExpiry sec) s = .next s)) ∧
  (∀ (sec : Nat) (j : Job) (s : State), runningJob s sec = some j → j.fault ≠ none → j.phase = .running →
    exec (.programFault sec) s = .next (closeJob (modJob (addFail (quiet s sec j.id) j.id stProgram 0xFFFF true) j.id fun x => { x with
      phase := .stopping
      active := []
      written := List.range x.bindings.length }) j.id)) ∧
  ∀ (sec op : Nat) (j : Job) (w : RecvWait) (s : State), runningJob s sec = some j → (s.fab.recvs.find? fun w => w.job == j.id && w.op == op) = some w →
    w.since + recvTimeout s ≤ s.ftime.toNat → exec (.recvTimeout sec op) s =
      .next (failOp { s with fab := { s.fab with recvs := s.fab.recvs.filter (· != w) } } j.id op Operand.absent 0x0403 true)

/-- OPERATION_ISSUE, STRIDE_END and REFRESH_TABLE_COPY (R96 to R101, R154, R290 to R293, R318, log entries 9, 31, 37): the next entry of the operation table issues once its
batch has passed its checks; a batch that fails one fails whole; while an inserted refresh is under way none issues,
and it ends when every pass of its built-in program has; a stride ends when every core of the image has halted its context; a table goes to the Tile Banks of every tile of the sector. -/
def Obligations.OperationsIssueInOrder : Prop :=
  (∀ (sec : Nat) (j : Job) (s : State), runningJob s sec = some j → j.refreshing ≠ [] → exec (.operationIssue sec) s = .next s) ∧
  (∀ (sec k c tick : Nat) (l : List (Nat × Nat)) (x : Sector) (j : Job) (i : Image) (s : State), getSector s sec = some x → runningJob s sec = some j →
    j.image = some i → tget none j.active k = some builtinStride → passesOver s j [builtinStride] = true → batchJobs s j = [] →
    j.refreshing = (c, tick) :: l → exec (.strideEnd sec k) s = .next (advance (modJob (endRefresh
      (modJob (modJob s j.id fun y => { y with active := tset none y.active k none }) j.id fun y => { y with refreshing := [] })
      j j (c / 65536) (c % 65536) tick) j.id fun y => { y with passEnded := y.passEnded.filter fun p => p.members != [builtinStride] }) sec)) ∧
  (∀ (sec idx : Nat) (j : Job) (i : Image) (s : State), runningJob s sec = some j → j.phase = .running → j.image = some i → j.refreshing = [] →
    ((List.range i.ops.length).find? fun n => decide (j.opNext ≤ n) && !j.skipped.contains n) = some idx →
    (idx ∈ j.batch → exec (.operationIssue sec) s = .next (issueEntry s j.id idx)) ∧
    (idx ∉ j.batch → j.group = none → batchPlan s j i (batchAt s j i idx) = .wait → exec (.operationIssue sec) s = .next s) ∧
    (idx ∉ j.batch → j.group = none → batchPlan s j i (batchAt s j i idx) = .go →
      exec (.operationIssue sec) s = .next (passBatch s j i (batchAt s j i idx))) ∧
    (∀ op v, idx ∉ j.batch → j.group = none → batchPlan s j i (batchAt s j i idx) = .refresh op v →
      exec (.operationIssue sec) s = .next (insertRefresh s j j op v)) ∧
    (idx ∉ j.batch → j.group ≠ none → j.passed = true → exec (.operationIssue sec) s = .next (passBatch s j i [idx])) ∧
    (∀ l, idx ∉ j.batch → j.group = none → batchPlan s j i (batchAt s j i idx) = .fail l →
      exec (.operationIssue sec) s = .next (failBatch s j i l)) ∧
    (idx ∉ j.batch → j.group ≠ none → j.passed = false → exec (.operationIssue sec) s = .next (issueGroup s j i))) ∧
  (∀ (sec : Nat) (j : Job) (i : Image) (s : State), runningJob s sec = some j → j.phase = .running → j.image = some i → j.refreshing = [] →
    ((List.range i.ops.length).find? fun n => decide (j.opNext ≤ n) && !j.skipped.contains n) = none →
    exec (.operationIssue sec) s = .next (modJob s j.id fun y => { y with opNext := i.ops.length })) ∧
  (∀ (sec k n : Nat) (x : Sector) (j j1 : Job) (i : Image) (s u : State), getSector s sec = some x → runningJob s sec = some j → j.image = some i →
    tget none j.active k = some n → n ≠ builtinStride → (∀ st e, i.strides[n]? = some st → i.ops[st.opIndex]? = some e → isBuiltin j e = false) →
    (∀ g ∈ x.lcores.take i.coreCount, coreFenced s g = false ∧ (getCtx (getCore s g) k).run = .halted) →
    u = modJob s j.id (fun y => { y with stridesDone := y.stridesDone ++ [n], active := tset none y.active k none }) → getJob u j.id = some j1 →
    exec (.strideEnd sec k) s = .next (advance (finishAll u j.id (endedBy j1 i n)) sec)) ∧
  (∀ (sec k n g : Nat) (x : Sector) (j : Job) (i : Image) (s : State), getSector s sec = some x → runningJob s sec = some j → j.image = some i →
    tget none j.active k = some n → n ≠ builtinStride → (∀ st e, i.strides[n]? = some st → i.ops[st.opIndex]? = some e → isBuiltin j e = false) →
    g ∈ x.lcores.take i.coreCount → coreFenced s g = false →
    (getCtx (getCore s g) k).run = .running → haltDone (getCore s g) k = false → exec (.strideEnd sec k) s = .next s) ∧
  ∀ (sec b ts : Nat) (x : Sector) (j : Job) (t : TabBatch) (e : TabEnt) (s u v : State), getSector s sec = some x → runningJob s sec = some j →
    j.table = some ts → j.tabBatches = [t] → t.copied = false → e = tEnt (getTabs s j.fn ts).obj t.table → b = 0 →
    u = x.tiles.foldl (fun st tl => writeT st (tbBase tl + 0x2FC000)
      (((((getTabs s j.fn ts).obj.drop e.off).take e.len).map fun y => ⟨y, (getTabs s j.fn ts).poisoned.contains t.table⟩))) s →
    v = regSetPair u (fnBase j.fn + 0x2318) ((regPair u (fnBase j.fn + 0x2318) + e.len) % 2 ^ 64) → j.stats.fillEnd ≠ none → getJob v j.id = some j →
    exec (.refreshTableCopy sec) s = .next (advance (modJob v j.id fun y => { y with
      tabBatches := ((List.range y.tabBatches.length).zip y.tabBatches).map fun p => if p.1 = b then { p.2 with copied := true } else p.2
      refreshSlots := tset none y.refreshSlots b (some t.table) }) sec)

/-! ### Models and shared sectors -/

/-- SWAP_IN, STAGE_GROUP, WEIGHT_RELOAD, SECTOR_REFORM and MODEL_TILE_REPLACE (R229, R230, R232, R240, R241, R420, R585, R587, R588): a holder whose tiles are awake and zeroed gets its
weights, its staged groups and its saved state back; a group of the running model is staged into its half; poisoned units whose home is
clean are written again and counted; a sector without a running job is formed again; a fenced tile of a model is replaced by a free one.

QUANTUM_EXPIRY and SLICE_SUSPEND (R419, R420): a holder whose quantum has passed, with another sharer waiting, is due to pass on its tiles; at a point of
suspension it saves its state and passes them to the next sharer, or, without room to save, keeps them. -/
def Obligations.ModelSectorsAndTimeSlicesComplete : Prop :=
  ((∀ (sec : Nat) (x : Sector) (s : State), getSector s sec = some x → x.swapDue = true → x.holder = true → sectorZeroing s x = false →
    (∀ t ∈ x.tiles, tilePace s t ≠ 4) → x.model = none →
    exec (.swapIn sec) s = .next (advance (restoreSaved (modSector (serveDram s) sec fun y => { y with swapDue := false }) sec) sec)) ∧
  (∀ (sec : Nat) (x : Sector) (s : State), getSector s sec = some x → (x.swapDue = false ∨ x.holder = false ∨ sectorZeroing s x = true) →
    exec (.swapIn sec) s = .next s) ∧
  (∀ (sec m : Nat) (x : Sector) (q : ModelSlot) (s u : State), getSector s sec = some x → x.swapDue = true → x.holder = true → sectorZeroing s x = false →
    (∀ t ∈ x.tiles, tilePace s t ≠ 4) → x.model = some m → x.running = none → x.queue = [] →
    u = modSector (serveDram s) sec (fun y => { y with swapDue := false }) → q = getModel u x.owner m → q.confidential = false → q.refill = [] →
    exec (.swapIn sec) s =
      .next (advance (restoreSaved (bump (placeModel u x.owner m (tilePairs q)) (fnBase x.owner + 0x2210)) sec) sec)) ∧
  (∀ (sec grp m : Nat) (x : Sector) (j k : Job) (i : Image) (s u : State), getSector s sec = some x → runningJob s sec = some j → j.model = some m →
    grp < blobGroups (getModel s j.fn m).blob → x.holder = true → x.swapDue = false → sectorZeroing s x = false → j.phase = .running →
    stageable s j grp = true → j.image = some i → firstCopyDue s j i = false → u = modJob (stagerFill (stageGroup (serveDram s)
      (getModel s j.fn m) grp) j (getModel s j.fn m) grp (holdsFor s j grp)) j.id (fun y => setStaged y grp s.ftime.toNat true) → getJob u j.id = some k →
    exec (.stageGroup sec grp) s = .next (queueAllEncodes (releaseStager u k))) ∧
  (∀ (sec m : Nat) (x : Sector) (q : ModelSlot) (s : State), getSector s sec = some x → x.model = some m → q = getModel s x.owner m →
    x.running = none → x.holder = true → sectorZeroing s x = false → q.poisoned ≠ [] → (∀ p ∈ q.poisoned, homeClean s q p.1 p.2 = true) →
    exec (.weightReload sec) s = .next (setBadUnits (bumpN (q.poisoned.foldl (fun st p =>
      writeT st (tbBase (q.tiles.getD p.1 0) + 2048 * p.2) (plain ((q.blob.drop (unitSrc q.blob p.1 p.2)).take 2048))) s)
      (fnBase x.owner + 0x220C) q.poisoned.length) x.owner m [])) ∧
  (∀ (sec : Nat) (x : Sector) (s : State), getSector s sec = some x → x.reform = true → x.running = none →
    exec (.sectorReform sec) s = .next (reformSector s sec)) ∧
  ∀ (f slot u t : Nat) (q : ModelSlot) (x : Sector) (s v : State), q = getModel s f slot → (freeTiles s).find? (fun t => !s.zeroing.contains t) = some t →
    getSector s q.sector = some x → q.loaded = true → q.named = false → u ∈ q.fencedTiles → x.model = some slot → x.owner = f → x.running = none →
    v = setSector (modModel s f slot fun y => { y with tiles := y.tiles.set u t, fencedTiles := y.fencedTiles.erase u, refill := u :: y.refill })
      q.sector (some { x with tiles := (List.range nTiles).filter fun k => x.tiles.contains k || k == t, swapDue := true }) →
    exec (.modelTileReplace f slot u) s =
      .next (fenceEvent (updateSector (zeroTiles (reformSector v q.sector) [t]) q.sector) (some f) 3 0 q.sector t t (some slot))) ∧
  ((∀ (sec : Nat) (x : Sector) (s : State), getSector s sec = some x → x.holder = true → x.running ≠ none →
    x.heldSince + quantumOf s x.owner ≤ s.ftime.toNat → nextHolder s sec x.shared ≠ none →
    exec (.quantumExpiry sec) s = .next (setSector s sec (some { x with passDue := true }))) ∧
  (∀ (sec : Nat) (x : Sector) (s : State), getSector s sec = some x →
    (x.holder = false ∨ x.running = none ∨ s.ftime.toNat < x.heldSince + quantumOf s x.owner ∨ nextHolder s sec x.shared = none) →
    exec (.quantumExpiry sec) s = .next s) ∧
  (∀ (sec : Nat) (x : Sector) (j : Job) (s : State), getSector s sec = some x → runningJob s sec = some j → x.passDue = true → j.phase = .running →
    atSuspension s x j = true → takeGddr s x.owner (saveBytes s x) = none →
    exec (.sliceSuspend sec) s = .next (setSector s sec (some { x with passDue := false }))) ∧
  ∀ (sec k : Nat) (x : Sector) (j : Job) (e : Extent) (s u v w : State), getSector s sec = some x → runningJob s sec = some j → x.passDue = true →
    j.phase = .running → atSuspension s x j = true → nextHolder s sec x.shared = some k → takeGddr s x.owner (saveBytes s x) = some (e, u) →
    v = setWaiting u (u.sched.waiting.filter fun w => w.sector != sec) →
    w = setSector v sec (some { x with
      saved := some e
      savedCores := x.lcores.map fun g => (g, getCore v g)
      savedBytes := v.mem.filter fun p => isSaved v x p.1
      savedPoison := v.sramPoison.filter fun p => isSaved v x p.1 }) →
    exec (.sliceSuspend sec) s = .next (passTiles (memRegs (modJob (bump w (fnBase x.owner + 0x50)) j.id fun y => { y with
      phase := .suspended, stats := { y.stats with suspensions := y.stats.suspensions + 1 } }) x.owner) sec k))

/-! ### Encoder and Key Stream Engine -/

/-- ENCODE_REQUEST_START, ENCODE_REQUEST_DONE, KEY_PASS_ACTIVATE, KEY_BURST, KEY_SLICE_LANDED and KEY_PASS_END (R203 to R208, R284 to R287, R296, R299): a request starts once
every one of its cores has granted its credit, and sends its coefficients on; it is done when the last of them is written; a pass becomes active at the head of its dies'
queues while they have room for it, and one whose words no expander can give fails; a burst counts its bytes, and the last of a slice sends the slice; a slice that lands
counts once, in order; a pass whose every member has every slice leaves. -/
def Obligations.EncoderAndKeyPassesComplete : Prop :=
  (∀ (fe : Nat) (r : EncReq) (l m : List EncReq) (s u : State), ioStopped s fe = false →
    (tget [] s.encQ fe).filter (fun q => !q.started) = l ++ r :: m → (∀ q ∈ l, q.sector ≠ r.sector ∧ encGranted s q = false) →
    encGranted s r = true → u = emitEncode s fe r →
    exec (.encodeRequestStart fe) s = .next (queueAllEncodes { u with encQ := (tset [] u.encQ fe
      ((tget [] u.encQ fe).map fun x => if x = r then { x with started := true } else x)) })) ∧
  (∀ (fe : Nat) (s : State), ioStopped s fe = true → exec (.encodeRequestStart fe) s = .next s) ∧
  (∀ (fe : Nat) (s : State), (∀ r ∈ tget [] s.encQ fe, r.started = false → encGranted s r = false) →
    exec (.encodeRequestStart fe) s = .next s) ∧
  (∀ (fe : Nat) (r : EncReq) (s : State), (tget [] s.encQ fe).find? (·.started) = some r → (∃ q ∈ s.memq, ofEncode r.id q = true) →
    exec (.encodeRequestDone fe) s = .next s) ∧
  (∀ (fe : Nat) (r : EncReq) (s : State), (tget [] s.encQ fe).find? (·.started) = some r → (∀ q ∈ s.memq, ofEncode r.id q = false) →
    r.dropped = true → exec (.encodeRequestDone fe) s = .next { s with encQ := tset [] s.encQ fe ((tget [] s.encQ fe).erase r) }) ∧
  (∀ (fe : Nat) (r : EncReq) (j : Job) (s u : State), (tget [] s.encQ fe).find? (·.started) = some r → (∀ q ∈ s.memq, ofEncode r.id q = false) →
    r.dropped = false → u = modJob (bump { s with encQ := tset [] s.encQ fe ((tget [] s.encQ fe).erase r) } (fnBase r.fn + 0x210C)) r.job (fun j => { j with
      encoded := r.opIndex :: j.encoded, stats := { j.stats with steadyEnd := some s.ftime.toNat } }) → getJob u r.job = some j →
    exec (.encodeRequestDone fe) s = .next (releaseStager u j)) ∧
  (∀ (iod : Nat) (p : Pass) (l : List Pass) (s : State), queuedPasses s iod = p :: l → iod < 2 → ioStopped s iod = false →
    (∀ d ∈ [0, 1], passOnDie s p d = true → (activePasses s d).length < 16 ∧ ∃ l, queuedPasses s d = p :: l) →
    (passEnt s p).compressed = false →
    keyAddr (keyParam s p.fn p.key) (getKeys s p.fn p.key) (0x80 + 64 * p.entry) = none →
    exec (.keyPassActivate iod) s = .next (requestNext ((List.range nDies).foldl updateHub
      (modPass s p.id fun x => { x with active := true, dead := false, exps := [] })))) ∧
  (∀ (iod : Nat) (p : Pass) (l : List Pass) (s : State), queuedPasses s iod = p :: l → iod < 2 → ioStopped s iod = false →
    (∀ d ∈ [0, 1], passOnDie s p d = true → (activePasses s d).length < 16 ∧ ∃ l, queuedPasses s d = p :: l) →
    (passEnt s p).compressed = true → (∀ d, d < nDies → expanderFree s d = false) →
    exec (.keyPassActivate iod) s = .next (requestNext (failPass s p))) ∧
  (∀ (b : BurstRead) (p : Pass) (i r a n : Nat) (s u v w : State), ioStopped s b.iod = false → nextPass s b.iod = some p →
    nextBurst s p b.iod = some (i, r) → burstPlace s p i r = (some a, n) →
    u = memErr (engineAccess s a n) a n b.err false → anyPoison u a n = false →
    v = modPass u p.id (fun x => { x with bursts := tset 0 x.bursts b.iod (tget 0 x.bursts b.iod + 1) }) →
    w = regSetPair { v with kseTurn := tset 0 v.kseTurn b.iod (p.id + 1) } (fnBase p.fn + 0x2318)
      ((regPair v (fnBase p.fn + 0x2318) + n) % 2 ^ 64) →
    exec (.keyBurst b) s =
      .next (if r + 1 = ceilDiv (sliceBytes w p i) 2048 ∧ passRaw w p = false then sendSlice w p i else w)) ∧
  (∀ (p mem g : Nat) (x : Pass) (s u : State), getPass s p = some x → x.dropped = false →
    (∀ y ∈ s.passes, y.job = x.job → y.groups ≠ 0 → y.first < x.first → y.slices ≤ tget 0 y.counted mem) →
    (mem, x.first + tget 0 x.counted mem) ∈ x.landed →
    u = modPass s p (fun y => { y with
      landed := y.landed.erase (mem, y.first + tget 0 x.counted mem), counted := tset 0 y.counted mem (tget 0 x.counted mem + 1) }) →
    memberCore u x mem = some g →
    (x.builtin = false → exec (.keySliceLanded p mem) s = .next (engineInc u g 2)) ∧
    (x.builtin = true → exec (.keySliceLanded p mem) s = .next (engineInc (engineInc u g 2) g 3))) ∧
  ∀ (p : Nat) (x : Pass) (s : State), getPass s p = some x → x.dropped = false → x.active = true → passRead s x = true → x.builtin = false →
    (∀ m ∈ passMembers x, memberCore s x m = none ∨ tget 0 x.counted m = x.slices) →
    exec (.keyPassEnd p) s = .next (advanceAll (requestNext ((List.range nDies).foldl updateHub
      (modJob (bump { s with passes := s.passes.filter fun y => y.id != p } (fnBase x.fn + 0x2310)) x.job
        fun j => { j with stats := { j.stats with passes := j.stats.passes + 1 } }))))

/-! ### Fencing and the security unit -/

/-- HARDWARE_CHECK, FEN_CMD_FENCE, FEN_CMD_UNFENCE and FEN_CMD_READ (R584, R585, R589, R601): a first check of a core stops the work on it and asks for a test of its tile, a
second one in the same start fences it with cause 4, one of a tile's shared parts fences the tile with cause 6; a command fences with
cause 8, an unfence takes effect on the map, for the next start, and is denied to a fused or failed unit. -/
def Obligations.FencingCommandsComplete : Prop :=
  (∀ (g : Nat) (s : State), s.start.phase = 8 → g < 26112 → tileFenced s (g / 64) = false → coreFenced s g = false → g ∈ s.start.hwChecked →
    exec (.hardwareCheck g 0) s = .next (fenceCore (bump (raiseSrc s (dieOfTile (g / 64)) (2 + g / 64 % 34)) 0xC0F04) g 4)) ∧
  (∀ (t unit : Nat) (s : State), s.start.phase = 8 → t < 408 → unit ≠ 0 → tileFenced s t = false →
    exec (.hardwareCheck t unit) s = .next (fenceTile (bump (raiseSrc s (dieOfTile t) (2 + t % 34)) 0xC0F04) t 6)) ∧
  (∀ (g : Nat) (s u : State), s.start.phase = 8 → g < 26112 → tileFenced s (g / 64) = false → coreFenced s g = false → g ∉ s.start.hwChecked →
    u = bump (raiseSrc s (dieOfTile (g / 64)) (2 + g / 64 % 34)) 0xC0F04 →
    sectorsWith { u with start := { u.start with hwChecked := s.start.hwChecked ++ [g] } } (g / 64) = [] →
    exec (.hardwareCheck g 0) s = .next (mntNeed { u with start := { u.start with hwChecked := s.start.hwChecked ++ [g] } } 2 (2 ^ 20 + g / 64))) ∧
  (∀ (n : Nat) (s : State), s.start.phase = 8 → fenUnit s = (true, n) → exec .fenCmdFence s = .next (fenceTile s n 8)) ∧
  (∀ (n : Nat) (s : State), s.start.phase = 8 → fenUnit s = (false, n) → exec .fenCmdFence s = .next (fenceCore s n 8)) ∧
  (∀ (n : Nat) (s : State), s.start.phase = 8 → fenUnit s = (true, n) → n < 408 → (fenState s true n = 1 ∨ fenState s true n = 3) →
    exec .fenCmdUnfence s = .next (regSetFld s 0xC000C 16 16 1)) ∧
  (∀ (n : Nat) (s : State), s.start.phase = 8 → fenUnit s = (true, n) → n < 408 → fenState s true n = 2 → n ∈ s.start.field.tiles →
    exec .fenCmdUnfence s = .next (writeField s fun m => { m with tiles := m.tiles.filter (· != n) })) ∧
  (∀ (n : Nat) (s : State), s.start.phase = 8 → fenUnit s = (false, n) → n < 26112 → fenState s false n = 2 → n ∈ s.start.field.cores →
    exec .fenCmdUnfence s = .next (writeField s fun m => { m with cores := m.cores.filter (· != n) })) ∧
  ∀ (tile : Bool) (n : Nat) (s : State), s.start.phase = 8 → fenUnit s = (tile, n) → n < (if tile then 408 else 26112) → s.Inv →
    ∃ t, exec .fenCmdRead s = .next t ∧ regFld t 0xC000C 31 30 = fenState s tile n ∧ t = regSetFld s 0xC000C 31 30 (fenState s tile n)

/-- PKE_YIELD, PKE_JOB_END, DRBG_HEALTH_FAIL and HASH_LANE_DIGEST_DONE (R549 to R554, R556): at a yield point a shorter job takes the engine over, and is counted; a job that
ends tells its owner, and a signature that fails its check ends with INTERNAL_FAULT and a record; a failed health test sets the fault and fails
every waiting job; a lane that is done takes the next digest. -/
def Obligations.SecurityEnginesComplete : Prop :=
  (∀ (cyc c : Nat) (j k : PkeJob) (s u : State), s.pke.current = some c → (s.pke.jobs.find? fun j => j.id == c) = some j → cyc < j.remaining →
    j.owner ≠ .nobody → u = { s with pke := { s.pke with jobs := s.pke.jobs.map fun x => if x.id = j.id then { j with remaining := j.remaining - cyc } else x } } →
    pkePick u = some k → k.remaining < j.remaining - cyc → exec (.pkeYield cyc) s = .next (pkeNext (pkeRun (bump u 0x90308) k))) ∧
  (∀ (cyc c : Nat) (j : PkeJob) (s : State), s.pke.current = some c → (s.pke.jobs.find? fun j => j.id == c) = some j → cyc < j.remaining →
    j.owner = .nobody → exec (.pkeYield cyc) s = .next (pkeNext (pkeEnded s j))) ∧
  (∀ (j : Nat) (x : PkeJob) (s : State), (s.pke.jobs.find? fun x => x.id == j) = some x → s.pke.current = some j →
    exec (.pkeJobEnd j .done) s = .next (pkeNext (secDone (raiseSrc (bump (pkeDrop s x) 0x90300) 12 31) x.owner 0))) ∧
  (∀ (j : Nat) (x : PkeJob) (s u : State), (s.pke.jobs.find? fun x => x.id == j) = some x → s.pke.current = some j → (x.op = 2 ∨ x.op = 8) →
    u = raiseSrc (bump (pkeDrop s x) 0x90300) 12 31 → exec (.pkeJobEnd j .selfFail) s =
      .next (pkeNext (secDone (dayEvent (bump u 0x9030C) 0x0A01 12 0 [x.op, secFn s x.owner]) x.owner stInternal))) ∧
  (∀ (test : Nat) (s : State), s.pke.overflow = [] → s.Inv → ∃ t, exec (.drbgHealthFail test) s = .next t ∧
    t = dayEvent (regSetFld s 0xA0000 3 3 1) 0x0A02 12 0 [test] ∧ t.pke = s.pke) ∧
  ∀ (lane : Nat) (h : HashTask) (s : State), tget none s.pke.lanes lane = some h → exec (.hashLaneDigestDone lane) s =
    .next (secDone (hashAssign 1 { s with pke := { s.pke with lanes := tset none s.pke.lanes lane none } }) h.owner 0)

/-- CURVE_LOAD, CURVE_CHECK_END, CURVE_CLEAR, CURVE_READ, SIGNER_WRITE, SIGNER_CLEAR and SIGNER_READ (R557, R564, R573): only slots 4 to 7 are loaded and cleared, and not in use
(0x0605); parameters that fail their check leave the slot and show 0x0604; a locked function's signers do not change and set the denied
bit; a read shows the algorithm, whether the slot holds a key, and its digest. -/
def Obligations.CurvesAndSignersComplete : Prop :=
  (∀ (slot : Nat) (s : State), curveBusy s = false → 4 ≤ slot → slot < 8 → curveInUse s slot = true →
    exec (.curveLoad slot) s = .next (regSetFld s 0x9000C 15 0 0x0605) ∧ exec (.curveClear slot) s = .next (regSetFld s 0x9000C 15 0 0x0605)) ∧
  (∀ (slot : Nat) (s : State), (slot < 4 ∨ 8 ≤ slot) → exec (.curveLoad slot) s = .next s ∧ exec (.curveClear slot) s = .next s) ∧
  (∀ (slot : Nat) (s : State), curveBusy s = false → 4 ≤ slot → slot < 8 → curveInUse s slot = false → drbgFault s = false →
    exec (.curveLoad slot) s = .next (pkeSubmit (regSetFld { s with pke := { s.pke with
      checking := some (slot, (List.range 128).map fun w => regGet s (0x90100 + 4 * w)) } } 0x9000C 16 16 1) .curve 10 0 none)) ∧
  (∀ (slot : Nat) (s : State), curveBusy s = false → 4 ≤ slot → slot < 8 → curveInUse s slot = false →
    exec (.curveClear slot) s = .next (regSetFld (regSetFld { s with pke := { s.pke with curves := tset [] s.pke.curves slot [] } }
      0x9000C (24 + slot) (24 + slot) 0) 0x9000C 15 0 0)) ∧
  (∀ (slot k : Nat) (s : State), curveBusy s = false → slot < 8 → k < 128 → s.Inv →
    ∃ t, exec (.curveRead slot) s = .next t ∧ regGet t (0x90100 + 4 * k) = (curveAt s slot).getD k 0) ∧
  (∀ (slot : Nat) (ws : List Word) (s u : State), s.pke.checking = some (slot, ws) → (∀ j ∈ s.pke.jobs ++ s.pke.overflow, j.owner ≠ .curve) →
    u = regSetFld { s with pke := { s.pke with checking := none } } 0x9000C 16 16 0 →
    (curveOk ws = true → exec .curveCheckEnd s = .next (regSetFld (regSetFld { u with pke := { u.pke with curves := tset [] u.pke.curves slot ws } }
      0x9000C (24 + slot) (24 + slot) 1) 0x9000C 15 0 0)) ∧
    (curveOk ws = false → exec .curveCheckEnd s = .next (regSetFld u 0x9000C 15 0 0x0604))) ∧
  (∀ (f slot : Nat) (s : State), signerLocked s f = true →
    exec (.signerWrite f slot) s = .next (regSetFld s 0xA001C 0 0 1) ∧ exec (.signerClear f slot) s = .next (regSetFld s 0xA001C 0 0 1)) ∧
  (∀ (f slot : Nat) (s : State), signerLocked s f = false → algOk (regFld s 0xA0014 7 0) = true → f < 64 → slot < 4 →
    exec (.signerWrite f slot) s = .next (setSigner s f slot (some (regFld s 0xA0014 7 0,
      (List.range 12).flatMap fun w => leBytes 4 (regGet s (0xA0040 + 4 * w)).toNat)))) ∧
  (∀ (f slot : Nat) (s : State), signerLocked s f = false → f < 64 → slot < 4 →
    exec (.signerClear f slot) s = .next (setSigner s f slot none)) ∧
  ∀ (f slot a k : Nat) (d : List Byte) (s : State), tget none (getFn s f).signers slot = some (a, d) → k < 12 → s.Inv →
    ∃ t, exec (.signerRead f slot) s = .next t ∧ regFld t 0xA0014 7 0 = a % 256 ∧ regFld t 0xA001C 31 31 = 1 ∧
      regGet t (0xA0040 + 4 * k) = BitVec.ofNat 32 (fieldAt d (4 * k) 4)

/-! ### Memory, handles and counters -/

/-- Bytes written to device memory read back, in order, every other address reads as before, and the memory keeps its one canonical form. -/
def Obligations.MemoryReadsBackWhatIsWritten : Prop :=
  ∀ (s : State) (a : Nat) (bs : List Byte), s.Inv →
    (∀ i, i < bs.length → memByte (setBytes s a bs) (a + i) = bs.getD i 0) ∧
    (∀ x, x < a ∨ a + bs.length ≤ x → memByte (setBytes s a bs) x = memByte s x) ∧ Memory.wf (setBytes s a bs).mem = true

/-- Freeing a handle (R361) advances the generation of its index by 1, with 1,023 followed by 1, and makes the index free: the handle then
resolves to STALE_HANDLE for its function, NOT_OWNER for any other. -/
def Obligations.FreedHandlesAreStale : Prop :=
  ∀ (s : State) (f i gen : Nat) (b : Buf), f < 64 → i < 2 ^ 16 → gen < 2 ^ 10 → s.Inv → twf Buf.free (getFn s f).bufs = true →
    resolve s f (handleOf f gen i) = (0, b) →
    ∃ x, getBuf (freeBuf s (handleOf f gen i)) f i = x ∧ x.live = false ∧ x.gen = (if b.gen = 1023 then 1 else b.gen + 1) ∧
      (resolve (freeBuf s (handleOf f gen i)) f (handleOf f gen i)).1 = stStale ∧
      ∀ g, g ≠ f → (resolve (freeBuf s (handleOf f gen i)) g (handleOf f gen i)).1 = stNotOwner

/-- An event counter saturates at 0xFFFF_FFFF (R103, R138), and an advance of one register leaves every other. -/
def Obligations.CountersSaturate : Prop :=
  ∀ (s : State) (o n : Nat), s.Inv →
    (regGet (bumpN s o n) o).toNat = Nat.min ((regGet s o).toNat + n) 0xFFFFFFFF ∧ ∀ p, p ≠ o → regGet (bumpN s o n) p = regGet s p

/-- The claim stacks of the Event Interrupt Controllers (R536): priorities of four bits, each above the one below it, so that a stack
never holds more than 16 entries; every step from a state with such stacks ends in one. -/
def Obligations.ClaimStacksStayOrdered : Prop :=
  ∀ s t : State, (∀ x ∈ s.eicStack, x.2.Pairwise (fun a b => b.2 < a.2) ∧ ∀ y ∈ x.2, y.2 < 16) → step s = .next t →
    (∀ x ∈ t.eicStack, x.2.Pairwise (fun a b => b.2 < a.2) ∧ ∀ y ∈ x.2, y.2 < 16) ∧ ∀ e i, (eicStack t e i).length ≤ 16
end

