-- ==== Sys2Proof/Laws/State.lean ====
section
/-! SUPPORT. What each named update of State does to each of its fields: the one that it sets takes the new value, every
other keeps its own. -/

namespace Sys2Proof.Machine

variable (s : State)

/-! regSet -/
@[simp] theorem regSet_regs (o : Nat) (v : Word) : (regSet s o v).regs = tset (regReset o) s.regs o v := rfl
@[simp] theorem regSet_shadows (o : Nat) (v : Word) : (regSet s o v).shadows = s.shadows := rfl
@[simp] theorem regSet_holds (o : Nat) (v : Word) : (regSet s o v).holds = s.holds := rfl
@[simp] theorem regSet_mem (o : Nat) (v : Word) : (regSet s o v).mem = s.mem := rfl
@[simp] theorem regSet_memq (o : Nat) (v : Word) : (regSet s o v).memq = s.memq := rfl
@[simp] theorem regSet_cores (o : Nat) (v : Word) : (regSet s o v).cores = s.cores := rfl
@[simp] theorem regSet_fns (o : Nat) (v : Word) : (regSet s o v).fns = s.fns := rfl
@[simp] theorem regSet_sectors (o : Nat) (v : Word) : (regSet s o v).sectors = s.sectors := rfl
@[simp] theorem regSet_jobs (o : Nat) (v : Word) : (regSet s o v).jobs = s.jobs := rfl
@[simp] theorem regSet_zombies (o : Nat) (v : Word) : (regSet s o v).zombies = s.zombies := rfl
@[simp] theorem regSet_encQ (o : Nat) (v : Word) : (regSet s o v).encQ = s.encQ := rfl
@[simp] theorem regSet_passes (o : Nat) (v : Word) : (regSet s o v).passes = s.passes := rfl
@[simp] theorem regSet_xfers (o : Nat) (v : Word) : (regSet s o v).xfers = s.xfers := rfl
@[simp] theorem regSet_batches (o : Nat) (v : Word) : (regSet s o v).batches = s.batches := rfl
@[simp] theorem regSet_zeroing (o : Nat) (v : Word) : (regSet s o v).zeroing = s.zeroing := rfl
@[simp] theorem regSet_day (o : Nat) (v : Word) : (regSet s o v).day = s.day := rfl
@[simp] theorem regSet_keeper (o : Nat) (v : Word) : (regSet s o v).keeper = s.keeper := rfl
@[simp] theorem regSet_eicStack (o : Nat) (v : Word) : (regSet s o v).eicStack = s.eicStack := rfl
@[simp] theorem regSet_start (o : Nat) (v : Word) : (regSet s o v).start = s.start := rfl
@[simp] theorem regSet_maint (o : Nat) (v : Word) : (regSet s o v).maint = s.maint := rfl
@[simp] theorem regSet_sched (o : Nat) (v : Word) : (regSet s o v).sched = s.sched := rfl
@[simp] theorem regSet_pke (o : Nat) (v : Word) : (regSet s o v).pke = s.pke := rfl
@[simp] theorem regSet_fab (o : Nat) (v : Word) : (regSet s o v).fab = s.fab := rfl
@[simp] theorem regSet_ftime (o : Nat) (v : Word) : (regSet s o v).ftime = s.ftime := rfl
@[simp] theorem regSet_outputs (o : Nat) (v : Word) : (regSet s o v).outputs = s.outputs := rfl
@[simp] theorem regSet_free (o : Nat) (v : Word) : (regSet s o v).free = s.free := rfl
@[simp] theorem regSet_pending (o : Nat) (v : Word) : (regSet s o v).pending = s.pending := rfl
@[simp] theorem regSet_sramPoison (o : Nat) (v : Word) : (regSet s o v).sramPoison = s.sramPoison := rfl
@[simp] theorem regSet_poison0 (o : Nat) (v : Word) : (regSet s o v).poison0 = s.poison0 := rfl
@[simp] theorem regSet_poison1 (o : Nat) (v : Word) : (regSet s o v).poison1 = s.poison1 := rfl
@[simp] theorem regSet_memSeq (o : Nat) (v : Word) : (regSet s o v).memSeq = s.memSeq := rfl
@[simp] theorem regSet_moves (o : Nat) (v : Word) : (regSet s o v).moves = s.moves := rfl
@[simp] theorem regSet_moveSeq (o : Nat) (v : Word) : (regSet s o v).moveSeq = s.moveSeq := rfl
@[simp] theorem regSet_bankScrub (o : Nat) (v : Word) : (regSet s o v).bankScrub = s.bankScrub := rfl
@[simp] theorem regSet_dramScrub (o : Nat) (v : Word) : (regSet s o v).dramScrub = s.dramScrub := rfl
@[simp] theorem regSet_bufEvents (o : Nat) (v : Word) : (regSet s o v).bufEvents = s.bufEvents := rfl
@[simp] theorem regSet_jobSeq (o : Nat) (v : Word) : (regSet s o v).jobSeq = s.jobSeq := rfl
@[simp] theorem regSet_gddrUsed (o : Nat) (v : Word) : (regSet s o v).gddrUsed = s.gddrUsed := rfl
@[simp] theorem regSet_hbmUsed (o : Nat) (v : Word) : (regSet s o v).hbmUsed = s.hbmUsed := rfl
@[simp] theorem regSet_passSeq (o : Nat) (v : Word) : (regSet s o v).passSeq = s.passSeq := rfl
@[simp] theorem regSet_kseTurn (o : Nat) (v : Word) : (regSet s o v).kseTurn = s.kseTurn := rfl
@[simp] theorem regSet_xferSeq (o : Nat) (v : Word) : (regSet s o v).xferSeq = s.xferSeq := rfl

/-! setCore -/
@[simp] theorem setCore_regs (g : Nat) (c : Core) : (setCore s g c).regs = s.regs := rfl
@[simp] theorem setCore_shadows (g : Nat) (c : Core) : (setCore s g c).shadows = s.shadows := rfl
@[simp] theorem setCore_holds (g : Nat) (c : Core) : (setCore s g c).holds = s.holds := rfl
@[simp] theorem setCore_mem (g : Nat) (c : Core) : (setCore s g c).mem = s.mem := rfl
@[simp] theorem setCore_memq (g : Nat) (c : Core) : (setCore s g c).memq = s.memq := rfl
@[simp] theorem setCore_cores (g : Nat) (c : Core) : (setCore s g c).cores = tset Core.fresh s.cores g c := rfl
@[simp] theorem setCore_fns (g : Nat) (c : Core) : (setCore s g c).fns = s.fns := rfl
@[simp] theorem setCore_sectors (g : Nat) (c : Core) : (setCore s g c).sectors = s.sectors := rfl
@[simp] theorem setCore_jobs (g : Nat) (c : Core) : (setCore s g c).jobs = s.jobs := rfl
@[simp] theorem setCore_zombies (g : Nat) (c : Core) : (setCore s g c).zombies = s.zombies := rfl
@[simp] theorem setCore_encQ (g : Nat) (c : Core) : (setCore s g c).encQ = s.encQ := rfl
@[simp] theorem setCore_passes (g : Nat) (c : Core) : (setCore s g c).passes = s.passes := rfl
@[simp] theorem setCore_xfers (g : Nat) (c : Core) : (setCore s g c).xfers = s.xfers := rfl
@[simp] theorem setCore_batches (g : Nat) (c : Core) : (setCore s g c).batches = s.batches := rfl
@[simp] theorem setCore_zeroing (g : Nat) (c : Core) : (setCore s g c).zeroing = s.zeroing := rfl
@[simp] theorem setCore_day (g : Nat) (c : Core) : (setCore s g c).day = s.day := rfl
@[simp] theorem setCore_keeper (g : Nat) (c : Core) : (setCore s g c).keeper = s.keeper := rfl
@[simp] theorem setCore_eicStack (g : Nat) (c : Core) : (setCore s g c).eicStack = s.eicStack := rfl
@[simp] theorem setCore_start (g : Nat) (c : Core) : (setCore s g c).start = s.start := rfl
@[simp] theorem setCore_maint (g : Nat) (c : Core) : (setCore s g c).maint = s.maint := rfl
@[simp] theorem setCore_sched (g : Nat) (c : Core) : (setCore s g c).sched = s.sched := rfl
@[simp] theorem setCore_pke (g : Nat) (c : Core) : (setCore s g c).pke = s.pke := rfl
@[simp] theorem setCore_fab (g : Nat) (c : Core) : (setCore s g c).fab = s.fab := rfl
@[simp] theorem setCore_ftime (g : Nat) (c : Core) : (setCore s g c).ftime = s.ftime := rfl
@[simp] theorem setCore_outputs (g : Nat) (c : Core) : (setCore s g c).outputs = s.outputs := rfl
@[simp] theorem setCore_free (g : Nat) (c : Core) : (setCore s g c).free = s.free := rfl
@[simp] theorem setCore_pending (g : Nat) (c : Core) : (setCore s g c).pending = s.pending := rfl
@[simp] theorem setCore_sramPoison (g : Nat) (c : Core) : (setCore s g c).sramPoison = s.sramPoison := rfl
@[simp] theorem setCore_poison0 (g : Nat) (c : Core) : (setCore s g c).poison0 = s.poison0 := rfl
@[simp] theorem setCore_poison1 (g : Nat) (c : Core) : (setCore s g c).poison1 = s.poison1 := rfl
@[simp] theorem setCore_memSeq (g : Nat) (c : Core) : (setCore s g c).memSeq = s.memSeq := rfl
@[simp] theorem setCore_moves (g : Nat) (c : Core) : (setCore s g c).moves = s.moves := rfl
@[simp] theorem setCore_moveSeq (g : Nat) (c : Core) : (setCore s g c).moveSeq = s.moveSeq := rfl
@[simp] theorem setCore_bankScrub (g : Nat) (c : Core) : (setCore s g c).bankScrub = s.bankScrub := rfl
@[simp] theorem setCore_dramScrub (g : Nat) (c : Core) : (setCore s g c).dramScrub = s.dramScrub := rfl
@[simp] theorem setCore_bufEvents (g : Nat) (c : Core) : (setCore s g c).bufEvents = s.bufEvents := rfl
@[simp] theorem setCore_jobSeq (g : Nat) (c : Core) : (setCore s g c).jobSeq = s.jobSeq := rfl
@[simp] theorem setCore_gddrUsed (g : Nat) (c : Core) : (setCore s g c).gddrUsed = s.gddrUsed := rfl
@[simp] theorem setCore_hbmUsed (g : Nat) (c : Core) : (setCore s g c).hbmUsed = s.hbmUsed := rfl
@[simp] theorem setCore_passSeq (g : Nat) (c : Core) : (setCore s g c).passSeq = s.passSeq := rfl
@[simp] theorem setCore_kseTurn (g : Nat) (c : Core) : (setCore s g c).kseTurn = s.kseTurn := rfl
@[simp] theorem setCore_xferSeq (g : Nat) (c : Core) : (setCore s g c).xferSeq = s.xferSeq := rfl

/-! setFn -/
@[simp] theorem setFn_regs (f : Nat) (x : Fn) : (setFn s f x).regs = s.regs := rfl
@[simp] theorem setFn_shadows (f : Nat) (x : Fn) : (setFn s f x).shadows = s.shadows := rfl
@[simp] theorem setFn_holds (f : Nat) (x : Fn) : (setFn s f x).holds = s.holds := rfl
@[simp] theorem setFn_mem (f : Nat) (x : Fn) : (setFn s f x).mem = s.mem := rfl
@[simp] theorem setFn_memq (f : Nat) (x : Fn) : (setFn s f x).memq = s.memq := rfl
@[simp] theorem setFn_cores (f : Nat) (x : Fn) : (setFn s f x).cores = s.cores := rfl
@[simp] theorem setFn_fns (f : Nat) (x : Fn) : (setFn s f x).fns = tset Fn.fresh s.fns f x := rfl
@[simp] theorem setFn_sectors (f : Nat) (x : Fn) : (setFn s f x).sectors = s.sectors := rfl
@[simp] theorem setFn_jobs (f : Nat) (x : Fn) : (setFn s f x).jobs = s.jobs := rfl
@[simp] theorem setFn_zombies (f : Nat) (x : Fn) : (setFn s f x).zombies = s.zombies := rfl
@[simp] theorem setFn_encQ (f : Nat) (x : Fn) : (setFn s f x).encQ = s.encQ := rfl
@[simp] theorem setFn_passes (f : Nat) (x : Fn) : (setFn s f x).passes = s.passes := rfl
@[simp] theorem setFn_xfers (f : Nat) (x : Fn) : (setFn s f x).xfers = s.xfers := rfl
@[simp] theorem setFn_batches (f : Nat) (x : Fn) : (setFn s f x).batches = s.batches := rfl
@[simp] theorem setFn_zeroing (f : Nat) (x : Fn) : (setFn s f x).zeroing = s.zeroing := rfl
@[simp] theorem setFn_day (f : Nat) (x : Fn) : (setFn s f x).day = s.day := rfl
@[simp] theorem setFn_keeper (f : Nat) (x : Fn) : (setFn s f x).keeper = s.keeper := rfl
@[simp] theorem setFn_eicStack (f : Nat) (x : Fn) : (setFn s f x).eicStack = s.eicStack := rfl
@[simp] theorem setFn_start (f : Nat) (x : Fn) : (setFn s f x).start = s.start := rfl
@[simp] theorem setFn_maint (f : Nat) (x : Fn) : (setFn s f x).maint = s.maint := rfl
@[simp] theorem setFn_sched (f : Nat) (x : Fn) : (setFn s f x).sched = s.sched := rfl
@[simp] theorem setFn_pke (f : Nat) (x : Fn) : (setFn s f x).pke = s.pke := rfl
@[simp] theorem setFn_fab (f : Nat) (x : Fn) : (setFn s f x).fab = s.fab := rfl
@[simp] theorem setFn_ftime (f : Nat) (x : Fn) : (setFn s f x).ftime = s.ftime := rfl
@[simp] theorem setFn_outputs (f : Nat) (x : Fn) : (setFn s f x).outputs = s.outputs := rfl
@[simp] theorem setFn_free (f : Nat) (x : Fn) : (setFn s f x).free = s.free := rfl
@[simp] theorem setFn_pending (f : Nat) (x : Fn) : (setFn s f x).pending = s.pending := rfl
@[simp] theorem setFn_sramPoison (f : Nat) (x : Fn) : (setFn s f x).sramPoison = s.sramPoison := rfl
@[simp] theorem setFn_poison0 (f : Nat) (x : Fn) : (setFn s f x).poison0 = s.poison0 := rfl
@[simp] theorem setFn_poison1 (f : Nat) (x : Fn) : (setFn s f x).poison1 = s.poison1 := rfl
@[simp] theorem setFn_memSeq (f : Nat) (x : Fn) : (setFn s f x).memSeq = s.memSeq := rfl
@[simp] theorem setFn_moves (f : Nat) (x : Fn) : (setFn s f x).moves = s.moves := rfl
@[simp] theorem setFn_moveSeq (f : Nat) (x : Fn) : (setFn s f x).moveSeq = s.moveSeq := rfl
@[simp] theorem setFn_bankScrub (f : Nat) (x : Fn) : (setFn s f x).bankScrub = s.bankScrub := rfl
@[simp] theorem setFn_dramScrub (f : Nat) (x : Fn) : (setFn s f x).dramScrub = s.dramScrub := rfl
@[simp] theorem setFn_bufEvents (f : Nat) (x : Fn) : (setFn s f x).bufEvents = s.bufEvents := rfl
@[simp] theorem setFn_jobSeq (f : Nat) (x : Fn) : (setFn s f x).jobSeq = s.jobSeq := rfl
@[simp] theorem setFn_gddrUsed (f : Nat) (x : Fn) : (setFn s f x).gddrUsed = s.gddrUsed := rfl
@[simp] theorem setFn_hbmUsed (f : Nat) (x : Fn) : (setFn s f x).hbmUsed = s.hbmUsed := rfl
@[simp] theorem setFn_passSeq (f : Nat) (x : Fn) : (setFn s f x).passSeq = s.passSeq := rfl
@[simp] theorem setFn_kseTurn (f : Nat) (x : Fn) : (setFn s f x).kseTurn = s.kseTurn := rfl
@[simp] theorem setFn_xferSeq (f : Nat) (x : Fn) : (setFn s f x).xferSeq = s.xferSeq := rfl

/-! setSector -/
@[simp] theorem setSector_regs (n : Nat) (x : Option Sector) : (setSector s n x).regs = s.regs := rfl
@[simp] theorem setSector_shadows (n : Nat) (x : Option Sector) : (setSector s n x).shadows = s.shadows := rfl
@[simp] theorem setSector_holds (n : Nat) (x : Option Sector) : (setSector s n x).holds = s.holds := rfl
@[simp] theorem setSector_mem (n : Nat) (x : Option Sector) : (setSector s n x).mem = s.mem := rfl
@[simp] theorem setSector_memq (n : Nat) (x : Option Sector) : (setSector s n x).memq = s.memq := rfl
@[simp] theorem setSector_cores (n : Nat) (x : Option Sector) : (setSector s n x).cores = s.cores := rfl
@[simp] theorem setSector_fns (n : Nat) (x : Option Sector) : (setSector s n x).fns = s.fns := rfl
@[simp] theorem setSector_sectors (n : Nat) (x : Option Sector) : (setSector s n x).sectors = tset none s.sectors n x := rfl
@[simp] theorem setSector_jobs (n : Nat) (x : Option Sector) : (setSector s n x).jobs = s.jobs := rfl
@[simp] theorem setSector_zombies (n : Nat) (x : Option Sector) : (setSector s n x).zombies = s.zombies := rfl
@[simp] theorem setSector_encQ (n : Nat) (x : Option Sector) : (setSector s n x).encQ = s.encQ := rfl
@[simp] theorem setSector_passes (n : Nat) (x : Option Sector) : (setSector s n x).passes = s.passes := rfl
@[simp] theorem setSector_xfers (n : Nat) (x : Option Sector) : (setSector s n x).xfers = s.xfers := rfl
@[simp] theorem setSector_batches (n : Nat) (x : Option Sector) : (setSector s n x).batches = s.batches := rfl
@[simp] theorem setSector_zeroing (n : Nat) (x : Option Sector) : (setSector s n x).zeroing = s.zeroing := rfl
@[simp] theorem setSector_day (n : Nat) (x : Option Sector) : (setSector s n x).day = s.day := rfl
@[simp] theorem setSector_keeper (n : Nat) (x : Option Sector) : (setSector s n x).keeper = s.keeper := rfl
@[simp] theorem setSector_eicStack (n : Nat) (x : Option Sector) : (setSector s n x).eicStack = s.eicStack := rfl
@[simp] theorem setSector_start (n : Nat) (x : Option Sector) : (setSector s n x).start = s.start := rfl
@[simp] theorem setSector_maint (n : Nat) (x : Option Sector) : (setSector s n x).maint = s.maint := rfl
@[simp] theorem setSector_sched (n : Nat) (x : Option Sector) : (setSector s n x).sched = s.sched := rfl
@[simp] theorem setSector_pke (n : Nat) (x : Option Sector) : (setSector s n x).pke = s.pke := rfl
@[simp] theorem setSector_fab (n : Nat) (x : Option Sector) : (setSector s n x).fab = s.fab := rfl
@[simp] theorem setSector_ftime (n : Nat) (x : Option Sector) : (setSector s n x).ftime = s.ftime := rfl
@[simp] theorem setSector_outputs (n : Nat) (x : Option Sector) : (setSector s n x).outputs = s.outputs := rfl
@[simp] theorem setSector_free (n : Nat) (x : Option Sector) : (setSector s n x).free = s.free := rfl
@[simp] theorem setSector_pending (n : Nat) (x : Option Sector) : (setSector s n x).pending = s.pending := rfl
@[simp] theorem setSector_sramPoison (n : Nat) (x : Option Sector) : (setSector s n x).sramPoison = s.sramPoison := rfl
@[simp] theorem setSector_poison0 (n : Nat) (x : Option Sector) : (setSector s n x).poison0 = s.poison0 := rfl
@[simp] theorem setSector_poison1 (n : Nat) (x : Option Sector) : (setSector s n x).poison1 = s.poison1 := rfl
@[simp] theorem setSector_memSeq (n : Nat) (x : Option Sector) : (setSector s n x).memSeq = s.memSeq := rfl
@[simp] theorem setSector_moves (n : Nat) (x : Option Sector) : (setSector s n x).moves = s.moves := rfl
@[simp] theorem setSector_moveSeq (n : Nat) (x : Option Sector) : (setSector s n x).moveSeq = s.moveSeq := rfl
@[simp] theorem setSector_bankScrub (n : Nat) (x : Option Sector) : (setSector s n x).bankScrub = s.bankScrub := rfl
@[simp] theorem setSector_dramScrub (n : Nat) (x : Option Sector) : (setSector s n x).dramScrub = s.dramScrub := rfl
@[simp] theorem setSector_bufEvents (n : Nat) (x : Option Sector) : (setSector s n x).bufEvents = s.bufEvents := rfl
@[simp] theorem setSector_jobSeq (n : Nat) (x : Option Sector) : (setSector s n x).jobSeq = s.jobSeq := rfl
@[simp] theorem setSector_gddrUsed (n : Nat) (x : Option Sector) : (setSector s n x).gddrUsed = s.gddrUsed := rfl
@[simp] theorem setSector_hbmUsed (n : Nat) (x : Option Sector) : (setSector s n x).hbmUsed = s.hbmUsed := rfl
@[simp] theorem setSector_passSeq (n : Nat) (x : Option Sector) : (setSector s n x).passSeq = s.passSeq := rfl
@[simp] theorem setSector_kseTurn (n : Nat) (x : Option Sector) : (setSector s n x).kseTurn = s.kseTurn := rfl
@[simp] theorem setSector_xferSeq (n : Nat) (x : Option Sector) : (setSector s n x).xferSeq = s.xferSeq := rfl

/-! setJob -/
@[simp] theorem setJob_regs (j : Nat) (x : Option Job) : (setJob s j x).regs = s.regs := rfl
@[simp] theorem setJob_shadows (j : Nat) (x : Option Job) : (setJob s j x).shadows = s.shadows := rfl
@[simp] theorem setJob_holds (j : Nat) (x : Option Job) : (setJob s j x).holds = s.holds := rfl
@[simp] theorem setJob_mem (j : Nat) (x : Option Job) : (setJob s j x).mem = s.mem := rfl
@[simp] theorem setJob_memq (j : Nat) (x : Option Job) : (setJob s j x).memq = s.memq := rfl
@[simp] theorem setJob_cores (j : Nat) (x : Option Job) : (setJob s j x).cores = s.cores := rfl
@[simp] theorem setJob_fns (j : Nat) (x : Option Job) : (setJob s j x).fns = s.fns := rfl
@[simp] theorem setJob_sectors (j : Nat) (x : Option Job) : (setJob s j x).sectors = s.sectors := rfl
@[simp] theorem setJob_jobs (j : Nat) (x : Option Job) : (setJob s j x).jobs = tset none s.jobs j x := rfl
@[simp] theorem setJob_zombies (j : Nat) (x : Option Job) : (setJob s j x).zombies = s.zombies := rfl
@[simp] theorem setJob_encQ (j : Nat) (x : Option Job) : (setJob s j x).encQ = s.encQ := rfl
@[simp] theorem setJob_passes (j : Nat) (x : Option Job) : (setJob s j x).passes = s.passes := rfl
@[simp] theorem setJob_xfers (j : Nat) (x : Option Job) : (setJob s j x).xfers = s.xfers := rfl
@[simp] theorem setJob_batches (j : Nat) (x : Option Job) : (setJob s j x).batches = s.batches := rfl
@[simp] theorem setJob_zeroing (j : Nat) (x : Option Job) : (setJob s j x).zeroing = s.zeroing := rfl
@[simp] theorem setJob_day (j : Nat) (x : Option Job) : (setJob s j x).day = s.day := rfl
@[simp] theorem setJob_keeper (j : Nat) (x : Option Job) : (setJob s j x).keeper = s.keeper := rfl
@[simp] theorem setJob_eicStack (j : Nat) (x : Option Job) : (setJob s j x).eicStack = s.eicStack := rfl
@[simp] theorem setJob_start (j : Nat) (x : Option Job) : (setJob s j x).start = s.start := rfl
@[simp] theorem setJob_maint (j : Nat) (x : Option Job) : (setJob s j x).maint = s.maint := rfl
@[simp] theorem setJob_sched (j : Nat) (x : Option Job) : (setJob s j x).sched = s.sched := rfl
@[simp] theorem setJob_pke (j : Nat) (x : Option Job) : (setJob s j x).pke = s.pke := rfl
@[simp] theorem setJob_fab (j : Nat) (x : Option Job) : (setJob s j x).fab = s.fab := rfl
@[simp] theorem setJob_ftime (j : Nat) (x : Option Job) : (setJob s j x).ftime = s.ftime := rfl
@[simp] theorem setJob_outputs (j : Nat) (x : Option Job) : (setJob s j x).outputs = s.outputs := rfl
@[simp] theorem setJob_free (j : Nat) (x : Option Job) : (setJob s j x).free = s.free := rfl
@[simp] theorem setJob_pending (j : Nat) (x : Option Job) : (setJob s j x).pending = s.pending := rfl
@[simp] theorem setJob_sramPoison (j : Nat) (x : Option Job) : (setJob s j x).sramPoison = s.sramPoison := rfl
@[simp] theorem setJob_poison0 (j : Nat) (x : Option Job) : (setJob s j x).poison0 = s.poison0 := rfl
@[simp] theorem setJob_poison1 (j : Nat) (x : Option Job) : (setJob s j x).poison1 = s.poison1 := rfl
@[simp] theorem setJob_memSeq (j : Nat) (x : Option Job) : (setJob s j x).memSeq = s.memSeq := rfl
@[simp] theorem setJob_moves (j : Nat) (x : Option Job) : (setJob s j x).moves = s.moves := rfl
@[simp] theorem setJob_moveSeq (j : Nat) (x : Option Job) : (setJob s j x).moveSeq = s.moveSeq := rfl
@[simp] theorem setJob_bankScrub (j : Nat) (x : Option Job) : (setJob s j x).bankScrub = s.bankScrub := rfl
@[simp] theorem setJob_dramScrub (j : Nat) (x : Option Job) : (setJob s j x).dramScrub = s.dramScrub := rfl
@[simp] theorem setJob_bufEvents (j : Nat) (x : Option Job) : (setJob s j x).bufEvents = s.bufEvents := rfl
@[simp] theorem setJob_jobSeq (j : Nat) (x : Option Job) : (setJob s j x).jobSeq = s.jobSeq := rfl
@[simp] theorem setJob_gddrUsed (j : Nat) (x : Option Job) : (setJob s j x).gddrUsed = s.gddrUsed := rfl
@[simp] theorem setJob_hbmUsed (j : Nat) (x : Option Job) : (setJob s j x).hbmUsed = s.hbmUsed := rfl
@[simp] theorem setJob_passSeq (j : Nat) (x : Option Job) : (setJob s j x).passSeq = s.passSeq := rfl
@[simp] theorem setJob_kseTurn (j : Nat) (x : Option Job) : (setJob s j x).kseTurn = s.kseTurn := rfl
@[simp] theorem setJob_xferSeq (j : Nat) (x : Option Job) : (setJob s j x).xferSeq = s.xferSeq := rfl

/-! emit -/
@[simp] theorem emit_regs (o : Output) : (emit s o).regs = s.regs := rfl
@[simp] theorem emit_shadows (o : Output) : (emit s o).shadows = s.shadows := rfl
@[simp] theorem emit_holds (o : Output) : (emit s o).holds = s.holds := rfl
@[simp] theorem emit_mem (o : Output) : (emit s o).mem = s.mem := rfl
@[simp] theorem emit_memq (o : Output) : (emit s o).memq = s.memq := rfl
@[simp] theorem emit_cores (o : Output) : (emit s o).cores = s.cores := rfl
@[simp] theorem emit_fns (o : Output) : (emit s o).fns = s.fns := rfl
@[simp] theorem emit_sectors (o : Output) : (emit s o).sectors = s.sectors := rfl
@[simp] theorem emit_jobs (o : Output) : (emit s o).jobs = s.jobs := rfl
@[simp] theorem emit_zombies (o : Output) : (emit s o).zombies = s.zombies := rfl
@[simp] theorem emit_encQ (o : Output) : (emit s o).encQ = s.encQ := rfl
@[simp] theorem emit_passes (o : Output) : (emit s o).passes = s.passes := rfl
@[simp] theorem emit_xfers (o : Output) : (emit s o).xfers = s.xfers := rfl
@[simp] theorem emit_batches (o : Output) : (emit s o).batches = s.batches := rfl
@[simp] theorem emit_zeroing (o : Output) : (emit s o).zeroing = s.zeroing := rfl
@[simp] theorem emit_day (o : Output) : (emit s o).day = s.day := rfl
@[simp] theorem emit_keeper (o : Output) : (emit s o).keeper = s.keeper := rfl
@[simp] theorem emit_eicStack (o : Output) : (emit s o).eicStack = s.eicStack := rfl
@[simp] theorem emit_start (o : Output) : (emit s o).start = s.start := rfl
@[simp] theorem emit_maint (o : Output) : (emit s o).maint = s.maint := rfl
@[simp] theorem emit_sched (o : Output) : (emit s o).sched = s.sched := rfl
@[simp] theorem emit_pke (o : Output) : (emit s o).pke = s.pke := rfl
@[simp] theorem emit_fab (o : Output) : (emit s o).fab = s.fab := rfl
@[simp] theorem emit_ftime (o : Output) : (emit s o).ftime = s.ftime := rfl
@[simp] theorem emit_outputs (o : Output) : (emit s o).outputs = s.outputs ++ [o] := rfl
@[simp] theorem emit_free (o : Output) : (emit s o).free = s.free := rfl
@[simp] theorem emit_pending (o : Output) : (emit s o).pending = s.pending := rfl
@[simp] theorem emit_sramPoison (o : Output) : (emit s o).sramPoison = s.sramPoison := rfl
@[simp] theorem emit_poison0 (o : Output) : (emit s o).poison0 = s.poison0 := rfl
@[simp] theorem emit_poison1 (o : Output) : (emit s o).poison1 = s.poison1 := rfl
@[simp] theorem emit_memSeq (o : Output) : (emit s o).memSeq = s.memSeq := rfl
@[simp] theorem emit_moves (o : Output) : (emit s o).moves = s.moves := rfl
@[simp] theorem emit_moveSeq (o : Output) : (emit s o).moveSeq = s.moveSeq := rfl
@[simp] theorem emit_bankScrub (o : Output) : (emit s o).bankScrub = s.bankScrub := rfl
@[simp] theorem emit_dramScrub (o : Output) : (emit s o).dramScrub = s.dramScrub := rfl
@[simp] theorem emit_bufEvents (o : Output) : (emit s o).bufEvents = s.bufEvents := rfl
@[simp] theorem emit_jobSeq (o : Output) : (emit s o).jobSeq = s.jobSeq := rfl
@[simp] theorem emit_gddrUsed (o : Output) : (emit s o).gddrUsed = s.gddrUsed := rfl
@[simp] theorem emit_hbmUsed (o : Output) : (emit s o).hbmUsed = s.hbmUsed := rfl
@[simp] theorem emit_passSeq (o : Output) : (emit s o).passSeq = s.passSeq := rfl
@[simp] theorem emit_kseTurn (o : Output) : (emit s o).kseTurn = s.kseTurn := rfl
@[simp] theorem emit_xferSeq (o : Output) : (emit s o).xferSeq = s.xferSeq := rfl

/-! setByte -/
@[simp] theorem setByte_regs (a : Nat) (b : Byte) : (setByte s a b).regs = s.regs := rfl
@[simp] theorem setByte_shadows (a : Nat) (b : Byte) : (setByte s a b).shadows = s.shadows := rfl
@[simp] theorem setByte_holds (a : Nat) (b : Byte) : (setByte s a b).holds = s.holds := rfl
@[simp] theorem setByte_mem (a : Nat) (b : Byte) : (setByte s a b).mem = tset 0 s.mem a b := rfl
@[simp] theorem setByte_memq (a : Nat) (b : Byte) : (setByte s a b).memq = s.memq := rfl
@[simp] theorem setByte_cores (a : Nat) (b : Byte) : (setByte s a b).cores = s.cores := rfl
@[simp] theorem setByte_fns (a : Nat) (b : Byte) : (setByte s a b).fns = s.fns := rfl
@[simp] theorem setByte_sectors (a : Nat) (b : Byte) : (setByte s a b).sectors = s.sectors := rfl
@[simp] theorem setByte_jobs (a : Nat) (b : Byte) : (setByte s a b).jobs = s.jobs := rfl
@[simp] theorem setByte_zombies (a : Nat) (b : Byte) : (setByte s a b).zombies = s.zombies := rfl
@[simp] theorem setByte_encQ (a : Nat) (b : Byte) : (setByte s a b).encQ = s.encQ := rfl
@[simp] theorem setByte_passes (a : Nat) (b : Byte) : (setByte s a b).passes = s.passes := rfl
@[simp] theorem setByte_xfers (a : Nat) (b : Byte) : (setByte s a b).xfers = s.xfers := rfl
@[simp] theorem setByte_batches (a : Nat) (b : Byte) : (setByte s a b).batches = s.batches := rfl
@[simp] theorem setByte_zeroing (a : Nat) (b : Byte) : (setByte s a b).zeroing = s.zeroing := rfl
@[simp] theorem setByte_day (a : Nat) (b : Byte) : (setByte s a b).day = s.day := rfl
@[simp] theorem setByte_keeper (a : Nat) (b : Byte) : (setByte s a b).keeper = s.keeper := rfl
@[simp] theorem setByte_eicStack (a : Nat) (b : Byte) : (setByte s a b).eicStack = s.eicStack := rfl
@[simp] theorem setByte_start (a : Nat) (b : Byte) : (setByte s a b).start = s.start := rfl
@[simp] theorem setByte_maint (a : Nat) (b : Byte) : (setByte s a b).maint = s.maint := rfl
@[simp] theorem setByte_sched (a : Nat) (b : Byte) : (setByte s a b).sched = s.sched := rfl
@[simp] theorem setByte_pke (a : Nat) (b : Byte) : (setByte s a b).pke = s.pke := rfl
@[simp] theorem setByte_fab (a : Nat) (b : Byte) : (setByte s a b).fab = s.fab := rfl
@[simp] theorem setByte_ftime (a : Nat) (b : Byte) : (setByte s a b).ftime = s.ftime := rfl
@[simp] theorem setByte_outputs (a : Nat) (b : Byte) : (setByte s a b).outputs = s.outputs := rfl
@[simp] theorem setByte_free (a : Nat) (b : Byte) : (setByte s a b).free = s.free := rfl
@[simp] theorem setByte_pending (a : Nat) (b : Byte) : (setByte s a b).pending = s.pending := rfl
@[simp] theorem setByte_sramPoison (a : Nat) (b : Byte) : (setByte s a b).sramPoison = s.sramPoison := rfl
@[simp] theorem setByte_poison0 (a : Nat) (b : Byte) : (setByte s a b).poison0 = s.poison0 := rfl
@[simp] theorem setByte_poison1 (a : Nat) (b : Byte) : (setByte s a b).poison1 = s.poison1 := rfl
@[simp] theorem setByte_memSeq (a : Nat) (b : Byte) : (setByte s a b).memSeq = s.memSeq := rfl
@[simp] theorem setByte_moves (a : Nat) (b : Byte) : (setByte s a b).moves = s.moves := rfl
@[simp] theorem setByte_moveSeq (a : Nat) (b : Byte) : (setByte s a b).moveSeq = s.moveSeq := rfl
@[simp] theorem setByte_bankScrub (a : Nat) (b : Byte) : (setByte s a b).bankScrub = s.bankScrub := rfl
@[simp] theorem setByte_dramScrub (a : Nat) (b : Byte) : (setByte s a b).dramScrub = s.dramScrub := rfl
@[simp] theorem setByte_bufEvents (a : Nat) (b : Byte) : (setByte s a b).bufEvents = s.bufEvents := rfl
@[simp] theorem setByte_jobSeq (a : Nat) (b : Byte) : (setByte s a b).jobSeq = s.jobSeq := rfl
@[simp] theorem setByte_gddrUsed (a : Nat) (b : Byte) : (setByte s a b).gddrUsed = s.gddrUsed := rfl
@[simp] theorem setByte_hbmUsed (a : Nat) (b : Byte) : (setByte s a b).hbmUsed = s.hbmUsed := rfl
@[simp] theorem setByte_passSeq (a : Nat) (b : Byte) : (setByte s a b).passSeq = s.passSeq := rfl
@[simp] theorem setByte_kseTurn (a : Nat) (b : Byte) : (setByte s a b).kseTurn = s.kseTurn := rfl
@[simp] theorem setByte_xferSeq (a : Nat) (b : Byte) : (setByte s a b).xferSeq = s.xferSeq := rfl

/-! setEicStack -/
@[simp] theorem setEicStack_regs (e t : Nat) (l : List (Nat × Nat)) : (setEicStack s e t l).regs = s.regs := rfl
@[simp] theorem setEicStack_shadows (e t : Nat) (l : List (Nat × Nat)) : (setEicStack s e t l).shadows = s.shadows := rfl
@[simp] theorem setEicStack_holds (e t : Nat) (l : List (Nat × Nat)) : (setEicStack s e t l).holds = s.holds := rfl
@[simp] theorem setEicStack_mem (e t : Nat) (l : List (Nat × Nat)) : (setEicStack s e t l).mem = s.mem := rfl
@[simp] theorem setEicStack_memq (e t : Nat) (l : List (Nat × Nat)) : (setEicStack s e t l).memq = s.memq := rfl
@[simp] theorem setEicStack_cores (e t : Nat) (l : List (Nat × Nat)) : (setEicStack s e t l).cores = s.cores := rfl
@[simp] theorem setEicStack_fns (e t : Nat) (l : List (Nat × Nat)) : (setEicStack s e t l).fns = s.fns := rfl
@[simp] theorem setEicStack_sectors (e t : Nat) (l : List (Nat × Nat)) : (setEicStack s e t l).sectors = s.sectors := rfl
@[simp] theorem setEicStack_jobs (e t : Nat) (l : List (Nat × Nat)) : (setEicStack s e t l).jobs = s.jobs := rfl
@[simp] theorem setEicStack_zombies (e t : Nat) (l : List (Nat × Nat)) : (setEicStack s e t l).zombies = s.zombies := rfl
@[simp] theorem setEicStack_encQ (e t : Nat) (l : List (Nat × Nat)) : (setEicStack s e t l).encQ = s.encQ := rfl
@[simp] theorem setEicStack_passes (e t : Nat) (l : List (Nat × Nat)) : (setEicStack s e t l).passes = s.passes := rfl
@[simp] theorem setEicStack_xfers (e t : Nat) (l : List (Nat × Nat)) : (setEicStack s e t l).xfers = s.xfers := rfl
@[simp] theorem setEicStack_batches (e t : Nat) (l : List (Nat × Nat)) : (setEicStack s e t l).batches = s.batches := rfl
@[simp] theorem setEicStack_zeroing (e t : Nat) (l : List (Nat × Nat)) : (setEicStack s e t l).zeroing = s.zeroing := rfl
@[simp] theorem setEicStack_day (e t : Nat) (l : List (Nat × Nat)) : (setEicStack s e t l).day = s.day := rfl
@[simp] theorem setEicStack_keeper (e t : Nat) (l : List (Nat × Nat)) : (setEicStack s e t l).keeper = s.keeper := rfl
@[simp] theorem setEicStack_eicStack (e t : Nat) (l : List (Nat × Nat)) : (setEicStack s e t l).eicStack = tset [] s.eicStack (4 * e + t) l := rfl
@[simp] theorem setEicStack_start (e t : Nat) (l : List (Nat × Nat)) : (setEicStack s e t l).start = s.start := rfl
@[simp] theorem setEicStack_maint (e t : Nat) (l : List (Nat × Nat)) : (setEicStack s e t l).maint = s.maint := rfl
@[simp] theorem setEicStack_sched (e t : Nat) (l : List (Nat × Nat)) : (setEicStack s e t l).sched = s.sched := rfl
@[simp] theorem setEicStack_pke (e t : Nat) (l : List (Nat × Nat)) : (setEicStack s e t l).pke = s.pke := rfl
@[simp] theorem setEicStack_fab (e t : Nat) (l : List (Nat × Nat)) : (setEicStack s e t l).fab = s.fab := rfl
@[simp] theorem setEicStack_ftime (e t : Nat) (l : List (Nat × Nat)) : (setEicStack s e t l).ftime = s.ftime := rfl
@[simp] theorem setEicStack_outputs (e t : Nat) (l : List (Nat × Nat)) : (setEicStack s e t l).outputs = s.outputs := rfl
@[simp] theorem setEicStack_free (e t : Nat) (l : List (Nat × Nat)) : (setEicStack s e t l).free = s.free := rfl
@[simp] theorem setEicStack_pending (e t : Nat) (l : List (Nat × Nat)) : (setEicStack s e t l).pending = s.pending := rfl
@[simp] theorem setEicStack_sramPoison (e t : Nat) (l : List (Nat × Nat)) : (setEicStack s e t l).sramPoison = s.sramPoison := rfl
@[simp] theorem setEicStack_poison0 (e t : Nat) (l : List (Nat × Nat)) : (setEicStack s e t l).poison0 = s.poison0 := rfl
@[simp] theorem setEicStack_poison1 (e t : Nat) (l : List (Nat × Nat)) : (setEicStack s e t l).poison1 = s.poison1 := rfl
@[simp] theorem setEicStack_memSeq (e t : Nat) (l : List (Nat × Nat)) : (setEicStack s e t l).memSeq = s.memSeq := rfl
@[simp] theorem setEicStack_moves (e t : Nat) (l : List (Nat × Nat)) : (setEicStack s e t l).moves = s.moves := rfl
@[simp] theorem setEicStack_moveSeq (e t : Nat) (l : List (Nat × Nat)) : (setEicStack s e t l).moveSeq = s.moveSeq := rfl
@[simp] theorem setEicStack_bankScrub (e t : Nat) (l : List (Nat × Nat)) : (setEicStack s e t l).bankScrub = s.bankScrub := rfl
@[simp] theorem setEicStack_dramScrub (e t : Nat) (l : List (Nat × Nat)) : (setEicStack s e t l).dramScrub = s.dramScrub := rfl
@[simp] theorem setEicStack_bufEvents (e t : Nat) (l : List (Nat × Nat)) : (setEicStack s e t l).bufEvents = s.bufEvents := rfl
@[simp] theorem setEicStack_jobSeq (e t : Nat) (l : List (Nat × Nat)) : (setEicStack s e t l).jobSeq = s.jobSeq := rfl
@[simp] theorem setEicStack_gddrUsed (e t : Nat) (l : List (Nat × Nat)) : (setEicStack s e t l).gddrUsed = s.gddrUsed := rfl
@[simp] theorem setEicStack_hbmUsed (e t : Nat) (l : List (Nat × Nat)) : (setEicStack s e t l).hbmUsed = s.hbmUsed := rfl
@[simp] theorem setEicStack_passSeq (e t : Nat) (l : List (Nat × Nat)) : (setEicStack s e t l).passSeq = s.passSeq := rfl
@[simp] theorem setEicStack_kseTurn (e t : Nat) (l : List (Nat × Nat)) : (setEicStack s e t l).kseTurn = s.kseTurn := rfl
@[simp] theorem setEicStack_xferSeq (e t : Nat) (l : List (Nat × Nat)) : (setEicStack s e t l).xferSeq = s.xferSeq := rfl

end Sys2Proof.Machine
end

