-- ==== Sys2Proof/Laws/Table.lean ====
section
/-! SUPPORT. Laws of the sparse tables: what a read gives after a write, and that every operation keeps the canonical form. -/

namespace Sys2Proof.Machine

variable {α : Type}

theorem keysAbove_mono {b c : Nat} {t : Tbl α} (h : keysAbove c t = true) (hb : b ≤ c) : keysAbove b t = true := by
  cases t with
  | nil => rfl
  | cons p t => simp only [keysAbove, Bool.and_eq_true, decide_eq_true_eq] at *; exact ⟨by omega, h.2⟩

theorem keysAbove_tdel {b : Nat} {t : Tbl α} (k : Nat) (h : keysAbove b t = true) : keysAbove b (tdel t k) = true := by
  induction t generalizing b with
  | nil => rfl
  | cons p t ih =>
    obtain ⟨j, w⟩ := p
    simp only [keysAbove, Bool.and_eq_true, decide_eq_true_eq] at h
    simp only [tdel]
    split
    · exact keysAbove_mono h.2 (by omega)
    · simp only [keysAbove, Bool.and_eq_true, decide_eq_true_eq]
      exact ⟨h.1, ih h.2⟩

theorem keysAbove_tput {b : Nat} {t : Tbl α} (k : Nat) (v : α) (h : keysAbove b t = true) (hk : b < k) :
    keysAbove b (tput t k v) = true := by
  induction t generalizing b with
  | nil => simp [tput, keysAbove, hk]
  | cons p t ih =>
    obtain ⟨j, w⟩ := p
    simp only [keysAbove, Bool.and_eq_true, decide_eq_true_eq] at h
    simp only [tput]
    split
    · rename_i hj; simp only [keysAbove, Bool.and_eq_true, decide_eq_true_eq]; exact ⟨hk, hj, h.2⟩
    · split
      · rename_i hj; subst hj; simp only [keysAbove, Bool.and_eq_true, decide_eq_true_eq]; exact ⟨hk, h.2⟩
      · simp only [keysAbove, Bool.and_eq_true, decide_eq_true_eq]; exact ⟨h.1, ih h.2 (by omega)⟩

theorem keysAbove_filter {b : Nat} {t : Tbl α} (p : Nat × α → Bool) (h : keysAbove b t = true) :
    keysAbove b (t.filter p) = true := by
  induction t generalizing b with
  | nil => rfl
  | cons q t ih =>
    obtain ⟨j, w⟩ := q
    simp only [keysAbove, Bool.and_eq_true, decide_eq_true_eq] at h
    simp only [List.filter_cons]
    split
    · simp only [keysAbove, Bool.and_eq_true, decide_eq_true_eq]; exact ⟨h.1, ih h.2⟩
    · exact ih (keysAbove_mono h.2 (by omega))

theorem keysAbove_map {β : Type} {b : Nat} {t : Tbl α} (f : α → β) (h : keysAbove b t = true) :
    keysAbove b (t.map fun p => (p.1, f p.2)) = true := by
  induction t generalizing b with
  | nil => rfl
  | cons q t ih =>
    obtain ⟨j, w⟩ := q
    simp only [keysAbove, Bool.and_eq_true, decide_eq_true_eq] at h
    simp only [List.map_cons, keysAbove, Bool.and_eq_true, decide_eq_true_eq]
    exact ⟨h.1, ih h.2⟩

theorem kwf_tdel [DecidableEq α] {d : Nat → α} {t : Tbl α} (k : Nat) (h : kwf d t = true) : kwf d (tdel t k) = true := by
  induction t with
  | nil => rfl
  | cons p t ih =>
    obtain ⟨j, w⟩ := p
    simp only [kwf, Bool.and_eq_true, decide_eq_true_eq] at h
    simp only [tdel]
    split
    · exact h.2
    · simp only [kwf, Bool.and_eq_true, decide_eq_true_eq]
      exact ⟨⟨h.1.1, keysAbove_tdel k h.1.2⟩, ih h.2⟩

theorem kwf_tput [DecidableEq α] {d : Nat → α} {t : Tbl α} (k : Nat) {v : α} (h : kwf d t = true) (hv : v ≠ d k) :
    kwf d (tput t k v) = true := by
  induction t with
  | nil => simp [tput, kwf, keysAbove, hv]
  | cons p t ih =>
    obtain ⟨j, w⟩ := p
    have h' := h
    simp only [kwf, Bool.and_eq_true, decide_eq_true_eq] at h
    simp only [tput]
    split
    · rename_i hj
      simp only [kwf, keysAbove, Bool.and_eq_true, decide_eq_true_eq]
      exact ⟨⟨hv, hj, h.1.2⟩, h.1, h.2⟩
    · split
      · rename_i hj; subst hj
        simp only [kwf, Bool.and_eq_true, decide_eq_true_eq]
        exact ⟨⟨hv, h.1.2⟩, h.2⟩
      · simp only [kwf, Bool.and_eq_true, decide_eq_true_eq]
        exact ⟨⟨h.1.1, keysAbove_tput k v h.1.2 (by omega)⟩, ih h.2⟩

/-- A write keeps the canonical form, where the default written against is the key's own. -/
theorem kwf_tset [DecidableEq α] {d : Nat → α} {t : Tbl α} (k : Nat) (v : α) (h : kwf d t = true) :
    kwf d (tset (d k) t k v) = true := by
  unfold tset
  split
  · exact kwf_tdel k h
  · rename_i hv; exact kwf_tput k h hv

theorem kwf_filter [DecidableEq α] {d : Nat → α} {t : Tbl α} (p : Nat × α → Bool) (h : kwf d t = true) :
    kwf d (t.filter p) = true := by
  induction t with
  | nil => rfl
  | cons q t ih =>
    obtain ⟨j, w⟩ := q
    simp only [kwf, Bool.and_eq_true, decide_eq_true_eq] at h
    simp only [List.filter_cons]
    split
    · simp only [kwf, Bool.and_eq_true, decide_eq_true_eq]; exact ⟨⟨h.1.1, keysAbove_filter p h.1.2⟩, ih h.2⟩
    · exact ih h.2

/-! The same with one default. -/

theorem twf_eq_kwf [DecidableEq α] (d : α) (t : Tbl α) : twf d t = kwf (fun _ => d) t := by
  induction t with
  | nil => rfl
  | cons p t ih => simp only [twf, kwf, ih]

theorem twf_nil [DecidableEq α] (d : α) : twf d [] = true := rfl

theorem twf_tset [DecidableEq α] {d : α} {t : Tbl α} (k : Nat) (v : α) (h : twf d t = true) : twf d (tset d t k v) = true := by
  rw [twf_eq_kwf] at *; exact kwf_tset (d := fun _ => d) k v h

theorem twf_filter [DecidableEq α] {d : α} {t : Tbl α} (p : Nat × α → Bool) (h : twf d t = true) :
    twf d (t.filter p) = true := by
  rw [twf_eq_kwf] at *; exact kwf_filter p h

theorem twf_filter_ne [DecidableEq α] {d : α} {t : Tbl α} {b : Nat} (h : keysAbove b t = true) :
    twf d (t.filter fun p => decide (p.2 ≠ d)) = true := by
  induction t generalizing b with
  | nil => rfl
  | cons q t ih =>
    obtain ⟨j, w⟩ := q
    simp only [keysAbove, Bool.and_eq_true, decide_eq_true_eq] at h
    simp only [List.filter_cons]
    split
    · rename_i hw
      simp only [twf, Bool.and_eq_true]
      exact ⟨⟨hw, keysAbove_filter _ h.2⟩, ih h.2⟩
    · exact ih h.2

theorem keysAbove_of_twf [DecidableEq α] {d : α} {t : Tbl α} (h : twf d t = true) :
    ∀ p ∈ t.head?, keysAbove p.1 t.tail = true := by
  cases t with
  | nil => simp
  | cons p t => simp only [twf, Bool.and_eq_true] at h; simp [h.1.2]

/-- Changing every value keeps the canonical form. -/
theorem twf_tmap [DecidableEq α] {d : α} {t : Tbl α} (f : α → α) (h : twf d t = true) : twf d (tmap d f t) = true := by
  unfold tmap
  cases t with
  | nil => rfl
  | cons p t =>
    obtain ⟨j, w⟩ := p
    simp only [twf, Bool.and_eq_true, decide_eq_true_eq] at h
    have hk := keysAbove_map f h.1.2
    simp only [List.map_cons, List.filter_cons]
    split
    · rename_i hw
      simp only [twf, Bool.and_eq_true]
      exact ⟨⟨hw, keysAbove_filter _ hk⟩, twf_filter_ne hk⟩
    · exact twf_filter_ne hk

/-! Runs. -/

theorem keysAbove_numbered {k b : Nat} (vs : List α) (h : b < k) : keysAbove b (numbered k vs) = true := by
  induction vs generalizing k b with
  | nil => rfl
  | cons v vs ih => simp only [numbered, keysAbove, Bool.and_eq_true, decide_eq_true_eq]; exact ⟨h, ih (by omega)⟩

/-- Every key of a table satisfies a bound. -/
theorem keysAbove_append {b m : Nat} {s t : Tbl α} (hs : keysAbove b s = true) (hm : ∀ p ∈ s, p.1 ≤ m)
    (ht : keysAbove m t = true) (hb : b ≤ m) : keysAbove b (s ++ t) = true := by
  induction s generalizing b with
  | nil => exact keysAbove_mono ht hb
  | cons p s ih =>
    obtain ⟨j, w⟩ := p
    simp only [keysAbove, Bool.and_eq_true, decide_eq_true_eq] at hs
    simp only [List.cons_append, keysAbove, Bool.and_eq_true, decide_eq_true_eq]
    exact ⟨hs.1, ih hs.2 (fun p hp => hm p (List.mem_cons_of_mem _ hp)) (hm (j, w) List.mem_cons_self)⟩

theorem twf_append [DecidableEq α] {d : α} {m : Nat} {s t : Tbl α} (hs : twf d s = true) (ht : twf d t = true)
    (hm : ∀ p ∈ s, p.1 ≤ m) (hk : keysAbove m t = true) : twf d (s ++ t) = true := by
  induction s with
  | nil => exact ht
  | cons p s ih =>
    obtain ⟨j, w⟩ := p
    simp only [twf, Bool.and_eq_true] at hs
    simp only [List.cons_append, twf, Bool.and_eq_true]
    have hm' : ∀ p ∈ s, p.1 ≤ m := fun p hp => hm p (List.mem_cons_of_mem _ hp)
    exact ⟨⟨hs.1.1, keysAbove_append hs.1.2 hm' hk (hm (j, w) List.mem_cons_self)⟩, ih hs.2 hm'⟩

theorem keysAbove_of_le [DecidableEq α] {d : α} {m : Nat} {t : Tbl α} (ht : twf d t = true) (h : ∀ p ∈ t, m < p.1) :
    keysAbove m t = true := by
  cases t with
  | nil => rfl
  | cons p t =>
    simp only [twf, Bool.and_eq_true] at ht
    simp only [keysAbove, Bool.and_eq_true, decide_eq_true_eq]
    exact ⟨h p List.mem_cons_self, ht.1.2⟩

theorem mem_numbered {k : Nat} {vs : List α} {p : Nat × α} (h : p ∈ numbered k vs) : k ≤ p.1 ∧ p.1 < k + vs.length := by
  induction vs generalizing k with
  | nil => simp [numbered] at h
  | cons v vs ih =>
    simp only [numbered, List.mem_cons] at h
    simp only [List.length_cons]
    rcases h with rfl | h
    · simp
    · have := ih h; omega

/-- Writing a run keeps the canonical form. -/
theorem twf_tsetRun [DecidableEq α] {d : α} {t : Tbl α} (k : Nat) (vs : List α) (h : twf d t = true) :
    twf d (tsetRun d t k vs) = true := by
  unfold tsetRun
  have hlo := twf_filter (fun p => decide (p.1 < k)) h
  have hhi := twf_filter (fun p => decide (k + vs.length ≤ p.1)) h
  have hlo' : ∀ p ∈ t.filter (fun p => decide (p.1 < k)), p.1 < k := fun p hp => by simpa using (List.mem_filter.mp hp).2
  have hhi' : ∀ p ∈ t.filter (fun p => decide (k + vs.length ≤ p.1)), k + vs.length ≤ p.1 := fun p hp => by
    simpa using (List.mem_filter.mp hp).2
  cases vs with
  | nil =>
    simp only [numbered, List.filter_nil, List.nil_append, List.length_nil, Nat.add_zero] at *
    cases k with
    | zero =>
      have : t.filter (fun p => decide (p.1 < 0)) = [] := by simp
      rw [this]; exact hhi
    | succ k =>
      exact twf_append hlo hhi (m := k) (fun p hp => by have := hlo' p hp; omega)
        (keysAbove_of_le hhi fun p hp => by have := hhi' p hp; omega)
  | cons v vs =>
    have hmid : twf d ((numbered k (v :: vs)).filter fun p => decide (p.2 ≠ d)) = true := by
      simp only [numbered, List.filter_cons]
      have hk := keysAbove_numbered vs (Nat.lt_succ_self k)
      split
      · rename_i hw; simp only [twf, Bool.and_eq_true]; exact ⟨⟨hw, keysAbove_filter _ hk⟩, twf_filter_ne hk⟩
      · exact twf_filter_ne hk
    have hmid' : ∀ p ∈ (numbered k (v :: vs)).filter (fun p => decide (p.2 ≠ d)), k ≤ p.1 ∧ p.1 < k + (v :: vs).length :=
      fun p hp => mem_numbered (List.mem_filter.mp hp).1
    simp only [List.length_cons] at *
    have htail : twf d (((numbered k (v :: vs)).filter fun p => decide (p.2 ≠ d)) ++
        t.filter fun p => decide (k + (vs.length + 1) ≤ p.1)) = true :=
      twf_append hmid hhi (m := k + vs.length) (fun p hp => by have := hmid' p hp; omega)
        (keysAbove_of_le hhi fun p hp => by have := hhi' p hp; omega)
    have hall : ∀ p ∈ ((numbered k (v :: vs)).filter fun p => decide (p.2 ≠ d)) ++
        t.filter (fun p => decide (k + (vs.length + 1) ≤ p.1)), k ≤ p.1 := by
      intro p hp
      rcases List.mem_append.mp hp with hp | hp
      · exact (hmid' p hp).1
      · have := hhi' p hp; omega
    cases k with
    | zero =>
      have : t.filter (fun p => decide (p.1 < 0)) = [] := by simp
      rw [this]; exact htail
    | succ k =>
      exact twf_append hlo htail (m := k) (fun p hp => by have := hlo' p hp; omega)
        (keysAbove_of_le htail fun p hp => by have := hall p hp; omega)

/-! Reads after writes. -/

theorem tget_tput_same (d : α) (t : Tbl α) (k : Nat) (v : α) : tget d (tput t k v) k = v := by
  induction t with
  | nil => simp [tput, tget]
  | cons p t ih =>
    obtain ⟨j, w⟩ := p
    simp only [tput]
    split
    · simp [tget]
    · split
      · simp [tget]
      · rename_i h1 h2; simp [tget, Ne.symm h2, ih]

theorem tget_tput_ne (d : α) (t : Tbl α) {k j : Nat} (v : α) (h : j ≠ k) : tget d (tput t k v) j = tget d t j := by
  induction t with
  | nil => simp [tput, tget, h.symm]
  | cons p t ih =>
    obtain ⟨i, w⟩ := p
    simp only [tput]
    split
    · simp [tget, h.symm]
    · split
      · rename_i hi; subst hi; simp [tget, h.symm]
      · simp only [tget, ih]

theorem tget_tdel_ne (d : α) (t : Tbl α) {k j : Nat} (h : j ≠ k) : tget d (tdel t k) j = tget d t j := by
  induction t with
  | nil => rfl
  | cons p t ih =>
    obtain ⟨i, w⟩ := p
    simp only [tdel]
    split
    · rename_i hi; subst hi; simp [tget, h.symm]
    · simp only [tget, ih]

/-- A key at or below the bound is not in the table. -/
theorem tget_of_keysAbove (d : α) {t : Tbl α} {b k : Nat} (h : keysAbove b t = true) (hk : k ≤ b) : tget d t k = d := by
  induction t generalizing b with
  | nil => rfl
  | cons p t ih =>
    obtain ⟨j, w⟩ := p
    simp only [keysAbove, Bool.and_eq_true, decide_eq_true_eq] at h
    have : j ≠ k := by omega
    simp only [tget, if_neg this]
    exact ih h.2 (by omega)

theorem tget_tdel_same [DecidableEq α] (e : Nat → α) {d : α} {t : Tbl α} (k : Nat) (h : kwf e t = true) :
    tget d (tdel t k) k = d := by
  induction t with
  | nil => rfl
  | cons p t ih =>
    obtain ⟨j, w⟩ := p
    simp only [kwf, Bool.and_eq_true] at h
    simp only [tdel]
    split
    · rename_i hj; subst hj; exact tget_of_keysAbove d h.1.2 (Nat.le_refl _)
    · rename_i hj; simp only [tget, if_neg hj]; exact ih h.2

/-- Reading another key than the one written. -/
theorem tget_tset_ne [DecidableEq α] (d e : α) (t : Tbl α) {k j : Nat} (v : α) (h : j ≠ k) :
    tget d (tset e t k v) j = tget d t j := by
  unfold tset
  split
  · exact tget_tdel_ne d t h
  · exact tget_tput_ne d t v h

/-- Reading the key written, in a table in canonical form. -/
theorem tget_tset_kwf [DecidableEq α] {e : Nat → α} {t : Tbl α} (k : Nat) (v : α) (h : kwf e t = true) :
    tget (e k) (tset (e k) t k v) k = v := by
  unfold tset
  split
  · rename_i hv; rw [hv]; exact tget_tdel_same e k h
  · exact tget_tput_same _ t k v

theorem tget_tset_same [DecidableEq α] {d : α} {t : Tbl α} (k : Nat) (v : α) (h : twf d t = true) :
    tget d (tset d t k v) k = v := by
  rw [twf_eq_kwf] at h; exact tget_tset_kwf (e := fun _ => d) k v h

end Sys2Proof.Machine
end

