-- ==== Sys2Proof/Laws/Within.lean ====
section
/-! SUPPORT. What an operation may change: `Within P s t` says that t differs from s in the parts of P only, that the queue
of waiting commands is untouched, that free values are drawn forward, and that the invariant is kept. One lemma per
operation, in the files Within<Module>.lean, says it for that operation; P is a number whose bits stand for the parts of
the state, in the order of the fields of `Within`. -/

namespace Sys2Proof.Machine

/-- Every part of a is a part of b. -/
def sub (a b : Nat) : Prop := a &&& b = a

theorem sub_trans {a b c : Nat} (h : sub a b) (k : sub b c) : sub a c := by
  unfold sub at *; rw [← h, Nat.and_assoc, k]

theorem sub_of {a b : Nat} (h : Nat.beq (Nat.land a b) a = true) : sub a b := Nat.eq_of_beq_eq_true h

theorem sub_bit {a b i : Nat} (h : sub a b) (hi : a.testBit i = true) : b.testBit i = true := by
  unfold sub at h
  have := congrArg (·.testBit i) h
  simp only [Nat.testBit_and, hi, Bool.true_and] at this
  exact this

/-- t is s but for the parts of P. -/
structure Within (P : Nat) (s t : State) : Prop where
  pending : t.pending = s.pending
  free : s.free ≤ t.free
  inv : s.Inv → t.Inv
  regs : P.testBit 0 = false → t.regs = s.regs ∧ t.shadows = s.shadows ∧ t.holds = s.holds
  mem : P.testBit 1 = false → t.mem = s.mem ∧ t.sramPoison = s.sramPoison ∧ t.poison0 = s.poison0 ∧ t.poison1 = s.poison1
  memq : P.testBit 2 = false → t.memq = s.memq ∧ t.memSeq = s.memSeq ∧ t.moves = s.moves ∧ t.moveSeq = s.moveSeq ∧
    t.bankScrub = s.bankScrub ∧ t.dramScrub = s.dramScrub ∧ t.bufEvents = s.bufEvents
  cores : P.testBit 3 = false → t.cores = s.cores
  fns : P.testBit 4 = false → t.fns = s.fns
  sectors : P.testBit 5 = false → t.sectors = s.sectors
  jobs : P.testBit 6 = false → t.jobs = s.jobs ∧ t.jobSeq = s.jobSeq
  alloc : P.testBit 7 = false → t.zombies = s.zombies ∧ t.gddrUsed = s.gddrUsed ∧ t.hbmUsed = s.hbmUsed
  encQ : P.testBit 8 = false → t.encQ = s.encQ
  passes : P.testBit 9 = false → t.passes = s.passes ∧ t.passSeq = s.passSeq ∧ t.kseTurn = s.kseTurn
  xfers : P.testBit 10 = false → t.xfers = s.xfers ∧ t.xferSeq = s.xferSeq ∧ t.batches = s.batches
  zeroing : P.testBit 11 = false → t.zeroing = s.zeroing
  day : P.testBit 12 = false → t.day = s.day
  keeper : P.testBit 13 = false → t.keeper = s.keeper
  eic : P.testBit 14 = false → t.eicStack = s.eicStack
  start : P.testBit 15 = false → t.start = s.start
  maint : P.testBit 16 = false → t.maint = s.maint
  sched : P.testBit 17 = false → t.sched = s.sched
  pke : P.testBit 18 = false → t.pke = s.pke
  fab : P.testBit 19 = false → t.fab = s.fab
  ftime : P.testBit 20 = false → t.ftime = s.ftime
  outputs : P.testBit 21 = false → t.outputs = s.outputs

theorem Within.refl (P : Nat) (s : State) : Within P s s where
  pending := rfl
  free := Nat.le_refl _
  inv h := h
  regs _ := ⟨rfl, rfl, rfl⟩
  mem _ := ⟨rfl, rfl, rfl, rfl⟩
  memq _ := ⟨rfl, rfl, rfl, rfl, rfl, rfl, rfl⟩
  cores _ := rfl
  fns _ := rfl
  sectors _ := rfl
  jobs _ := ⟨rfl, rfl⟩
  alloc _ := ⟨rfl, rfl, rfl⟩
  encQ _ := rfl
  passes _ := ⟨rfl, rfl, rfl⟩
  xfers _ := ⟨rfl, rfl, rfl⟩
  zeroing _ := rfl
  day _ := rfl
  keeper _ := rfl
  eic _ := rfl
  start _ := rfl
  maint _ := rfl
  sched _ := rfl
  pke _ := rfl
  fab _ := rfl
  ftime _ := rfl
  outputs _ := rfl

/-- A fold of steps that each stay within P. -/
theorem Within.foldl {α : Type} {P : Nat} {s0 s : State} {f : State → α → State} {l : List α} (h : Within P s0 s)
    (hf : ∀ t a, Within P s0 t → Within P s0 (f t a)) : Within P s0 (l.foldl f s) := by
  induction l generalizing s with
  | nil => exact h
  | cons a l ih => exact ih (hf s a h)

/-- The same for a fold that carries the state as the first of a pair. -/
theorem Within.foldl_fst {α β : Type} {P : Nat} {s0 : State} {f : State × β → α → State × β} {l : List α} {p : State × β}
    (h : Within P s0 p.1) (hf : ∀ q a, Within P s0 q.1 → Within P s0 (f q a).1) : Within P s0 (l.foldl f p).1 := by
  induction l generalizing p with
  | nil => exact h
  | cons a l ih => exact ih (hf p a h)

/-- Both ways of a choice. -/
theorem Within.ite {P : Nat} {s0 s t : State} {c : Prop} [Decidable c] (h : Within P s0 s) (k : Within P s0 t) :
    Within P s0 (if c then s else t) := by
  split
  · exact h
  · exact k

/-- A step taken only where there is something to take it with. -/
theorem Within.elim {α : Type} {P : Nat} {s0 s : State} {f : α → State} {o : Option α} (h : Within P s0 s)
    (hf : ∀ a, Within P s0 (f a)) : Within P s0 (o.elim s f) := by
  cases o with
  | none => exact h
  | some a => exact hf a

/-- Every part may have changed: the queue, the free values and the invariant remain. -/
theorem Within.all {P : Nat} {s0 t : State} (hp : sub 4194303 P) (h1 : t.pending = s0.pending) (h2 : s0.free ≤ t.free)
    (h3 : s0.Inv → t.Inv) : Within P s0 t where
  pending := h1
  free := h2
  inv := h3
  regs hb := absurd (sub_bit (i := 0) hp rfl) (by rw [hb]; decide)
  mem hb := absurd (sub_bit (i := 1) hp rfl) (by rw [hb]; decide)
  memq hb := absurd (sub_bit (i := 2) hp rfl) (by rw [hb]; decide)
  cores hb := absurd (sub_bit (i := 3) hp rfl) (by rw [hb]; decide)
  fns hb := absurd (sub_bit (i := 4) hp rfl) (by rw [hb]; decide)
  sectors hb := absurd (sub_bit (i := 5) hp rfl) (by rw [hb]; decide)
  jobs hb := absurd (sub_bit (i := 6) hp rfl) (by rw [hb]; decide)
  alloc hb := absurd (sub_bit (i := 7) hp rfl) (by rw [hb]; decide)
  encQ hb := absurd (sub_bit (i := 8) hp rfl) (by rw [hb]; decide)
  passes hb := absurd (sub_bit (i := 9) hp rfl) (by rw [hb]; decide)
  xfers hb := absurd (sub_bit (i := 10) hp rfl) (by rw [hb]; decide)
  zeroing hb := absurd (sub_bit (i := 11) hp rfl) (by rw [hb]; decide)
  day hb := absurd (sub_bit (i := 12) hp rfl) (by rw [hb]; decide)
  keeper hb := absurd (sub_bit (i := 13) hp rfl) (by rw [hb]; decide)
  eic hb := absurd (sub_bit (i := 14) hp rfl) (by rw [hb]; decide)
  start hb := absurd (sub_bit (i := 15) hp rfl) (by rw [hb]; decide)
  maint hb := absurd (sub_bit (i := 16) hp rfl) (by rw [hb]; decide)
  sched hb := absurd (sub_bit (i := 17) hp rfl) (by rw [hb]; decide)
  pke hb := absurd (sub_bit (i := 18) hp rfl) (by rw [hb]; decide)
  fab hb := absurd (sub_bit (i := 19) hp rfl) (by rw [hb]; decide)
  ftime hb := absurd (sub_bit (i := 20) hp rfl) (by rw [hb]; decide)
  outputs hb := absurd (sub_bit (i := 21) hp rfl) (by rw [hb]; decide)

/-! One lemma for each set of fields that some operation replaces. -/

theorem Within.upd_bankScrub {P : Nat} {s0 s : State} {x0} (h : Within P s0 s) (hp : sub 4 P) :
    Within P s0 { s with bankScrub := x0 } :=
  ⟨h.pending, h.free, fun hi => { h.inv hi with  }, h.regs, h.mem, fun hb => absurd (sub_bit (i := 2) hp rfl) (by rw [hb]; decide), h.cores, h.fns, h.sectors, h.jobs, h.alloc, h.encQ, h.passes, h.xfers, h.zeroing, h.day, h.keeper, h.eic, h.start, h.maint, h.sched, h.pke, h.fab, h.ftime, h.outputs⟩

theorem Within.upd_batches {P : Nat} {s0 s : State} {x0} (h : Within P s0 s) (hp : sub 1024 P) :
    Within P s0 { s with batches := x0 } :=
  ⟨h.pending, h.free, fun hi => { h.inv hi with  }, h.regs, h.mem, h.memq, h.cores, h.fns, h.sectors, h.jobs, h.alloc, h.encQ, h.passes, fun hb => absurd (sub_bit (i := 10) hp rfl) (by rw [hb]; decide), h.zeroing, h.day, h.keeper, h.eic, h.start, h.maint, h.sched, h.pke, h.fab, h.ftime, h.outputs⟩

theorem Within.upd_bufEvents {P : Nat} {s0 s : State} {x0} (h : Within P s0 s) (hp : sub 4 P) :
    Within P s0 { s with bufEvents := x0 } :=
  ⟨h.pending, h.free, fun hi => { h.inv hi with  }, h.regs, h.mem, fun hb => absurd (sub_bit (i := 2) hp rfl) (by rw [hb]; decide), h.cores, h.fns, h.sectors, h.jobs, h.alloc, h.encQ, h.passes, h.xfers, h.zeroing, h.day, h.keeper, h.eic, h.start, h.maint, h.sched, h.pke, h.fab, h.ftime, h.outputs⟩

theorem Within.upd_cores {P : Nat} {s0 s : State} {x0} (h : Within P s0 s) (hp : sub 8 P) (c0 : twf Core.fresh s.cores = true → twf Core.fresh x0 = true) :
    Within P s0 { s with cores := x0 } :=
  ⟨h.pending, h.free, fun hi => { h.inv hi with cores := c0 (h.inv hi).cores }, h.regs, h.mem, h.memq, fun hb => absurd (sub_bit (i := 3) hp rfl) (by rw [hb]; decide), h.fns, h.sectors, h.jobs, h.alloc, h.encQ, h.passes, h.xfers, h.zeroing, h.day, h.keeper, h.eic, h.start, h.maint, h.sched, h.pke, h.fab, h.ftime, h.outputs⟩

theorem Within.upd_day {P : Nat} {s0 s : State} {x0} (h : Within P s0 s) (hp : sub 4096 P) :
    Within P s0 { s with day := x0 } :=
  ⟨h.pending, h.free, fun hi => { h.inv hi with  }, h.regs, h.mem, h.memq, h.cores, h.fns, h.sectors, h.jobs, h.alloc, h.encQ, h.passes, h.xfers, h.zeroing, fun hb => absurd (sub_bit (i := 12) hp rfl) (by rw [hb]; decide), h.keeper, h.eic, h.start, h.maint, h.sched, h.pke, h.fab, h.ftime, h.outputs⟩

theorem Within.upd_day_keeper_start {P : Nat} {s0 s : State} {x0 x1 x2} (h : Within P s0 s) (hp : sub 45056 P) (c2 : s.start.phase ≤ 8 → x2.phase ≤ 8) :
    Within P s0 { s with day := x0, keeper := x1, start := x2 } :=
  ⟨h.pending, h.free, fun hi => { h.inv hi with phase := c2 (h.inv hi).phase }, h.regs, h.mem, h.memq, h.cores, h.fns, h.sectors, h.jobs, h.alloc, h.encQ, h.passes, h.xfers, h.zeroing, fun hb => absurd (sub_bit (i := 12) hp rfl) (by rw [hb]; decide), fun hb => absurd (sub_bit (i := 13) hp rfl) (by rw [hb]; decide), h.eic, fun hb => absurd (sub_bit (i := 15) hp rfl) (by rw [hb]; decide), h.maint, h.sched, h.pke, h.fab, h.ftime, h.outputs⟩

theorem Within.upd_dramScrub {P : Nat} {s0 s : State} {x0} (h : Within P s0 s) (hp : sub 4 P) :
    Within P s0 { s with dramScrub := x0 } :=
  ⟨h.pending, h.free, fun hi => { h.inv hi with  }, h.regs, h.mem, fun hb => absurd (sub_bit (i := 2) hp rfl) (by rw [hb]; decide), h.cores, h.fns, h.sectors, h.jobs, h.alloc, h.encQ, h.passes, h.xfers, h.zeroing, h.day, h.keeper, h.eic, h.start, h.maint, h.sched, h.pke, h.fab, h.ftime, h.outputs⟩

theorem Within.upd_eicStack {P : Nat} {s0 s : State} {x0} (h : Within P s0 s) (hp : sub 16384 P) :
    Within P s0 { s with eicStack := x0 } :=
  ⟨h.pending, h.free, fun hi => { h.inv hi with  }, h.regs, h.mem, h.memq, h.cores, h.fns, h.sectors, h.jobs, h.alloc, h.encQ, h.passes, h.xfers, h.zeroing, h.day, h.keeper, fun hb => absurd (sub_bit (i := 14) hp rfl) (by rw [hb]; decide), h.start, h.maint, h.sched, h.pke, h.fab, h.ftime, h.outputs⟩

theorem Within.upd_encQ {P : Nat} {s0 s : State} {x0} (h : Within P s0 s) (hp : sub 256 P) :
    Within P s0 { s with encQ := x0 } :=
  ⟨h.pending, h.free, fun hi => { h.inv hi with  }, h.regs, h.mem, h.memq, h.cores, h.fns, h.sectors, h.jobs, h.alloc, fun hb => absurd (sub_bit (i := 8) hp rfl) (by rw [hb]; decide), h.passes, h.xfers, h.zeroing, h.day, h.keeper, h.eic, h.start, h.maint, h.sched, h.pke, h.fab, h.ftime, h.outputs⟩

theorem Within.upd_fab {P : Nat} {s0 s : State} {x0} (h : Within P s0 s) (hp : sub 524288 P) :
    Within P s0 { s with fab := x0 } :=
  ⟨h.pending, h.free, fun hi => { h.inv hi with  }, h.regs, h.mem, h.memq, h.cores, h.fns, h.sectors, h.jobs, h.alloc, h.encQ, h.passes, h.xfers, h.zeroing, h.day, h.keeper, h.eic, h.start, h.maint, h.sched, h.pke, fun hb => absurd (sub_bit (i := 19) hp rfl) (by rw [hb]; decide), h.ftime, h.outputs⟩

theorem Within.upd_fns {P : Nat} {s0 s : State} {x0} (h : Within P s0 s) (hp : sub 16 P) (c0 : twf Fn.fresh s.fns = true → twf Fn.fresh x0 = true) :
    Within P s0 { s with fns := x0 } :=
  ⟨h.pending, h.free, fun hi => { h.inv hi with fns := c0 (h.inv hi).fns }, h.regs, h.mem, h.memq, h.cores, fun hb => absurd (sub_bit (i := 4) hp rfl) (by rw [hb]; decide), h.sectors, h.jobs, h.alloc, h.encQ, h.passes, h.xfers, h.zeroing, h.day, h.keeper, h.eic, h.start, h.maint, h.sched, h.pke, h.fab, h.ftime, h.outputs⟩

theorem Within.upd_free {P : Nat} {s0 s : State} {x0} (h : Within P s0 s) (hle : s.free ≤ x0) :
    Within P s0 { s with free := x0 } :=
  ⟨h.pending, Nat.le_trans h.free hle, fun hi => { h.inv hi with  }, h.regs, h.mem, h.memq, h.cores, h.fns, h.sectors, h.jobs, h.alloc, h.encQ, h.passes, h.xfers, h.zeroing, h.day, h.keeper, h.eic, h.start, h.maint, h.sched, h.pke, h.fab, h.ftime, h.outputs⟩

theorem Within.upd_gddrUsed {P : Nat} {s0 s : State} {x0} (h : Within P s0 s) (hp : sub 128 P) :
    Within P s0 { s with gddrUsed := x0 } :=
  ⟨h.pending, h.free, fun hi => { h.inv hi with  }, h.regs, h.mem, h.memq, h.cores, h.fns, h.sectors, h.jobs, fun hb => absurd (sub_bit (i := 7) hp rfl) (by rw [hb]; decide), h.encQ, h.passes, h.xfers, h.zeroing, h.day, h.keeper, h.eic, h.start, h.maint, h.sched, h.pke, h.fab, h.ftime, h.outputs⟩

theorem Within.upd_hbmUsed {P : Nat} {s0 s : State} {x0} (h : Within P s0 s) (hp : sub 128 P) :
    Within P s0 { s with hbmUsed := x0 } :=
  ⟨h.pending, h.free, fun hi => { h.inv hi with  }, h.regs, h.mem, h.memq, h.cores, h.fns, h.sectors, h.jobs, fun hb => absurd (sub_bit (i := 7) hp rfl) (by rw [hb]; decide), h.encQ, h.passes, h.xfers, h.zeroing, h.day, h.keeper, h.eic, h.start, h.maint, h.sched, h.pke, h.fab, h.ftime, h.outputs⟩

theorem Within.upd_holds {P : Nat} {s0 s : State} {x0} (h : Within P s0 s) (hp : sub 1 P) :
    Within P s0 { s with holds := x0 } :=
  ⟨h.pending, h.free, fun hi => { h.inv hi with  }, fun hb => absurd (sub_bit (i := 0) hp rfl) (by rw [hb]; decide), h.mem, h.memq, h.cores, h.fns, h.sectors, h.jobs, h.alloc, h.encQ, h.passes, h.xfers, h.zeroing, h.day, h.keeper, h.eic, h.start, h.maint, h.sched, h.pke, h.fab, h.ftime, h.outputs⟩

theorem Within.upd_jobSeq {P : Nat} {s0 s : State} {x0} (h : Within P s0 s) (hp : sub 64 P) :
    Within P s0 { s with jobSeq := x0 } :=
  ⟨h.pending, h.free, fun hi => { h.inv hi with  }, h.regs, h.mem, h.memq, h.cores, h.fns, h.sectors, fun hb => absurd (sub_bit (i := 6) hp rfl) (by rw [hb]; decide), h.alloc, h.encQ, h.passes, h.xfers, h.zeroing, h.day, h.keeper, h.eic, h.start, h.maint, h.sched, h.pke, h.fab, h.ftime, h.outputs⟩

theorem Within.upd_jobs {P : Nat} {s0 s : State} {x0} (h : Within P s0 s) (hp : sub 64 P) (c0 : twf none s.jobs = true → twf none x0 = true) :
    Within P s0 { s with jobs := x0 } :=
  ⟨h.pending, h.free, fun hi => { h.inv hi with jobs := c0 (h.inv hi).jobs }, h.regs, h.mem, h.memq, h.cores, h.fns, h.sectors, fun hb => absurd (sub_bit (i := 6) hp rfl) (by rw [hb]; decide), h.alloc, h.encQ, h.passes, h.xfers, h.zeroing, h.day, h.keeper, h.eic, h.start, h.maint, h.sched, h.pke, h.fab, h.ftime, h.outputs⟩

theorem Within.upd_keeper {P : Nat} {s0 s : State} {x0} (h : Within P s0 s) (hp : sub 8192 P) :
    Within P s0 { s with keeper := x0 } :=
  ⟨h.pending, h.free, fun hi => { h.inv hi with  }, h.regs, h.mem, h.memq, h.cores, h.fns, h.sectors, h.jobs, h.alloc, h.encQ, h.passes, h.xfers, h.zeroing, h.day, fun hb => absurd (sub_bit (i := 13) hp rfl) (by rw [hb]; decide), h.eic, h.start, h.maint, h.sched, h.pke, h.fab, h.ftime, h.outputs⟩

theorem Within.upd_kseTurn {P : Nat} {s0 s : State} {x0} (h : Within P s0 s) (hp : sub 512 P) :
    Within P s0 { s with kseTurn := x0 } :=
  ⟨h.pending, h.free, fun hi => { h.inv hi with  }, h.regs, h.mem, h.memq, h.cores, h.fns, h.sectors, h.jobs, h.alloc, h.encQ, fun hb => absurd (sub_bit (i := 9) hp rfl) (by rw [hb]; decide), h.xfers, h.zeroing, h.day, h.keeper, h.eic, h.start, h.maint, h.sched, h.pke, h.fab, h.ftime, h.outputs⟩

theorem Within.upd_maint {P : Nat} {s0 s : State} {x0} (h : Within P s0 s) (hp : sub 65536 P) :
    Within P s0 { s with maint := x0 } :=
  ⟨h.pending, h.free, fun hi => { h.inv hi with  }, h.regs, h.mem, h.memq, h.cores, h.fns, h.sectors, h.jobs, h.alloc, h.encQ, h.passes, h.xfers, h.zeroing, h.day, h.keeper, h.eic, h.start, fun hb => absurd (sub_bit (i := 16) hp rfl) (by rw [hb]; decide), h.sched, h.pke, h.fab, h.ftime, h.outputs⟩

theorem Within.upd_mem {P : Nat} {s0 s : State} {x0} (h : Within P s0 s) (hp : sub 2 P) (c0 : Memory.wf s.mem = true → Memory.wf x0 = true) :
    Within P s0 { s with mem := x0 } :=
  ⟨h.pending, h.free, fun hi => { h.inv hi with mem := c0 (h.inv hi).mem }, h.regs, fun hb => absurd (sub_bit (i := 1) hp rfl) (by rw [hb]; decide), h.memq, h.cores, h.fns, h.sectors, h.jobs, h.alloc, h.encQ, h.passes, h.xfers, h.zeroing, h.day, h.keeper, h.eic, h.start, h.maint, h.sched, h.pke, h.fab, h.ftime, h.outputs⟩

theorem Within.upd_mem_sramPoison {P : Nat} {s0 s : State} {x0 x1} (h : Within P s0 s) (hp : sub 2 P) (c0 : Memory.wf s.mem = true → Memory.wf x0 = true) (c1 : twf false s.sramPoison = true → twf false x1 = true) :
    Within P s0 { s with mem := x0, sramPoison := x1 } :=
  ⟨h.pending, h.free, fun hi => { h.inv hi with mem := c0 (h.inv hi).mem, poison := c1 (h.inv hi).poison }, h.regs, fun hb => absurd (sub_bit (i := 1) hp rfl) (by rw [hb]; decide), h.memq, h.cores, h.fns, h.sectors, h.jobs, h.alloc, h.encQ, h.passes, h.xfers, h.zeroing, h.day, h.keeper, h.eic, h.start, h.maint, h.sched, h.pke, h.fab, h.ftime, h.outputs⟩

theorem Within.upd_mem_sramPoison_poison0_poison1_start {P : Nat} {s0 s : State} {x0 x1 x2 x3 x4} (h : Within P s0 s) (hp : sub 32770 P) (c0 : Memory.wf s.mem = true → Memory.wf x0 = true) (c1 : twf false s.sramPoison = true → twf false x1 = true) (c4 : s.start.phase ≤ 8 → x4.phase ≤ 8) :
    Within P s0 { s with mem := x0, sramPoison := x1, poison0 := x2, poison1 := x3, start := x4 } :=
  ⟨h.pending, h.free, fun hi => { h.inv hi with mem := c0 (h.inv hi).mem, poison := c1 (h.inv hi).poison, phase := c4 (h.inv hi).phase }, h.regs, fun hb => absurd (sub_bit (i := 1) hp rfl) (by rw [hb]; decide), h.memq, h.cores, h.fns, h.sectors, h.jobs, h.alloc, h.encQ, h.passes, h.xfers, h.zeroing, h.day, h.keeper, h.eic, fun hb => absurd (sub_bit (i := 15) hp rfl) (by rw [hb]; decide), h.maint, h.sched, h.pke, h.fab, h.ftime, h.outputs⟩

theorem Within.upd_memSeq_encQ {P : Nat} {s0 s : State} {x0 x1} (h : Within P s0 s) (hp : sub 260 P) :
    Within P s0 { s with memSeq := x0, encQ := x1 } :=
  ⟨h.pending, h.free, fun hi => { h.inv hi with  }, h.regs, h.mem, fun hb => absurd (sub_bit (i := 2) hp rfl) (by rw [hb]; decide), h.cores, h.fns, h.sectors, h.jobs, h.alloc, fun hb => absurd (sub_bit (i := 8) hp rfl) (by rw [hb]; decide), h.passes, h.xfers, h.zeroing, h.day, h.keeper, h.eic, h.start, h.maint, h.sched, h.pke, h.fab, h.ftime, h.outputs⟩

theorem Within.upd_memq {P : Nat} {s0 s : State} {x0} (h : Within P s0 s) (hp : sub 4 P) :
    Within P s0 { s with memq := x0 } :=
  ⟨h.pending, h.free, fun hi => { h.inv hi with  }, h.regs, h.mem, fun hb => absurd (sub_bit (i := 2) hp rfl) (by rw [hb]; decide), h.cores, h.fns, h.sectors, h.jobs, h.alloc, h.encQ, h.passes, h.xfers, h.zeroing, h.day, h.keeper, h.eic, h.start, h.maint, h.sched, h.pke, h.fab, h.ftime, h.outputs⟩

theorem Within.upd_memq_encQ_passes {P : Nat} {s0 s : State} {x0 x1 x2} (h : Within P s0 s) (hp : sub 772 P) :
    Within P s0 { s with memq := x0, encQ := x1, passes := x2 } :=
  ⟨h.pending, h.free, fun hi => { h.inv hi with  }, h.regs, h.mem, fun hb => absurd (sub_bit (i := 2) hp rfl) (by rw [hb]; decide), h.cores, h.fns, h.sectors, h.jobs, h.alloc, fun hb => absurd (sub_bit (i := 8) hp rfl) (by rw [hb]; decide), fun hb => absurd (sub_bit (i := 9) hp rfl) (by rw [hb]; decide), h.xfers, h.zeroing, h.day, h.keeper, h.eic, h.start, h.maint, h.sched, h.pke, h.fab, h.ftime, h.outputs⟩

theorem Within.upd_memq_memSeq {P : Nat} {s0 s : State} {x0 x1} (h : Within P s0 s) (hp : sub 4 P) :
    Within P s0 { s with memq := x0, memSeq := x1 } :=
  ⟨h.pending, h.free, fun hi => { h.inv hi with  }, h.regs, h.mem, fun hb => absurd (sub_bit (i := 2) hp rfl) (by rw [hb]; decide), h.cores, h.fns, h.sectors, h.jobs, h.alloc, h.encQ, h.passes, h.xfers, h.zeroing, h.day, h.keeper, h.eic, h.start, h.maint, h.sched, h.pke, h.fab, h.ftime, h.outputs⟩

theorem Within.upd_memq_moves {P : Nat} {s0 s : State} {x0 x1} (h : Within P s0 s) (hp : sub 4 P) :
    Within P s0 { s with memq := x0, moves := x1 } :=
  ⟨h.pending, h.free, fun hi => { h.inv hi with  }, h.regs, h.mem, fun hb => absurd (sub_bit (i := 2) hp rfl) (by rw [hb]; decide), h.cores, h.fns, h.sectors, h.jobs, h.alloc, h.encQ, h.passes, h.xfers, h.zeroing, h.day, h.keeper, h.eic, h.start, h.maint, h.sched, h.pke, h.fab, h.ftime, h.outputs⟩

theorem Within.upd_moves {P : Nat} {s0 s : State} {x0} (h : Within P s0 s) (hp : sub 4 P) :
    Within P s0 { s with moves := x0 } :=
  ⟨h.pending, h.free, fun hi => { h.inv hi with  }, h.regs, h.mem, fun hb => absurd (sub_bit (i := 2) hp rfl) (by rw [hb]; decide), h.cores, h.fns, h.sectors, h.jobs, h.alloc, h.encQ, h.passes, h.xfers, h.zeroing, h.day, h.keeper, h.eic, h.start, h.maint, h.sched, h.pke, h.fab, h.ftime, h.outputs⟩

theorem Within.upd_moves_moveSeq {P : Nat} {s0 s : State} {x0 x1} (h : Within P s0 s) (hp : sub 4 P) :
    Within P s0 { s with moves := x0, moveSeq := x1 } :=
  ⟨h.pending, h.free, fun hi => { h.inv hi with  }, h.regs, h.mem, fun hb => absurd (sub_bit (i := 2) hp rfl) (by rw [hb]; decide), h.cores, h.fns, h.sectors, h.jobs, h.alloc, h.encQ, h.passes, h.xfers, h.zeroing, h.day, h.keeper, h.eic, h.start, h.maint, h.sched, h.pke, h.fab, h.ftime, h.outputs⟩

theorem Within.upd_outputs {P : Nat} {s0 s : State} {x0} (h : Within P s0 s) (hp : sub 2097152 P) :
    Within P s0 { s with outputs := x0 } :=
  ⟨h.pending, h.free, fun hi => { h.inv hi with  }, h.regs, h.mem, h.memq, h.cores, h.fns, h.sectors, h.jobs, h.alloc, h.encQ, h.passes, h.xfers, h.zeroing, h.day, h.keeper, h.eic, h.start, h.maint, h.sched, h.pke, h.fab, h.ftime, fun hb => absurd (sub_bit (i := 21) hp rfl) (by rw [hb]; decide)⟩

theorem Within.upd_passes {P : Nat} {s0 s : State} {x0} (h : Within P s0 s) (hp : sub 512 P) :
    Within P s0 { s with passes := x0 } :=
  ⟨h.pending, h.free, fun hi => { h.inv hi with  }, h.regs, h.mem, h.memq, h.cores, h.fns, h.sectors, h.jobs, h.alloc, h.encQ, fun hb => absurd (sub_bit (i := 9) hp rfl) (by rw [hb]; decide), h.xfers, h.zeroing, h.day, h.keeper, h.eic, h.start, h.maint, h.sched, h.pke, h.fab, h.ftime, h.outputs⟩

theorem Within.upd_passes_passSeq {P : Nat} {s0 s : State} {x0 x1} (h : Within P s0 s) (hp : sub 512 P) :
    Within P s0 { s with passes := x0, passSeq := x1 } :=
  ⟨h.pending, h.free, fun hi => { h.inv hi with  }, h.regs, h.mem, h.memq, h.cores, h.fns, h.sectors, h.jobs, h.alloc, h.encQ, fun hb => absurd (sub_bit (i := 9) hp rfl) (by rw [hb]; decide), h.xfers, h.zeroing, h.day, h.keeper, h.eic, h.start, h.maint, h.sched, h.pke, h.fab, h.ftime, h.outputs⟩

theorem Within.upd_passes_xfers_batches_sched_fab {P : Nat} {s0 s : State} {x0 x1 x2 x3 x4} (h : Within P s0 s) (hp : sub 656896 P) :
    Within P s0 { s with passes := x0, xfers := x1, batches := x2, sched := x3, fab := x4 } :=
  ⟨h.pending, h.free, fun hi => { h.inv hi with  }, h.regs, h.mem, h.memq, h.cores, h.fns, h.sectors, h.jobs, h.alloc, h.encQ, fun hb => absurd (sub_bit (i := 9) hp rfl) (by rw [hb]; decide), fun hb => absurd (sub_bit (i := 10) hp rfl) (by rw [hb]; decide), h.zeroing, h.day, h.keeper, h.eic, h.start, h.maint, fun hb => absurd (sub_bit (i := 17) hp rfl) (by rw [hb]; decide), h.pke, fun hb => absurd (sub_bit (i := 19) hp rfl) (by rw [hb]; decide), h.ftime, h.outputs⟩

theorem Within.upd_pke {P : Nat} {s0 s : State} {x0} (h : Within P s0 s) (hp : sub 262144 P) :
    Within P s0 { s with pke := x0 } :=
  ⟨h.pending, h.free, fun hi => { h.inv hi with  }, h.regs, h.mem, h.memq, h.cores, h.fns, h.sectors, h.jobs, h.alloc, h.encQ, h.passes, h.xfers, h.zeroing, h.day, h.keeper, h.eic, h.start, h.maint, h.sched, fun hb => absurd (sub_bit (i := 18) hp rfl) (by rw [hb]; decide), h.fab, h.ftime, h.outputs⟩

theorem Within.upd_poison0 {P : Nat} {s0 s : State} {x0} (h : Within P s0 s) (hp : sub 2 P) :
    Within P s0 { s with poison0 := x0 } :=
  ⟨h.pending, h.free, fun hi => { h.inv hi with  }, h.regs, fun hb => absurd (sub_bit (i := 1) hp rfl) (by rw [hb]; decide), h.memq, h.cores, h.fns, h.sectors, h.jobs, h.alloc, h.encQ, h.passes, h.xfers, h.zeroing, h.day, h.keeper, h.eic, h.start, h.maint, h.sched, h.pke, h.fab, h.ftime, h.outputs⟩

theorem Within.upd_poison1 {P : Nat} {s0 s : State} {x0} (h : Within P s0 s) (hp : sub 2 P) :
    Within P s0 { s with poison1 := x0 } :=
  ⟨h.pending, h.free, fun hi => { h.inv hi with  }, h.regs, fun hb => absurd (sub_bit (i := 1) hp rfl) (by rw [hb]; decide), h.memq, h.cores, h.fns, h.sectors, h.jobs, h.alloc, h.encQ, h.passes, h.xfers, h.zeroing, h.day, h.keeper, h.eic, h.start, h.maint, h.sched, h.pke, h.fab, h.ftime, h.outputs⟩

theorem Within.upd_regs {P : Nat} {s0 s : State} {x0} (h : Within P s0 s) (hp : sub 1 P) (c0 : kwf regReset s.regs = true → kwf regReset x0 = true) :
    Within P s0 { s with regs := x0 } :=
  ⟨h.pending, h.free, fun hi => { h.inv hi with regs := c0 (h.inv hi).regs }, fun hb => absurd (sub_bit (i := 0) hp rfl) (by rw [hb]; decide), h.mem, h.memq, h.cores, h.fns, h.sectors, h.jobs, h.alloc, h.encQ, h.passes, h.xfers, h.zeroing, h.day, h.keeper, h.eic, h.start, h.maint, h.sched, h.pke, h.fab, h.ftime, h.outputs⟩

theorem Within.upd_regs_shadows_holds {P : Nat} {s0 s : State} {x0 x1 x2} (h : Within P s0 s) (hp : sub 1 P) (c0 : kwf regReset s.regs = true → kwf regReset x0 = true) :
    Within P s0 { s with regs := x0, shadows := x1, holds := x2 } :=
  ⟨h.pending, h.free, fun hi => { h.inv hi with regs := c0 (h.inv hi).regs }, fun hb => absurd (sub_bit (i := 0) hp rfl) (by rw [hb]; decide), h.mem, h.memq, h.cores, h.fns, h.sectors, h.jobs, h.alloc, h.encQ, h.passes, h.xfers, h.zeroing, h.day, h.keeper, h.eic, h.start, h.maint, h.sched, h.pke, h.fab, h.ftime, h.outputs⟩

theorem Within.upd_sched {P : Nat} {s0 s : State} {x0} (h : Within P s0 s) (hp : sub 131072 P) :
    Within P s0 { s with sched := x0 } :=
  ⟨h.pending, h.free, fun hi => { h.inv hi with  }, h.regs, h.mem, h.memq, h.cores, h.fns, h.sectors, h.jobs, h.alloc, h.encQ, h.passes, h.xfers, h.zeroing, h.day, h.keeper, h.eic, h.start, h.maint, fun hb => absurd (sub_bit (i := 17) hp rfl) (by rw [hb]; decide), h.pke, h.fab, h.ftime, h.outputs⟩

theorem Within.upd_sched_ftime {P : Nat} {s0 s : State} {x0 x1} (h : Within P s0 s) (hp : sub 1179648 P) :
    Within P s0 { s with sched := x0, ftime := x1 } :=
  ⟨h.pending, h.free, fun hi => { h.inv hi with  }, h.regs, h.mem, h.memq, h.cores, h.fns, h.sectors, h.jobs, h.alloc, h.encQ, h.passes, h.xfers, h.zeroing, h.day, h.keeper, h.eic, h.start, h.maint, fun hb => absurd (sub_bit (i := 17) hp rfl) (by rw [hb]; decide), h.pke, h.fab, fun hb => absurd (sub_bit (i := 20) hp rfl) (by rw [hb]; decide), h.outputs⟩

theorem Within.upd_sectors {P : Nat} {s0 s : State} {x0} (h : Within P s0 s) (hp : sub 32 P) (c0 : twf none s.sectors = true → twf none x0 = true) :
    Within P s0 { s with sectors := x0 } :=
  ⟨h.pending, h.free, fun hi => { h.inv hi with sectors := c0 (h.inv hi).sectors }, h.regs, h.mem, h.memq, h.cores, h.fns, fun hb => absurd (sub_bit (i := 5) hp rfl) (by rw [hb]; decide), h.jobs, h.alloc, h.encQ, h.passes, h.xfers, h.zeroing, h.day, h.keeper, h.eic, h.start, h.maint, h.sched, h.pke, h.fab, h.ftime, h.outputs⟩

theorem Within.upd_shadows {P : Nat} {s0 s : State} {x0} (h : Within P s0 s) (hp : sub 1 P) :
    Within P s0 { s with shadows := x0 } :=
  ⟨h.pending, h.free, fun hi => { h.inv hi with  }, fun hb => absurd (sub_bit (i := 0) hp rfl) (by rw [hb]; decide), h.mem, h.memq, h.cores, h.fns, h.sectors, h.jobs, h.alloc, h.encQ, h.passes, h.xfers, h.zeroing, h.day, h.keeper, h.eic, h.start, h.maint, h.sched, h.pke, h.fab, h.ftime, h.outputs⟩

theorem Within.upd_sramPoison {P : Nat} {s0 s : State} {x0} (h : Within P s0 s) (hp : sub 2 P) (c0 : twf false s.sramPoison = true → twf false x0 = true) :
    Within P s0 { s with sramPoison := x0 } :=
  ⟨h.pending, h.free, fun hi => { h.inv hi with poison := c0 (h.inv hi).poison }, h.regs, fun hb => absurd (sub_bit (i := 1) hp rfl) (by rw [hb]; decide), h.memq, h.cores, h.fns, h.sectors, h.jobs, h.alloc, h.encQ, h.passes, h.xfers, h.zeroing, h.day, h.keeper, h.eic, h.start, h.maint, h.sched, h.pke, h.fab, h.ftime, h.outputs⟩

theorem Within.upd_start {P : Nat} {s0 s : State} {x0} (h : Within P s0 s) (hp : sub 32768 P) (c0 : s.start.phase ≤ 8 → x0.phase ≤ 8) :
    Within P s0 { s with start := x0 } :=
  ⟨h.pending, h.free, fun hi => { h.inv hi with phase := c0 (h.inv hi).phase }, h.regs, h.mem, h.memq, h.cores, h.fns, h.sectors, h.jobs, h.alloc, h.encQ, h.passes, h.xfers, h.zeroing, h.day, h.keeper, h.eic, fun hb => absurd (sub_bit (i := 15) hp rfl) (by rw [hb]; decide), h.maint, h.sched, h.pke, h.fab, h.ftime, h.outputs⟩

theorem Within.upd_start_ftime {P : Nat} {s0 s : State} {x0 x1} (h : Within P s0 s) (hp : sub 1081344 P) (c0 : s.start.phase ≤ 8 → x0.phase ≤ 8) :
    Within P s0 { s with start := x0, ftime := x1 } :=
  ⟨h.pending, h.free, fun hi => { h.inv hi with phase := c0 (h.inv hi).phase }, h.regs, h.mem, h.memq, h.cores, h.fns, h.sectors, h.jobs, h.alloc, h.encQ, h.passes, h.xfers, h.zeroing, h.day, h.keeper, h.eic, fun hb => absurd (sub_bit (i := 15) hp rfl) (by rw [hb]; decide), h.maint, h.sched, h.pke, h.fab, fun hb => absurd (sub_bit (i := 20) hp rfl) (by rw [hb]; decide), h.outputs⟩

theorem Within.upd_start_sched {P : Nat} {s0 s : State} {x0 x1} (h : Within P s0 s) (hp : sub 163840 P) (c0 : s.start.phase ≤ 8 → x0.phase ≤ 8) :
    Within P s0 { s with start := x0, sched := x1 } :=
  ⟨h.pending, h.free, fun hi => { h.inv hi with phase := c0 (h.inv hi).phase }, h.regs, h.mem, h.memq, h.cores, h.fns, h.sectors, h.jobs, h.alloc, h.encQ, h.passes, h.xfers, h.zeroing, h.day, h.keeper, h.eic, fun hb => absurd (sub_bit (i := 15) hp rfl) (by rw [hb]; decide), h.maint, fun hb => absurd (sub_bit (i := 17) hp rfl) (by rw [hb]; decide), h.pke, h.fab, h.ftime, h.outputs⟩

theorem Within.upd_xfers {P : Nat} {s0 s : State} {x0} (h : Within P s0 s) (hp : sub 1024 P) :
    Within P s0 { s with xfers := x0 } :=
  ⟨h.pending, h.free, fun hi => { h.inv hi with  }, h.regs, h.mem, h.memq, h.cores, h.fns, h.sectors, h.jobs, h.alloc, h.encQ, h.passes, fun hb => absurd (sub_bit (i := 10) hp rfl) (by rw [hb]; decide), h.zeroing, h.day, h.keeper, h.eic, h.start, h.maint, h.sched, h.pke, h.fab, h.ftime, h.outputs⟩

theorem Within.upd_xfers_xferSeq {P : Nat} {s0 s : State} {x0 x1} (h : Within P s0 s) (hp : sub 1024 P) :
    Within P s0 { s with xfers := x0, xferSeq := x1 } :=
  ⟨h.pending, h.free, fun hi => { h.inv hi with  }, h.regs, h.mem, h.memq, h.cores, h.fns, h.sectors, h.jobs, h.alloc, h.encQ, h.passes, fun hb => absurd (sub_bit (i := 10) hp rfl) (by rw [hb]; decide), h.zeroing, h.day, h.keeper, h.eic, h.start, h.maint, h.sched, h.pke, h.fab, h.ftime, h.outputs⟩

theorem Within.upd_zeroing {P : Nat} {s0 s : State} {x0} (h : Within P s0 s) (hp : sub 2048 P) :
    Within P s0 { s with zeroing := x0 } :=
  ⟨h.pending, h.free, fun hi => { h.inv hi with  }, h.regs, h.mem, h.memq, h.cores, h.fns, h.sectors, h.jobs, h.alloc, h.encQ, h.passes, h.xfers, fun hb => absurd (sub_bit (i := 11) hp rfl) (by rw [hb]; decide), h.day, h.keeper, h.eic, h.start, h.maint, h.sched, h.pke, h.fab, h.ftime, h.outputs⟩

theorem Within.upd_zombies {P : Nat} {s0 s : State} {x0} (h : Within P s0 s) (hp : sub 128 P) :
    Within P s0 { s with zombies := x0 } :=
  ⟨h.pending, h.free, fun hi => { h.inv hi with  }, h.regs, h.mem, h.memq, h.cores, h.fns, h.sectors, h.jobs, fun hb => absurd (sub_bit (i := 7) hp rfl) (by rw [hb]; decide), h.encQ, h.passes, h.xfers, h.zeroing, h.day, h.keeper, h.eic, h.start, h.maint, h.sched, h.pke, h.fab, h.ftime, h.outputs⟩

end Sys2Proof.Machine
end

