-- ==== Sys2Proof/Laws/WithinOps.lean ====
section
/-! SUPPORT. What each operation of Machine/Ops.lean may change (see Within.lean). -/

namespace Sys2Proof.Machine

theorem setCore_within {P s0 s a1 a2} (h : Within P s0 s) (hp : sub 8 P) : Within P s0 (setCore s a1 a2) := by
  unfold setCore
  repeat' (first | with_reducible assumption | exact sub_of rfl | with_reducible refine Within.upd_cores ?_ (sub_trans ?_ hp) ?_ | exact twf_tset _ _ | exact twf_tmap _ | exact twf_filter _ | exact twf_tsetRun _ _)

theorem modCore_within {P s0 s a1 a2} (h : Within P s0 s) (hp : sub 8 P) : Within P s0 (modCore s a1 a2) := by
  unfold modCore
  repeat' (first | with_reducible assumption | exact sub_of rfl | with_reducible refine setCore_within ?_ (sub_trans ?_ hp))

theorem setFn_within {P s0 s a1 a2} (h : Within P s0 s) (hp : sub 16 P) : Within P s0 (setFn s a1 a2) := by
  unfold setFn
  repeat' (first | with_reducible assumption | exact sub_of rfl | with_reducible refine Within.upd_fns ?_ (sub_trans ?_ hp) ?_ | exact twf_tset _ _ | exact twf_tmap _ | exact twf_filter _ | exact twf_tsetRun _ _)

theorem modFn_within {P s0 s a1 a2} (h : Within P s0 s) (hp : sub 16 P) : Within P s0 (modFn s a1 a2) := by
  unfold modFn
  repeat' (first | with_reducible assumption | exact sub_of rfl | with_reducible refine setFn_within ?_ (sub_trans ?_ hp))

theorem setSector_within {P s0 s a1 a2} (h : Within P s0 s) (hp : sub 32 P) : Within P s0 (setSector s a1 a2) := by
  unfold setSector
  repeat' (first | with_reducible assumption | exact sub_of rfl | with_reducible refine Within.upd_sectors ?_ (sub_trans ?_ hp) ?_ | exact twf_tset _ _ | exact twf_tmap _ | exact twf_filter _ | exact twf_tsetRun _ _)

theorem modSector_within {P s0 s a1 a2} (h : Within P s0 s) (hp : sub 32 P) : Within P s0 (modSector s a1 a2) := by
  unfold modSector
  repeat' (first | with_reducible assumption | exact sub_of rfl | with_reducible refine setSector_within ?_ (sub_trans ?_ hp))

theorem setJob_within {P s0 s a1 a2} (h : Within P s0 s) (hp : sub 64 P) : Within P s0 (setJob s a1 a2) := by
  unfold setJob
  repeat' (first | with_reducible assumption | exact sub_of rfl | with_reducible refine Within.upd_jobs ?_ (sub_trans ?_ hp) ?_ | exact twf_tset _ _ | exact twf_tmap _ | exact twf_filter _ | exact twf_tsetRun _ _)

theorem modJob_within {P s0 s a1 a2} (h : Within P s0 s) (hp : sub 64 P) : Within P s0 (modJob s a1 a2) := by
  unfold modJob
  repeat' (first | with_reducible assumption | exact sub_of rfl | with_reducible refine setJob_within ?_ (sub_trans ?_ hp))

theorem regSet_within {P s0 s a1 a2} (h : Within P s0 s) (hp : sub 1 P) : Within P s0 (regSet s a1 a2) := by
  unfold regSet
  repeat' (first | with_reducible assumption | exact sub_of rfl | with_reducible refine Within.upd_regs ?_ (sub_trans ?_ hp) ?_ | exact kwf_tset _ _ | exact kwf_filter _)

theorem regSetFld_within {P s0 s a1 a2 a3 a4} (h : Within P s0 s) (hp : sub 1 P) : Within P s0 (regSetFld s a1 a2 a3 a4) := by
  unfold regSetFld
  repeat' (first | with_reducible assumption | exact sub_of rfl | with_reducible refine regSet_within ?_ (sub_trans ?_ hp))

theorem bumpN_within {P s0 s a1 a2} (h : Within P s0 s) (hp : sub 1 P) : Within P s0 (bumpN s a1 a2) := by
  unfold bumpN
  repeat' (first | with_reducible assumption | exact sub_of rfl | with_reducible refine regSet_within ?_ (sub_trans ?_ hp) | with_reducible refine Within.ite ?_ ?_ | split)

theorem bump_within {P s0 s a1} (h : Within P s0 s) (hp : sub 1 P) : Within P s0 (bump s a1) := by
  unfold bump
  repeat' (first | with_reducible assumption | exact sub_of rfl | with_reducible refine bumpN_within ?_ (sub_trans ?_ hp))

theorem emit_within {P s0 s a1} (h : Within P s0 s) (hp : sub 2097152 P) : Within P s0 (emit s a1) := by
  unfold emit
  repeat' (first | with_reducible assumption | exact sub_of rfl | with_reducible refine Within.upd_outputs ?_ (sub_trans ?_ hp))

theorem drawFree_within {P s0 s} (h : Within P s0 s)  : Within P s0 (drawFree s).2 := by
  unfold drawFree
  repeat' (first | with_reducible assumption | exact sub_of rfl | with_reducible refine Within.upd_free ?_ ?_ | exact Nat.le_add_right _ _)
theorem drawFree_within' {P s0 s t r} (he : drawFree s = (r, t)) (h : Within P s0 s)  : Within P s0 t := by
  have k : Within P s0 (drawFree s).2 := drawFree_within h
  rw [he] at k; exact k

end Sys2Proof.Machine
end

