-- ==== Sys2Proof/Laws/WithinDaymark.lean ====
section
/-! SUPPORT. What each operation of Machine/Daymark.lean may change (see Within.lean). -/

namespace Sys2Proof.Machine

theorem sbAlert_within {P s0 s} (h : Within P s0 s) (hp : sub 2105345 P) : Within P s0 (sbAlert s) := by
  unfold sbAlert
  repeat' (first | with_reducible assumption | exact sub_of rfl | with_reducible refine bump_within ?_ (sub_trans ?_ hp) | with_reducible refine emit_within ?_ (sub_trans ?_ hp) | with_reducible refine Within.ite ?_ ?_ | with_reducible refine Within.upd_keeper ?_ (sub_trans ?_ hp) | (extract_lets +onlyGivenNames x; refine (fun (_ : Within P s0 x) => ?_) ?_; rotate_left; subst x; rotate_left; clear_value x) | (extract_lets +onlyGivenNames x; clear_value x) | split)

theorem dayRegs_within {P s0 s} (h : Within P s0 s) (hp : sub 1 P) : Within P s0 (dayRegs s) := by
  unfold dayRegs
  repeat' (first | with_reducible assumption | exact sub_of rfl | with_reducible refine regSetFld_within ?_ (sub_trans ?_ hp) | with_reducible refine regSet_within ?_ (sub_trans ?_ hp) | with_reducible refine Within.foldl ?_ (fun _ _ _ => ?_) | with_reducible refine Within.foldl_fst ?_ (fun _ _ _ => ?_) | (extract_lets +onlyGivenNames x; refine (fun (_ : Within P s0 x) => ?_) ?_; rotate_left; subst x; rotate_left; clear_value x) | (extract_lets +onlyGivenNames x; clear_value x) | split)

theorem dayAppend_within {P s0 s a1 a2 a3 a4} (h : Within P s0 s) (hp : sub 4097 P) : Within P s0 (dayAppend s a1 a2 a3 a4) := by
  unfold dayAppend
  repeat' (first | with_reducible assumption | exact sub_of rfl | with_reducible refine bump_within ?_ (sub_trans ?_ hp) | with_reducible refine dayRegs_within ?_ (sub_trans ?_ hp) | with_reducible refine Within.ite ?_ ?_ | with_reducible refine Within.upd_day ?_ (sub_trans ?_ hp) | (extract_lets +onlyGivenNames x; refine (fun (_ : Within P s0 x) => ?_) ?_; rotate_left; subst x; rotate_left; clear_value x) | (extract_lets +onlyGivenNames x; clear_value x) | split)

theorem dayEvent_within {P s0 s a1 a2 a3 a4} (h : Within P s0 s) (hp : sub 4097 P) : Within P s0 (dayEvent s a1 a2 a3 a4) := by
  unfold dayEvent; try dsimp only
  repeat' (first | with_reducible assumption | exact sub_of rfl | with_reducible refine dayAppend_within ?_ (sub_trans ?_ hp) | with_reducible refine bump_within ?_ (sub_trans ?_ hp) | split | with_reducible refine Within.upd_day ?_ (sub_trans ?_ hp))

theorem dayFreeze_within {P s0 s a1} (h : Within P s0 s) (hp : sub 4097 P) : Within P s0 (dayFreeze s a1) := by
  unfold dayFreeze
  repeat' (first | with_reducible assumption | exact sub_of rfl | with_reducible refine regSetFld_within ?_ (sub_trans ?_ hp) | with_reducible refine Within.ite ?_ ?_ | with_reducible refine Within.upd_day ?_ (sub_trans ?_ hp) | (extract_lets +onlyGivenNames x; refine (fun (_ : Within P s0 x) => ?_) ?_; rotate_left; subst x; rotate_left; clear_value x) | (extract_lets +onlyGivenNames x; clear_value x) | split)

theorem dayThaw_within {P s0 s a1} (h : Within P s0 s) (hp : sub 4097 P) : Within P s0 (dayThaw s a1) := by
  unfold dayThaw
  repeat' (first | with_reducible assumption | exact sub_of rfl | with_reducible refine regSetFld_within ?_ (sub_trans ?_ hp) | with_reducible refine dayEvent_within ?_ (sub_trans ?_ hp) | with_reducible refine Within.ite ?_ ?_ | with_reducible refine Within.upd_day ?_ (sub_trans ?_ hp) | (extract_lets +onlyGivenNames x; refine (fun (_ : Within P s0 x) => ?_) ?_; rotate_left; subst x; rotate_left; clear_value x) | (extract_lets +onlyGivenNames x; clear_value x) | split)

theorem dayEndFreezes_within {P s0 s} (h : Within P s0 s) (hp : sub 4097 P) : Within P s0 (dayEndFreezes s) := by
  unfold dayEndFreezes
  repeat' (first | with_reducible assumption | exact sub_of rfl | with_reducible refine dayThaw_within ?_ (sub_trans ?_ hp))

end Sys2Proof.Machine
end

