-- ==== Sys2Proof/Laws/WithinEic.lean ====
section
/-! SUPPORT. What each operation of Machine/Eic.lean may change (see Within.lean). -/

namespace Sys2Proof.Machine

theorem setEicStack_within {P s0 s a1 a2 a3} (h : Within P s0 s) (hp : sub 16384 P) : Within P s0 (setEicStack s a1 a2 a3) := by
  unfold setEicStack
  repeat' (first | with_reducible assumption | exact sub_of rfl | with_reducible refine Within.upd_eicStack ?_ (sub_trans ?_ hp))

theorem setPendingBit_within {P s0 s a1 a2 a3} (h : Within P s0 s) (hp : sub 1 P) : Within P s0 (setPendingBit s a1 a2 a3) := by
  unfold setPendingBit
  repeat' (first | with_reducible assumption | exact sub_of rfl | with_reducible refine regSet_within ?_ (sub_trans ?_ hp) | with_reducible refine Within.ite ?_ ?_ | (extract_lets +onlyGivenNames x; refine (fun (_ : Within P s0 x) => ?_) ?_; rotate_left; subst x; rotate_left; clear_value x) | (extract_lets +onlyGivenNames x; clear_value x) | split)

theorem raiseSrc_within {P s0 s a1 a2} (h : Within P s0 s) (hp : sub 131073 P) : Within P s0 (raiseSrc s a1 a2) := by
  unfold raiseSrc
  repeat' (first | with_reducible assumption | exact sub_of rfl | with_reducible refine setPendingBit_within ?_ (sub_trans ?_ hp) | with_reducible refine Within.ite ?_ ?_ | with_reducible refine Within.upd_sched ?_ (sub_trans ?_ hp) | (extract_lets +onlyGivenNames x; refine (fun (_ : Within P s0 x) => ?_) ?_; rotate_left; subst x; rotate_left; clear_value x) | (extract_lets +onlyGivenNames x; clear_value x) | split)

end Sys2Proof.Machine
end

