-- ==== Sys2Proof/Laws/WithinEvents.lean ====
section
/-! SUPPORT. What each operation of Machine/Events.lean may change (see Within.lean). -/

namespace Sys2Proof.Machine

theorem regSetPair_within {P s0 s a1 a2} (h : Within P s0 s) (hp : sub 1 P) : Within P s0 (regSetPair s a1 a2) := by
  unfold regSetPair
  repeat' (first | with_reducible assumption | exact sub_of rfl | with_reducible refine regSet_within ?_ (sub_trans ?_ hp))

theorem msix_within {P s0 s a1 a2} (h : Within P s0 s) (hp : sub 2097153 P) : Within P s0 (msix s a1 a2) := by
  unfold msix
  repeat' (first | with_reducible assumption | exact sub_of rfl | with_reducible refine regSet_within ?_ (sub_trans ?_ hp) | with_reducible refine emit_within ?_ (sub_trans ?_ hp) | with_reducible refine Within.ite ?_ ?_ | (extract_lets +onlyGivenNames x; refine (fun (_ : Within P s0 x) => ?_) ?_; rotate_left; subst x; rotate_left; clear_value x) | (extract_lets +onlyGivenNames x; clear_value x) | split)

theorem postEvent_within {P s0 s a1 a2 a3} (h : Within P s0 s) (hp : sub 2097169 P) : Within P s0 (postEvent s a1 a2 a3) := by
  unfold postEvent
  repeat' (first | with_reducible assumption | exact sub_of rfl | with_reducible refine bump_within ?_ (sub_trans ?_ hp) | with_reducible refine regSetFld_within ?_ (sub_trans ?_ hp) | with_reducible refine emit_within ?_ (sub_trans ?_ hp) | with_reducible refine setFn_within ?_ (sub_trans ?_ hp) | with_reducible refine msix_within ?_ (sub_trans ?_ hp) | with_reducible refine Within.ite ?_ ?_ | (extract_lets +onlyGivenNames x; refine (fun (_ : Within P s0 x) => ?_) ?_; rotate_left; subst x; rotate_left; clear_value x) | (extract_lets +onlyGivenNames x; clear_value x) | split)

theorem writeCompletion_within {P s0 s a1 a2 a3 a4 a5 a6 a7 a8 a9} (h : Within P s0 s) (hp : sub 2097153 P) : Within P s0 (writeCompletion s a1 a2 a3 a4 a5 a6 a7 a8 a9) := by
  unfold writeCompletion
  repeat' (first | with_reducible assumption | exact sub_of rfl | with_reducible refine regSetFld_within ?_ (sub_trans ?_ hp) | with_reducible refine emit_within ?_ (sub_trans ?_ hp) | with_reducible refine msix_within ?_ (sub_trans ?_ hp) | with_reducible refine Within.ite ?_ ?_ | (extract_lets +onlyGivenNames x; refine (fun (_ : Within P s0 x) => ?_) ?_; rotate_left; subst x; rotate_left; clear_value x) | (extract_lets +onlyGivenNames x; clear_value x) | split)

end Sys2Proof.Machine
end

