-- ==== Sys2Proof/Laws/WithinDayRows.lean ====
section
/-! SUPPORT. What each operation of Machine/DayRows.lean may change (see Within.lean). -/

namespace Sys2Proof.Machine

theorem dayErase_within {P s0 s a1} (h : Within P s0 s) (hp : sub 4096 P) : Within P s0 (dayErase s a1) := by
  unfold dayErase
  repeat' (first | with_reducible assumption | exact sub_of rfl | with_reducible refine Within.foldl ?_ (fun _ _ _ => ?_) | with_reducible refine Within.foldl_fst ?_ (fun _ _ _ => ?_) | with_reducible refine Within.upd_day ?_ (sub_trans ?_ hp))

theorem dayPut_within {P s0 s a1 a2} (h : Within P s0 s) (hp : sub 4097 P) : Within P s0 (dayPut s a1 a2) := by
  unfold dayPut
  repeat' (first | with_reducible assumption | exact sub_of rfl | with_reducible refine dayRegs_within ?_ (sub_trans ?_ hp) | with_reducible refine dayErase_within ?_ (sub_trans ?_ hp) | with_reducible refine Within.ite ?_ ?_ | with_reducible refine Within.upd_day ?_ (sub_trans ?_ hp) | (extract_lets +onlyGivenNames x; refine (fun (_ : Within P s0 x) => ?_) ?_; rotate_left; subst x; rotate_left; clear_value x) | (extract_lets +onlyGivenNames x; clear_value x) | split)

theorem saveCounts_within {P s0 s} (h : Within P s0 s) (hp : sub 8192 P) : Within P s0 (saveCounts s) := by
  unfold saveCounts
  repeat' (first | with_reducible assumption | exact sub_of rfl | with_reducible refine Within.upd_keeper ?_ (sub_trans ?_ hp))

theorem dayLost_within {P s0 s} (h : Within P s0 s) (hp : sub 4097 P) : Within P s0 (dayLost s) := by
  unfold dayLost
  repeat' (first | with_reducible assumption | exact sub_of rfl | with_reducible refine dayAppend_within ?_ (sub_trans ?_ hp) | with_reducible refine Within.ite ?_ ?_ | with_reducible refine Within.upd_day ?_ (sub_trans ?_ hp) | split)

theorem dayFlush_within {P s0 s} (h : Within P s0 s) (hp : sub 12289 P) : Within P s0 (dayFlush s) := by
  unfold dayFlush
  repeat' (first | with_reducible assumption | exact sub_of rfl | with_reducible refine dayLost_within ?_ (sub_trans ?_ hp) | with_reducible refine dayPut_within ?_ (sub_trans ?_ hp) | with_reducible refine saveCounts_within ?_ (sub_trans ?_ hp) | with_reducible refine Within.foldl ?_ (fun _ _ _ => ?_) | with_reducible refine Within.foldl_fst ?_ (fun _ _ _ => ?_) | with_reducible refine Within.ite ?_ ?_ | (extract_lets +onlyGivenNames x; refine (fun (_ : Within P s0 x) => ?_) ?_; rotate_left; subst x; rotate_left; clear_value x) | (extract_lets +onlyGivenNames x; clear_value x) | split)

theorem latchFailure_within {P s0 s a1 a2} (h : Within P s0 s) (hp : sub 1 P) : Within P s0 (latchFailure s a1 a2) := by
  unfold latchFailure
  repeat' (first | with_reducible assumption | exact sub_of rfl | with_reducible refine regSetFld_within ?_ (sub_trans ?_ hp) | with_reducible refine regSet_within ?_ (sub_trans ?_ hp) | (extract_lets +onlyGivenNames x; refine (fun (_ : Within P s0 x) => ?_) ?_; rotate_left; subst x; rotate_left; clear_value x) | (extract_lets +onlyGivenNames x; clear_value x) | split)

theorem dayFail_within {P s0 s a1 a2 a3} (h : Within P s0 s) (hp : sub 2240529 P) : Within P s0 (dayFail s a1 a2 a3) := by
  unfold dayFail
  repeat' (first | with_reducible assumption | exact sub_of rfl | with_reducible refine latchFailure_within ?_ (sub_trans ?_ hp) | with_reducible refine regSetFld_within ?_ (sub_trans ?_ hp) | with_reducible refine postEvent_within ?_ (sub_trans ?_ hp) | with_reducible refine raiseSrc_within ?_ (sub_trans ?_ hp) | with_reducible refine sbAlert_within ?_ (sub_trans ?_ hp) | with_reducible refine Within.ite ?_ ?_ | with_reducible refine Within.upd_day ?_ (sub_trans ?_ hp) | (extract_lets +onlyGivenNames x; refine (fun (_ : Within P s0 x) => ?_) ?_; rotate_left; subst x; rotate_left; clear_value x) | (extract_lets +onlyGivenNames x; clear_value x) | split)

theorem execDaymarkProgram_within {P s0 s t a0} (h : Within P s0 s) (hp : sub 2240529 P) (he : execDaymarkProgram a0 s = .next t) : Within P s0 t := by
  unfold execDaymarkProgram at he; try dsimp only at he
  repeat' split at he
  all_goals (injection he with he; subst he; try dsimp only)
  all_goals repeat' (first | with_reducible assumption | exact sub_of rfl | with_reducible refine dayLost_within ?_ (sub_trans ?_ hp) | with_reducible refine dayFail_within ?_ (sub_trans ?_ hp) | with_reducible refine dayPut_within ?_ (sub_trans ?_ hp) | with_reducible refine dayRegs_within ?_ (sub_trans ?_ hp) | with_reducible refine Within.upd_day ?_ (sub_trans ?_ hp))

theorem execFreezeLimitExpiry_within {P s0 s t a0} (h : Within P s0 s) (hp : sub 4097 P) (he : execFreezeLimitExpiry a0 s = .next t) : Within P s0 t := by
  unfold execFreezeLimitExpiry at he; try dsimp only at he
  repeat' split at he
  all_goals (injection he with he; subst he; try dsimp only)
  all_goals repeat' (first | with_reducible assumption | exact sub_of rfl | with_reducible refine dayThaw_within ?_ (sub_trans ?_ hp))

theorem dayWindow_within {P s0 s a1} (h : Within P s0 s) (hp : sub 1 P) : Within P s0 (dayWindow s a1) := by
  unfold dayWindow
  repeat' (first | with_reducible assumption | exact sub_of rfl | with_reducible refine regSet_within ?_ (sub_trans ?_ hp) | with_reducible refine Within.foldl ?_ (fun _ _ _ => ?_) | with_reducible refine Within.foldl_fst ?_ (fun _ _ _ => ?_) | (extract_lets +onlyGivenNames x; refine (fun (_ : Within P s0 x) => ?_) ?_; rotate_left; subst x; rotate_left; clear_value x) | (extract_lets +onlyGivenNames x; refine (fun (_ : Within P s0 x.1) => ?_) ?_; rotate_left; subst x; rotate_left; clear_value x) | (extract_lets +onlyGivenNames x; clear_value x))

theorem execDayCmdLoad_within {P s0 s t} (h : Within P s0 s) (hp : sub 1 P) (he : execDayCmdLoad s = .next t) : Within P s0 t := by
  unfold execDayCmdLoad at he; injection he with he; subst he
  repeat' (first | with_reducible assumption | exact sub_of rfl | with_reducible refine dayWindow_within ?_ (sub_trans ?_ hp) | with_reducible refine Within.ite ?_ ?_ | split)

theorem execDayCmdNext_within {P s0 s t} (h : Within P s0 s) (hp : sub 1 P) (he : execDayCmdNext s = .next t) : Within P s0 t := by
  unfold execDayCmdNext at he; injection he with he; subst he
  repeat' (first | with_reducible assumption | exact sub_of rfl | with_reducible refine dayWindow_within ?_ (sub_trans ?_ hp) | with_reducible refine regSet_within ?_ (sub_trans ?_ hp) | with_reducible refine Within.ite ?_ ?_ | (extract_lets +onlyGivenNames x; refine (fun (_ : Within P s0 x) => ?_) ?_; rotate_left; subst x; rotate_left; clear_value x) | (extract_lets +onlyGivenNames x; clear_value x) | split)

theorem execDayCmdFreeze_within {P s0 s t} (h : Within P s0 s) (hp : sub 4097 P) (he : execDayCmdFreeze s = .next t) : Within P s0 t := by
  unfold execDayCmdFreeze at he; injection he with he; subst he
  repeat' (first | with_reducible assumption | exact sub_of rfl | with_reducible refine dayFreeze_within ?_ (sub_trans ?_ hp) | with_reducible refine Within.ite ?_ ?_ | split)

theorem execDayCmdThaw_within {P s0 s t} (h : Within P s0 s) (hp : sub 4097 P) (he : execDayCmdThaw s = .next t) : Within P s0 t := by
  unfold execDayCmdThaw at he; injection he with he; subst he
  repeat' (first | with_reducible assumption | exact sub_of rfl | with_reducible refine dayThaw_within ?_ (sub_trans ?_ hp) | with_reducible refine Within.ite ?_ ?_ | split)

theorem dayRetry_within {P s0 s a1} (h : Within P s0 s) (hp : sub 2109457 P) : Within P s0 (dayRetry s a1) := by
  unfold dayRetry
  repeat' (first | with_reducible assumption | exact sub_of rfl | with_reducible refine latchFailure_within ?_ (sub_trans ?_ hp) | with_reducible refine regSetFld_within ?_ (sub_trans ?_ hp) | with_reducible refine dayFlush_within ?_ (sub_trans ?_ hp) | with_reducible refine dayEvent_within ?_ (sub_trans ?_ hp) | with_reducible refine postEvent_within ?_ (sub_trans ?_ hp) | with_reducible refine dayErase_within ?_ (sub_trans ?_ hp) | with_reducible refine Within.ite ?_ ?_ | (extract_lets +onlyGivenNames x; refine (fun (_ : Within P s0 x) => ?_) ?_; rotate_left; subst x; rotate_left; clear_value x) | (extract_lets +onlyGivenNames x; clear_value x) | split)

theorem execDayCmdRetry_within {P s0 s t a0} (h : Within P s0 s) (hp : sub 2109457 P) (he : execDayCmdRetry a0 s = .next t) : Within P s0 t := by
  unfold execDayCmdRetry at he; injection he with he; subst he
  repeat' (first | with_reducible assumption | exact sub_of rfl | with_reducible refine dayRetry_within ?_ (sub_trans ?_ hp) | with_reducible refine Within.ite ?_ ?_ | split)

theorem execDayCmdClearLatch_within {P s0 s t} (h : Within P s0 s) (hp : sub 1 P) (he : execDayCmdClearLatch s = .next t) : Within P s0 t := by
  unfold execDayCmdClearLatch at he; injection he with he; subst he
  repeat' (first | with_reducible assumption | exact sub_of rfl | with_reducible refine regSetFld_within ?_ (sub_trans ?_ hp) | with_reducible refine regSet_within ?_ (sub_trans ?_ hp) | with_reducible refine Within.foldl ?_ (fun _ _ _ => ?_) | with_reducible refine Within.foldl_fst ?_ (fun _ _ _ => ?_) | with_reducible refine Within.ite ?_ ?_ | split)

theorem sbAnswer_within {P s0 s a1 a2} (h : Within P s0 s) (hp : sub 2097152 P) : Within P s0 (sbAnswer s a1 a2) := by
  unfold sbAnswer
  repeat' (first | with_reducible assumption | exact sub_of rfl | with_reducible refine emit_within ?_ (sub_trans ?_ hp))

theorem execDayLoad_within {P s0 s t a0} (h : Within P s0 s) (hp : sub 2097152 P) (he : execDayLoad a0 s = .next t) : Within P s0 t := by
  unfold execDayLoad at he; injection he with he; subst he
  repeat' (first | with_reducible assumption | exact sub_of rfl | with_reducible refine sbAnswer_within ?_ (sub_trans ?_ hp) | with_reducible refine Within.ite ?_ ?_ | (extract_lets +onlyGivenNames x; refine (fun (_ : Within P s0 x) => ?_) ?_; rotate_left; subst x; rotate_left; clear_value x) | (extract_lets +onlyGivenNames x; clear_value x) | split)

theorem execDayHoldFreeze_within {P s0 s t} (h : Within P s0 s) (hp : sub 2101249 P) (he : execDayHoldFreeze s = .next t) : Within P s0 t := by
  unfold execDayHoldFreeze at he; injection he with he; subst he
  repeat' (first | with_reducible assumption | exact sub_of rfl | with_reducible refine dayFreeze_within ?_ (sub_trans ?_ hp) | with_reducible refine sbAnswer_within ?_ (sub_trans ?_ hp) | with_reducible refine Within.ite ?_ ?_ | split)

theorem execDayHoldThaw_within {P s0 s t} (h : Within P s0 s) (hp : sub 2101249 P) (he : execDayHoldThaw s = .next t) : Within P s0 t := by
  unfold execDayHoldThaw at he; injection he with he; subst he
  repeat' (first | with_reducible assumption | exact sub_of rfl | with_reducible refine sbAnswer_within ?_ (sub_trans ?_ hp) | with_reducible refine dayThaw_within ?_ (sub_trans ?_ hp) | with_reducible refine Within.ite ?_ ?_ | split)

theorem execLatchRead_within {P s0 s t} (h : Within P s0 s) (hp : sub 2097152 P) (he : execLatchRead s = .next t) : Within P s0 t := by
  unfold execLatchRead at he; injection he with he; subst he
  repeat' (first | with_reducible assumption | exact sub_of rfl | with_reducible refine sbAnswer_within ?_ (sub_trans ?_ hp) | with_reducible refine Within.ite ?_ ?_ | split)

end Sys2Proof.Machine
end

