-- ==== Sys2Proof/Laws/WithinKseBase.lean ====
section
/-! SUPPORT. What each operation of Machine/KseBase.lean may change (see Within.lean). -/

namespace Sys2Proof.Machine

theorem loseExpanders_within {P s0 s} (h : Within P s0 s) (hp : sub 512 P) : Within P s0 (loseExpanders s) := by
  unfold loseExpanders
  repeat' (first | with_reducible assumption | exact sub_of rfl | with_reducible refine Within.ite ?_ ?_ | with_reducible refine Within.upd_passes ?_ (sub_trans ?_ hp) | (extract_lets +onlyGivenNames x; refine (fun (_ : Within P s0 x) => ?_) ?_; rotate_left; subst x; rotate_left; clear_value x) | (extract_lets +onlyGivenNames x; clear_value x) | split)

end Sys2Proof.Machine
end

