-- ==== Sys2Proof/Laws/WithinLink.lean ====
section
/-! SUPPORT. What each operation of Machine/Link.lean may change (see Within.lean). -/

namespace Sys2Proof.Machine

theorem setPort_within {P s0 s a1 a2} (h : Within P s0 s) (hp : sub 524288 P) : Within P s0 (setPort s a1 a2) := by
  unfold setPort
  repeat' (first | with_reducible assumption | exact sub_of rfl | with_reducible refine Within.upd_fab ?_ (sub_trans ?_ hp))

theorem modPort_within {P s0 s a1 a2} (h : Within P s0 s) (hp : sub 524288 P) : Within P s0 (modPort s a1 a2) := by
  unfold modPort
  repeat' (first | with_reducible assumption | exact sub_of rfl | with_reducible refine setPort_within ?_ (sub_trans ?_ hp))

theorem setPortState_within {P s0 s a1 a2} (h : Within P s0 s) (hp : sub 131073 P) : Within P s0 (setPortState s a1 a2) := by
  unfold setPortState
  repeat' (first | with_reducible assumption | exact sub_of rfl | with_reducible refine bump_within ?_ (sub_trans ?_ hp) | with_reducible refine regSetFld_within ?_ (sub_trans ?_ hp) | with_reducible refine raiseSrc_within ?_ (sub_trans ?_ hp) | with_reducible refine Within.ite ?_ ?_ | (extract_lets +onlyGivenNames x; refine (fun (_ : Within P s0 x) => ?_) ?_; rotate_left; subst x; rotate_left; clear_value x) | (extract_lets +onlyGivenNames x; clear_value x) | split)

theorem setPairState_within {P s0 s a1} (h : Within P s0 s) (hp : sub 1 P) : Within P s0 (setPairState s a1) := by
  unfold setPairState
  repeat' (first | with_reducible assumption | exact sub_of rfl | with_reducible refine regSetFld_within ?_ (sub_trans ?_ hp))

theorem oweCredit_within {P s0 s a1} (h : Within P s0 s) (hp : sub 524288 P) : Within P s0 (oweCredit s a1) := by
  unfold oweCredit
  repeat' (first | with_reducible assumption | exact sub_of rfl | with_reducible refine modPort_within ?_ (sub_trans ?_ hp) | split)

theorem notePath_within {P s0 s a1 a2} (h : Within P s0 s) (hp : sub 524288 P) : Within P s0 (notePath s a1 a2) := by
  unfold notePath
  repeat' (first | with_reducible assumption | exact sub_of rfl | with_reducible refine Within.ite ?_ ?_ | with_reducible refine Within.upd_fab ?_ (sub_trans ?_ hp) | (extract_lets +onlyGivenNames x; refine (fun (_ : Within P s0 x) => ?_) ?_; rotate_left; subst x; rotate_left; clear_value x) | (extract_lets +onlyGivenNames x; clear_value x) | split)

theorem launch_within {P s0 s a1 a2} (h : Within P s0 s) (hp : sub 524289 P) : Within P s0 (launch s a1 a2).1 := by
  unfold launch
  repeat' (first | with_reducible assumption | exact sub_of rfl | with_reducible refine modPort_within ?_ (sub_trans ?_ hp) | with_reducible refine bump_within ?_ (sub_trans ?_ hp) | with_reducible refine notePath_within ?_ (sub_trans ?_ hp) | with_reducible refine oweCredit_within ?_ (sub_trans ?_ hp) | (extract_lets +onlyGivenNames x; refine (fun (_ : Within P s0 x) => ?_) ?_; rotate_left; subst x; rotate_left; clear_value x) | (extract_lets +onlyGivenNames x; clear_value x) | split)
theorem launch_within' {P s0 s t r a1 a2} (he : launch s a1 a2 = (t, r)) (h : Within P s0 s) (hp : sub 524289 P) : Within P s0 t := by
  have k : Within P s0 (launch s a1 a2).1 := launch_within h hp
  rw [he] at k; exact k

theorem sendXctrl_within {P s0 s a1 a2 a3 a4 a5 a6 a7} (h : Within P s0 s) (hp : sub 524289 P) : Within P s0 (sendXctrl s a1 a2 a3 a4 a5 a6 a7) := by
  unfold sendXctrl
  repeat' (first | with_reducible assumption | exact sub_of rfl | with_reducible refine bump_within ?_ (sub_trans ?_ hp) | with_reducible refine launch_within ?_ (sub_trans ?_ hp) | with_reducible refine launch_within' ‹_› ?_ (sub_trans ?_ hp) | with_reducible refine Within.ite ?_ ?_ | (extract_lets +onlyGivenNames x; refine (fun (_ : Within P s0 x) => ?_) ?_; rotate_left; subst x; rotate_left; clear_value x) | (extract_lets +onlyGivenNames x; refine (fun (_ : Within P s0 x.1) => ?_) ?_; rotate_left; subst x; rotate_left; clear_value x) | (extract_lets +onlyGivenNames x; clear_value x) | split)

theorem forward_within {P s0 s a1 a2} (h : Within P s0 s) (hp : sub 524289 P) : Within P s0 (forward s a1 a2) := by
  unfold forward
  repeat' (first | with_reducible assumption | exact sub_of rfl | with_reducible refine sendXctrl_within ?_ (sub_trans ?_ hp) | with_reducible refine launch_within ?_ (sub_trans ?_ hp) | with_reducible refine launch_within' ‹_› ?_ (sub_trans ?_ hp) | with_reducible refine Within.ite ?_ ?_ | (extract_lets +onlyGivenNames x; refine (fun (_ : Within P s0 x) => ?_) ?_; rotate_left; subst x; rotate_left; clear_value x) | (extract_lets +onlyGivenNames x; refine (fun (_ : Within P s0 x.1) => ?_) ?_; rotate_left; subst x; rotate_left; clear_value x) | (extract_lets +onlyGivenNames x; clear_value x) | split)

theorem sendMessage_within {P s0 s a1 a2 a3 a4} (h : Within P s0 s) (hp : sub 524289 P) : Within P s0 (sendMessage s a1 a2 a3 a4) := by
  unfold sendMessage
  repeat' (first | with_reducible assumption | exact sub_of rfl | with_reducible refine launch_within ?_ (sub_trans ?_ hp) | with_reducible refine launch_within' ‹_› ?_ (sub_trans ?_ hp) | with_reducible refine Within.foldl ?_ (fun _ _ _ => ?_) | with_reducible refine Within.foldl_fst ?_ (fun _ _ _ => ?_) | with_reducible refine Within.ite ?_ ?_ | split)

theorem pairOnPort_within {P s0 s a1 a2} (h : Within P s0 s) (hp : sub 524288 P) : Within P s0 (pairOnPort s a1 a2) := by
  unfold pairOnPort
  repeat' (first | with_reducible assumption | exact sub_of rfl | with_reducible refine modPort_within ?_ (sub_trans ?_ hp) | with_reducible refine Within.foldl ?_ (fun _ _ _ => ?_) | with_reducible refine Within.foldl_fst ?_ (fun _ _ _ => ?_))

theorem pairSend_within {P s0 s a1 a2} (h : Within P s0 s) (hp : sub 524288 P) : Within P s0 (pairSend s a1 a2) := by
  unfold pairSend
  repeat' (first | with_reducible assumption | exact sub_of rfl | with_reducible refine pairOnPort_within ?_ (sub_trans ?_ hp))

theorem takeoverOn_within {P s0 s a1} (h : Within P s0 s) (hp : sub 524288 P) : Within P s0 (takeoverOn s a1) := by
  unfold takeoverOn
  repeat' (first | with_reducible assumption | exact sub_of rfl | with_reducible refine modPort_within ?_ (sub_trans ?_ hp) | with_reducible refine Within.foldl ?_ (fun _ _ _ => ?_) | with_reducible refine Within.foldl_fst ?_ (fun _ _ _ => ?_) | (extract_lets +onlyGivenNames x; refine (fun (_ : Within P s0 x) => ?_) ?_; rotate_left; subst x; rotate_left; clear_value x) | (extract_lets +onlyGivenNames x; clear_value x))

theorem recallMessage_within {P s0 s a1} (h : Within P s0 s) (hp : sub 524288 P) : Within P s0 (recallMessage s a1) := by
  unfold recallMessage
  repeat' (first | with_reducible assumption | exact sub_of rfl | with_reducible refine Within.upd_fab ?_ (sub_trans ?_ hp) | (extract_lets +onlyGivenNames x; refine (fun (_ : Within P s0 x) => ?_) ?_; rotate_left; subst x; rotate_left; clear_value x) | (extract_lets +onlyGivenNames x; clear_value x))

theorem beginReplay_within {P s0 s a1} (h : Within P s0 s) (hp : sub 655361 P) : Within P s0 (beginReplay s a1) := by
  unfold beginReplay
  repeat' (first | with_reducible assumption | exact sub_of rfl | with_reducible refine setPortState_within ?_ (sub_trans ?_ hp) | with_reducible refine bump_within ?_ (sub_trans ?_ hp) | with_reducible refine setPort_within ?_ (sub_trans ?_ hp) | with_reducible refine Within.ite ?_ ?_ | (extract_lets +onlyGivenNames x; refine (fun (_ : Within P s0 x) => ?_) ?_; rotate_left; subst x; rotate_left; clear_value x) | (extract_lets +onlyGivenNames x; clear_value x) | split)

theorem receive_within {P s0 s a1 a2 a3} (h : Within P s0 s) (hp : sub 524289 P) : Within P s0 (receive s a1 a2 a3).1 := by
  unfold receive; try dsimp only
  repeat' (first | with_reducible assumption | exact sub_of rfl | with_reducible refine modPort_within ?_ (sub_trans ?_ hp) | with_reducible refine setPort_within ?_ (sub_trans ?_ hp) | with_reducible refine bump_within ?_ (sub_trans ?_ hp) | split)
theorem receive_within' {P s0 s t r a1 a2 a3} (he : receive s a1 a2 a3 = (t, r)) (h : Within P s0 s) (hp : sub 524289 P) : Within P s0 t := by
  have := receive_within (a1 := a1) (a2 := a2) (a3 := a3) h hp; rw [he] at this; exact this

theorem transmit_within {P s0 s a1} (h : Within P s0 s) (hp : sub 2621440 P) : Within P s0 (transmit s a1) := by
  unfold transmit
  repeat' (first | with_reducible assumption | exact sub_of rfl | with_reducible refine emit_within ?_ (sub_trans ?_ hp) | with_reducible refine oweCredit_within ?_ (sub_trans ?_ hp) | with_reducible refine setPort_within ?_ (sub_trans ?_ hp) | with_reducible refine Within.ite ?_ ?_ | (extract_lets +onlyGivenNames x; refine (fun (_ : Within P s0 x) => ?_) ?_; rotate_left; subst x; rotate_left; clear_value x) | (extract_lets +onlyGivenNames x; clear_value x) | split)

theorem portDown_within {P s0 s a1} (h : Within P s0 s) (hp : sub 655361 P) : Within P s0 (portDown s a1) := by
  unfold portDown
  repeat' (first | with_reducible assumption | exact sub_of rfl | with_reducible refine setPortState_within ?_ (sub_trans ?_ hp) | with_reducible refine bumpN_within ?_ (sub_trans ?_ hp) | with_reducible refine oweCredit_within ?_ (sub_trans ?_ hp) | with_reducible refine setPort_within ?_ (sub_trans ?_ hp) | with_reducible refine Within.foldl ?_ (fun _ _ _ => ?_) | with_reducible refine Within.foldl_fst ?_ (fun _ _ _ => ?_) | with_reducible refine Within.ite ?_ ?_ | with_reducible refine Within.upd_fab ?_ (sub_trans ?_ hp) | (extract_lets +onlyGivenNames x; refine (fun (_ : Within P s0 x) => ?_) ?_; rotate_left; subst x; rotate_left; clear_value x) | (extract_lets +onlyGivenNames x; clear_value x) | split)

theorem portUp_within {P s0 s a1 a2} (h : Within P s0 s) (hp : sub 655361 P) : Within P s0 (portUp s a1 a2) := by
  unfold portUp
  repeat' (first | with_reducible assumption | exact sub_of rfl | with_reducible refine setPortState_within ?_ (sub_trans ?_ hp) | with_reducible refine modPort_within ?_ (sub_trans ?_ hp) | with_reducible refine regSetFld_within ?_ (sub_trans ?_ hp) | with_reducible refine Within.ite ?_ ?_ | (extract_lets +onlyGivenNames x; refine (fun (_ : Within P s0 x) => ?_) ?_; rotate_left; subst x; rotate_left; clear_value x) | (extract_lets +onlyGivenNames x; clear_value x) | split)

end Sys2Proof.Machine
end

