-- ==== Sys2Proof/Laws/WithinComplete.lean ====
section
/-! SUPPORT. What each operation of Machine/Complete.lean may change (see Within.lean). -/

namespace Sys2Proof.Machine

theorem modDesc_within {P s0 s a1 a2 a3 a4} (h : Within P s0 s) (hp : sub 16 P) : Within P s0 (modDesc s a1 a2 a3 a4) := by
  unfold modDesc
  repeat' (first | with_reducible assumption | exact sub_of rfl | with_reducible refine modFn_within ?_ (sub_trans ?_ hp) | with_reducible refine Within.ite ?_ ?_ | split)

theorem dropDesc_within {P s0 s a1 a2 a3} (h : Within P s0 s) (hp : sub 16 P) : Within P s0 (dropDesc s a1 a2 a3) := by
  unfold dropDesc
  repeat' (first | with_reducible assumption | exact sub_of rfl | with_reducible refine modFn_within ?_ (sub_trans ?_ hp))

theorem setJournal_within {P s0 s a1} (h : Within P s0 s) (hp : sub 524289 P) : Within P s0 (setJournal s a1) := by
  unfold setJournal
  repeat' (first | with_reducible assumption | exact sub_of rfl | with_reducible refine regSetFld_within ?_ (sub_trans ?_ hp) | with_reducible refine Within.upd_fab ?_ (sub_trans ?_ hp))

theorem mirrorCompletion_within {P s0 s a1 a2 a3 a4} (h : Within P s0 s) (hp : sub 524289 P) : Within P s0 (mirrorCompletion s a1 a2 a3 a4) := by
  unfold mirrorCompletion
  repeat' (first | with_reducible assumption | exact sub_of rfl | with_reducible refine pairSend_within ?_ (sub_trans ?_ hp) | with_reducible refine setJournal_within ?_ (sub_trans ?_ hp) | with_reducible refine Within.foldl ?_ (fun _ _ _ => ?_) | with_reducible refine Within.foldl_fst ?_ (fun _ _ _ => ?_) | with_reducible refine Within.ite ?_ ?_ | with_reducible refine Within.upd_fab ?_ (sub_trans ?_ hp) | (extract_lets +onlyGivenNames x; refine (fun (_ : Within P s0 x) => ?_) ?_; rotate_left; subst x; rotate_left; clear_value x) | (extract_lets +onlyGivenNames x; clear_value x) | split)

theorem deliverCompletion_within {P s0 s a1 a2 a3 a4} (h : Within P s0 s) (hp : sub 2621441 P) : Within P s0 (deliverCompletion s a1 a2 a3 a4) := by
  unfold deliverCompletion
  repeat' (first | with_reducible assumption | exact sub_of rfl | with_reducible refine setPairState_within ?_ (sub_trans ?_ hp) | with_reducible refine writeCompletion_within ?_ (sub_trans ?_ hp) | with_reducible refine Within.ite ?_ ?_ | with_reducible refine Within.upd_fab ?_ (sub_trans ?_ hp) | split)

theorem flushHeld_within {P s0 s a1 a2} (h : Within P s0 s) (hp : sub 2621441 P) : Within P s0 (flushHeld s a1 a2) := by
  unfold flushHeld
  repeat' (first | with_reducible assumption | exact sub_of rfl | with_reducible refine writeCompletion_within ?_ (sub_trans ?_ hp) | with_reducible refine Within.foldl ?_ (fun _ _ _ => ?_) | with_reducible refine Within.foldl_fst ?_ (fun _ _ _ => ?_) | with_reducible refine Within.upd_fab ?_ (sub_trans ?_ hp) | (extract_lets +onlyGivenNames x; refine (fun (_ : Within P s0 x) => ?_) ?_; rotate_left; subst x; rotate_left; clear_value x) | (extract_lets +onlyGivenNames x; refine (fun (_ : Within P s0 x.1) => ?_) ?_; rotate_left; subst x; rotate_left; clear_value x) | (extract_lets +onlyGivenNames x; clear_value x))

theorem completeWith_within {P s0 s a1 a2 a3 a4 a5 a6 a7 a8} (h : Within P s0 s) (hp : sub 2621457 P) : Within P s0 (completeWith s a1 a2 a3 a4 a5 a6 a7 a8) := by
  unfold completeWith
  repeat' (first | with_reducible assumption | exact sub_of rfl | with_reducible refine deliverCompletion_within ?_ (sub_trans ?_ hp) | with_reducible refine bump_within ?_ (sub_trans ?_ hp) | with_reducible refine mirrorCompletion_within ?_ (sub_trans ?_ hp) | with_reducible refine dropDesc_within ?_ (sub_trans ?_ hp) | with_reducible refine Within.ite ?_ ?_ | (extract_lets +onlyGivenNames x; refine (fun (_ : Within P s0 x) => ?_) ?_; rotate_left; subst x; rotate_left; clear_value x) | (extract_lets +onlyGivenNames x; clear_value x) | split)

theorem completeDesc_within {P s0 s a1 a2 a3 a4} (h : Within P s0 s) (hp : sub 2621457 P) : Within P s0 (completeDesc s a1 a2 a3 a4) := by
  unfold completeDesc
  repeat' (first | with_reducible assumption | exact sub_of rfl | with_reducible refine completeWith_within ?_ (sub_trans ?_ hp))

theorem setSched_within {P s0 s a1 a2} (h : Within P s0 s) (hp : sub 131072 P) : Within P s0 (setSched s a1 a2) := by
  unfold setSched
  repeat' (first | with_reducible assumption | exact sub_of rfl | with_reducible refine Within.upd_sched ?_ (sub_trans ?_ hp))

theorem schedEnd_within {P s0 s a1 a2} (h : Within P s0 s) (hp : sub 2752529 P) : Within P s0 (schedEnd s a1 a2) := by
  unfold schedEnd
  repeat' (first | with_reducible assumption | exact sub_of rfl | with_reducible refine completeWith_within ?_ (sub_trans ?_ hp) | with_reducible refine setSched_within ?_ (sub_trans ?_ hp) | with_reducible refine Within.ite ?_ ?_ | (extract_lets +onlyGivenNames x; refine (fun (_ : Within P s0 x) => ?_) ?_; rotate_left; subst x; rotate_left; clear_value x) | (extract_lets +onlyGivenNames x; clear_value x) | split)

end Sys2Proof.Machine
end

