-- ==== Sys2Proof/Laws/WithinHandles.lean ====
section
/-! SUPPORT. What each operation of Machine/Handles.lean may change (see Within.lean). -/

namespace Sys2Proof.Machine

theorem countOutcome_within {P s0 s a1 a2} (h : Within P s0 s) (hp : sub 1 P) : Within P s0 (countOutcome s a1 a2) := by
  unfold countOutcome
  repeat' (first | with_reducible assumption | exact sub_of rfl | with_reducible refine bump_within ?_ (sub_trans ?_ hp) | with_reducible refine Within.ite ?_ ?_ | split)

theorem failDesc_within {P s0 s a1 a2 a3 a4} (h : Within P s0 s) (hp : sub 2621457 P) : Within P s0 (failDesc s a1 a2 a3 a4) := by
  unfold failDesc
  repeat' (first | with_reducible assumption | exact sub_of rfl | with_reducible refine countOutcome_within ?_ (sub_trans ?_ hp) | with_reducible refine completeDesc_within ?_ (sub_trans ?_ hp))

end Sys2Proof.Machine
end

