-- ==== Sys2Proof/Laws/WithinHostBase.lean ====
section
/-! SUPPORT. What each operation of Machine/HostBase.lean may change (see Within.lean). -/

namespace Sys2Proof.Machine

theorem ringErrors_within {P s0 s a1} (h : Within P s0 s) (hp : sub 1 P) : Within P s0 (ringErrors s a1) := by
  unfold ringErrors
  repeat' (first | with_reducible assumption | exact sub_of rfl | with_reducible refine regSetFld_within ?_ (sub_trans ?_ hp) | with_reducible refine Within.ite ?_ ?_ | split)

theorem takeDesc_within {P s0 s a1 a2 a3} (h : Within P s0 s) (hp : sub 2621457 P) : Within P s0 (takeDesc s a1 a2 a3) := by
  unfold takeDesc
  repeat' (first | with_reducible assumption | exact sub_of rfl | with_reducible refine modFn_within ?_ (sub_trans ?_ hp) | with_reducible refine bump_within ?_ (sub_trans ?_ hp) | with_reducible refine regSetFld_within ?_ (sub_trans ?_ hp) | with_reducible refine completeDesc_within ?_ (sub_trans ?_ hp) | with_reducible refine Within.ite ?_ ?_ | (extract_lets +onlyGivenNames x; refine (fun (_ : Within P s0 x) => ?_) ?_; rotate_left; subst x; rotate_left; clear_value x) | (extract_lets +onlyGivenNames x; clear_value x) | split)

theorem fetchRing_within {P s0 a0 a1 a2 a3} (h : Within P s0 a2.1) (hp : sub 2621457 P) : Within P s0 (fetchRing a0 a1 a2 a3).1 := by
  unfold fetchRing
  repeat' (first | with_reducible assumption | exact sub_of rfl | with_reducible refine ringErrors_within ?_ (sub_trans ?_ hp) | with_reducible refine takeDesc_within ?_ (sub_trans ?_ hp) | with_reducible refine regSetFld_within ?_ (sub_trans ?_ hp) | with_reducible refine Within.foldl ?_ (fun _ _ _ => ?_) | with_reducible refine Within.foldl_fst ?_ (fun _ _ _ => ?_) | with_reducible refine Within.ite ?_ ?_ | (extract_lets +onlyGivenNames x; refine (fun (_ : Within P s0 x) => ?_) ?_; rotate_left; subst x; rotate_left; clear_value x) | (extract_lets +onlyGivenNames x; refine (fun (_ : Within P s0 x.1) => ?_) ?_; rotate_left; subst x; rotate_left; clear_value x) | (extract_lets +onlyGivenNames x; clear_value x) | split)
theorem fetchRing_within' {P s0 t r a0 a1 a2 a3} (he : fetchRing a0 a1 a2 a3 = (t, r)) (h : Within P s0 a2.1) (hp : sub 2621457 P) : Within P s0 t := by
  have k : Within P s0 (fetchRing a0 a1 a2 a3).1 := fetchRing_within h hp
  rw [he] at k; exact k

theorem pollBell_within {P s0 s a1 a2 a3} (h : Within P s0 s) (hp : sub 2621457 P) : Within P s0 (pollBell s a1 a2 a3) := by
  unfold pollBell
  repeat' (first | with_reducible assumption | exact sub_of rfl | with_reducible refine modFn_within ?_ (sub_trans ?_ hp) | with_reducible refine regSetFld_within ?_ (sub_trans ?_ hp) | with_reducible refine fetchRing_within ?_ (sub_trans ?_ hp) | with_reducible refine fetchRing_within' ‹_› ?_ (sub_trans ?_ hp) | with_reducible refine Within.foldl ?_ (fun _ _ _ => ?_) | with_reducible refine Within.foldl_fst ?_ (fun _ _ _ => ?_) | with_reducible refine Within.ite ?_ ?_ | (extract_lets +onlyGivenNames x; refine (fun (_ : Within P s0 x) => ?_) ?_; rotate_left; subst x; rotate_left; clear_value x) | (extract_lets +onlyGivenNames x; refine (fun (_ : Within P s0 x.1) => ?_) ?_; rotate_left; subst x; rotate_left; clear_value x) | (extract_lets +onlyGivenNames x; clear_value x) | split)

theorem setPhase_within {P s0 s a1 a2} (h : Within P s0 s) (hp : sub 16 P) : Within P s0 (setPhase s a1 a2) := by
  unfold setPhase
  repeat' (first | with_reducible assumption | exact sub_of rfl | with_reducible refine modDesc_within ?_ (sub_trans ?_ hp))

theorem journalDesc_within {P s0 s a1} (h : Within P s0 s) (hp : sub 524289 P) : Within P s0 (journalDesc s a1) := by
  unfold journalDesc
  repeat' (first | with_reducible assumption | exact sub_of rfl | with_reducible refine pairSend_within ?_ (sub_trans ?_ hp) | with_reducible refine setJournal_within ?_ (sub_trans ?_ hp) | with_reducible refine Within.ite ?_ ?_ | split)

theorem startXfer_within {P s0 s a1 a2 a3} (h : Within P s0 s) (hp : sub 2098192 P) : Within P s0 (startXfer s a1 a2 a3) := by
  unfold startXfer
  repeat' (first | with_reducible assumption | exact sub_of rfl | with_reducible refine setPhase_within ?_ (sub_trans ?_ hp) | with_reducible refine emit_within ?_ (sub_trans ?_ hp) | with_reducible refine Within.foldl ?_ (fun _ _ _ => ?_) | with_reducible refine Within.foldl_fst ?_ (fun _ _ _ => ?_) | with_reducible refine Within.ite ?_ ?_ | with_reducible refine Within.upd_xfers_xferSeq ?_ (sub_trans ?_ hp) | (extract_lets +onlyGivenNames x; refine (fun (_ : Within P s0 x) => ?_) ?_; rotate_left; subst x; rotate_left; clear_value x) | (extract_lets +onlyGivenNames x; clear_value x) | split)

theorem truncate_within {P s0 s a1} (h : Within P s0 s) (hp : sub 2622481 P) : Within P s0 (truncate s a1) := by
  unfold truncate
  repeat' (first | with_reducible assumption | exact sub_of rfl | with_reducible refine bump_within ?_ (sub_trans ?_ hp) | with_reducible refine completeDesc_within ?_ (sub_trans ?_ hp) | with_reducible refine Within.upd_xfers ?_ (sub_trans ?_ hp))

theorem execInputSegmentArrival_within {P s0 s t a0 a1 a2 a3 a4 a5 a6} (h : Within P s0 s) (hp : sub 2622481 P) (he : execInputSegmentArrival a0 a1 a2 a3 a4 a5 a6 s = .next t) : Within P s0 t := by
  unfold execInputSegmentArrival at he; injection he with he; subst he; try dsimp only
  repeat' (first | with_reducible assumption | exact sub_of rfl | with_reducible refine truncate_within ?_ (sub_trans ?_ hp) | with_reducible refine modDesc_within ?_ (sub_trans ?_ hp) | with_reducible refine bump_within ?_ (sub_trans ?_ hp) | split | with_reducible refine Within.upd_xfers ?_ (sub_trans ?_ hp))

theorem execSegmentTimeout_within {P s0 s t a0} (h : Within P s0 s) (hp : sub 2622481 P) (he : execSegmentTimeout a0 s = .next t) : Within P s0 t := by
  unfold execSegmentTimeout at he; injection he with he; subst he
  repeat' (first | with_reducible assumption | exact sub_of rfl | with_reducible refine truncate_within ?_ (sub_trans ?_ hp) | with_reducible refine Within.ite ?_ ?_ | split)

theorem execReadCompletionTimeout_within {P s0 s t a0 a1 a2} (h : Within P s0 s) (hp : sub 2097152 P) (he : execReadCompletionTimeout a0 a1 a2 s = .next t) : Within P s0 t := by
  unfold execReadCompletionTimeout at he; injection he with he; subst he
  repeat' (first | with_reducible assumption | exact sub_of rfl | with_reducible refine emit_within ?_ (sub_trans ?_ hp) | with_reducible refine Within.ite ?_ ?_ | split)

end Sys2Proof.Machine
end

