-- ==== Sys2Proof/Laws/WithinMem.lean ====
section
/-! SUPPORT. What each operation of Machine/Mem.lean may change (see Within.lean). -/

namespace Sys2Proof.Machine

theorem setByte_within {P s0 s a1 a2} (h : Within P s0 s) (hp : sub 2 P) : Within P s0 (setByte s a1 a2) := by
  unfold setByte
  repeat' (first | with_reducible assumption | exact sub_of rfl | with_reducible refine Within.upd_mem ?_ (sub_trans ?_ hp) ?_ | exact twf_tset _ _ | exact twf_tmap _ | exact twf_filter _ | exact twf_tsetRun _ _)

theorem setBytes_within {P s0 s a1 a2} (h : Within P s0 s) (hp : sub 2 P) : Within P s0 (setBytes s a1 a2) := by
  unfold setBytes
  repeat' (first | with_reducible assumption | exact sub_of rfl | with_reducible refine Within.upd_mem ?_ (sub_trans ?_ hp) ?_ | exact twf_tset _ _ | exact twf_tmap _ | exact twf_filter _ | exact twf_tsetRun _ _)

theorem setPoisonList_within {P s0 s a1 a2} (h : Within P s0 s) (hp : sub 3 P) : Within P s0 (setPoisonList s a1 a2) := by
  unfold setPoisonList
  repeat' (first | with_reducible assumption | exact sub_of rfl | with_reducible refine regSetFld_within ?_ (sub_trans ?_ hp) | with_reducible refine Within.ite ?_ ?_ | with_reducible refine Within.upd_poison0 ?_ (sub_trans ?_ hp) | with_reducible refine Within.upd_poison1 ?_ (sub_trans ?_ hp) | split)

theorem markMapOut_within {P s0 s a1 a2} (h : Within P s0 s) (hp : sub 2273281 P) : Within P s0 (markMapOut s a1 a2) := by
  unfold markMapOut
  repeat' (first | with_reducible assumption | exact sub_of rfl | with_reducible refine dayEvent_within ?_ (sub_trans ?_ hp) | with_reducible refine regSet_within ?_ (sub_trans ?_ hp) | with_reducible refine raiseSrc_within ?_ (sub_trans ?_ hp) | with_reducible refine sbAlert_within ?_ (sub_trans ?_ hp) | with_reducible refine Within.ite ?_ ?_ | with_reducible refine Within.upd_start ?_ (sub_trans ?_ hp) ?_ | exact id | exact fun _ => by (dsimp only; decide) | (extract_lets +onlyGivenNames x; refine (fun (_ : Within P s0 x) => ?_) ?_; rotate_left; subst x; rotate_left; clear_value x) | (extract_lets +onlyGivenNames x; clear_value x) | split)

theorem enterPoison_within {P s0 s a1} (h : Within P s0 s) (hp : sub 2273283 P) : Within P s0 (enterPoison s a1) := by
  unfold enterPoison
  repeat' (first | with_reducible assumption | exact sub_of rfl | with_reducible refine setPoisonList_within ?_ (sub_trans ?_ hp) | with_reducible refine regSetFld_within ?_ (sub_trans ?_ hp) | with_reducible refine dayEvent_within ?_ (sub_trans ?_ hp) | with_reducible refine markMapOut_within ?_ (sub_trans ?_ hp) | with_reducible refine Within.ite ?_ ?_ | (extract_lets +onlyGivenNames x; refine (fun (_ : Within P s0 x) => ?_) ?_; rotate_left; subst x; rotate_left; clear_value x) | (extract_lets +onlyGivenNames x; clear_value x) | split)

theorem setPoison_within {P s0 s a1 a2} (h : Within P s0 s) (hp : sub 2273283 P) : Within P s0 (setPoison s a1 a2) := by
  unfold setPoison; try dsimp only
  repeat' (first | with_reducible assumption | exact sub_of rfl | with_reducible refine setPoisonList_within ?_ (sub_trans ?_ hp) | with_reducible refine enterPoison_within ?_ (sub_trans ?_ hp) | split | with_reducible refine Within.upd_sramPoison ?_ (sub_trans ?_ hp) ?_ | exact twf_tset _ _)

theorem poisonRun_within {P s0 s a0 a1 a2 a3 a5 a6} (h : Within P s0 s) (hp : sub 2273283 P) : Within P s0 (poisonRun a0 a1 a2 a3 s a5 a6) := by
  induction a3 generalizing s a5 a6 with
  | zero => exact h
  | succ k ih => unfold poisonRun; dsimp only; repeat' (first | with_reducible refine ih ?_ | with_reducible assumption | exact sub_of rfl | with_reducible refine setPoison_within ?_ (sub_trans ?_ hp) | with_reducible refine Within.ite ?_ ?_)

theorem writeT_within {P s0 s a1 a2} (h : Within P s0 s) (hp : sub 2273283 P) : Within P s0 (writeT s a1 a2) := by
  unfold writeT
  repeat' (first | with_reducible assumption | exact sub_of rfl | with_reducible refine setBytes_within ?_ (sub_trans ?_ hp) | with_reducible refine poisonRun_within ?_ (sub_trans ?_ hp) | with_reducible refine Within.ite ?_ ?_ | (extract_lets +onlyGivenNames x; refine (fun (_ : Within P s0 x) => ?_) ?_; rotate_left; subst x; rotate_left; clear_value x) | (extract_lets +onlyGivenNames x; clear_value x) | split)

theorem writeWords_within {P s0 s a1 a2} (h : Within P s0 s) (hp : sub 2273283 P) : Within P s0 (writeWords s a1 a2) := by
  unfold writeWords
  repeat' (first | with_reducible assumption | exact sub_of rfl | with_reducible refine writeT_within ?_ (sub_trans ?_ hp))

theorem zeroRange_within {P s0 s a1 a2} (h : Within P s0 s) (hp : sub 3 P) : Within P s0 (zeroRange s a1 a2) := by
  unfold zeroRange
  repeat' (first | with_reducible assumption | exact sub_of rfl | with_reducible refine setPoisonList_within ?_ (sub_trans ?_ hp) | with_reducible refine Within.ite ?_ ?_ | with_reducible refine Within.upd_mem_sramPoison ?_ (sub_trans ?_ hp) ?_ ?_ | exact twf_tset _ _ | exact twf_tmap _ | exact twf_filter _ | exact twf_tsetRun _ _ | (extract_lets +onlyGivenNames x; refine (fun (_ : Within P s0 x) => ?_) ?_; rotate_left; subst x; rotate_left; clear_value x) | (extract_lets +onlyGivenNames x; clear_value x) | split)

end Sys2Proof.Machine
end

