-- ==== Sys2Proof/Laws/WithinCoreMem.lean ====
section
/-! SUPPORT. What each operation of Machine/CoreMem.lean may change (see Within.lean). -/

namespace Sys2Proof.Machine

theorem pushAt_within {P s0 s a1 a2 a3 a4 a5 a6 a7} (h : Within P s0 s) (hp : sub 5 P) : Within P s0 (pushAt s a1 a2 a3 a4 a5 a6 a7) := by
  unfold pushAt
  repeat' (first | with_reducible assumption | exact sub_of rfl | with_reducible refine bump_within ?_ (sub_trans ?_ hp) | with_reducible refine Within.foldl ?_ (fun _ _ _ => ?_) | with_reducible refine Within.foldl_fst ?_ (fun _ _ _ => ?_) | with_reducible refine Within.ite ?_ ?_ | with_reducible refine Within.upd_memq_memSeq ?_ (sub_trans ?_ hp) | (extract_lets +onlyGivenNames x; refine (fun (_ : Within P s0 x) => ?_) ?_; rotate_left; subst x; rotate_left; clear_value x) | (extract_lets +onlyGivenNames x; refine (fun (_ : Within P s0 x.1) => ?_) ?_; rotate_left; subst x; rotate_left; clear_value x) | (extract_lets +onlyGivenNames x; clear_value x) | split)

theorem pushReq_within {P s0 s a1 a2 a3 a4 a5 a6} (h : Within P s0 s) (hp : sub 5 P) : Within P s0 (pushReq s a1 a2 a3 a4 a5 a6) := by
  unfold pushReq
  repeat' (first | with_reducible assumption | exact sub_of rfl | with_reducible refine pushAt_within ?_ (sub_trans ?_ hp))

theorem issueLocalLoad_within {P s0 s a1 a2 a3 a4 a5 a6 a7 a8} (h : Within P s0 s) (hp : sub 8 P) : Within P s0 (issueLocalLoad s a1 a2 a3 a4 a5 a6 a7 a8).1 := by
  unfold issueLocalLoad
  repeat' (first | with_reducible assumption | exact sub_of rfl | with_reducible refine setCore_within ?_ (sub_trans ?_ hp) | with_reducible refine Within.ite ?_ ?_ | (extract_lets +onlyGivenNames x; refine (fun (_ : Within P s0 x) => ?_) ?_; rotate_left; subst x; rotate_left; clear_value x) | (extract_lets +onlyGivenNames x; clear_value x) | split)
theorem issueLocalLoad_within' {P s0 s t r a1 a2 a3 a4 a5 a6 a7 a8} (he : issueLocalLoad s a1 a2 a3 a4 a5 a6 a7 a8 = (t, r)) (h : Within P s0 s) (hp : sub 8 P) : Within P s0 t := by
  have k : Within P s0 (issueLocalLoad s a1 a2 a3 a4 a5 a6 a7 a8).1 := issueLocalLoad_within h hp
  rw [he] at k; exact k

theorem issueMiss_within {P s0 s a1 a2 a3 a4 a5 a6} (h : Within P s0 s) (hp : sub 13 P) : Within P s0 (issueMiss s a1 a2 a3 a4 a5 a6).1 := by
  unfold issueMiss
  repeat' (first | with_reducible assumption | exact sub_of rfl | with_reducible refine bump_within ?_ (sub_trans ?_ hp) | with_reducible refine pushReq_within ?_ (sub_trans ?_ hp) | with_reducible refine setCore_within ?_ (sub_trans ?_ hp) | with_reducible refine Within.ite ?_ ?_ | (extract_lets +onlyGivenNames x; refine (fun (_ : Within P s0 x) => ?_) ?_; rotate_left; subst x; rotate_left; clear_value x) | (extract_lets +onlyGivenNames x; clear_value x) | split)
theorem issueMiss_within' {P s0 s t r a1 a2 a3 a4 a5 a6} (he : issueMiss s a1 a2 a3 a4 a5 a6 = (t, r)) (h : Within P s0 s) (hp : sub 13 P) : Within P s0 t := by
  have k : Within P s0 (issueMiss s a1 a2 a3 a4 a5 a6).1 := issueMiss_within h hp
  rw [he] at k; exact k

theorem issueLoad_within {P s0 s a1 a2 a3 a4 a5} (h : Within P s0 s) (hp : sub 13 P) : Within P s0 (issueLoad s a1 a2 a3 a4 a5).1 := by
  unfold issueLoad
  repeat' (first | with_reducible assumption | exact sub_of rfl | with_reducible refine issueMiss_within ?_ (sub_trans ?_ hp) | with_reducible refine issueMiss_within' ‹_› ?_ (sub_trans ?_ hp) | with_reducible refine issueLocalLoad_within ?_ (sub_trans ?_ hp) | with_reducible refine issueLocalLoad_within' ‹_› ?_ (sub_trans ?_ hp) | with_reducible refine Within.ite ?_ ?_ | (extract_lets +onlyGivenNames x; refine (fun (_ : Within P s0 x) => ?_) ?_; rotate_left; subst x; rotate_left; clear_value x) | (extract_lets +onlyGivenNames x; refine (fun (_ : Within P s0 x.1) => ?_) ?_; rotate_left; subst x; rotate_left; clear_value x) | (extract_lets +onlyGivenNames x; clear_value x) | split)
theorem issueLoad_within' {P s0 s t r a1 a2 a3 a4 a5} (he : issueLoad s a1 a2 a3 a4 a5 = (t, r)) (h : Within P s0 s) (hp : sub 13 P) : Within P s0 t := by
  have k : Within P s0 (issueLoad s a1 a2 a3 a4 a5).1 := issueLoad_within h hp
  rw [he] at k; exact k

theorem issueStore_within {P s0 s a1 a2 a3 a4 a5} (h : Within P s0 s) (hp : sub 13 P) : Within P s0 (issueStore s a1 a2 a3 a4 a5).1 := by
  unfold issueStore
  repeat' (first | with_reducible assumption | exact sub_of rfl | with_reducible refine pushAt_within ?_ (sub_trans ?_ hp) | with_reducible refine setCore_within ?_ (sub_trans ?_ hp) | with_reducible refine Within.ite ?_ ?_ | (extract_lets +onlyGivenNames x; refine (fun (_ : Within P s0 x) => ?_) ?_; rotate_left; subst x; rotate_left; clear_value x) | (extract_lets +onlyGivenNames x; clear_value x) | split)
theorem issueStore_within' {P s0 s t r a1 a2 a3 a4 a5} (he : issueStore s a1 a2 a3 a4 a5 = (t, r)) (h : Within P s0 s) (hp : sub 13 P) : Within P s0 t := by
  have k : Within P s0 (issueStore s a1 a2 a3 a4 a5).1 := issueStore_within h hp
  rw [he] at k; exact k

end Sys2Proof.Machine
end

