-- ==== Sys2Proof/Laws/WithinCoreRegs.lean ====
section
/-! SUPPORT. What each operation of Machine/CoreRegs.lean may change (see Within.lean). -/

namespace Sys2Proof.Machine

theorem faultCtx_within {P s0 s a1 a2 a3 a4 a5} (h : Within P s0 s) (hp : sub 131145 P) : Within P s0 (faultCtx s a1 a2 a3 a4 a5) := by
  unfold faultCtx
  repeat' (first | with_reducible assumption | exact sub_of rfl | with_reducible refine modJob_within ?_ (sub_trans ?_ hp) | with_reducible refine raiseSrc_within ?_ (sub_trans ?_ hp) | with_reducible refine bumpN_within ?_ (sub_trans ?_ hp) | with_reducible refine modCore_within ?_ (sub_trans ?_ hp) | with_reducible refine Within.foldl ?_ (fun _ _ _ => ?_) | with_reducible refine Within.foldl_fst ?_ (fun _ _ _ => ?_) | (extract_lets +onlyGivenNames x; refine (fun (_ : Within P s0 x) => ?_) ?_; rotate_left; subst x; rotate_left; clear_value x) | (extract_lets +onlyGivenNames x; clear_value x) | split)

end Sys2Proof.Machine
end

