-- ==== Sys2Proof/Laws/WithinStreams.lean ====
section
/-! SUPPORT. What each operation of Machine/Streams.lean may change (see Within.lean). -/

namespace Sys2Proof.Machine

theorem startStream_within {P s0 s a1 a2 a3 a4} (h : Within P s0 s) (hp : sub 8 P) : Within P s0 (startStream s a1 a2 a3 a4) := by
  unfold startStream
  repeat' (first | with_reducible assumption | exact sub_of rfl | with_reducible refine modCore_within ?_ (sub_trans ?_ hp) | (extract_lets +onlyGivenNames x; refine (fun (_ : Within P s0 x) => ?_) ?_; rotate_left; subst x; rotate_left; clear_value x) | (extract_lets +onlyGivenNames x; clear_value x))

theorem setStr_within {P s0 s a1 a2 a3} (h : Within P s0 s) (hp : sub 8 P) : Within P s0 (setStr s a1 a2 a3) := by
  unfold setStr
  repeat' (first | with_reducible assumption | exact sub_of rfl | with_reducible refine modCore_within ?_ (sub_trans ?_ hp))

theorem accountStream_within {P s0 s a1 a2} (h : Within P s0 s) (hp : sub 65 P) : Within P s0 (accountStream s a1 a2) := by
  unfold accountStream
  repeat' (first | with_reducible assumption | exact sub_of rfl | with_reducible refine modJob_within ?_ (sub_trans ?_ hp) | with_reducible refine bumpN_within ?_ (sub_trans ?_ hp) | with_reducible refine Within.foldl ?_ (fun _ _ _ => ?_) | with_reducible refine Within.foldl_fst ?_ (fun _ _ _ => ?_) | (extract_lets +onlyGivenNames x; refine (fun (_ : Within P s0 x) => ?_) ?_; rotate_left; subst x; rotate_left; clear_value x) | (extract_lets +onlyGivenNames x; clear_value x) | split)

theorem writeRecord_within {P s0 s a1 a2 a3 a4 a5} (h : Within P s0 s) (hp : sub 5 P) : Within P s0 (writeRecord s a1 a2 a3 a4 a5) := by
  unfold writeRecord
  repeat' (first | with_reducible assumption | exact sub_of rfl | with_reducible refine pushReq_within ?_ (sub_trans ?_ hp) | with_reducible refine Within.ite ?_ ?_ | split)

theorem drainCredits_within {P s0 s a1 a2} (h : Within P s0 s) (hp : sub 8 P) : Within P s0 (drainCredits s a1 a2) := by
  unfold drainCredits
  repeat' (first | with_reducible assumption | exact sub_of rfl | with_reducible refine modCore_within ?_ (sub_trans ?_ hp) | with_reducible refine Within.foldl ?_ (fun _ _ _ => ?_) | with_reducible refine Within.foldl_fst ?_ (fun _ _ _ => ?_) | with_reducible refine Within.ite ?_ ?_ | split)

theorem cancelStream_within {P s0 s a1 a2 a3} (h : Within P s0 s) (hp : sub 77 P) : Within P s0 (cancelStream s a1 a2 a3) := by
  unfold cancelStream; try dsimp only
  repeat' (first | with_reducible assumption | exact sub_of rfl | with_reducible refine drainCredits_within ?_ (sub_trans ?_ hp) | with_reducible refine accountStream_within ?_ (sub_trans ?_ hp) | with_reducible refine setStr_within ?_ (sub_trans ?_ hp) | with_reducible refine writeRecord_within ?_ (sub_trans ?_ hp) | split | with_reducible refine Within.upd_memq ?_ (sub_trans ?_ hp))

theorem cancelStreams_within {P s0 s a1} (h : Within P s0 s) (hp : sub 77 P) : Within P s0 (cancelStreams s a1) := by
  unfold cancelStreams
  repeat' (first | with_reducible assumption | exact sub_of rfl | with_reducible refine cancelStream_within ?_ (sub_trans ?_ hp) | with_reducible refine Within.foldl ?_ (fun _ _ _ => ?_) | with_reducible refine Within.foldl_fst ?_ (fun _ _ _ => ?_))

theorem releaseRing_within {P s0 s a1} (h : Within P s0 s) (hp : sub 8 P) : Within P s0 (releaseRing s a1) := by
  unfold releaseRing
  repeat' (first | with_reducible assumption | exact sub_of rfl | with_reducible refine Within.ite ?_ ?_ | with_reducible refine Within.upd_cores ?_ (sub_trans ?_ hp) ?_ | exact twf_tset _ _ | exact twf_tmap _ | exact twf_filter _ | exact twf_tsetRun _ _ | (extract_lets +onlyGivenNames x; refine (fun (_ : Within P s0 x) => ?_) ?_; rotate_left; subst x; rotate_left; clear_value x) | (extract_lets +onlyGivenNames x; clear_value x) | split)

theorem touchRange_within {P s0 s a1 a2} (h : Within P s0 s) (hp : sub 8 P) : Within P s0 (touchRange s a1 a2) := by
  unfold touchRange
  repeat' (first | with_reducible assumption | exact sub_of rfl | with_reducible refine Within.ite ?_ ?_ | with_reducible refine Within.upd_cores ?_ (sub_trans ?_ hp) ?_ | exact twf_tset _ _ | exact twf_tmap _ | exact twf_filter _ | exact twf_tsetRun _ _ | (extract_lets +onlyGivenNames x; refine (fun (_ : Within P s0 x) => ?_) ?_; rotate_left; subst x; rotate_left; clear_value x) | (extract_lets +onlyGivenNames x; clear_value x) | split)

theorem streamFault_within {P s0 s a1 a2 a3} (h : Within P s0 s) (hp : sub 131149 P) : Within P s0 (streamFault s a1 a2 a3) := by
  unfold streamFault
  repeat' (first | with_reducible assumption | exact sub_of rfl | with_reducible refine faultCtx_within ?_ (sub_trans ?_ hp) | with_reducible refine cancelStream_within ?_ (sub_trans ?_ hp) | (extract_lets +onlyGivenNames x; refine (fun (_ : Within P s0 x) => ?_) ?_; rotate_left; subst x; rotate_left; clear_value x) | (extract_lets +onlyGivenNames x; clear_value x) | split)

theorem issueStreamReq_within {P s0 s a1} (h : Within P s0 s) (hp : sub 131149 P) : Within P s0 (issueStreamReq s a1) := by
  unfold issueStreamReq
  repeat' (first | with_reducible assumption | exact sub_of rfl | with_reducible refine pushReq_within ?_ (sub_trans ?_ hp) | with_reducible refine streamFault_within ?_ (sub_trans ?_ hp) | with_reducible refine setStr_within ?_ (sub_trans ?_ hp) | with_reducible refine modCore_within ?_ (sub_trans ?_ hp) | with_reducible refine Within.ite ?_ ?_ | (extract_lets +onlyGivenNames x; refine (fun (_ : Within P s0 x) => ?_) ?_; rotate_left; subst x; rotate_left; clear_value x) | (extract_lets +onlyGivenNames x; clear_value x) | split)

theorem strReqDone_within {P s0 s a1 a2 a3} (h : Within P s0 s) (hp : sub 8 P) : Within P s0 (strReqDone s a1 a2 a3) := by
  unfold strReqDone
  repeat' (first | with_reducible assumption | exact sub_of rfl | with_reducible refine setStr_within ?_ (sub_trans ?_ hp) | with_reducible refine Within.ite ?_ ?_ | (extract_lets +onlyGivenNames x; refine (fun (_ : Within P s0 x) => ?_) ?_; rotate_left; subst x; rotate_left; clear_value x) | (extract_lets +onlyGivenNames x; clear_value x) | split)

end Sys2Proof.Machine
end

