-- ==== Sys2Proof/Laws/WithinCoreSync.lean ====
section
/-! SUPPORT. What each operation of Machine/CoreSync.lean may change (see Within.lean). -/

namespace Sys2Proof.Machine

theorem serveLoads_within {P s0 s a1 a2} (h : Within P s0 s) (hp : sub 8 P) : Within P s0 (serveLoads s a1 a2) := by
  unfold serveLoads
  repeat' (first | with_reducible assumption | exact sub_of rfl | with_reducible refine touchRange_within ?_ (sub_trans ?_ hp) | with_reducible refine setCore_within ?_ (sub_trans ?_ hp) | with_reducible refine Within.foldl ?_ (fun _ _ _ => ?_) | with_reducible refine Within.foldl_fst ?_ (fun _ _ _ => ?_) | with_reducible refine Within.ite ?_ ?_ | (extract_lets +onlyGivenNames x; refine (fun (_ : Within P s0 x) => ?_) ?_; rotate_left; subst x; rotate_left; clear_value x) | (extract_lets +onlyGivenNames x; clear_value x) | split)

theorem serveStores_within {P s0 s a1 a2} (h : Within P s0 s) (hp : sub 2273291 P) : Within P s0 (serveStores s a1 a2) := by
  unfold serveStores
  repeat' (first | with_reducible assumption | exact sub_of rfl | with_reducible refine writeWords_within ?_ (sub_trans ?_ hp) | with_reducible refine setCore_within ?_ (sub_trans ?_ hp) | with_reducible refine Within.foldl ?_ (fun _ _ _ => ?_) | with_reducible refine Within.foldl_fst ?_ (fun _ _ _ => ?_) | (extract_lets +onlyGivenNames x; refine (fun (_ : Within P s0 x) => ?_) ?_; rotate_left; subst x; rotate_left; clear_value x) | (extract_lets +onlyGivenNames x; clear_value x))

theorem landEarly_within {P s0 s a1 a2} (h : Within P s0 s) (hp : sub 8 P) : Within P s0 (landEarly s a1 a2) := by
  unfold landEarly
  repeat' (first | with_reducible assumption | exact sub_of rfl | with_reducible refine modCore_within ?_ (sub_trans ?_ hp))

theorem landEu_within {P s0 s a1 a2} (h : Within P s0 s) (hp : sub 8 P) : Within P s0 (landEu s a1 a2) := by
  unfold landEu
  repeat' (first | with_reducible assumption | exact sub_of rfl | with_reducible refine modCore_within ?_ (sub_trans ?_ hp))

theorem landLoad_within {P s0 s a1 a2} (h : Within P s0 s) (hp : sub 8 P) : Within P s0 (landLoad s a1 a2) := by
  unfold landLoad
  repeat' (first | with_reducible assumption | exact sub_of rfl | with_reducible refine modCore_within ?_ (sub_trans ?_ hp))

theorem landSegs_within {P s0 s a1 a2} (h : Within P s0 s) (hp : sub 8 P) : Within P s0 (landSegs s a1 a2) := by
  unfold landSegs
  repeat' (first | with_reducible assumption | exact sub_of rfl | with_reducible refine setCore_within ?_ (sub_trans ?_ hp) | with_reducible refine Within.foldl ?_ (fun _ _ _ => ?_) | with_reducible refine Within.foldl_fst ?_ (fun _ _ _ => ?_) | (extract_lets +onlyGivenNames x; refine (fun (_ : Within P s0 x) => ?_) ?_; rotate_left; subst x; rotate_left; clear_value x) | (extract_lets +onlyGivenNames x; clear_value x) | split)

theorem arrive_within {P s0 s a1 a2 a3 a4} (h : Within P s0 s) (hp : sub 40 P) : Within P s0 (arrive s a1 a2 a3 a4) := by
  unfold arrive
  repeat' (first | with_reducible assumption | exact sub_of rfl | with_reducible refine modCore_within ?_ (sub_trans ?_ hp) | with_reducible refine setSector_within ?_ (sub_trans ?_ hp) | with_reducible refine Within.foldl ?_ (fun _ _ _ => ?_) | with_reducible refine Within.foldl_fst ?_ (fun _ _ _ => ?_) | with_reducible refine Within.ite ?_ ?_ | (extract_lets +onlyGivenNames x; refine (fun (_ : Within P s0 x) => ?_) ?_; rotate_left; subst x; rotate_left; clear_value x) | (extract_lets +onlyGivenNames x; refine (fun (_ : Within P s0 x.1) => ?_) ?_; rotate_left; subst x; rotate_left; clear_value x) | (extract_lets +onlyGivenNames x; clear_value x) | split)

theorem applySig_within {P s0 s a1 a2} (h : Within P s0 s) (hp : sub 8 P) : Within P s0 (applySig s a1 a2) := by
  unfold applySig; try dsimp only
  repeat' (first | with_reducible assumption | exact sub_of rfl | with_reducible refine modCore_within ?_ (sub_trans ?_ hp) | split)

theorem performSigs_within {P s0 s a1 a2 a3} (h : Within P s0 s) (hp : sub 40 P) : Within P s0 (performSigs s a1 a2 a3) := by
  unfold performSigs
  repeat' (first | with_reducible assumption | exact sub_of rfl | with_reducible refine releaseRing_within ?_ (sub_trans ?_ hp) | with_reducible refine applySig_within ?_ (sub_trans ?_ hp) | with_reducible refine arrive_within ?_ (sub_trans ?_ hp) | with_reducible refine setCore_within ?_ (sub_trans ?_ hp) | with_reducible refine Within.foldl ?_ (fun _ _ _ => ?_) | with_reducible refine Within.foldl_fst ?_ (fun _ _ _ => ?_) | with_reducible refine Within.ite ?_ ?_ | (extract_lets +onlyGivenNames x; refine (fun (_ : Within P s0 x) => ?_) ?_; rotate_left; subst x; rotate_left; clear_value x) | (extract_lets +onlyGivenNames x; clear_value x) | split)

theorem endCycle_within {P s0 s a1 a2} (h : Within P s0 s) (hp : sub 2273323 P) : Within P s0 (endCycle s a1 a2) := by
  unfold endCycle
  repeat' (first | with_reducible assumption | exact sub_of rfl | with_reducible refine landEu_within ?_ (sub_trans ?_ hp) | with_reducible refine serveLoads_within ?_ (sub_trans ?_ hp) | with_reducible refine landSegs_within ?_ (sub_trans ?_ hp) | with_reducible refine serveStores_within ?_ (sub_trans ?_ hp) | with_reducible refine performSigs_within ?_ (sub_trans ?_ hp) | with_reducible refine landLoad_within ?_ (sub_trans ?_ hp) | (extract_lets +onlyGivenNames x; refine (fun (_ : Within P s0 x) => ?_) ?_; rotate_left; subst x; rotate_left; clear_value x) | (extract_lets +onlyGivenNames x; clear_value x))

theorem settleLoop_within {P s0 s a0 a2 a3} (h : Within P s0 s) (hp : sub 2273323 P) : Within P s0 (settleLoop a0 s a2 a3) := by
  induction a0 generalizing s with
  | zero => exact h
  | succ k ih => unfold settleLoop; repeat' (first | with_reducible refine ih ?_ | with_reducible assumption | exact sub_of rfl | with_reducible refine endCycle_within ?_ (sub_trans ?_ hp) | with_reducible refine landEarly_within ?_ (sub_trans ?_ hp) | split)

theorem settle_within {P s0 s a1 a2} (h : Within P s0 s) (hp : sub 2273323 P) : Within P s0 (settle s a1 a2) := by
  unfold settle
  repeat' (first | with_reducible assumption | exact sub_of rfl | with_reducible refine landEarly_within ?_ (sub_trans ?_ hp) | with_reducible refine setCore_within ?_ (sub_trans ?_ hp) | with_reducible refine settleLoop_within ?_ (sub_trans ?_ hp) | with_reducible refine Within.ite ?_ ?_ | (extract_lets +onlyGivenNames x; refine (fun (_ : Within P s0 x) => ?_) ?_; rotate_left; subst x; rotate_left; clear_value x) | (extract_lets +onlyGivenNames x; clear_value x) | split)

theorem settleArrivals_within {P s0 s a1 a2} (h : Within P s0 s) (hp : sub 2273323 P) : Within P s0 (settleArrivals s a1 a2) := by
  unfold settleArrivals
  repeat' (first | with_reducible assumption | exact sub_of rfl | with_reducible refine settle_within ?_ (sub_trans ?_ hp) | with_reducible refine Within.foldl ?_ (fun _ _ _ => ?_) | with_reducible refine Within.foldl_fst ?_ (fun _ _ _ => ?_) | with_reducible refine Within.ite ?_ ?_ | split)

theorem closeCycle_within {P s0 s a1 a2} (h : Within P s0 s) (hp : sub 8 P) : Within P s0 (closeCycle s a1 a2) := by
  unfold closeCycle
  repeat' (first | with_reducible assumption | exact sub_of rfl | with_reducible refine modCore_within ?_ (sub_trans ?_ hp))

theorem opEnded_within {P s0 s a1 a2 a3} (h : Within P s0 s) (hp : sub 8 P) : Within P s0 (opEnded s a1 a2 a3) := by
  unfold opEnded
  repeat' (first | with_reducible assumption | exact sub_of rfl | with_reducible refine modCore_within ?_ (sub_trans ?_ hp))

theorem landMiss_within {P s0 s a1 a2 a3} (h : Within P s0 s) (hp : sub 131145 P) : Within P s0 (landMiss s a1 a2 a3) := by
  unfold landMiss
  repeat' (first | with_reducible assumption | exact sub_of rfl | with_reducible refine faultCtx_within ?_ (sub_trans ?_ hp) | with_reducible refine setCore_within ?_ (sub_trans ?_ hp) | with_reducible refine opEnded_within ?_ (sub_trans ?_ hp) | with_reducible refine Within.ite ?_ ?_ | (extract_lets +onlyGivenNames x; refine (fun (_ : Within P s0 x) => ?_) ?_; rotate_left; subst x; rotate_left; clear_value x) | (extract_lets +onlyGivenNames x; clear_value x) | split)

theorem arrayResultAt_within {P s0 s a0 a1} (h : Within P s0 s) (hp : sub 2273323 P) : Within P s0 (arrayResultAt a0 a1 s) := by
  unfold arrayResultAt
  repeat' (first | with_reducible assumption | exact sub_of rfl | with_reducible refine settleLoop_within ?_ (sub_trans ?_ hp) | with_reducible refine modCore_within ?_ (sub_trans ?_ hp) | with_reducible refine Within.ite ?_ ?_ | split)

theorem taResultAt_within {P s0 s a0 a1} (h : Within P s0 s) (hp : sub 2273323 P) : Within P s0 (taResultAt a0 a1 s) := by
  unfold taResultAt
  repeat' (first | with_reducible assumption | exact sub_of rfl | with_reducible refine settle_within ?_ (sub_trans ?_ hp) | with_reducible refine Within.ite ?_ ?_ | split)

theorem elementWriteAt_within {P s0 s a0 a1} (h : Within P s0 s) (hp : sub 2273323 P) : Within P s0 (elementWriteAt a0 a1 s) := by
  unfold elementWriteAt
  repeat' (first | with_reducible assumption | exact sub_of rfl | with_reducible refine landEu_within ?_ (sub_trans ?_ hp) | with_reducible refine settle_within ?_ (sub_trans ?_ hp) | with_reducible refine closeCycle_within ?_ (sub_trans ?_ hp) | with_reducible refine Within.ite ?_ ?_ | split)

theorem loadServiceAt_within {P s0 s a0 a1} (h : Within P s0 s) (hp : sub 2273323 P) : Within P s0 (loadServiceAt a0 a1 s) := by
  unfold loadServiceAt
  repeat' (first | with_reducible assumption | exact sub_of rfl | with_reducible refine settle_within ?_ (sub_trans ?_ hp) | with_reducible refine serveLoads_within ?_ (sub_trans ?_ hp) | with_reducible refine closeCycle_within ?_ (sub_trans ?_ hp) | with_reducible refine Within.ite ?_ ?_ | split)

theorem storeServiceAt_within {P s0 s a0 a1} (h : Within P s0 s) (hp : sub 2273323 P) : Within P s0 (storeServiceAt a0 a1 s) := by
  unfold storeServiceAt
  repeat' (first | with_reducible assumption | exact sub_of rfl | with_reducible refine settle_within ?_ (sub_trans ?_ hp) | with_reducible refine closeCycle_within ?_ (sub_trans ?_ hp) | with_reducible refine serveStores_within ?_ (sub_trans ?_ hp) | with_reducible refine Within.ite ?_ ?_ | split)

theorem loadReturnAt_within {P s0 s a0 a1 a2} (h : Within P s0 s) (hp : sub 2273387 P) : Within P s0 (loadReturnAt a0 a1 a2 s) := by
  unfold loadReturnAt
  repeat' (first | with_reducible assumption | exact sub_of rfl | with_reducible refine landEu_within ?_ (sub_trans ?_ hp) | with_reducible refine settle_within ?_ (sub_trans ?_ hp) | with_reducible refine landMiss_within ?_ (sub_trans ?_ hp) | with_reducible refine closeCycle_within ?_ (sub_trans ?_ hp) | with_reducible refine landLoad_within ?_ (sub_trans ?_ hp) | with_reducible refine Within.ite ?_ ?_ | split)

theorem segldEndAt_within {P s0 s a0 a1} (h : Within P s0 s) (hp : sub 2273323 P) : Within P s0 (segldEndAt a0 a1 s) := by
  unfold segldEndAt
  repeat' (first | with_reducible assumption | exact sub_of rfl | with_reducible refine settle_within ?_ (sub_trans ?_ hp) | with_reducible refine landSegs_within ?_ (sub_trans ?_ hp) | with_reducible refine closeCycle_within ?_ (sub_trans ?_ hp) | with_reducible refine Within.ite ?_ ?_ | split)

theorem signalAt_within {P s0 s a0 a1} (h : Within P s0 s) (hp : sub 2273323 P) : Within P s0 (signalAt a0 a1 s) := by
  unfold signalAt
  repeat' (first | with_reducible assumption | exact sub_of rfl | with_reducible refine settle_within ?_ (sub_trans ?_ hp) | with_reducible refine closeCycle_within ?_ (sub_trans ?_ hp) | with_reducible refine performSigs_within ?_ (sub_trans ?_ hp) | with_reducible refine Within.ite ?_ ?_ | split)

theorem barrierAt_within {P s0 s a0 a1 a2} (h : Within P s0 s) (hp : sub 2273323 P) : Within P s0 (barrierAt a0 a1 a2 s) := by
  unfold barrierAt
  repeat' (first | with_reducible assumption | exact sub_of rfl | with_reducible refine settle_within ?_ (sub_trans ?_ hp) | with_reducible refine settleArrivals_within ?_ (sub_trans ?_ hp) | with_reducible refine closeCycle_within ?_ (sub_trans ?_ hp) | with_reducible refine performSigs_within ?_ (sub_trans ?_ hp) | with_reducible refine Within.foldl ?_ (fun _ _ _ => ?_) | with_reducible refine Within.foldl_fst ?_ (fun _ _ _ => ?_) | with_reducible refine Within.ite ?_ ?_ | split)

end Sys2Proof.Machine
end

