-- ==== Sys2Proof/Laws/WithinMaintBase.lean ====
section
/-! SUPPORT. What each operation of Machine/MaintBase.lean may change (see Within.lean). -/

namespace Sys2Proof.Machine

theorem mntRegs_within {P s0 s} (h : Within P s0 s) (hp : sub 1 P) : Within P s0 (mntRegs s) := by
  unfold mntRegs
  repeat' (first | with_reducible assumption | exact sub_of rfl | with_reducible refine regSet_within ?_ (sub_trans ?_ hp) | with_reducible refine Within.foldl ?_ (fun _ _ _ => ?_) | with_reducible refine Within.foldl_fst ?_ (fun _ _ _ => ?_) | (extract_lets +onlyGivenNames x; refine (fun (_ : Within P s0 x) => ?_) ?_; rotate_left; subst x; rotate_left; clear_value x) | (extract_lets +onlyGivenNames x; clear_value x))

theorem setPending_within {P s0 s a1 a2} (h : Within P s0 s) (hp : sub 65537 P) : Within P s0 (setPending s a1 a2) := by
  unfold setPending
  repeat' (first | with_reducible assumption | exact sub_of rfl | with_reducible refine mntRegs_within ?_ (sub_trans ?_ hp) | with_reducible refine Within.upd_maint ?_ (sub_trans ?_ hp))

theorem mntGrant_within {P s0 s a1} (h : Within P s0 s) (hp : sub 65537 P) : Within P s0 (mntGrant s a1) := by
  unfold mntGrant
  repeat' (first | with_reducible assumption | exact sub_of rfl | with_reducible refine mntRegs_within ?_ (sub_trans ?_ hp) | with_reducible refine bump_within ?_ (sub_trans ?_ hp) | with_reducible refine Within.upd_maint ?_ (sub_trans ?_ hp) | (extract_lets +onlyGivenNames x; refine (fun (_ : Within P s0 x) => ?_) ?_; rotate_left; subst x; rotate_left; clear_value x) | (extract_lets +onlyGivenNames x; clear_value x))

theorem takePending_within {P s0 s a1} (h : Within P s0 s) (hp : sub 65537 P) : Within P s0 (takePending s a1) := by
  unfold takePending
  repeat' (first | with_reducible assumption | exact sub_of rfl | with_reducible refine mntGrant_within ?_ (sub_trans ?_ hp) | with_reducible refine setPending_within ?_ (sub_trans ?_ hp) | split)

theorem offerClass_within {P s0 s a1} (h : Within P s0 s) (hp : sub 65537 P) : Within P s0 (offerClass s a1) := by
  unfold offerClass
  repeat' (first | with_reducible assumption | exact sub_of rfl | with_reducible refine takePending_within ?_ (sub_trans ?_ hp) | with_reducible refine Within.foldl ?_ (fun _ _ _ => ?_) | with_reducible refine Within.foldl_fst ?_ (fun _ _ _ => ?_) | with_reducible refine Within.ite ?_ ?_ | split)

theorem sweepNext_within {P s0 s a1} (h : Within P s0 s) (hp : sub 65537 P) : Within P s0 (sweepNext s a1) := by
  unfold sweepNext
  repeat' (first | with_reducible assumption | exact sub_of rfl | with_reducible refine mntGrant_within ?_ (sub_trans ?_ hp) | with_reducible refine setPending_within ?_ (sub_trans ?_ hp) | with_reducible refine Within.ite ?_ ?_ | split)

theorem mntEnded_within {P s0 s a1 a2} (h : Within P s0 s) (hp : sub 2756625 P) : Within P s0 (mntEnded s a1 a2) := by
  unfold mntEnded
  repeat' (first | with_reducible assumption | exact sub_of rfl | with_reducible refine bump_within ?_ (sub_trans ?_ hp) | with_reducible refine dayEvent_within ?_ (sub_trans ?_ hp) | with_reducible refine regSet_within ?_ (sub_trans ?_ hp) | with_reducible refine schedEnd_within ?_ (sub_trans ?_ hp) | with_reducible refine Within.ite ?_ ?_ | (extract_lets +onlyGivenNames x; refine (fun (_ : Within P s0 x) => ?_) ?_; rotate_left; subst x; rotate_left; clear_value x) | (extract_lets +onlyGivenNames x; clear_value x) | split)

theorem endSweeps_within {P s0 s} (h : Within P s0 s) (hp : sub 2822161 P) : Within P s0 (endSweeps s) := by
  unfold endSweeps
  repeat' (first | with_reducible assumption | exact sub_of rfl | with_reducible refine mntEnded_within ?_ (sub_trans ?_ hp) | with_reducible refine Within.foldl ?_ (fun _ _ _ => ?_) | with_reducible refine Within.foldl_fst ?_ (fun _ _ _ => ?_) | with_reducible refine Within.upd_maint ?_ (sub_trans ?_ hp) | (extract_lets +onlyGivenNames x; refine (fun (_ : Within P s0 x) => ?_) ?_; rotate_left; subst x; rotate_left; clear_value x) | (extract_lets +onlyGivenNames x; refine (fun (_ : Within P s0 x.1) => ?_) ?_; rotate_left; subst x; rotate_left; clear_value x) | (extract_lets +onlyGivenNames x; clear_value x))

theorem mntOffer_within {P s0 s} (h : Within P s0 s) (hp : sub 2822161 P) : Within P s0 (mntOffer s) := by
  unfold mntOffer
  repeat' (first | with_reducible assumption | exact sub_of rfl | with_reducible refine sweepNext_within ?_ (sub_trans ?_ hp) | with_reducible refine offerClass_within ?_ (sub_trans ?_ hp) | with_reducible refine mntGrant_within ?_ (sub_trans ?_ hp) | with_reducible refine endSweeps_within ?_ (sub_trans ?_ hp) | with_reducible refine Within.foldl ?_ (fun _ _ _ => ?_) | with_reducible refine Within.foldl_fst ?_ (fun _ _ _ => ?_) | with_reducible refine Within.ite ?_ ?_ | with_reducible refine Within.upd_maint ?_ (sub_trans ?_ hp) | (extract_lets +onlyGivenNames x; refine (fun (_ : Within P s0 x) => ?_) ?_; rotate_left; subst x; rotate_left; clear_value x) | (extract_lets +onlyGivenNames x; refine (fun (_ : Within P s0 x.1) => ?_) ?_; rotate_left; subst x; rotate_left; clear_value x) | (extract_lets +onlyGivenNames x; clear_value x) | split)

theorem mntNeed_within {P s0 s a1 a2} (h : Within P s0 s) (hp : sub 65537 P) : Within P s0 (mntNeed s a1 a2) := by
  unfold mntNeed
  repeat' (first | with_reducible assumption | exact sub_of rfl | with_reducible refine sweepNext_within ?_ (sub_trans ?_ hp) | with_reducible refine offerClass_within ?_ (sub_trans ?_ hp) | with_reducible refine bump_within ?_ (sub_trans ?_ hp) | with_reducible refine setPending_within ?_ (sub_trans ?_ hp) | with_reducible refine Within.ite ?_ ?_ | (extract_lets +onlyGivenNames x; refine (fun (_ : Within P s0 x) => ?_) ?_; rotate_left; subst x; rotate_left; clear_value x) | (extract_lets +onlyGivenNames x; clear_value x) | split)

theorem markRetrain_within {P s0 s a1 a2} (h : Within P s0 s) (hp : sub 2338817 P) : Within P s0 (markRetrain s a1 a2) := by
  unfold markRetrain
  repeat' (first | with_reducible assumption | exact sub_of rfl | with_reducible refine mntNeed_within ?_ (sub_trans ?_ hp) | with_reducible refine markMapOut_within ?_ (sub_trans ?_ hp) | with_reducible refine Within.ite ?_ ?_ | split)

theorem mntRequest_within {P s0 s a1 a2 a3 a4 a5 a6} (h : Within P s0 s) (hp : sub 2822161 P) : Within P s0 (mntRequest s a1 a2 a3 a4 a5 a6) := by
  unfold mntRequest
  repeat' (first | with_reducible assumption | exact sub_of rfl | with_reducible refine mntRegs_within ?_ (sub_trans ?_ hp) | with_reducible refine bump_within ?_ (sub_trans ?_ hp) | with_reducible refine mntEnded_within ?_ (sub_trans ?_ hp) | with_reducible refine postEvent_within ?_ (sub_trans ?_ hp) | with_reducible refine mntGrant_within ?_ (sub_trans ?_ hp) | with_reducible refine mntOffer_within ?_ (sub_trans ?_ hp) | with_reducible refine Within.ite ?_ ?_ | with_reducible refine Within.upd_maint ?_ (sub_trans ?_ hp) | (extract_lets +onlyGivenNames x; refine (fun (_ : Within P s0 x) => ?_) ?_; rotate_left; subst x; rotate_left; clear_value x) | (extract_lets +onlyGivenNames x; clear_value x) | split)

theorem mntWithdraw_within {P s0 s a1 a2} (h : Within P s0 s) (hp : sub 2818065 P) : Within P s0 (mntWithdraw s a1 a2) := by
  unfold mntWithdraw
  repeat' (first | with_reducible assumption | exact sub_of rfl | with_reducible refine mntRegs_within ?_ (sub_trans ?_ hp) | with_reducible refine schedEnd_within ?_ (sub_trans ?_ hp) | with_reducible refine Within.ite ?_ ?_ | with_reducible refine Within.upd_maint ?_ (sub_trans ?_ hp) | (extract_lets +onlyGivenNames x; refine (fun (_ : Within P s0 x) => ?_) ?_; rotate_left; subst x; rotate_left; clear_value x) | (extract_lets +onlyGivenNames x; clear_value x) | split)

theorem mntFinish_within {P s0 s a1 a2} (h : Within P s0 s) (hp : sub 2822161 P) : Within P s0 (mntFinish s a1 a2) := by
  unfold mntFinish; try dsimp only
  repeat' (first | with_reducible assumption | exact sub_of rfl | with_reducible refine mntEnded_within ?_ (sub_trans ?_ hp) | with_reducible refine mntRegs_within ?_ (sub_trans ?_ hp) | with_reducible refine mntOffer_within ?_ (sub_trans ?_ hp) | split | with_reducible refine Within.upd_maint ?_ (sub_trans ?_ hp))

end Sys2Proof.Machine
end

