-- ==== Sys2Proof/Laws/WithinObjects.lean ====
section
/-! SUPPORT. What each operation of Machine/Objects.lean may change (see Within.lean). -/

namespace Sys2Proof.Machine

theorem memEvent_within {P s0 s a1 a2 a3 a4 a5 a6} (h : Within P s0 s) (hp : sub 2097169 P) : Within P s0 (memEvent s a1 a2 a3 a4 a5 a6) := by
  unfold memEvent
  repeat' (first | with_reducible assumption | exact sub_of rfl | with_reducible refine bump_within ?_ (sub_trans ?_ hp) | with_reducible refine postEvent_within ?_ (sub_trans ?_ hp))

theorem bufEvent_within {P s0 s a1 a2 a3 a4} (h : Within P s0 s) (hp : sub 4 P) : Within P s0 (bufEvent s a1 a2 a3 a4) := by
  unfold bufEvent
  repeat' (first | with_reducible assumption | exact sub_of rfl | with_reducible refine Within.foldl ?_ (fun _ _ _ => ?_) | with_reducible refine Within.foldl_fst ?_ (fun _ _ _ => ?_) | with_reducible refine Within.upd_bufEvents ?_ (sub_trans ?_ hp) | (extract_lets +onlyGivenNames x; refine (fun (_ : Within P s0 x) => ?_) ?_; rotate_left; subst x; rotate_left; clear_value x) | (extract_lets +onlyGivenNames x; refine (fun (_ : Within P s0 x.1) => ?_) ?_; rotate_left; subst x; rotate_left; clear_value x) | (extract_lets +onlyGivenNames x; clear_value x))

theorem flushBufEvents_within {P s0 s} (h : Within P s0 s) (hp : sub 2097173 P) : Within P s0 (flushBufEvents s) := by
  unfold flushBufEvents
  repeat' (first | with_reducible assumption | exact sub_of rfl | with_reducible refine memEvent_within ?_ (sub_trans ?_ hp) | with_reducible refine Within.foldl ?_ (fun _ _ _ => ?_) | with_reducible refine Within.foldl_fst ?_ (fun _ _ _ => ?_) | with_reducible refine Within.upd_bufEvents ?_ (sub_trans ?_ hp))

theorem modModel_within {P s0 s a1 a2 a3} (h : Within P s0 s) (hp : sub 16 P) : Within P s0 (modModel s a1 a2 a3) := by
  unfold modModel
  repeat' (first | with_reducible assumption | exact sub_of rfl | with_reducible refine modFn_within ?_ (sub_trans ?_ hp))

theorem markKeyEntry_within {P s0 s a1 a2 a3} (h : Within P s0 s) (hp : sub 17 P) : Within P s0 (markKeyEntry s a1 a2 a3) := by
  unfold markKeyEntry
  repeat' (first | with_reducible assumption | exact sub_of rfl | with_reducible refine modFn_within ?_ (sub_trans ?_ hp) | with_reducible refine regSetPair_within ?_ (sub_trans ?_ hp) | with_reducible refine Within.ite ?_ ?_ | (extract_lets +onlyGivenNames x; refine (fun (_ : Within P s0 x) => ?_) ?_; rotate_left; subst x; rotate_left; clear_value x) | (extract_lets +onlyGivenNames x; clear_value x) | split)

theorem systemLoss_within {P s0 s} (h : Within P s0 s) (hp : sub 64 P) : Within P s0 (systemLoss s) := by
  unfold systemLoss
  repeat' (first | with_reducible assumption | exact sub_of rfl | with_reducible refine drawFree_within ?_ | with_reducible refine drawFree_within' ‹_› ?_ | with_reducible refine Within.ite ?_ ?_ | with_reducible refine Within.upd_jobs ?_ (sub_trans ?_ hp) ?_ | exact twf_tset _ _ | exact twf_tmap _ | exact twf_filter _ | exact twf_tsetRun _ _ | (extract_lets +onlyGivenNames x; refine (fun (_ : Within P s0 x) => ?_) ?_; rotate_left; subst x; rotate_left; clear_value x) | (extract_lets +onlyGivenNames x; refine (fun (_ : Within P s0 x.2) => ?_) ?_; rotate_left; subst x; rotate_left; clear_value x) | (extract_lets +onlyGivenNames x; clear_value x) | split)

theorem modelLost_within {P s0 s a1 a2 a3} (h : Within P s0 s) (hp : sub 2101265 P) : Within P s0 (modelLost s a1 a2 a3) := by
  unfold modelLost
  repeat' (first | with_reducible assumption | exact sub_of rfl | with_reducible refine dayEvent_within ?_ (sub_trans ?_ hp) | with_reducible refine memEvent_within ?_ (sub_trans ?_ hp))

theorem ownerAction_within {P s0 s a1 a2} (h : Within P s0 s) (hp : sub 2273367 P) : Within P s0 (ownerAction s a1 a2) := by
  unfold ownerAction
  repeat' (first | with_reducible assumption | exact sub_of rfl | with_reducible refine modFn_within ?_ (sub_trans ?_ hp) | with_reducible refine regSetFld_within ?_ (sub_trans ?_ hp) | with_reducible refine modModel_within ?_ (sub_trans ?_ hp) | with_reducible refine setPoison_within ?_ (sub_trans ?_ hp) | with_reducible refine systemLoss_within ?_ (sub_trans ?_ hp) | with_reducible refine raiseSrc_within ?_ (sub_trans ?_ hp) | with_reducible refine markKeyEntry_within ?_ (sub_trans ?_ hp) | with_reducible refine bufEvent_within ?_ (sub_trans ?_ hp) | with_reducible refine modelLost_within ?_ (sub_trans ?_ hp) | with_reducible refine memEvent_within ?_ (sub_trans ?_ hp) | with_reducible refine Within.ite ?_ ?_ | (extract_lets +onlyGivenNames x; refine (fun (_ : Within P s0 x) => ?_) ?_; rotate_left; subst x; rotate_left; clear_value x) | (extract_lets +onlyGivenNames x; clear_value x) | split)

theorem coarseActions_within {P s0 s a1} (h : Within P s0 s) (hp : sub 2273367 P) : Within P s0 (coarseActions s a1) := by
  unfold coarseActions
  repeat' (first | with_reducible assumption | exact sub_of rfl | with_reducible refine ownerAction_within ?_ (sub_trans ?_ hp) | with_reducible refine Within.foldl ?_ (fun _ _ _ => ?_) | with_reducible refine Within.foldl_fst ?_ (fun _ _ _ => ?_) | with_reducible refine Within.ite ?_ ?_ | (extract_lets +onlyGivenNames x; refine (fun (_ : Within P s0 x) => ?_) ?_; rotate_left; subst x; rotate_left; clear_value x) | (extract_lets +onlyGivenNames x; refine (fun (_ : Within P s0 x.1) => ?_) ?_; rotate_left; subst x; rotate_left; clear_value x) | (extract_lets +onlyGivenNames x; clear_value x) | split)

theorem countRow_within {P s0 s a1} (h : Within P s0 s) (hp : sub 2273281 P) : Within P s0 (countRow s a1) := by
  unfold countRow
  repeat' (first | with_reducible assumption | exact sub_of rfl | with_reducible refine markMapOut_within ?_ (sub_trans ?_ hp) | with_reducible refine Within.ite ?_ ?_ | with_reducible refine Within.upd_start ?_ (sub_trans ?_ hp) ?_ | exact id | exact fun _ => by (dsimp only; decide) | (extract_lets +onlyGivenNames x; refine (fun (_ : Within P s0 x) => ?_) ?_; rotate_left; subst x; rotate_left; clear_value x) | (extract_lets +onlyGivenNames x; clear_value x) | split)

theorem uncorrectable_within {P s0 s a1 a2} (h : Within P s0 s) (hp : sub 2338903 P) : Within P s0 (uncorrectable s a1 a2) := by
  unfold uncorrectable
  repeat' (first | with_reducible assumption | exact sub_of rfl | with_reducible refine mntNeed_within ?_ (sub_trans ?_ hp) | with_reducible refine ownerAction_within ?_ (sub_trans ?_ hp) | with_reducible refine bump_within ?_ (sub_trans ?_ hp) | with_reducible refine dayEvent_within ?_ (sub_trans ?_ hp) | with_reducible refine setPoison_within ?_ (sub_trans ?_ hp) | with_reducible refine raiseSrc_within ?_ (sub_trans ?_ hp) | with_reducible refine coarseActions_within ?_ (sub_trans ?_ hp) | with_reducible refine countRow_within ?_ (sub_trans ?_ hp) | with_reducible refine Within.foldl ?_ (fun _ _ _ => ?_) | with_reducible refine Within.foldl_fst ?_ (fun _ _ _ => ?_) | with_reducible refine Within.ite ?_ ?_ | (extract_lets +onlyGivenNames x; refine (fun (_ : Within P s0 x) => ?_) ?_; rotate_left; subst x; rotate_left; clear_value x) | (extract_lets +onlyGivenNames x; clear_value x) | split)

theorem correctable_within {P s0 s a1} (h : Within P s0 s) (hp : sub 1 P) : Within P s0 (correctable s a1) := by
  unfold correctable
  repeat' (first | with_reducible assumption | exact sub_of rfl | with_reducible refine bump_within ?_ (sub_trans ?_ hp) | split)

theorem memErr_within {P s0 s a1 a2 a3 a4} (h : Within P s0 s) (hp : sub 2338903 P) : Within P s0 (memErr s a1 a2 a3 a4) := by
  unfold memErr
  repeat' (first | with_reducible assumption | exact sub_of rfl | with_reducible refine correctable_within ?_ (sub_trans ?_ hp) | with_reducible refine markRetrain_within ?_ (sub_trans ?_ hp) | with_reducible refine uncorrectable_within ?_ (sub_trans ?_ hp) | with_reducible refine Within.ite ?_ ?_ | split)

end Sys2Proof.Machine
end

