-- ==== Sys2Proof/Laws/WithinMemorySys.lean ====
section
/-! SUPPORT. What each operation of Machine/MemorySys.lean may change (see Within.lean). -/

namespace Sys2Proof.Machine

theorem streamWrite_within {P s0 s a1 a2 a3 a4} (h : Within P s0 s) (hp : sub 5 P) : Within P s0 (streamWrite s a1 a2 a3 a4) := by
  unfold streamWrite
  repeat' (first | with_reducible assumption | exact sub_of rfl | with_reducible refine pushReq_within ?_ (sub_trans ?_ hp) | with_reducible refine Within.ite ?_ ?_ | (extract_lets +onlyGivenNames x; refine (fun (_ : Within P s0 x) => ?_) ?_; rotate_left; subst x; rotate_left; clear_value x) | (extract_lets +onlyGivenNames x; clear_value x) | split)

theorem remoteInc_within {P s0 s a1 a2 a3} (h : Within P s0 s) (hp : sub 8 P) : Within P s0 (remoteInc s a1 a2 a3) := by
  unfold remoteInc
  repeat' (first | with_reducible assumption | exact sub_of rfl | with_reducible refine modCore_within ?_ (sub_trans ?_ hp))

theorem engineInc_within {P s0 s a1 a2} (h : Within P s0 s) (hp : sub 8 P) : Within P s0 (engineInc s a1 a2) := by
  unfold engineInc
  repeat' (first | with_reducible assumption | exact sub_of rfl | with_reducible refine remoteInc_within ?_ (sub_trans ?_ hp))

theorem modMove_within {P s0 s a1 a2} (h : Within P s0 s) (hp : sub 4 P) : Within P s0 (modMove s a1 a2) := by
  unfold modMove
  repeat' (first | with_reducible assumption | exact sub_of rfl | with_reducible refine Within.ite ?_ ?_ | with_reducible refine Within.upd_moves ?_ (sub_trans ?_ hp) | split)

theorem bar2End_within {P s0 s a1} (h : Within P s0 s) (hp : sub 2097156 P) : Within P s0 (bar2End s a1) := by
  unfold bar2End
  split
  · split
    · extract_lets s1
      have k : Within P s0 s1 := Within.upd_moves h (sub_trans (sub_of rfl) hp)
      clear_value s1
      split
      · exact k
      · exact emit_within k (sub_trans (sub_of rfl) hp)
    · exact h
  · exact h

theorem moveOut_within {P s0 s a1 a2 a3} (h : Within P s0 s) (hp : sub 5 P) : Within P s0 (moveOut s a1 a2 a3) := by
  unfold moveOut
  repeat' (first | with_reducible assumption | exact sub_of rfl | with_reducible refine modMove_within ?_ (sub_trans ?_ hp) | with_reducible refine pushReq_within ?_ (sub_trans ?_ hp) | with_reducible refine Within.foldl ?_ (fun _ _ _ => ?_) | with_reducible refine Within.foldl_fst ?_ (fun _ _ _ => ?_) | (extract_lets +onlyGivenNames x; refine (fun (_ : Within P s0 x) => ?_) ?_; rotate_left; subst x; rotate_left; clear_value x) | (extract_lets +onlyGivenNames x; refine (fun (_ : Within P s0 x.1) => ?_) ?_; rotate_left; subst x; rotate_left; clear_value x) | (extract_lets +onlyGivenNames x; clear_value x))

theorem moveLess_within {P s0 s a1} (h : Within P s0 s) (hp : sub 2097156 P) : Within P s0 (moveLess s a1) := by
  unfold moveLess
  repeat' (first | with_reducible assumption | exact sub_of rfl | with_reducible refine modMove_within ?_ (sub_trans ?_ hp) | with_reducible refine bar2End_within ?_ (sub_trans ?_ hp))

theorem moveGot_within {P s0 s a1 a2 a3} (h : Within P s0 s) (hp : sub 2097157 P) : Within P s0 (moveGot s a1 a2 a3) := by
  unfold moveGot
  repeat' (first | with_reducible assumption | exact sub_of rfl | with_reducible refine modMove_within ?_ (sub_trans ?_ hp) | with_reducible refine moveOut_within ?_ (sub_trans ?_ hp) | with_reducible refine moveLess_within ?_ (sub_trans ?_ hp) | (extract_lets +onlyGivenNames x; refine (fun (_ : Within P s0 x) => ?_) ?_; rotate_left; subst x; rotate_left; clear_value x) | (extract_lets +onlyGivenNames x; clear_value x) | split)

theorem beginMove_within {P s0 s a1 a2 a3 a4} (h : Within P s0 s) (hp : sub 5 P) : Within P s0 (beginMove s a1 a2 a3 a4) := by
  unfold beginMove
  repeat' (first | with_reducible assumption | exact sub_of rfl | with_reducible refine pushReq_within ?_ (sub_trans ?_ hp) | with_reducible refine Within.foldl ?_ (fun _ _ _ => ?_) | with_reducible refine Within.foldl_fst ?_ (fun _ _ _ => ?_) | with_reducible refine Within.upd_moves_moveSeq ?_ (sub_trans ?_ hp) | (extract_lets +onlyGivenNames x; refine (fun (_ : Within P s0 x) => ?_) ?_; rotate_left; subst x; rotate_left; clear_value x) | (extract_lets +onlyGivenNames x; refine (fun (_ : Within P s0 x.1) => ?_) ?_; rotate_left; subst x; rotate_left; clear_value x) | (extract_lets +onlyGivenNames x; clear_value x))

theorem dropMoves_within {P s0 s a1 a2 a3} (h : Within P s0 s) (hp : sub 4 P) : Within P s0 (dropMoves s a1 a2 a3) := by
  unfold dropMoves
  repeat' (first | with_reducible assumption | exact sub_of rfl | with_reducible refine Within.ite ?_ ?_ | with_reducible refine Within.upd_memq_moves ?_ (sub_trans ?_ hp) | (extract_lets +onlyGivenNames x; refine (fun (_ : Within P s0 x) => ?_) ?_; rotate_left; subst x; rotate_left; clear_value x) | (extract_lets +onlyGivenNames x; clear_value x) | split)

theorem loseReqs_within {P s0 s a1} (h : Within P s0 s) (hp : sub 2097157 P) : Within P s0 (loseReqs s a1) := by
  unfold loseReqs
  refine Within.foldl (Within.upd_memq h (sub_trans (sub_of rfl) hp)) fun t r ht => ?_
  split
  · exact moveGot_within ht (sub_trans (sub_of rfl) hp)
  · exact moveLess_within ht (sub_trans (sub_of rfl) hp)
  · exact ht

theorem delivered_within {P s0 s a1 a2} (h : Within P s0 s) (hp : sub 2097677 P) : Within P s0 (delivered s a1 a2) := by
  unfold delivered
  split
  · exact modCore_within h (sub_trans (sub_of rfl) hp)
  · extract_lets s1
    have k : Within P s0 s1 := modCore_within h (sub_trans (sub_of rfl) hp)
    clear_value s1
    exact opEnded_within k (sub_trans (sub_of rfl) hp)
  · exact streamWrite_within h (sub_trans (sub_of rfl) hp)
  · exact strReqDone_within h (sub_trans (sub_of rfl) hp)
  · exact Within.upd_passes h (sub_trans (sub_of rfl) hp)
  · exact moveGot_within h (sub_trans (sub_of rfl) hp)
  · exact moveLess_within h (sub_trans (sub_of rfl) hp)
  · exact engineInc_within h (sub_trans (sub_of rfl) hp)
  · exact h
  · exact h
  · exact h

theorem popReq_within {P s0 s a1} (h : Within P s0 s) (hp : sub 4 P) : Within P s0 (popReq s a1) := by
  unfold popReq
  repeat' (first | with_reducible assumption | exact sub_of rfl | with_reducible refine Within.upd_memq ?_ (sub_trans ?_ hp))

theorem putReq_within {P s0 s a1} (h : Within P s0 s) (hp : sub 4 P) : Within P s0 (putReq s a1) := by
  unfold putReq
  repeat' (first | with_reducible assumption | exact sub_of rfl | with_reducible refine Within.ite ?_ ?_ | with_reducible refine Within.upd_memq ?_ (sub_trans ?_ hp) | split)

theorem partDone_within {P s0 s a1 a2} (h : Within P s0 s) (hp : sub 2097677 P) : Within P s0 (partDone s a1 a2) := by
  unfold partDone
  repeat' (first | with_reducible assumption | exact sub_of rfl | with_reducible refine delivered_within ?_ (sub_trans ?_ hp) | with_reducible refine putReq_within ?_ (sub_trans ?_ hp) | with_reducible refine Within.foldl ?_ (fun _ _ _ => ?_) | with_reducible refine Within.foldl_fst ?_ (fun _ _ _ => ?_) | with_reducible refine Within.ite ?_ ?_ | (extract_lets +onlyGivenNames x; refine (fun (_ : Within P s0 x) => ?_) ?_; rotate_left; subst x; rotate_left; clear_value x) | (extract_lets +onlyGivenNames x; refine (fun (_ : Within P s0 x.1) => ?_) ?_; rotate_left; subst x; rotate_left; clear_value x) | (extract_lets +onlyGivenNames x; clear_value x) | split)

theorem poisonSpan_within {P s0 s a1 a2} (h : Within P s0 s) (hp : sub 2273283 P) : Within P s0 (poisonSpan s a1 a2) := by
  unfold poisonSpan
  repeat' (first | with_reducible assumption | exact sub_of rfl | with_reducible refine setPoison_within ?_ (sub_trans ?_ hp) | with_reducible refine Within.foldl ?_ (fun _ _ _ => ?_) | with_reducible refine Within.foldl_fst ?_ (fun _ _ _ => ?_) | with_reducible refine Within.ite ?_ ?_ | split)

theorem dramGive_within {P s0 s a1} (h : Within P s0 s) (hp : sub 2273807 P) : Within P s0 (dramGive s a1) := by
  unfold dramGive
  repeat' (first | with_reducible assumption | exact sub_of rfl | with_reducible refine partDone_within ?_ (sub_trans ?_ hp) | with_reducible refine popReq_within ?_ (sub_trans ?_ hp) | with_reducible refine writeT_within ?_ (sub_trans ?_ hp) | with_reducible refine Within.ite ?_ ?_ | (extract_lets +onlyGivenNames x; refine (fun (_ : Within P s0 x) => ?_) ?_; rotate_left; subst x; rotate_left; clear_value x) | (extract_lets +onlyGivenNames x; clear_value x) | split)

theorem dramServe_within {P s0 s a1 a2} (h : Within P s0 s) (hp : sub 2339423 P) : Within P s0 (dramServe s a1 a2) := by
  unfold dramServe
  repeat' (first | with_reducible assumption | exact sub_of rfl | with_reducible refine partDone_within ?_ (sub_trans ?_ hp) | with_reducible refine popReq_within ?_ (sub_trans ?_ hp) | with_reducible refine markRetrain_within ?_ (sub_trans ?_ hp) | with_reducible refine memErr_within ?_ (sub_trans ?_ hp) | with_reducible refine poisonSpan_within ?_ (sub_trans ?_ hp) | with_reducible refine dramGive_within ?_ (sub_trans ?_ hp) | with_reducible refine Within.ite ?_ ?_ | split)

theorem execDeviceMemoryResponse_within {P s0 s t a0 a1} (h : Within P s0 s) (hp : sub 2339423 P) (he : execDeviceMemoryResponse a0 a1 s = .next t) : Within P s0 t := by
  unfold execDeviceMemoryResponse at he; injection he with he; subst he
  repeat' (first | with_reducible assumption | exact sub_of rfl | with_reducible refine dramServe_within ?_ (sub_trans ?_ hp) | with_reducible refine Within.ite ?_ ?_ | split)

theorem execMemoryRequestTimeout_within {P s0 s t a0} (h : Within P s0 s) (hp : sub 2273807 P) (he : execMemoryRequestTimeout a0 s = .next t) : Within P s0 t := by
  unfold execMemoryRequestTimeout at he; injection he with he; subst he
  repeat' (first | with_reducible assumption | exact sub_of rfl | with_reducible refine bump_within ?_ (sub_trans ?_ hp) | with_reducible refine partDone_within ?_ (sub_trans ?_ hp) | with_reducible refine popReq_within ?_ (sub_trans ?_ hp) | with_reducible refine poisonSpan_within ?_ (sub_trans ?_ hp) | with_reducible refine markMapOut_within ?_ (sub_trans ?_ hp) | with_reducible refine Within.ite ?_ ?_ | (extract_lets +onlyGivenNames x; refine (fun (_ : Within P s0 x) => ?_) ?_; rotate_left; subst x; rotate_left; clear_value x) | (extract_lets +onlyGivenNames x; clear_value x) | split)

theorem serveDram_within {P s0 s} (h : Within P s0 s) (hp : sub 2273807 P) : Within P s0 (serveDram s) := by
  unfold serveDram
  repeat' (first | with_reducible assumption | exact sub_of rfl | with_reducible refine dramGive_within ?_ (sub_trans ?_ hp) | with_reducible refine Within.foldl ?_ (fun _ _ _ => ?_) | with_reducible refine Within.foldl_fst ?_ (fun _ _ _ => ?_) | split)

theorem countShort_within {P s0 s a1} (h : Within P s0 s) (hp : sub 1 P) : Within P s0 (countShort s a1) := by
  unfold countShort
  repeat' (first | with_reducible assumption | exact sub_of rfl | with_reducible refine bump_within ?_ (sub_trans ?_ hp) | with_reducible refine Within.ite ?_ ?_ | split)

theorem serveAt_within {P s0 s a1} (h : Within P s0 s) (hp : sub 2273807 P) : Within P s0 (serveAt s a1) := by
  unfold serveAt
  repeat' (first | with_reducible assumption | exact sub_of rfl | with_reducible refine serveDram_within ?_ (sub_trans ?_ hp) | split)

theorem engineAccess_within {P s0 s a1 a2} (h : Within P s0 s) (hp : sub 2273807 P) : Within P s0 (engineAccess s a1 a2) := by
  unfold engineAccess
  repeat' (first | with_reducible assumption | exact sub_of rfl | with_reducible refine countShort_within ?_ (sub_trans ?_ hp) | with_reducible refine serveDram_within ?_ (sub_trans ?_ hp) | split)

theorem serveLine_within {P s0 s a1 a2 a3 a4} (h : Within P s0 s) (hp : sub 2273295 P) : Within P s0 (serveLine s a1 a2 a3 a4) := by
  unfold serveLine
  repeat' (first | with_reducible assumption | exact sub_of rfl | with_reducible refine putReq_within ?_ (sub_trans ?_ hp) | with_reducible refine touchRange_within ?_ (sub_trans ?_ hp) | with_reducible refine writeT_within ?_ (sub_trans ?_ hp) | with_reducible refine Within.ite ?_ ?_ | (extract_lets +onlyGivenNames x; refine (fun (_ : Within P s0 x) => ?_) ?_; rotate_left; subst x; rotate_left; clear_value x) | (extract_lets +onlyGivenNames x; clear_value x) | split)

theorem finishPort_within {P s0 s a1 a2} (h : Within P s0 s) (hp : sub 2097677 P) : Within P s0 (finishPort s a1 a2) := by
  unfold finishPort; try dsimp only
  repeat' (first | with_reducible assumption | exact sub_of rfl | with_reducible refine remoteInc_within ?_ (sub_trans ?_ hp) | with_reducible refine delivered_within ?_ (sub_trans ?_ hp) | with_reducible refine Within.foldl ?_ (fun _ _ _ => ?_) | split | with_reducible refine Within.upd_memq ?_ (sub_trans ?_ hp))

theorem bankServe_within {P s0 s a1 a2 a3} (h : Within P s0 s) (hp : sub 2273295 P) : Within P s0 (bankServe s a1 a2 a3) := by
  unfold bankServe
  repeat' (first | with_reducible assumption | exact sub_of rfl | with_reducible refine serveLine_within ?_ (sub_trans ?_ hp) | with_reducible refine putReq_within ?_ (sub_trans ?_ hp) | with_reducible refine Within.ite ?_ ?_ | split)

theorem bankCycle_within {P s0 s a1 a2 a3 a4} (h : Within P s0 s) (hp : sub 2273295 P) : Within P s0 (bankCycle s a1 a2 a3 a4) := by
  unfold bankCycle
  repeat' (first | with_reducible assumption | exact sub_of rfl | with_reducible refine bankServe_within ?_ (sub_trans ?_ hp) | with_reducible refine bumpN_within ?_ (sub_trans ?_ hp) | with_reducible refine Within.foldl ?_ (fun _ _ _ => ?_) | with_reducible refine Within.foldl_fst ?_ (fun _ _ _ => ?_) | with_reducible refine Within.ite ?_ ?_ | (extract_lets +onlyGivenNames x; refine (fun (_ : Within P s0 x) => ?_) ?_; rotate_left; subst x; rotate_left; clear_value x) | (extract_lets +onlyGivenNames x; refine (fun (_ : Within P s0 x.1) => ?_) ?_; rotate_left; subst x; rotate_left; clear_value x) | (extract_lets +onlyGivenNames x; clear_value x) | split)

theorem admitBank_within {P s0 s a1 a2} (h : Within P s0 s) (hp : sub 4 P) : Within P s0 (admitBank s a1 a2) := by
  unfold admitBank
  repeat' (first | with_reducible assumption | exact sub_of rfl | with_reducible refine Within.foldl ?_ (fun _ _ _ => ?_) | with_reducible refine Within.foldl_fst ?_ (fun _ _ _ => ?_) | with_reducible refine Within.upd_memq ?_ (sub_trans ?_ hp) | (extract_lets +onlyGivenNames x; refine (fun (_ : Within P s0 x) => ?_) ?_; rotate_left; subst x; rotate_left; clear_value x) | (extract_lets +onlyGivenNames x; clear_value x))

theorem execTileBankService_within {P s0 s t a0 a1 a2} (h : Within P s0 s) (hp : sub 2339423 P) (he : execTileBankService a0 a1 a2 s = .next t) : Within P s0 t := by
  unfold execTileBankService at he; injection he with he; subst he
  repeat' (first | with_reducible assumption | exact sub_of rfl | with_reducible refine admitBank_within ?_ (sub_trans ?_ hp) | with_reducible refine finishPort_within ?_ (sub_trans ?_ hp) | with_reducible refine serveLine_within ?_ (sub_trans ?_ hp) | with_reducible refine memErr_within ?_ (sub_trans ?_ hp) | with_reducible refine bankCycle_within ?_ (sub_trans ?_ hp) | with_reducible refine Within.foldl ?_ (fun _ _ _ => ?_) | with_reducible refine Within.foldl_fst ?_ (fun _ _ _ => ?_) | with_reducible refine Within.ite ?_ ?_ | (extract_lets +onlyGivenNames x; refine (fun (_ : Within P s0 x) => ?_) ?_; rotate_left; subst x; rotate_left; clear_value x) | (extract_lets +onlyGivenNames x; refine (fun (_ : Within P s0 x.1) => ?_) ?_; rotate_left; subst x; rotate_left; clear_value x) | (extract_lets +onlyGivenNames x; clear_value x) | split)

theorem portLoop_within {P s0 s a0 a2 a3} (h : Within P s0 s) (hp : sub 2273295 P) : Within P s0 (portLoop a0 s a2 a3) := by
  induction a0 generalizing s with
  | zero => exact h
  | succ k ih => unfold portLoop; dsimp only; repeat' (first | with_reducible refine ih ?_ | with_reducible assumption | exact sub_of rfl | with_reducible refine serveLine_within ?_ (sub_trans ?_ hp) | with_reducible refine modCore_within ?_ (sub_trans ?_ hp) | split)

theorem execStreamPortService_within {P s0 s t a0 a1 a2} (h : Within P s0 s) (hp : sub 2339455 P) (he : execStreamPortService a0 a1 a2 s = .next t) : Within P s0 t := by
  unfold execStreamPortService at he; injection he with he; subst he
  repeat' (first | with_reducible assumption | exact sub_of rfl | with_reducible refine portLoop_within ?_ (sub_trans ?_ hp) | with_reducible refine settle_within ?_ (sub_trans ?_ hp) | with_reducible refine finishPort_within ?_ (sub_trans ?_ hp) | with_reducible refine memErr_within ?_ (sub_trans ?_ hp) | with_reducible refine modCore_within ?_ (sub_trans ?_ hp) | with_reducible refine Within.ite ?_ ?_ | (extract_lets +onlyGivenNames x; refine (fun (_ : Within P s0 x) => ?_) ?_; rotate_left; subst x; rotate_left; clear_value x) | (extract_lets +onlyGivenNames x; clear_value x) | split)

theorem grantLanding_within {P s0 s a1 a2 a3} (h : Within P s0 s) (hp : sub 256 P) : Within P s0 (grantLanding s a1 a2 a3) := by
  unfold grantLanding
  repeat' (first | with_reducible assumption | exact sub_of rfl | with_reducible refine Within.ite ?_ ?_ | with_reducible refine Within.upd_encQ ?_ (sub_trans ?_ hp) | split)

theorem execCreditGrant_within {P s0 s t a0} (h : Within P s0 s) (hp : sub 268 P) (he : execCreditGrant a0 s = .next t) : Within P s0 t := by
  unfold execCreditGrant at he
  injection he with he
  subst he
  split
  · exact h
  · extract_lets n s1 s2
    have k1 : Within P s0 s1 := modCore_within h (sub_trans (sub_of rfl) hp)
    have k2 : Within P s0 s2 := Within.upd_memq k1 (sub_trans (sub_of rfl) hp)
    clear_value s2 s1
    split
    · exact h
    · split
      · exact grantLanding_within (popReq_within k1 (sub_trans (sub_of rfl) hp)) (sub_trans (sub_of rfl) hp)
      · exact modCore_within k2 (sub_trans (sub_of rfl) hp)
      · exact k2

theorem execStreamRequestIssue_within {P s0 s t a0} (h : Within P s0 s) (hp : sub 131149 P) (he : execStreamRequestIssue a0 s = .next t) : Within P s0 t := by
  unfold execStreamRequestIssue at he; injection he with he; subst he
  repeat' (first | with_reducible assumption | exact sub_of rfl | with_reducible refine issueStreamReq_within ?_ (sub_trans ?_ hp) | with_reducible refine Within.ite ?_ ?_ | split)

theorem countChunk_within {P s0 s a1 a2 a3} (h : Within P s0 s) (hp : sub 8 P) : Within P s0 (countChunk s a1 a2 a3) := by
  unfold countChunk
  repeat' (first | with_reducible assumption | exact sub_of rfl | with_reducible refine engineInc_within ?_ (sub_trans ?_ hp) | with_reducible refine setStr_within ?_ (sub_trans ?_ hp) | with_reducible refine Within.ite ?_ ?_ | (extract_lets +onlyGivenNames x; refine (fun (_ : Within P s0 x) => ?_) ?_; rotate_left; subst x; rotate_left; clear_value x) | (extract_lets +onlyGivenNames x; clear_value x) | split)

theorem execChunkLanded_within {P s0 s t a0 a1} (h : Within P s0 s) (hp : sub 8 P) (he : execChunkLanded a0 a1 s = .next t) : Within P s0 t := by
  unfold execChunkLanded at he; injection he with he; subst he
  repeat' (first | with_reducible assumption | exact sub_of rfl | with_reducible refine countChunk_within ?_ (sub_trans ?_ hp))

theorem execOutChunkAck_within {P s0 s t a0 a1} (h : Within P s0 s) (hp : sub 8 P) (he : execOutChunkAck a0 a1 s = .next t) : Within P s0 t := by
  unfold execOutChunkAck at he; injection he with he; subst he
  repeat' (first | with_reducible assumption | exact sub_of rfl | with_reducible refine countChunk_within ?_ (sub_trans ?_ hp))

theorem execStreamEnd_within {P s0 s t a0 a1} (h : Within P s0 s) (hp : sub 77 P) (he : execStreamEnd a0 a1 s = .next t) : Within P s0 t := by
  unfold execStreamEnd at he; injection he with he; subst he
  repeat' (first | with_reducible assumption | exact sub_of rfl | with_reducible refine writeRecord_within ?_ (sub_trans ?_ hp) | with_reducible refine setStr_within ?_ (sub_trans ?_ hp) | with_reducible refine accountStream_within ?_ (sub_trans ?_ hp) | with_reducible refine Within.ite ?_ ?_ | (extract_lets +onlyGivenNames x; refine (fun (_ : Within P s0 x) => ?_) ?_; rotate_left; subst x; rotate_left; clear_value x) | (extract_lets +onlyGivenNames x; clear_value x) | split)

end Sys2Proof.Machine
end

