-- ==== Sys2Proof/Laws/WithinPower.lean ====
section
/-! SUPPORT. What each operation of Machine/Power.lean may change (see Within.lean). -/

namespace Sys2Proof.Machine

theorem setTilePace_within {P s0 s a1 a2} (h : Within P s0 s) (hp : sub 1 P) : Within P s0 (setTilePace s a1 a2) := by
  unfold setTilePace
  repeat' (first | with_reducible assumption | exact sub_of rfl | with_reducible refine regSetFld_within ?_ (sub_trans ?_ hp))

theorem latchPower_within {P s0 s} (h : Within P s0 s) (hp : sub 131072 P) : Within P s0 (latchPower s) := by
  unfold latchPower
  repeat' (first | with_reducible assumption | exact sub_of rfl | with_reducible refine Within.upd_sched ?_ (sub_trans ?_ hp))

theorem resetSectorPwr_within {P s0 s a1} (h : Within P s0 s) (hp : sub 131073 P) : Within P s0 (resetSectorPwr s a1) := by
  unfold resetSectorPwr
  repeat' (first | with_reducible assumption | exact sub_of rfl | with_reducible refine regSet_within ?_ (sub_trans ?_ hp) | with_reducible refine Within.upd_sched ?_ (sub_trans ?_ hp) | (extract_lets +onlyGivenNames x; refine (fun (_ : Within P s0 x) => ?_) ?_; rotate_left; subst x; rotate_left; clear_value x) | (extract_lets +onlyGivenNames x; clear_value x))

theorem setMove_within {P s0 s a1 a2} (h : Within P s0 s) (hp : sub 131072 P) : Within P s0 (setMove s a1 a2) := by
  unfold setMove
  repeat' (first | with_reducible assumption | exact sub_of rfl | with_reducible refine Within.upd_sched ?_ (sub_trans ?_ hp))

theorem startMove_within {P s0 s a1 a2 a3} (h : Within P s0 s) (hp : sub 131073 P) : Within P s0 (startMove s a1 a2 a3) := by
  unfold startMove
  repeat' (first | with_reducible assumption | exact sub_of rfl | with_reducible refine setMove_within ?_ (sub_trans ?_ hp) | with_reducible refine setTilePace_within ?_ (sub_trans ?_ hp) | with_reducible refine Within.ite ?_ ?_ | with_reducible refine Within.upd_sched ?_ (sub_trans ?_ hp) | (extract_lets +onlyGivenNames x; refine (fun (_ : Within P s0 x) => ?_) ?_; rotate_left; subst x; rotate_left; clear_value x) | (extract_lets +onlyGivenNames x; clear_value x) | split)

theorem updateTile_within {P s0 s a1} (h : Within P s0 s) (hp : sub 131073 P) : Within P s0 (updateTile s a1) := by
  unfold updateTile; try dsimp only
  repeat' (first | with_reducible assumption | exact sub_of rfl | with_reducible refine setMove_within ?_ (sub_trans ?_ hp) | with_reducible refine startMove_within ?_ (sub_trans ?_ hp) | split | with_reducible refine Within.upd_sched ?_ (sub_trans ?_ hp))

theorem updatePaces_within {P s0 s} (h : Within P s0 s) (hp : sub 131073 P) : Within P s0 (updatePaces s) := by
  unfold updatePaces
  repeat' (first | with_reducible assumption | exact sub_of rfl | with_reducible refine updateTile_within ?_ (sub_trans ?_ hp) | with_reducible refine Within.foldl ?_ (fun _ _ _ => ?_) | with_reducible refine Within.foldl_fst ?_ (fun _ _ _ => ?_))

theorem updateSector_within {P s0 s a1} (h : Within P s0 s) (hp : sub 131073 P) : Within P s0 (updateSector s a1) := by
  unfold updateSector
  repeat' (first | with_reducible assumption | exact sub_of rfl | with_reducible refine updateTile_within ?_ (sub_trans ?_ hp) | with_reducible refine Within.foldl ?_ (fun _ _ _ => ?_) | with_reducible refine Within.foldl_fst ?_ (fun _ _ _ => ?_) | split)

theorem losePace_within {P s0 s a1} (h : Within P s0 s) (hp : sub 9 P) : Within P s0 (losePace s a1) := by
  unfold losePace
  repeat' (first | with_reducible assumption | exact sub_of rfl | with_reducible refine modCore_within ?_ (sub_trans ?_ hp) | with_reducible refine Within.foldl ?_ (fun _ _ _ => ?_) | with_reducible refine Within.foldl_fst ?_ (fun _ _ _ => ?_) | with_reducible refine Within.upd_regs ?_ (sub_trans ?_ hp) ?_ | exact kwf_tset _ _ | exact kwf_filter _ | (extract_lets +onlyGivenNames x; refine (fun (_ : Within P s0 x) => ?_) ?_; rotate_left; subst x; rotate_left; clear_value x) | (extract_lets +onlyGivenNames x; refine (fun (_ : Within P s0 x.1) => ?_) ?_; rotate_left; subst x; rotate_left; clear_value x) | (extract_lets +onlyGivenNames x; clear_value x))

theorem updateHub_within {P s0 s a1} (h : Within P s0 s) (hp : sub 131072 P) : Within P s0 (updateHub s a1) := by
  unfold updateHub
  repeat' (first | with_reducible assumption | exact sub_of rfl | with_reducible refine Within.ite ?_ ?_ | with_reducible refine Within.upd_sched ?_ (sub_trans ?_ hp) | split)

theorem endMove_within {P s0 s a1} (h : Within P s0 s) (hp : sub 133161 P) : Within P s0 (endMove s a1) := by
  unfold endMove
  split
  · exact h
  · split
    · exact h
    · extract_lets c t1 t2 t3 t4
      have h_t1 : Within P s0 t1 := by dsimp only [t1]; repeat' (first | with_reducible assumption | exact sub_of rfl | with_reducible refine setTilePace_within ?_ (sub_trans ?_ hp) | with_reducible refine setMove_within ?_ (sub_trans ?_ hp))
      clear_value t1
      have h_t2 : Within P s0 t2 := by dsimp only [t2]; repeat' (first | with_reducible assumption | exact sub_of rfl | with_reducible refine losePace_within ?_ (sub_trans ?_ hp) | with_reducible refine Within.ite ?_ ?_)
      clear_value t2
      have h_t3 : Within P s0 t3 := by dsimp only [t3]; repeat' (first | with_reducible assumption | exact sub_of rfl | with_reducible refine modCore_within ?_ (sub_trans ?_ hp) | with_reducible refine Within.foldl ?_ (fun _ _ _ => ?_) | with_reducible refine Within.ite ?_ ?_)
      clear_value t3
      have h_t4 : Within P s0 t4 := by dsimp only [t4]; repeat' (first | with_reducible assumption | exact sub_of rfl | with_reducible refine Within.upd_zeroing ?_ (sub_trans ?_ hp))
      clear_value t4
      repeat' (first | with_reducible assumption | exact sub_of rfl | with_reducible refine updateHub_within ?_ (sub_trans ?_ hp) | with_reducible refine setSector_within ?_ (sub_trans ?_ hp) | with_reducible refine updateTile_within ?_ (sub_trans ?_ hp) | with_reducible refine Within.ite ?_ ?_ | split)

theorem execStartSlot_within {P s0 s t} (h : Within P s0 s) (hp : sub 131072 P) (he : execStartSlot s = .next t) : Within P s0 t := by
  unfold execStartSlot at he; injection he with he; subst he; try dsimp only
  repeat' (first | with_reducible assumption | exact sub_of rfl | with_reducible refine setMove_within ?_ (sub_trans ?_ hp) | split | with_reducible refine Within.upd_sched ?_ (sub_trans ?_ hp))

theorem execPaceChangeEnd_within {P s0 s t a0} (h : Within P s0 s) (hp : sub 133161 P) (he : execPaceChangeEnd a0 s = .next t) : Within P s0 t := by
  unfold execPaceChangeEnd at he; injection he with he; subst he
  repeat' (first | with_reducible assumption | exact sub_of rfl | with_reducible refine endMove_within ?_ (sub_trans ?_ hp))

theorem execRestDelayExpiry_within {P s0 s t a0} (h : Within P s0 s) (hp : sub 131073 P) (he : execRestDelayExpiry a0 s = .next t) : Within P s0 t := by
  unfold execRestDelayExpiry at he; injection he with he; subst he
  repeat' (first | with_reducible assumption | exact sub_of rfl | with_reducible refine updateSector_within ?_ (sub_trans ?_ hp))

theorem setCredit_within {P s0 s a1 a2} (h : Within P s0 s) (hp : sub 131073 P) : Within P s0 (setCredit s a1 a2) := by
  unfold setCredit
  repeat' (first | with_reducible assumption | exact sub_of rfl | with_reducible refine regSet_within ?_ (sub_trans ?_ hp) | with_reducible refine Within.ite ?_ ?_ | with_reducible refine Within.upd_sched ?_ (sub_trans ?_ hp) | with_reducible refine Within.upd_free ?_ ?_ | exact Nat.le_add_right _ _ | (extract_lets +onlyGivenNames x; refine (fun (_ : Within P s0 x) => ?_) ?_; rotate_left; subst x; rotate_left; clear_value x) | (extract_lets +onlyGivenNames x; clear_value x) | split)

theorem grantAll_within {P s0 s} (h : Within P s0 s) (hp : sub 131073 P) : Within P s0 (grantAll s) := by
  unfold grantAll
  repeat' (first | with_reducible assumption | exact sub_of rfl | with_reducible refine setCredit_within ?_ (sub_trans ?_ hp) | with_reducible refine Within.foldl ?_ (fun _ _ _ => ?_) | with_reducible refine Within.foldl_fst ?_ (fun _ _ _ => ?_))

theorem waitRegs_within {P s0 s} (h : Within P s0 s) (hp : sub 1 P) : Within P s0 (waitRegs s) := by
  unfold waitRegs
  repeat' (first | with_reducible assumption | exact sub_of rfl | with_reducible refine regSetFld_within ?_ (sub_trans ?_ hp) | with_reducible refine Within.foldl ?_ (fun _ _ _ => ?_) | with_reducible refine Within.foldl_fst ?_ (fun _ _ _ => ?_) | (extract_lets +onlyGivenNames x; refine (fun (_ : Within P s0 x) => ?_) ?_; rotate_left; subst x; rotate_left; clear_value x) | (extract_lets +onlyGivenNames x; clear_value x) | split)

theorem setWaiting_within {P s0 s a1} (h : Within P s0 s) (hp : sub 131073 P) : Within P s0 (setWaiting s a1) := by
  unfold setWaiting
  repeat' (first | with_reducible assumption | exact sub_of rfl | with_reducible refine waitRegs_within ?_ (sub_trans ?_ hp) | with_reducible refine Within.upd_sched ?_ (sub_trans ?_ hp))

theorem queuePass_within {P s0 s a1 a2} (h : Within P s0 s) (hp : sub 576 P) : Within P s0 (queuePass s a1 a2) := by
  unfold queuePass; try dsimp only
  repeat' (first | with_reducible assumption | exact sub_of rfl | with_reducible refine modJob_within ?_ (sub_trans ?_ hp) | split | with_reducible refine Within.upd_passes_passSeq ?_ (sub_trans ?_ hp))

theorem startStride_within {P s0 s a1 a2} (h : Within P s0 s) (hp : sub 584 P) : Within P s0 (startStride s a1 a2) := by
  unfold startStride
  repeat' (first | with_reducible assumption | exact sub_of rfl | with_reducible refine queuePass_within ?_ (sub_trans ?_ hp) | with_reducible refine modJob_within ?_ (sub_trans ?_ hp) | with_reducible refine modCore_within ?_ (sub_trans ?_ hp) | with_reducible refine Within.foldl ?_ (fun _ _ _ => ?_) | with_reducible refine Within.foldl_fst ?_ (fun _ _ _ => ?_) | with_reducible refine Within.ite ?_ ?_ | (extract_lets +onlyGivenNames x; refine (fun (_ : Within P s0 x) => ?_) ?_; rotate_left; subst x; rotate_left; clear_value x) | (extract_lets +onlyGivenNames x; refine (fun (_ : Within P s0 x.1) => ?_) ?_; rotate_left; subst x; rotate_left; clear_value x) | (extract_lets +onlyGivenNames x; clear_value x) | split)

theorem walkOne_within {P s0 a0 a1} (h : Within P s0 a0.1) (hp : sub 131657 P) : Within P s0 (walkOne a0 a1).1 := by
  unfold walkOne
  repeat' (first | with_reducible assumption | exact sub_of rfl | with_reducible refine bump_within ?_ (sub_trans ?_ hp) | with_reducible refine setWaiting_within ?_ (sub_trans ?_ hp) | with_reducible refine setCredit_within ?_ (sub_trans ?_ hp) | with_reducible refine startStride_within ?_ (sub_trans ?_ hp) | with_reducible refine Within.foldl ?_ (fun _ _ _ => ?_) | with_reducible refine Within.foldl_fst ?_ (fun _ _ _ => ?_) | with_reducible refine Within.ite ?_ ?_ | (extract_lets +onlyGivenNames x; refine (fun (_ : Within P s0 x) => ?_) ?_; rotate_left; subst x; rotate_left; clear_value x) | (extract_lets +onlyGivenNames x; refine (fun (_ : Within P s0 x.1) => ?_) ?_; rotate_left; subst x; rotate_left; clear_value x) | (extract_lets +onlyGivenNames x; clear_value x) | split)
theorem walkOne_within' {P s0 t r a0 a1} (he : walkOne a0 a1 = (t, r)) (h : Within P s0 a0.1) (hp : sub 131657 P) : Within P s0 t := by
  have k : Within P s0 (walkOne a0 a1).1 := walkOne_within h hp
  rw [he] at k; exact k

theorem admitWalk_within {P s0 s} (h : Within P s0 s) (hp : sub 131657 P) : Within P s0 (admitWalk s) := by
  unfold admitWalk
  repeat' (first | with_reducible assumption | exact sub_of rfl | with_reducible refine walkOne_within ?_ (sub_trans ?_ hp) | with_reducible refine walkOne_within' ‹_› ?_ (sub_trans ?_ hp) | with_reducible refine Within.foldl ?_ (fun _ _ _ => ?_) | with_reducible refine Within.foldl_fst ?_ (fun _ _ _ => ?_))

theorem countWaits_within {P s0 s} (h : Within P s0 s) (hp : sub 65 P) : Within P s0 (countWaits s) := by
  unfold countWaits
  repeat' (first | with_reducible assumption | exact sub_of rfl | with_reducible refine bump_within ?_ (sub_trans ?_ hp) | with_reducible refine modJob_within ?_ (sub_trans ?_ hp) | with_reducible refine Within.foldl ?_ (fun _ _ _ => ?_) | with_reducible refine Within.foldl_fst ?_ (fun _ _ _ => ?_) | with_reducible refine Within.ite ?_ ?_ | (extract_lets +onlyGivenNames x; refine (fun (_ : Within P s0 x) => ?_) ?_; rotate_left; subst x; rotate_left; clear_value x) | (extract_lets +onlyGivenNames x; clear_value x) | split)

theorem requestStride_within {P s0 s a1 a2 a3 a4 a5} (h : Within P s0 s) (hp : sub 131657 P) : Within P s0 (requestStride s a1 a2 a3 a4 a5) := by
  unfold requestStride
  repeat' (first | with_reducible assumption | exact sub_of rfl | with_reducible refine setWaiting_within ?_ (sub_trans ?_ hp) | with_reducible refine startStride_within ?_ (sub_trans ?_ hp) | with_reducible refine Within.ite ?_ ?_ | (extract_lets +onlyGivenNames x; refine (fun (_ : Within P s0 x) => ?_) ?_; rotate_left; subst x; rotate_left; clear_value x) | (extract_lets +onlyGivenNames x; clear_value x) | split)

end Sys2Proof.Machine
end

