-- ==== Sys2Proof/Laws/WithinJobs.lean ====
section
/-! SUPPORT. What each operation of Machine/Jobs.lean may change (see Within.lean). -/

namespace Sys2Proof.Machine

theorem writeHdr_within {P s0 s a1 a2 a3} (h : Within P s0 s) (hp : sub 2273871 P) : Within P s0 (writeHdr s a1 a2 a3) := by
  unfold writeHdr
  repeat' (first | with_reducible assumption | exact sub_of rfl | with_reducible refine modJob_within ?_ (sub_trans ?_ hp) | with_reducible refine engineAccess_within ?_ (sub_trans ?_ hp) | with_reducible refine writeT_within ?_ (sub_trans ?_ hp) | with_reducible refine Within.ite ?_ ?_ | (extract_lets +onlyGivenNames x; refine (fun (_ : Within P s0 x) => ?_) ?_; rotate_left; subst x; rotate_left; clear_value x) | (extract_lets +onlyGivenNames x; clear_value x) | split)

theorem readHdrs_within {P s0 s a1 a2} (h : Within P s0 s) (hp : sub 2273807 P) : Within P s0 (readHdrs s a1 a2) := by
  unfold readHdrs
  repeat' (first | with_reducible assumption | exact sub_of rfl | with_reducible refine engineAccess_within ?_ (sub_trans ?_ hp) | with_reducible refine Within.foldl ?_ (fun _ _ _ => ?_) | with_reducible refine Within.foldl_fst ?_ (fun _ _ _ => ?_) | with_reducible refine Within.ite ?_ ?_ | split)

theorem putHdr_within {P s0 s a1 a2 a3} (h : Within P s0 s) (hp : sub 2273871 P) : Within P s0 (putHdr s a1 a2 a3) := by
  unfold putHdr
  repeat' (first | with_reducible assumption | exact sub_of rfl | with_reducible refine modJob_within ?_ (sub_trans ?_ hp) | with_reducible refine writeHdr_within ?_ (sub_trans ?_ hp))

theorem countFail_within {P s0 s a1 a2} (h : Within P s0 s) (hp : sub 1 P) : Within P s0 (countFail s a1 a2) := by
  unfold countFail
  repeat' (first | with_reducible assumption | exact sub_of rfl | with_reducible refine bump_within ?_ (sub_trans ?_ hp) | with_reducible refine Within.ite ?_ ?_ | (extract_lets +onlyGivenNames x; refine (fun (_ : Within P s0 x) => ?_) ?_; rotate_left; subst x; rotate_left; clear_value x) | (extract_lets +onlyGivenNames x; clear_value x) | split)

theorem addFail_within {P s0 s a1 a2 a3 a4} (h : Within P s0 s) (hp : sub 64 P) : Within P s0 (addFail s a1 a2 a3 a4) := by
  unfold addFail
  repeat' (first | with_reducible assumption | exact sub_of rfl | with_reducible refine modJob_within ?_ (sub_trans ?_ hp) | with_reducible refine Within.ite ?_ ?_ | split)

theorem failEntry_within {P s0 s a1 a2 a3 a4 a5 a6} (h : Within P s0 s) (hp : sub 2273871 P) : Within P s0 (failEntry s a1 a2 a3 a4 a5 a6) := by
  unfold failEntry
  repeat' (first | with_reducible assumption | exact sub_of rfl | with_reducible refine modJob_within ?_ (sub_trans ?_ hp) | with_reducible refine countFail_within ?_ (sub_trans ?_ hp) | with_reducible refine addFail_within ?_ (sub_trans ?_ hp) | with_reducible refine putHdr_within ?_ (sub_trans ?_ hp) | with_reducible refine Within.ite ?_ ?_ | (extract_lets +onlyGivenNames x; refine (fun (_ : Within P s0 x) => ?_) ?_; rotate_left; subst x; rotate_left; clear_value x) | (extract_lets +onlyGivenNames x; clear_value x) | split)

theorem freeBytes_within {P s0 s a1 a2} (h : Within P s0 s) (hp : sub 2273283 P) : Within P s0 (freeBytes s a1 a2) := by
  unfold freeBytes
  repeat' (first | with_reducible assumption | exact sub_of rfl | with_reducible refine writeT_within ?_ (sub_trans ?_ hp) | with_reducible refine Within.upd_free ?_ ?_ | exact Nat.le_add_right _ _ | (extract_lets +onlyGivenNames x; refine (fun (_ : Within P s0 x) => ?_) ?_; rotate_left; subst x; rotate_left; clear_value x) | (extract_lets +onlyGivenNames x; clear_value x))

theorem freeResult_within {P s0 s a1 a2 a3 a4} (h : Within P s0 s) (hp : sub 2273283 P) : Within P s0 (freeResult s a1 a2 a3 a4) := by
  unfold freeResult
  repeat' (first | with_reducible assumption | exact sub_of rfl | with_reducible refine freeBytes_within ?_ (sub_trans ?_ hp) | with_reducible refine writeT_within ?_ (sub_trans ?_ hp) | with_reducible refine Within.ite ?_ ?_ | (extract_lets +onlyGivenNames x; refine (fun (_ : Within P s0 x) => ?_) ?_; rotate_left; subst x; rotate_left; clear_value x) | (extract_lets +onlyGivenNames x; clear_value x) | split)

theorem advance_within {P s0 s a1} (h : Within P s0 s) (hp : sub 131657 P) : Within P s0 (advance s a1) := by
  unfold advance
  repeat' (first | with_reducible assumption | exact sub_of rfl | with_reducible refine requestStride_within ?_ (sub_trans ?_ hp) | with_reducible refine modJob_within ?_ (sub_trans ?_ hp) | with_reducible refine Within.foldl ?_ (fun _ _ _ => ?_) | with_reducible refine Within.foldl_fst ?_ (fun _ _ _ => ?_) | with_reducible refine Within.ite ?_ ?_ | (extract_lets +onlyGivenNames x; refine (fun (_ : Within P s0 x) => ?_) ?_; rotate_left; subst x; rotate_left; clear_value x) | (extract_lets +onlyGivenNames x; refine (fun (_ : Within P s0 x.1) => ?_) ?_; rotate_left; subst x; rotate_left; clear_value x) | (extract_lets +onlyGivenNames x; clear_value x) | split)

theorem advanceAll_within {P s0 s} (h : Within P s0 s) (hp : sub 131657 P) : Within P s0 (advanceAll s) := by
  unfold advanceAll
  repeat' (first | with_reducible assumption | exact sub_of rfl | with_reducible refine advance_within ?_ (sub_trans ?_ hp) | with_reducible refine Within.foldl ?_ (fun _ _ _ => ?_) | with_reducible refine Within.foldl_fst ?_ (fun _ _ _ => ?_))

theorem requestNext_within {P s0 s} (h : Within P s0 s) (hp : sub 577 P) : Within P s0 (requestNext s) := by
  unfold requestNext
  refine Within.foldl h fun t j ht => Within.foldl ht fun u ms hu => ?_
  dsimp only
  split
  · split
    · exact hu
    · refine modJob_within (queuePass_within (bumpN_within hu ?_) ?_) ?_ <;> exact sub_trans (sub_of rfl) hp
  · exact hu

end Sys2Proof.Machine
end

