-- ==== Sys2Proof/Laws/WithinEncoder.lean ====
section
/-! SUPPORT. What each operation of Machine/Encoder.lean may change (see Within.lean). -/

namespace Sys2Proof.Machine

theorem pushEnc_within {P s0 s a1 a2} (h : Within P s0 s) (hp : sub 261 P) : Within P s0 (pushEnc s a1 a2) := by
  unfold pushEnc
  repeat' (first | with_reducible assumption | exact sub_of rfl | with_reducible refine pushReq_within ?_ (sub_trans ?_ hp) | with_reducible refine Within.foldl ?_ (fun _ _ _ => ?_) | with_reducible refine Within.foldl_fst ?_ (fun _ _ _ => ?_) | with_reducible refine Within.upd_memSeq_encQ ?_ (sub_trans ?_ hp))

theorem queueEncodes_within {P s0 s a0 a2} (h : Within P s0 s) (hp : sub 325 P) : Within P s0 (queueEncodes a0 s a2) := by
  induction a0 generalizing s with
  | zero => exact h
  | succ k ih => unfold queueEncodes; dsimp only; repeat' (first | with_reducible refine ih ?_ | with_reducible assumption | exact sub_of rfl | with_reducible refine modJob_within ?_ (sub_trans ?_ hp) | with_reducible refine pushEnc_within ?_ (sub_trans ?_ hp) | split)

theorem queueJobEncodes_within {P s0 s a1} (h : Within P s0 s) (hp : sub 131917 P) : Within P s0 (queueJobEncodes s a1) := by
  unfold queueJobEncodes
  repeat' (first | with_reducible assumption | exact sub_of rfl | with_reducible refine advance_within ?_ (sub_trans ?_ hp) | with_reducible refine queueEncodes_within ?_ (sub_trans ?_ hp) | split)

theorem queueAllEncodes_within {P s0 s} (h : Within P s0 s) (hp : sub 131917 P) : Within P s0 (queueAllEncodes s) := by
  unfold queueAllEncodes
  repeat' (first | with_reducible assumption | exact sub_of rfl | with_reducible refine queueJobEncodes_within ?_ (sub_trans ?_ hp) | with_reducible refine Within.foldl ?_ (fun _ _ _ => ?_) | with_reducible refine Within.foldl_fst ?_ (fun _ _ _ => ?_))

theorem releaseStager_within {P s0 s a1} (h : Within P s0 s) (hp : sub 8 P) : Within P s0 (releaseStager s a1) := by
  unfold releaseStager
  repeat' (first | with_reducible assumption | exact sub_of rfl | with_reducible refine modCore_within ?_ (sub_trans ?_ hp) | with_reducible refine Within.foldl ?_ (fun _ _ _ => ?_) | with_reducible refine Within.foldl_fst ?_ (fun _ _ _ => ?_) | with_reducible refine Within.ite ?_ ?_ | (extract_lets +onlyGivenNames x; refine (fun (_ : Within P s0 x) => ?_) ?_; rotate_left; subst x; rotate_left; clear_value x) | (extract_lets +onlyGivenNames x; clear_value x) | split)

theorem landEncode_within {P s0 s a1 a2 a3 a4} (h : Within P s0 s) (hp : sub 5 P) : Within P s0 (landEncode s a1 a2 a3 a4) := by
  unfold landEncode
  repeat' (first | with_reducible assumption | exact sub_of rfl | with_reducible refine pushReq_within ?_ (sub_trans ?_ hp) | with_reducible refine Within.foldl ?_ (fun _ _ _ => ?_) | with_reducible refine Within.foldl_fst ?_ (fun _ _ _ => ?_) | with_reducible refine Within.ite ?_ ?_ | (extract_lets +onlyGivenNames x; refine (fun (_ : Within P s0 x) => ?_) ?_; rotate_left; subst x; rotate_left; clear_value x) | (extract_lets +onlyGivenNames x; refine (fun (_ : Within P s0 x.1) => ?_) ?_; rotate_left; subst x; rotate_left; clear_value x) | (extract_lets +onlyGivenNames x; clear_value x) | split)

theorem emitEncode_within {P s0 s a1 a2} (h : Within P s0 s) (hp : sub 13 P) : Within P s0 (emitEncode s a1 a2) := by
  unfold emitEncode
  repeat' (first | with_reducible assumption | exact sub_of rfl | with_reducible refine bump_within ?_ (sub_trans ?_ hp) | with_reducible refine regSet_within ?_ (sub_trans ?_ hp) | with_reducible refine touchRange_within ?_ (sub_trans ?_ hp) | with_reducible refine landEncode_within ?_ (sub_trans ?_ hp) | with_reducible refine Within.ite ?_ ?_ | (extract_lets +onlyGivenNames x; refine (fun (_ : Within P s0 x) => ?_) ?_; rotate_left; subst x; rotate_left; clear_value x) | (extract_lets +onlyGivenNames x; clear_value x) | split)

theorem execEncodeRequestStart_within {P s0 s t a0} (h : Within P s0 s) (hp : sub 131917 P) (he : execEncodeRequestStart a0 s = .next t) : Within P s0 t := by
  unfold execEncodeRequestStart at he
  injection he with he
  subst he
  extract_lets q first
  split
  · exact h
  · extract_lets s1
    have k : Within P s0 s1 := emitEncode_within h (sub_trans (sub_of rfl) hp)
    clear_value s1
    exact queueAllEncodes_within (Within.upd_encQ k (sub_trans (sub_of rfl) hp)) (sub_trans (sub_of rfl) hp)

theorem execEncodeRequestDone_within {P s0 s t a0} (h : Within P s0 s) (hp : sub 329 P) (he : execEncodeRequestDone a0 s = .next t) : Within P s0 t := by
  unfold execEncodeRequestDone at he
  injection he with he
  subst he
  extract_lets q
  split
  · exact h
  · split
    · exact h
    · extract_lets s1 s2
      have k1 : Within P s0 s1 := Within.upd_encQ h (sub_trans (sub_of rfl) hp)
      clear_value s1
      have k2 : Within P s0 s2 := modJob_within (bump_within k1 (sub_trans (sub_of rfl) hp)) (sub_trans (sub_of rfl) hp)
      clear_value s2
      split
      · exact k1
      · split
        · exact releaseStager_within k2 (sub_trans (sub_of rfl) hp)
        · exact k2

end Sys2Proof.Machine
end

