-- ==== Sys2Proof/Laws/WithinFabMsg.lean ====
section
/-! SUPPORT. What each operation of Machine/FabMsg.lean may change (see Within.lean). -/

namespace Sys2Proof.Machine

theorem setPool_within {P s0 s a1 a2 a3} (h : Within P s0 s) (hp : sub 524288 P) : Within P s0 (setPool s a1 a2 a3) := by
  unfold setPool
  repeat' (first | with_reducible assumption | exact sub_of rfl | with_reducible refine Within.upd_fab ?_ (sub_trans ?_ hp))

theorem abortJob_within {P s0 s a1} (h : Within P s0 s) (hp : sub 655425 P) : Within P s0 (abortJob s a1) := by
  unfold abortJob; try dsimp only
  repeat' (first | with_reducible assumption | exact sub_of rfl | with_reducible refine modJob_within ?_ (sub_trans ?_ hp) | with_reducible refine setWaiting_within ?_ (sub_trans ?_ hp) | split | with_reducible refine Within.upd_fab ?_ (sub_trans ?_ hp))

theorem failOp_within {P s0 s a1 a2 a3 a4 a5} (h : Within P s0 s) (hp : sub 2798159 P) : Within P s0 (failOp s a1 a2 a3 a4 a5) := by
  unfold failOp
  repeat' (first | with_reducible assumption | exact sub_of rfl | with_reducible refine advance_within ?_ (sub_trans ?_ hp) | with_reducible refine failEntry_within ?_ (sub_trans ?_ hp) | with_reducible refine abortJob_within ?_ (sub_trans ?_ hp) | (extract_lets +onlyGivenNames x; refine (fun (_ : Within P s0 x) => ?_) ?_; rotate_left; subst x; rotate_left; clear_value x) | (extract_lets +onlyGivenNames x; clear_value x) | split)

theorem sendAcked_within {P s0 s a1} (h : Within P s0 s) (hp : sub 655945 P) : Within P s0 (sendAcked s a1) := by
  unfold sendAcked; try dsimp only
  repeat' (first | with_reducible assumption | exact sub_of rfl | with_reducible refine advance_within ?_ (sub_trans ?_ hp) | with_reducible refine modJob_within ?_ (sub_trans ?_ hp) | with_reducible refine bump_within ?_ (sub_trans ?_ hp) | split | with_reducible refine Within.upd_fab ?_ (sub_trans ?_ hp))

theorem sendFailed_within {P s0 s a1 a2} (h : Within P s0 s) (hp : sub 2798159 P) : Within P s0 (sendFailed s a1 a2) := by
  unfold sendFailed
  repeat' (first | with_reducible assumption | exact sub_of rfl | with_reducible refine failOp_within ?_ (sub_trans ?_ hp) | with_reducible refine Within.upd_fab ?_ (sub_trans ?_ hp))

theorem transmitMsg_within {P s0 s a1} (h : Within P s0 s) (hp : sub 2798159 P) : Within P s0 (transmitMsg s a1) := by
  unfold transmitMsg
  repeat' (first | with_reducible assumption | exact sub_of rfl | with_reducible refine bump_within ?_ (sub_trans ?_ hp) | with_reducible refine sendFailed_within ?_ (sub_trans ?_ hp) | with_reducible refine sendMessage_within ?_ (sub_trans ?_ hp) | with_reducible refine Within.ite ?_ ?_ | (extract_lets +onlyGivenNames x; refine (fun (_ : Within P s0 x) => ?_) ?_; rotate_left; subst x; rotate_left; clear_value x) | (extract_lets +onlyGivenNames x; clear_value x) | split)

theorem startSend_within {P s0 s a1 a2 a3 a4} (h : Within P s0 s) (hp : sub 2798159 P) : Within P s0 (startSend s a1 a2 a3 a4) := by
  unfold startSend
  repeat' (first | with_reducible assumption | exact sub_of rfl | with_reducible refine transmitMsg_within ?_ (sub_trans ?_ hp) | with_reducible refine engineAccess_within ?_ (sub_trans ?_ hp) | with_reducible refine Within.upd_fab ?_ (sub_trans ?_ hp) | (extract_lets +onlyGivenNames x; refine (fun (_ : Within P s0 x) => ?_) ?_; rotate_left; subst x; rotate_left; clear_value x) | (extract_lets +onlyGivenNames x; clear_value x))

theorem resendMsg_within {P s0 s a1 a2} (h : Within P s0 s) (hp : sub 2798159 P) : Within P s0 (resendMsg s a1 a2) := by
  unfold resendMsg
  repeat' (first | with_reducible assumption | exact sub_of rfl | with_reducible refine transmitMsg_within ?_ (sub_trans ?_ hp) | with_reducible refine Within.ite ?_ ?_ | with_reducible refine Within.upd_fab ?_ (sub_trans ?_ hp) | (extract_lets +onlyGivenNames x; refine (fun (_ : Within P s0 x) => ?_) ?_; rotate_left; subst x; rotate_left; clear_value x) | (extract_lets +onlyGivenNames x; clear_value x) | split)

theorem claimMsg_within {P s0 s a1} (h : Within P s0 s) (hp : sub 2798159 P) : Within P s0 (claimMsg s a1) := by
  unfold claimMsg; try dsimp only
  repeat' (first | with_reducible assumption | exact sub_of rfl | with_reducible refine modJob_within ?_ (sub_trans ?_ hp) | with_reducible refine advance_within ?_ (sub_trans ?_ hp) | with_reducible refine failOp_within ?_ (sub_trans ?_ hp) | with_reducible refine setPool_within ?_ (sub_trans ?_ hp) | split | with_reducible refine Within.upd_fab ?_ (sub_trans ?_ hp))

theorem startRecv_within {P s0 s a1 a2 a3} (h : Within P s0 s) (hp : sub 2798159 P) : Within P s0 (startRecv s a1 a2 a3) := by
  unfold startRecv
  repeat' (first | with_reducible assumption | exact sub_of rfl | with_reducible refine claimMsg_within ?_ (sub_trans ?_ hp) | with_reducible refine Within.upd_fab ?_ (sub_trans ?_ hp) | (extract_lets +onlyGivenNames x; refine (fun (_ : Within P s0 x) => ?_) ?_; rotate_left; subst x; rotate_left; clear_value x) | (extract_lets +onlyGivenNames x; clear_value x))

theorem execRecvTimeout_within {P s0 s t a0 a1} (h : Within P s0 s) (hp : sub 2798159 P) (he : execRecvTimeout a0 a1 s = .next t) : Within P s0 t := by
  unfold execRecvTimeout at he; injection he with he; subst he; try dsimp only
  repeat' (first | with_reducible assumption | exact sub_of rfl | with_reducible refine failOp_within ?_ (sub_trans ?_ hp) | split | with_reducible refine Within.upd_fab ?_ (sub_trans ?_ hp))

end Sys2Proof.Machine
end

