-- ==== Sys2Proof/Laws/WithinAlloc.lean ====
section
/-! SUPPORT. What each operation of Machine/Alloc.lean may change (see Within.lean). -/

namespace Sys2Proof.Machine

theorem memRegs_within {P s0 s a1} (h : Within P s0 s) (hp : sub 1 P) : Within P s0 (memRegs s a1) := by
  unfold memRegs
  repeat' (first | with_reducible assumption | exact sub_of rfl | with_reducible refine regSet_within ?_ (sub_trans ?_ hp))

theorem takeGddr_within {P s0 s t r a1 a2} (he : takeGddr s a1 a2 = some (r, t)) (h : Within P s0 s) (hp : sub 131 P) : Within P s0 t := by
  unfold takeGddr at he
  split at he
  · cases he
  · simp only [Option.map_eq_some_iff, Prod.mk.injEq] at he
    obtain ⟨e, -, -, rfl⟩ := he
    repeat' (first | with_reducible assumption | exact sub_of rfl | with_reducible refine zeroRange_within ?_ (sub_trans ?_ hp) | with_reducible refine Within.upd_gddrUsed ?_ (sub_trans ?_ hp))

theorem dropGddr_within {P s0 s a1} (h : Within P s0 s) (hp : sub 128 P) : Within P s0 (dropGddr s a1) := by
  unfold dropGddr
  repeat' (first | with_reducible assumption | exact sub_of rfl | with_reducible refine Within.upd_gddrUsed ?_ (sub_trans ?_ hp))

theorem allocBuf_within {P s0 s t r a1 a2} (he : allocBuf s a1 a2 = some (r, t)) (h : Within P s0 s) (hp : sub 19 P) : Within P s0 t := by
  unfold allocBuf at he
  split at he
  · cases he
  · split at he
    · simp only [Option.some.injEq, Prod.mk.injEq] at he
      obtain ⟨-, rfl⟩ := he
      repeat' (first | with_reducible assumption | exact sub_of rfl | with_reducible refine memRegs_within ?_ (sub_trans ?_ hp) | with_reducible refine zeroRange_within ?_ (sub_trans ?_ hp) | with_reducible refine modFn_within ?_ (sub_trans ?_ hp))
    · cases he

theorem dropPools_within {P s0 s a1} (h : Within P s0 s) (hp : sub 524288 P) : Within P s0 (dropPools s a1) := by
  unfold dropPools
  repeat' (first | with_reducible assumption | exact sub_of rfl | with_reducible refine Within.ite ?_ ?_ | with_reducible refine Within.upd_fab ?_ (sub_trans ?_ hp) | split)

theorem freeBuf_within {P s0 s a1} (h : Within P s0 s) (hp : sub 524433 P) : Within P s0 (freeBuf s a1) := by
  unfold freeBuf
  repeat' (first | with_reducible assumption | exact sub_of rfl | with_reducible refine modFn_within ?_ (sub_trans ?_ hp) | with_reducible refine memRegs_within ?_ (sub_trans ?_ hp) | with_reducible refine dropPools_within ?_ (sub_trans ?_ hp) | with_reducible refine Within.ite ?_ ?_ | with_reducible refine Within.upd_zombies ?_ (sub_trans ?_ hp) | (extract_lets +onlyGivenNames x; refine (fun (_ : Within P s0 x) => ?_) ?_; rotate_left; subst x; rotate_left; clear_value x) | (extract_lets +onlyGivenNames x; clear_value x) | split)

theorem reclaim_within {P s0 s a1} (h : Within P s0 s) (hp : sub 129 P) : Within P s0 (reclaim s a1) := by
  unfold reclaim
  repeat' (first | with_reducible assumption | exact sub_of rfl | with_reducible refine memRegs_within ?_ (sub_trans ?_ hp) | with_reducible refine Within.foldl ?_ (fun _ _ _ => ?_) | with_reducible refine Within.foldl_fst ?_ (fun _ _ _ => ?_) | with_reducible refine Within.upd_zombies ?_ (sub_trans ?_ hp) | (extract_lets +onlyGivenNames x; refine (fun (_ : Within P s0 x) => ?_) ?_; rotate_left; subst x; rotate_left; clear_value x) | (extract_lets +onlyGivenNames x; clear_value x))

theorem hbmRegs_within {P s0 s a1} (h : Within P s0 s) (hp : sub 1 P) : Within P s0 (hbmRegs s a1) := by
  unfold hbmRegs
  repeat' (first | with_reducible assumption | exact sub_of rfl | with_reducible refine regSet_within ?_ (sub_trans ?_ hp) | (extract_lets +onlyGivenNames x; refine (fun (_ : Within P s0 x) => ?_) ?_; rotate_left; subst x; rotate_left; clear_value x) | (extract_lets +onlyGivenNames x; clear_value x))

theorem takeHbm_within {P s0 s t r a0 a1} (he : takeHbm a0 a1 s = some (r, t)) (h : Within P s0 s) (hp : sub 131 P) : Within P s0 t := by
  induction a1 generalizing s r t with
  | nil => simp only [takeHbm, Option.some.injEq, Prod.mk.injEq] at he; exact he.2 ▸ h
  | cons p l ih =>
    obtain ⟨die, n⟩ := p
    simp only [takeHbm] at he
    split at he
    · cases he
    · obtain ⟨q, hq, hr⟩ := Option.map_eq_some_iff.mp he
      injection hr with h1 h2
      subst h2
      refine ih (r := q.1) hq ?_
      refine Within.upd_hbmUsed ?_ (sub_trans (sub_of rfl) hp)
      exact Within.foldl h fun _ _ ht => zeroRange_within ht (sub_trans (sub_of rfl) hp)

theorem dropHbm_within {P s0 s a1} (h : Within P s0 s) (hp : sub 128 P) : Within P s0 (dropHbm s a1) := by
  unfold dropHbm
  repeat' (first | with_reducible assumption | exact sub_of rfl | with_reducible refine Within.upd_hbmUsed ?_ (sub_trans ?_ hp))

theorem putShares_within {P s0 s a1 a2 a3} (h : Within P s0 s) (hp : sub 2273283 P) : Within P s0 (putShares s a1 a2 a3) := by
  unfold putShares
  repeat' (first | with_reducible assumption | exact sub_of rfl | with_reducible refine writeT_within ?_ (sub_trans ?_ hp) | with_reducible refine Within.foldl ?_ (fun _ _ _ => ?_) | with_reducible refine Within.foldl_fst ?_ (fun _ _ _ => ?_))

end Sys2Proof.Machine
end

