-- ==== Sys2Proof/Laws/WithinSecBase.lean ====
section
/-! SUPPORT. What each operation of Machine/SecBase.lean may change (see Within.lean). -/

namespace Sys2Proof.Machine

theorem pkeRegs_within {P s0 s} (h : Within P s0 s) (hp : sub 1 P) : Within P s0 (pkeRegs s) := by
  unfold pkeRegs
  repeat' (first | with_reducible assumption | exact sub_of rfl | with_reducible refine regSetFld_within ?_ (sub_trans ?_ hp) | with_reducible refine Within.ite ?_ ?_ | split)

theorem pkeRun_within {P s0 s a1} (h : Within P s0 s) (hp : sub 262144 P) : Within P s0 (pkeRun s a1) := by
  unfold pkeRun
  repeat' (first | with_reducible assumption | exact sub_of rfl | with_reducible refine Within.ite ?_ ?_ | with_reducible refine Within.upd_pke ?_ (sub_trans ?_ hp) | split)

theorem pkeAdmit_within {P s0 s} (h : Within P s0 s) (hp : sub 262144 P) : Within P s0 (pkeAdmit s) := by
  unfold pkeAdmit
  repeat' (first | with_reducible assumption | exact sub_of rfl | with_reducible refine Within.upd_pke ?_ (sub_trans ?_ hp) | (extract_lets +onlyGivenNames x; refine (fun (_ : Within P s0 x) => ?_) ?_; rotate_left; subst x; rotate_left; clear_value x) | (extract_lets +onlyGivenNames x; clear_value x))

theorem pkeNext_within {P s0 s} (h : Within P s0 s) (hp : sub 262145 P) : Within P s0 (pkeNext s) := by
  unfold pkeNext
  repeat' (first | with_reducible assumption | exact sub_of rfl | with_reducible refine pkeRun_within ?_ (sub_trans ?_ hp) | with_reducible refine pkeRegs_within ?_ (sub_trans ?_ hp) | with_reducible refine pkeAdmit_within ?_ (sub_trans ?_ hp) | (extract_lets +onlyGivenNames x; refine (fun (_ : Within P s0 x) => ?_) ?_; rotate_left; subst x; rotate_left; clear_value x) | (extract_lets +onlyGivenNames x; clear_value x) | split)

theorem secDone_within {P s0 s a1 a2} (h : Within P s0 s) (hp : sub 262225 P) : Within P s0 (secDone s a1 a2) := by
  unfold secDone
  split
  · exact modDesc_within h (sub_trans (sub_of rfl) hp)
  · exact modJob_within h (sub_trans (sub_of rfl) hp)
  · exact modJob_within h (sub_trans (sub_of rfl) hp)
  · exact h
  · split
    · exact h
    · refine regSetFld_within (regSetFld_within (Within.upd_pke h (sub_trans (sub_of rfl) hp)) ?_) ?_ <;>
        exact sub_trans (sub_of rfl) hp
  · exact h

theorem pkeSubmit_within {P s0 s a1 a2 a3 a4} (h : Within P s0 s) (hp : sub 262225 P) : Within P s0 (pkeSubmit s a1 a2 a3 a4) := by
  unfold pkeSubmit
  repeat' (first | with_reducible assumption | exact sub_of rfl | with_reducible refine pkeNext_within ?_ (sub_trans ?_ hp) | with_reducible refine secDone_within ?_ (sub_trans ?_ hp) | with_reducible refine Within.ite ?_ ?_ | with_reducible refine Within.upd_pke ?_ (sub_trans ?_ hp) | (extract_lets +onlyGivenNames x; refine (fun (_ : Within P s0 x) => ?_) ?_; rotate_left; subst x; rotate_left; clear_value x) | (extract_lets +onlyGivenNames x; clear_value x) | split)

theorem pkeCancel_within {P s0 s a1} (h : Within P s0 s) (hp : sub 262145 P) : Within P s0 (pkeCancel s a1) := by
  unfold pkeCancel
  repeat' (first | with_reducible assumption | exact sub_of rfl | with_reducible refine pkeNext_within ?_ (sub_trans ?_ hp) | with_reducible refine Within.ite ?_ ?_ | with_reducible refine Within.upd_pke ?_ (sub_trans ?_ hp) | split)

theorem hashAssign_within {P s0 s a0} (h : Within P s0 s) (hp : sub 262144 P) : Within P s0 (hashAssign a0 s) := by
  induction a0 generalizing s with
  | zero => exact h
  | succ k ih => unfold hashAssign; repeat' (first | with_reducible refine ih ?_ | with_reducible assumption | exact sub_of rfl | split | with_reducible refine Within.upd_pke ?_ (sub_trans ?_ hp))

theorem hashSubmit_within {P s0 s a1 a2} (h : Within P s0 s) (hp : sub 262144 P) : Within P s0 (hashSubmit s a1 a2) := by
  unfold hashSubmit
  repeat' (first | with_reducible assumption | exact sub_of rfl | with_reducible refine hashAssign_within ?_ (sub_trans ?_ hp) | with_reducible refine Within.upd_pke ?_ (sub_trans ?_ hp))

end Sys2Proof.Machine
end

