-- ==== Sys2Proof/Laws/WithinSectors.lean ====
section
/-! SUPPORT. What each operation of Machine/Sectors.lean may change (see Within.lean). -/

namespace Sys2Proof.Machine

theorem bindCores_within {P s0 s a1 a2} (h : Within P s0 s) (hp : sub 8 P) : Within P s0 (bindCores s a1 a2) := by
  unfold bindCores
  repeat' (first | with_reducible assumption | exact sub_of rfl | with_reducible refine modCore_within ?_ (sub_trans ?_ hp) | with_reducible refine Within.foldl ?_ (fun _ _ _ => ?_) | with_reducible refine Within.foldl_fst ?_ (fun _ _ _ => ?_))

theorem unbindCores_within {P s0 s a1} (h : Within P s0 s) (hp : sub 8 P) : Within P s0 (unbindCores s a1) := by
  unfold unbindCores
  repeat' (first | with_reducible assumption | exact sub_of rfl | with_reducible refine modCore_within ?_ (sub_trans ?_ hp) | with_reducible refine Within.foldl ?_ (fun _ _ _ => ?_) | with_reducible refine Within.foldl_fst ?_ (fun _ _ _ => ?_) | with_reducible refine Within.ite ?_ ?_ | split)

theorem formSector_within {P s0 s a1 a2 a3 a4} (h : Within P s0 s) (hp : sub 131113 P) : Within P s0 (formSector s a1 a2 a3 a4).2 := by
  unfold formSector
  repeat' (first | with_reducible assumption | exact sub_of rfl | with_reducible refine bindCores_within ?_ (sub_trans ?_ hp) | with_reducible refine resetSectorPwr_within ?_ (sub_trans ?_ hp) | with_reducible refine updateSector_within ?_ (sub_trans ?_ hp) | with_reducible refine setSector_within ?_ (sub_trans ?_ hp) | (extract_lets +onlyGivenNames x; refine (fun (_ : Within P s0 x) => ?_) ?_; rotate_left; subst x; rotate_left; clear_value x) | (extract_lets +onlyGivenNames x; clear_value x))
theorem formSector_within' {P s0 s t r a1 a2 a3 a4} (he : formSector s a1 a2 a3 a4 = (r, t)) (h : Within P s0 s) (hp : sub 131113 P) : Within P s0 t := by
  have k : Within P s0 (formSector s a1 a2 a3 a4).2 := formSector_within h hp
  rw [he] at k; exact k

theorem formShadow_within {P s0 s t r a1 a2 a3 a4 a5} (he : formShadow s a1 a2 a3 a4 a5 = some (r, t)) (h : Within P s0 s) (hp : sub 131105 P) : Within P s0 t := by
  unfold formShadow at he
  split at he
  · cases he
  · split at he
    · cases he
    · simp only [Option.some.injEq, Prod.mk.injEq] at he
      obtain ⟨-, rfl⟩ := he
      repeat' (first | with_reducible assumption | exact sub_of rfl | with_reducible refine modSector_within ?_ (sub_trans ?_ hp) | with_reducible refine setSector_within ?_ (sub_trans ?_ hp) | with_reducible refine resetSectorPwr_within ?_ (sub_trans ?_ hp) | with_reducible refine Within.foldl ?_ (fun _ _ _ => ?_))

theorem zeroTiles_within {P s0 s a1} (h : Within P s0 s) (hp : sub 2048 P) : Within P s0 (zeroTiles s a1) := by
  unfold zeroTiles
  repeat' (first | with_reducible assumption | exact sub_of rfl | with_reducible refine Within.upd_zeroing ?_ (sub_trans ?_ hp))

theorem clearTile_within {P s0 s a1} (h : Within P s0 s) (hp : sub 2 P) : Within P s0 (clearTile s a1) := by
  unfold clearTile
  repeat' (first | with_reducible assumption | exact sub_of rfl | with_reducible refine Within.upd_mem_sramPoison ?_ (sub_trans ?_ hp) ?_ ?_ | exact twf_tset _ _ | exact twf_tmap _ | exact twf_filter _ | exact twf_tsetRun _ _ | (extract_lets +onlyGivenNames x; refine (fun (_ : Within P s0 x) => ?_) ?_; rotate_left; subst x; rotate_left; clear_value x) | (extract_lets +onlyGivenNames x; clear_value x))

theorem passTiles_within {P s0 s a1 a2} (h : Within P s0 s) (hp : sub 133161 P) : Within P s0 (passTiles s a1 a2) := by
  unfold passTiles
  repeat' (first | with_reducible assumption | exact sub_of rfl | with_reducible refine bindCores_within ?_ (sub_trans ?_ hp) | with_reducible refine unbindCores_within ?_ (sub_trans ?_ hp) | with_reducible refine zeroTiles_within ?_ (sub_trans ?_ hp) | with_reducible refine updateSector_within ?_ (sub_trans ?_ hp) | with_reducible refine setSector_within ?_ (sub_trans ?_ hp) | (extract_lets +onlyGivenNames x; refine (fun (_ : Within P s0 x) => ?_) ?_; rotate_left; subst x; rotate_left; clear_value x) | (extract_lets +onlyGivenNames x; clear_value x) | split)

theorem passIfIdle_within {P s0 s a1} (h : Within P s0 s) (hp : sub 133161 P) : Within P s0 (passIfIdle s a1) := by
  unfold passIfIdle
  repeat' (first | with_reducible assumption | exact sub_of rfl | with_reducible refine passTiles_within ?_ (sub_trans ?_ hp) | with_reducible refine Within.ite ?_ ?_ | split)

theorem passIdleSet_within {P s0 s a1} (h : Within P s0 s) (hp : sub 133161 P) : Within P s0 (passIdleSet s a1) := by
  unfold passIdleSet
  repeat' (first | with_reducible assumption | exact sub_of rfl | with_reducible refine passIfIdle_within ?_ (sub_trans ?_ hp) | with_reducible refine Within.foldl ?_ (fun _ _ _ => ?_) | with_reducible refine Within.foldl_fst ?_ (fun _ _ _ => ?_))

theorem releaseSector_within {P s0 s a1} (h : Within P s0 s) (hp : sub 133289 P) : Within P s0 (releaseSector s a1) := by
  unfold releaseSector; try dsimp only
  repeat' (first | with_reducible assumption | exact sub_of rfl | with_reducible refine zeroTiles_within ?_ (sub_trans ?_ hp) | with_reducible refine unbindCores_within ?_ (sub_trans ?_ hp) | with_reducible refine setSector_within ?_ (sub_trans ?_ hp) | with_reducible refine updateTile_within ?_ (sub_trans ?_ hp) | with_reducible refine bindCores_within ?_ (sub_trans ?_ hp) | with_reducible refine setWaiting_within ?_ (sub_trans ?_ hp) | with_reducible refine modSector_within ?_ (sub_trans ?_ hp) | with_reducible refine Within.foldl ?_ (fun _ _ _ => ?_) | split | with_reducible refine Within.upd_gddrUsed ?_ (sub_trans ?_ hp))

end Sys2Proof.Machine
end

