-- ==== Sys2Proof/Laws/WithinJobEnd.lean ====
section
/-! SUPPORT. What each operation of Machine/JobEnd.lean may change (see Within.lean). -/

namespace Sys2Proof.Machine

theorem voidOutputs_within {P s0 s a1} (h : Within P s0 s) (hp : sub 2273871 P) : Within P s0 (voidOutputs s a1) := by
  unfold voidOutputs
  repeat' (first | with_reducible assumption | exact sub_of rfl | with_reducible refine putHdr_within ?_ (sub_trans ?_ hp) | with_reducible refine Within.foldl ?_ (fun _ _ _ => ?_) | with_reducible refine Within.foldl_fst ?_ (fun _ _ _ => ?_) | with_reducible refine Within.ite ?_ ?_ | (extract_lets +onlyGivenNames x; refine (fun (_ : Within P s0 x) => ?_) ?_; rotate_left; subst x; rotate_left; clear_value x) | (extract_lets +onlyGivenNames x; clear_value x) | split)

theorem dropLandings_within {P s0 s a1} (h : Within P s0 s) (hp : sub 12 P) : Within P s0 (dropLandings s a1) := by
  unfold dropLandings
  repeat' (first | with_reducible assumption | exact sub_of rfl | with_reducible refine modCore_within ?_ (sub_trans ?_ hp) | with_reducible refine Within.foldl ?_ (fun _ _ _ => ?_) | with_reducible refine Within.foldl_fst ?_ (fun _ _ _ => ?_) | with_reducible refine Within.ite ?_ ?_ | with_reducible refine Within.upd_memq ?_ (sub_trans ?_ hp) | (extract_lets +onlyGivenNames x; refine (fun (_ : Within P s0 x) => ?_) ?_; rotate_left; subst x; rotate_left; clear_value x) | (extract_lets +onlyGivenNames x; refine (fun (_ : Within P s0 x.1) => ?_) ?_; rotate_left; subst x; rotate_left; clear_value x) | (extract_lets +onlyGivenNames x; clear_value x) | split)

theorem quiet_within {P s0 s a1 a2} (h : Within P s0 s) (hp : sub 131917 P) : Within P s0 (quiet s a1 a2) := by
  unfold quiet
  split
  · exact h
  · extract_lets s1 encs s2 slices
    have k1 : Within P s0 s1 := Within.foldl h fun t g ht =>
      modCore_within (cancelStreams_within ht (sub_trans (sub_of rfl) hp)) (sub_trans (sub_of rfl) hp)
    clear_value s1
    have k2 : Within P s0 s2 := setWaiting_within
      (Within.foldl k1 fun t r ht => dropLandings_within ht (sub_trans (sub_of rfl) hp)) (sub_trans (sub_of rfl) hp)
    clear_value s2
    exact Within.upd_memq_encQ_passes k2 (sub_trans (sub_of rfl) hp)

theorem releaseDue_within {P s0 s a1} (h : Within P s0 s) (hp : sub 2754745 P) : Within P s0 (releaseDue s a1) := by
  unfold releaseDue
  repeat' (first | with_reducible assumption | exact sub_of rfl | with_reducible refine releaseSector_within ?_ (sub_trans ?_ hp) | with_reducible refine updateSector_within ?_ (sub_trans ?_ hp) | with_reducible refine completeDesc_within ?_ (sub_trans ?_ hp) | with_reducible refine passIfIdle_within ?_ (sub_trans ?_ hp) | with_reducible refine Within.ite ?_ ?_ | split)

theorem leaveSector_within {P s0 s a1 a2} (h : Within P s0 s) (hp : sub 2755581 P) : Within P s0 (leaveSector s a1 a2) := by
  unfold leaveSector
  repeat' (first | with_reducible assumption | exact sub_of rfl | with_reducible refine modSector_within ?_ (sub_trans ?_ hp) | with_reducible refine dropGddr_within ?_ (sub_trans ?_ hp) | with_reducible refine quiet_within ?_ (sub_trans ?_ hp) | with_reducible refine memRegs_within ?_ (sub_trans ?_ hp) | with_reducible refine releaseDue_within ?_ (sub_trans ?_ hp) | with_reducible refine Within.ite ?_ ?_ | (extract_lets +onlyGivenNames x; refine (fun (_ : Within P s0 x) => ?_) ?_; rotate_left; subst x; rotate_left; clear_value x) | (extract_lets +onlyGivenNames x; clear_value x) | split)

theorem dropMessages_within {P s0 s a1} (h : Within P s0 s) (hp : sub 524288 P) : Within P s0 (dropMessages s a1) := by
  unfold dropMessages
  repeat' (first | with_reducible assumption | exact sub_of rfl | with_reducible refine recallMessage_within ?_ (sub_trans ?_ hp) | with_reducible refine Within.foldl ?_ (fun _ _ _ => ?_) | with_reducible refine Within.foldl_fst ?_ (fun _ _ _ => ?_) | with_reducible refine Within.upd_fab ?_ (sub_trans ?_ hp) | (extract_lets +onlyGivenNames x; refine (fun (_ : Within P s0 x) => ?_) ?_; rotate_left; subst x; rotate_left; clear_value x) | (extract_lets +onlyGivenNames x; clear_value x))

theorem gatherFlags_within {P s0 s a1} (h : Within P s0 s) (hp : sub 65 P) : Within P s0 (gatherFlags s a1) := by
  unfold gatherFlags
  repeat' (first | with_reducible assumption | exact sub_of rfl | with_reducible refine modJob_within ?_ (sub_trans ?_ hp) | with_reducible refine regSet_within ?_ (sub_trans ?_ hp) | with_reducible refine Within.foldl ?_ (fun _ _ _ => ?_) | with_reducible refine Within.foldl_fst ?_ (fun _ _ _ => ?_) | with_reducible refine Within.ite ?_ ?_ | (extract_lets +onlyGivenNames x; refine (fun (_ : Within P s0 x) => ?_) ?_; rotate_left; subst x; rotate_left; clear_value x) | (extract_lets +onlyGivenNames x; clear_value x) | split)

theorem quietJob_within {P s0 s a1} (h : Within P s0 s) (hp : sub 131917 P) : Within P s0 (quietJob s a1) := by
  unfold quietJob
  repeat' (first | with_reducible assumption | exact sub_of rfl | with_reducible refine quiet_within ?_ (sub_trans ?_ hp) | with_reducible refine Within.ite ?_ ?_ | split)

theorem endJob_within {P s0 s a1 a2} (h : Within P s0 s) (hp : sub 2800639 P) : Within P s0 (endJob s a1 a2) := by
  unfold endJob
  repeat' (first | with_reducible assumption | exact sub_of rfl | with_reducible refine bump_within ?_ (sub_trans ?_ hp) | with_reducible refine completeWith_within ?_ (sub_trans ?_ hp) | with_reducible refine reclaim_within ?_ (sub_trans ?_ hp) | with_reducible refine setJob_within ?_ (sub_trans ?_ hp) | with_reducible refine dropMessages_within ?_ (sub_trans ?_ hp) | with_reducible refine engineAccess_within ?_ (sub_trans ?_ hp) | with_reducible refine dropDesc_within ?_ (sub_trans ?_ hp) | with_reducible refine leaveSector_within ?_ (sub_trans ?_ hp) | with_reducible refine gatherFlags_within ?_ (sub_trans ?_ hp) | with_reducible refine writeT_within ?_ (sub_trans ?_ hp) | with_reducible refine quietJob_within ?_ (sub_trans ?_ hp) | with_reducible refine Within.ite ?_ ?_ | (extract_lets +onlyGivenNames x; refine (fun (_ : Within P s0 x) => ?_) ?_; rotate_left; subst x; rotate_left; clear_value x) | (extract_lets +onlyGivenNames x; clear_value x) | split)

theorem finishJob_within {P s0 s a1 a2} (h : Within P s0 s) (hp : sub 2800639 P) : Within P s0 (finishJob s a1 a2) := by
  unfold finishJob
  repeat' (first | with_reducible assumption | exact sub_of rfl | with_reducible refine modJob_within ?_ (sub_trans ?_ hp) | with_reducible refine endJob_within ?_ (sub_trans ?_ hp) | with_reducible refine quietJob_within ?_ (sub_trans ?_ hp) | with_reducible refine Within.ite ?_ ?_ | (extract_lets +onlyGivenNames x; refine (fun (_ : Within P s0 x) => ?_) ?_; rotate_left; subst x; rotate_left; clear_value x) | (extract_lets +onlyGivenNames x; clear_value x) | split)

theorem stopJob_within {P s0 s a1 a2 a3} (h : Within P s0 s) (hp : sub 3062783 P) : Within P s0 (stopJob s a1 a2 a3) := by
  unfold stopJob
  repeat' (first | with_reducible assumption | exact sub_of rfl | with_reducible refine modJob_within ?_ (sub_trans ?_ hp) | with_reducible refine finishJob_within ?_ (sub_trans ?_ hp) | with_reducible refine pkeCancel_within ?_ (sub_trans ?_ hp) | with_reducible refine Within.ite ?_ ?_ | (extract_lets +onlyGivenNames x; refine (fun (_ : Within P s0 x) => ?_) ?_; rotate_left; subst x; rotate_left; clear_value x) | (extract_lets +onlyGivenNames x; clear_value x) | split)

theorem settleItems_within {P s0 s a1} (h : Within P s0 s) (hp : sub 2273807 P) : Within P s0 (settleItems s a1) := by
  unfold settleItems
  repeat' (first | with_reducible assumption | exact sub_of rfl | with_reducible refine serveAt_within ?_ (sub_trans ?_ hp) | with_reducible refine Within.foldl ?_ (fun _ _ _ => ?_) | with_reducible refine Within.foldl_fst ?_ (fun _ _ _ => ?_))

theorem startInputs_within {P s0 s a1} (h : Within P s0 s) (hp : sub 2536015 P) : Within P s0 (startInputs s a1) := by
  unfold startInputs
  repeat' (first | with_reducible assumption | exact sub_of rfl | with_reducible refine modJob_within ?_ (sub_trans ?_ hp) | with_reducible refine hashSubmit_within ?_ (sub_trans ?_ hp) | with_reducible refine settleItems_within ?_ (sub_trans ?_ hp) | with_reducible refine serveAt_within ?_ (sub_trans ?_ hp) | with_reducible refine Within.ite ?_ ?_ | (extract_lets +onlyGivenNames x; refine (fun (_ : Within P s0 x) => ?_) ?_; rotate_left; subst x; rotate_left; clear_value x) | (extract_lets +onlyGivenNames x; clear_value x) | split)

theorem startOutputs_within {P s0 s a1} (h : Within P s0 s) (hp : sub 2536015 P) : Within P s0 (startOutputs s a1) := by
  unfold startOutputs
  repeat' (first | with_reducible assumption | exact sub_of rfl | with_reducible refine modJob_within ?_ (sub_trans ?_ hp) | with_reducible refine hashSubmit_within ?_ (sub_trans ?_ hp) | with_reducible refine settleItems_within ?_ (sub_trans ?_ hp) | (extract_lets +onlyGivenNames x; refine (fun (_ : Within P s0 x) => ?_) ?_; rotate_left; subst x; rotate_left; clear_value x) | (extract_lets +onlyGivenNames x; clear_value x) | split)

theorem startSigning_within {P s0 s a1} (h : Within P s0 s) (hp : sub 262225 P) : Within P s0 (startSigning s a1) := by
  unfold startSigning
  repeat' (first | with_reducible assumption | exact sub_of rfl | with_reducible refine pkeSubmit_within ?_ (sub_trans ?_ hp) | with_reducible refine modJob_within ?_ (sub_trans ?_ hp) | with_reducible refine Within.foldl ?_ (fun _ _ _ => ?_) | with_reducible refine Within.foldl_fst ?_ (fun _ _ _ => ?_) | with_reducible refine Within.ite ?_ ?_ | (extract_lets +onlyGivenNames x; refine (fun (_ : Within P s0 x) => ?_) ?_; rotate_left; subst x; rotate_left; clear_value x) | (extract_lets +onlyGivenNames x; clear_value x) | split)

theorem writeReceipt_within {P s0 s a1} (h : Within P s0 s) (hp : sub 2273807 P) : Within P s0 (writeReceipt s a1) := by
  unfold writeReceipt
  repeat' (first | with_reducible assumption | exact sub_of rfl | with_reducible refine bump_within ?_ (sub_trans ?_ hp) | with_reducible refine freeBytes_within ?_ (sub_trans ?_ hp) | with_reducible refine engineAccess_within ?_ (sub_trans ?_ hp) | with_reducible refine writeT_within ?_ (sub_trans ?_ hp) | with_reducible refine Within.ite ?_ ?_ | (extract_lets +onlyGivenNames x; refine (fun (_ : Within P s0 x) => ?_) ?_; rotate_left; subst x; rotate_left; clear_value x) | (extract_lets +onlyGivenNames x; clear_value x) | split)

theorem closeStreams_within {P s0 s a1} (h : Within P s0 s) (hp : sub 77 P) : Within P s0 (closeStreams s a1) := by
  unfold closeStreams
  repeat' (first | with_reducible assumption | exact sub_of rfl | with_reducible refine cancelStreams_within ?_ (sub_trans ?_ hp) | with_reducible refine Within.foldl ?_ (fun _ _ _ => ?_) | with_reducible refine Within.foldl_fst ?_ (fun _ _ _ => ?_) | with_reducible refine Within.ite ?_ ?_ | split)

theorem closeJob_within {P s0 s a1} (h : Within P s0 s) (hp : sub 3062783 P) : Within P s0 (closeJob s a1) := by
  unfold closeJob
  repeat' (first | with_reducible assumption | exact sub_of rfl | with_reducible refine startSigning_within ?_ (sub_trans ?_ hp) | with_reducible refine finishJob_within ?_ (sub_trans ?_ hp) | with_reducible refine closeStreams_within ?_ (sub_trans ?_ hp) | with_reducible refine writeReceipt_within ?_ (sub_trans ?_ hp) | with_reducible refine startOutputs_within ?_ (sub_trans ?_ hp) | with_reducible refine voidOutputs_within ?_ (sub_trans ?_ hp) | with_reducible refine Within.ite ?_ ?_ | (extract_lets +onlyGivenNames x; refine (fun (_ : Within P s0 x) => ?_) ?_; rotate_left; subst x; rotate_left; clear_value x) | (extract_lets +onlyGivenNames x; clear_value x) | split)

theorem stopSector_within {P s0 s a1 a2 a3} (h : Within P s0 s) (hp : sub 3062783 P) : Within P s0 (stopSector s a1 a2 a3) := by
  unfold stopSector
  repeat' (first | with_reducible assumption | exact sub_of rfl | with_reducible refine modJob_within ?_ (sub_trans ?_ hp) | with_reducible refine closeJob_within ?_ (sub_trans ?_ hp) | with_reducible refine quiet_within ?_ (sub_trans ?_ hp) | with_reducible refine addFail_within ?_ (sub_trans ?_ hp) | (extract_lets +onlyGivenNames x; refine (fun (_ : Within P s0 x) => ?_) ?_; rotate_left; subst x; rotate_left; clear_value x) | (extract_lets +onlyGivenNames x; clear_value x))

theorem execJobComplete_within {P s0 s t a0} (h : Within P s0 s) (hp : sub 3062783 P) (he : execJobComplete a0 s = .next t) : Within P s0 t := by
  unfold execJobComplete at he; injection he with he; subst he
  repeat' (first | with_reducible assumption | exact sub_of rfl | with_reducible refine closeJob_within ?_ (sub_trans ?_ hp) | with_reducible refine Within.ite ?_ ?_ | split)

theorem execDenseFloorExpiry_within {P s0 s t a0} (h : Within P s0 s) (hp : sub 2800639 P) (he : execDenseFloorExpiry a0 s = .next t) : Within P s0 t := by
  unfold execDenseFloorExpiry at he; injection he with he; subst he
  repeat' (first | with_reducible assumption | exact sub_of rfl | with_reducible refine endJob_within ?_ (sub_trans ?_ hp) | with_reducible refine Within.ite ?_ ?_ | split)

theorem programFault_within {P s0 s a1} (h : Within P s0 s) (hp : sub 3062783 P) : Within P s0 (programFault s a1) := by
  unfold programFault
  repeat' (first | with_reducible assumption | exact sub_of rfl | with_reducible refine stopSector_within ?_ (sub_trans ?_ hp) | with_reducible refine Within.ite ?_ ?_ | split)

theorem execProgramFault_within {P s0 s t a0} (h : Within P s0 s) (hp : sub 3062783 P) (he : execProgramFault a0 s = .next t) : Within P s0 t := by
  unfold execProgramFault at he; injection he with he; subst he
  repeat' (first | with_reducible assumption | exact sub_of rfl | with_reducible refine programFault_within ?_ (sub_trans ?_ hp))

end Sys2Proof.Machine
end

