-- ==== Sys2Proof/Laws/WithinBuiltin.lean ====
section
/-! SUPPORT. What each operation of Machine/Builtin.lean may change (see Within.lean). -/

namespace Sys2Proof.Machine

theorem writePolys_within {P s0 s a1 a2 a3 a4 a5 a6} (h : Within P s0 s) (hp : sub 2273283 P) : Within P s0 (writePolys s a1 a2 a3 a4 a5 a6) := by
  unfold writePolys
  repeat' (first | with_reducible assumption | exact sub_of rfl | with_reducible refine writeT_within ?_ (sub_trans ?_ hp) | with_reducible refine Within.ite ?_ ?_ | (extract_lets +onlyGivenNames x; refine (fun (_ : Within P s0 x) => ?_) ?_; rotate_left; subst x; rotate_left; clear_value x) | (extract_lets +onlyGivenNames x; clear_value x) | split)

theorem builtinData_within {P s0 s a1 a2 a3 a4} (h : Within P s0 s) (hp : sub 2273283 P) : Within P s0 (builtinData s a1 a2 a3 a4) := by
  unfold builtinData
  repeat' (first | with_reducible assumption | exact sub_of rfl | with_reducible refine freeResult_within ?_ (sub_trans ?_ hp) | with_reducible refine writePolys_within ?_ (sub_trans ?_ hp) | with_reducible refine drawFree_within ?_ | with_reducible refine drawFree_within' ‹_› ?_ | with_reducible refine Within.ite ?_ ?_ | (extract_lets +onlyGivenNames x; refine (fun (_ : Within P s0 x) => ?_) ?_; rotate_left; subst x; rotate_left; clear_value x) | (extract_lets +onlyGivenNames x; refine (fun (_ : Within P s0 x.2) => ?_) ?_; rotate_left; subst x; rotate_left; clear_value x) | (extract_lets +onlyGivenNames x; clear_value x) | split)

theorem scratchCores_within {P s0 s a1} (h : Within P s0 s) (hp : sub 2273283 P) : Within P s0 (scratchCores s a1) := by
  unfold scratchCores
  repeat' (first | with_reducible assumption | exact sub_of rfl | with_reducible refine freeBytes_within ?_ (sub_trans ?_ hp) | with_reducible refine Within.foldl ?_ (fun _ _ _ => ?_) | with_reducible refine Within.foldl_fst ?_ (fun _ _ _ => ?_) | with_reducible refine Within.ite ?_ ?_ | split)

end Sys2Proof.Machine
end

