-- ==== Sys2Proof/Laws/WithinRefresh.lean ====
section
/-! SUPPORT. What each operation of Machine/Refresh.lean may change (see Within.lean). -/

namespace Sys2Proof.Machine

theorem refreshData_within {P s0 s a1 a2 a3 a4 a5 a6 a7 a8} (h : Within P s0 s) (hp : sub 2273283 P) : Within P s0 (refreshData s a1 a2 a3 a4 a5 a6 a7 a8) := by
  unfold refreshData
  repeat' (first | with_reducible assumption | exact sub_of rfl | with_reducible refine writePolys_within ?_ (sub_trans ?_ hp) | with_reducible refine drawFree_within ?_ | with_reducible refine drawFree_within' ‹_› ?_ | (extract_lets +onlyGivenNames x; refine (fun (_ : Within P s0 x) => ?_) ?_; rotate_left; subst x; rotate_left; clear_value x) | (extract_lets +onlyGivenNames x; refine (fun (_ : Within P s0 x.2) => ?_) ?_; rotate_left; subst x; rotate_left; clear_value x) | (extract_lets +onlyGivenNames x; clear_value x) | split)

end Sys2Proof.Machine
end

