-- ==== Sys2Proof/Laws/WithinJobRows.lean ====
section
/-! SUPPORT. What each operation of Machine/JobRows.lean may change (see Within.lean). -/

namespace Sys2Proof.Machine

theorem zeroCounters_within {P s0 s a1} (h : Within P s0 s) (hp : sub 1 P) : Within P s0 (zeroCounters s a1) := by
  unfold zeroCounters
  repeat' (first | with_reducible assumption | exact sub_of rfl | with_reducible refine regSet_within ?_ (sub_trans ?_ hp) | with_reducible refine Within.foldl ?_ (fun _ _ _ => ?_) | with_reducible refine Within.foldl_fst ?_ (fun _ _ _ => ?_))

theorem loadCores_within {P s0 s a1 a2 a3} (h : Within P s0 s) (hp : sub 9 P) : Within P s0 (loadCores s a1 a2 a3) := by
  unfold loadCores
  repeat' (first | with_reducible assumption | exact sub_of rfl | with_reducible refine zeroCounters_within ?_ (sub_trans ?_ hp) | with_reducible refine modCore_within ?_ (sub_trans ?_ hp) | with_reducible refine Within.foldl ?_ (fun _ _ _ => ?_) | with_reducible refine Within.foldl_fst ?_ (fun _ _ _ => ?_) | with_reducible refine Within.ite ?_ ?_ | split)

theorem loadPublic_within {P s0 s a1 a2} (h : Within P s0 s) (hp : sub 2273283 P) : Within P s0 (loadPublic s a1 a2) := by
  unfold loadPublic
  repeat' (first | with_reducible assumption | exact sub_of rfl | with_reducible refine writeT_within ?_ (sub_trans ?_ hp) | with_reducible refine Within.foldl ?_ (fun _ _ _ => ?_) | with_reducible refine Within.foldl_fst ?_ (fun _ _ _ => ?_) | with_reducible refine Within.ite ?_ ?_ | split)

theorem stagerFill_within {P s0 s a1 a2 a3 a4} (h : Within P s0 s) (hp : sub 8 P) : Within P s0 (stagerFill s a1 a2 a3 a4) := by
  unfold stagerFill
  repeat' (first | with_reducible assumption | exact sub_of rfl | with_reducible refine setStr_within ?_ (sub_trans ?_ hp) | with_reducible refine Within.foldl ?_ (fun _ _ _ => ?_) | with_reducible refine Within.foldl_fst ?_ (fun _ _ _ => ?_) | with_reducible refine Within.ite ?_ ?_ | (extract_lets +onlyGivenNames x; refine (fun (_ : Within P s0 x) => ?_) ?_; rotate_left; subst x; rotate_left; clear_value x) | (extract_lets +onlyGivenNames x; refine (fun (_ : Within P s0 x.1) => ?_) ?_; rotate_left; subst x; rotate_left; clear_value x) | (extract_lets +onlyGivenNames x; clear_value x) | split)

theorem placeStager_within {P s0 s a1 a2} (h : Within P s0 s) (hp : sub 8 P) : Within P s0 (placeStager s a1 a2) := by
  unfold placeStager
  repeat' (first | with_reducible assumption | exact sub_of rfl | with_reducible refine startStream_within ?_ (sub_trans ?_ hp) | with_reducible refine stagerFill_within ?_ (sub_trans ?_ hp) | with_reducible refine Within.foldl ?_ (fun _ _ _ => ?_) | with_reducible refine Within.foldl_fst ?_ (fun _ _ _ => ?_) | (extract_lets +onlyGivenNames x; refine (fun (_ : Within P s0 x) => ?_) ?_; rotate_left; subst x; rotate_left; clear_value x) | (extract_lets +onlyGivenNames x; refine (fun (_ : Within P s0 x.1) => ?_) ?_; rotate_left; subst x; rotate_left; clear_value x) | (extract_lets +onlyGivenNames x; clear_value x) | split)

theorem takeSector_within {P s0 s a1 a2} (h : Within P s0 s) (hp : sub 32 P) : Within P s0 (takeSector s a1 a2) := by
  unfold takeSector
  repeat' (first | with_reducible assumption | exact sub_of rfl | with_reducible refine modSector_within ?_ (sub_trans ?_ hp))

theorem failStage5_within {P s0 s a1 a2} (h : Within P s0 s) (hp : sub 3062783 P) : Within P s0 (failStage5 s a1 a2) := by
  unfold failStage5
  repeat' (first | with_reducible assumption | exact sub_of rfl | with_reducible refine modJob_within ?_ (sub_trans ?_ hp) | with_reducible refine closeJob_within ?_ (sub_trans ?_ hp) | with_reducible refine addFail_within ?_ (sub_trans ?_ hp))

theorem beginJob_within {P s0 s a1 a2 a3 a4 a5} (h : Within P s0 s) (hp : sub 2273899 P) : Within P s0 (beginJob s a1 a2 a3 a4 a5) := by
  unfold beginJob
  repeat' (first | with_reducible assumption | exact sub_of rfl | with_reducible refine modSector_within ?_ (sub_trans ?_ hp) | with_reducible refine modJob_within ?_ (sub_trans ?_ hp) | with_reducible refine advance_within ?_ (sub_trans ?_ hp) | with_reducible refine loadCores_within ?_ (sub_trans ?_ hp) | with_reducible refine loadPublic_within ?_ (sub_trans ?_ hp) | with_reducible refine placeStager_within ?_ (sub_trans ?_ hp) | with_reducible refine Within.ite ?_ ?_ | (extract_lets +onlyGivenNames x; refine (fun (_ : Within P s0 x) => ?_) ?_; rotate_left; subst x; rotate_left; clear_value x) | (extract_lets +onlyGivenNames x; clear_value x) | split)

theorem execProgramLoad_within {P s0 s t a0} (h : Within P s0 s) (hp : sub 3062783 P) (he : execProgramLoad a0 s = .next t) : Within P s0 t := by
  unfold execProgramLoad at he; injection he with he; subst he
  repeat' (first | with_reducible assumption | exact sub_of rfl | with_reducible refine modJob_within ?_ (sub_trans ?_ hp) | with_reducible refine beginJob_within ?_ (sub_trans ?_ hp) | with_reducible refine takeSector_within ?_ (sub_trans ?_ hp) | with_reducible refine engineAccess_within ?_ (sub_trans ?_ hp) | with_reducible refine startInputs_within ?_ (sub_trans ?_ hp) | with_reducible refine failStage5_within ?_ (sub_trans ?_ hp) | with_reducible refine Within.ite ?_ ?_ | (extract_lets +onlyGivenNames x; refine (fun (_ : Within P s0 x) => ?_) ?_; rotate_left; subst x; rotate_left; clear_value x) | (extract_lets +onlyGivenNames x; clear_value x) | split)

theorem failBatch_within {P s0 s a1 a2 a3} (h : Within P s0 s) (hp : sub 2798159 P) : Within P s0 (failBatch s a1 a2 a3) := by
  unfold failBatch
  repeat' (first | with_reducible assumption | exact sub_of rfl | with_reducible refine bump_within ?_ (sub_trans ?_ hp) | with_reducible refine modJob_within ?_ (sub_trans ?_ hp) | with_reducible refine advance_within ?_ (sub_trans ?_ hp) | with_reducible refine failEntry_within ?_ (sub_trans ?_ hp) | with_reducible refine abortJob_within ?_ (sub_trans ?_ hp) | with_reducible refine Within.foldl ?_ (fun _ _ _ => ?_) | with_reducible refine Within.foldl_fst ?_ (fun _ _ _ => ?_) | with_reducible refine Within.ite ?_ ?_ | (extract_lets +onlyGivenNames x; refine (fun (_ : Within P s0 x) => ?_) ?_; rotate_left; subst x; rotate_left; clear_value x) | (extract_lets +onlyGivenNames x; refine (fun (_ : Within P s0 x.1) => ?_) ?_; rotate_left; subst x; rotate_left; clear_value x) | (extract_lets +onlyGivenNames x; clear_value x) | split)

theorem issueEntry_within {P s0 s a1 a2} (h : Within P s0 s) (hp : sub 2798415 P) : Within P s0 (issueEntry s a1 a2) := by
  unfold issueEntry
  repeat' (first | with_reducible assumption | exact sub_of rfl | with_reducible refine modJob_within ?_ (sub_trans ?_ hp) | with_reducible refine startSend_within ?_ (sub_trans ?_ hp) | with_reducible refine startRecv_within ?_ (sub_trans ?_ hp) | with_reducible refine queueJobEncodes_within ?_ (sub_trans ?_ hp) | with_reducible refine Within.ite ?_ ?_ | (extract_lets +onlyGivenNames x; refine (fun (_ : Within P s0 x) => ?_) ?_; rotate_left; subst x; rotate_left; clear_value x) | (extract_lets +onlyGivenNames x; clear_value x) | split)

theorem duePasses_within {P s0 s a1 a2 a3 a4} (h : Within P s0 s) (hp : sub 65 P) : Within P s0 (duePasses s a1 a2 a3 a4) := by
  unfold duePasses
  repeat' (first | with_reducible assumption | exact sub_of rfl | with_reducible refine modJob_within ?_ (sub_trans ?_ hp) | with_reducible refine bumpN_within ?_ (sub_trans ?_ hp) | split)

theorem passBatch_within {P s0 s a1 a2 a3} (h : Within P s0 s) (hp : sub 2798415 P) : Within P s0 (passBatch s a1 a2 a3) := by
  unfold passBatch
  repeat' (first | with_reducible assumption | exact sub_of rfl | with_reducible refine bump_within ?_ (sub_trans ?_ hp) | with_reducible refine modJob_within ?_ (sub_trans ?_ hp) | with_reducible refine issueEntry_within ?_ (sub_trans ?_ hp) | with_reducible refine readHdrs_within ?_ (sub_trans ?_ hp) | with_reducible refine duePasses_within ?_ (sub_trans ?_ hp) | with_reducible refine Within.foldl ?_ (fun _ _ _ => ?_) | with_reducible refine Within.foldl_fst ?_ (fun _ _ _ => ?_) | with_reducible refine Within.ite ?_ ?_ | (extract_lets +onlyGivenNames x; refine (fun (_ : Within P s0 x) => ?_) ?_; rotate_left; subst x; rotate_left; clear_value x) | (extract_lets +onlyGivenNames x; clear_value x) | split)

theorem insertRefresh_within {P s0 s a1 a2 a3 a4} (h : Within P s0 s) (hp : sub 131657 P) : Within P s0 (insertRefresh s a1 a2 a3 a4) := by
  unfold insertRefresh
  repeat' (first | with_reducible assumption | exact sub_of rfl | with_reducible refine modJob_within ?_ (sub_trans ?_ hp) | with_reducible refine advance_within ?_ (sub_trans ?_ hp) | with_reducible refine duePasses_within ?_ (sub_trans ?_ hp) | (extract_lets +onlyGivenNames x; refine (fun (_ : Within P s0 x) => ?_) ?_; rotate_left; subst x; rotate_left; clear_value x) | (extract_lets +onlyGivenNames x; clear_value x))

theorem endRefresh_within {P s0 s a1 a2 a3 a4 a5} (h : Within P s0 s) (hp : sub 2273347 P) : Within P s0 (endRefresh s a1 a2 a3 a4 a5) := by
  unfold endRefresh
  repeat' (first | with_reducible assumption | exact sub_of rfl | with_reducible refine bump_within ?_ (sub_trans ?_ hp) | with_reducible refine modJob_within ?_ (sub_trans ?_ hp) | with_reducible refine refreshData_within ?_ (sub_trans ?_ hp) | with_reducible refine writeT_within ?_ (sub_trans ?_ hp) | (extract_lets +onlyGivenNames x; refine (fun (_ : Within P s0 x) => ?_) ?_; rotate_left; subst x; rotate_left; clear_value x) | (extract_lets +onlyGivenNames x; clear_value x) | split)

theorem issueGroup_within {P s0 s a1 a2} (h : Within P s0 s) (hp : sub 2798415 P) : Within P s0 (issueGroup s a1 a2) := by
  unfold issueGroup
  repeat' (first | with_reducible assumption | exact sub_of rfl | with_reducible refine passBatch_within ?_ (sub_trans ?_ hp) | with_reducible refine failBatch_within ?_ (sub_trans ?_ hp) | with_reducible refine insertRefresh_within ?_ (sub_trans ?_ hp) | with_reducible refine Within.foldl ?_ (fun _ _ _ => ?_) | with_reducible refine Within.foldl_fst ?_ (fun _ _ _ => ?_) | with_reducible refine Within.ite ?_ ?_ | (extract_lets +onlyGivenNames x; refine (fun (_ : Within P s0 x) => ?_) ?_; rotate_left; subst x; rotate_left; clear_value x) | (extract_lets +onlyGivenNames x; refine (fun (_ : Within P s0 x.1) => ?_) ?_; rotate_left; subst x; rotate_left; clear_value x) | (extract_lets +onlyGivenNames x; clear_value x) | split)

theorem execOperationIssue_within {P s0 s t a0} (h : Within P s0 s) (hp : sub 2798415 P) (he : execOperationIssue a0 s = .next t) : Within P s0 t := by
  unfold execOperationIssue at he; injection he with he; subst he
  repeat' (first | with_reducible assumption | exact sub_of rfl | with_reducible refine issueGroup_within ?_ (sub_trans ?_ hp) | with_reducible refine modJob_within ?_ (sub_trans ?_ hp) | with_reducible refine issueEntry_within ?_ (sub_trans ?_ hp) | with_reducible refine passBatch_within ?_ (sub_trans ?_ hp) | with_reducible refine failBatch_within ?_ (sub_trans ?_ hp) | with_reducible refine insertRefresh_within ?_ (sub_trans ?_ hp) | with_reducible refine Within.ite ?_ ?_ | (extract_lets +onlyGivenNames x; refine (fun (_ : Within P s0 x) => ?_) ?_; rotate_left; subst x; rotate_left; clear_value x) | (extract_lets +onlyGivenNames x; clear_value x) | split)

theorem finishEntry_within {P s0 s a1 a2} (h : Within P s0 s) (hp : sub 2273871 P) : Within P s0 (finishEntry s a1 a2) := by
  unfold finishEntry
  repeat' (first | with_reducible assumption | exact sub_of rfl | with_reducible refine bump_within ?_ (sub_trans ?_ hp) | with_reducible refine modJob_within ?_ (sub_trans ?_ hp) | with_reducible refine writeHdr_within ?_ (sub_trans ?_ hp) | with_reducible refine bumpN_within ?_ (sub_trans ?_ hp) | with_reducible refine builtinData_within ?_ (sub_trans ?_ hp) | with_reducible refine refreshData_within ?_ (sub_trans ?_ hp) | with_reducible refine Within.ite ?_ ?_ | (extract_lets +onlyGivenNames x; refine (fun (_ : Within P s0 x) => ?_) ?_; rotate_left; subst x; rotate_left; clear_value x) | (extract_lets +onlyGivenNames x; clear_value x) | split)

theorem finishAll_within {P s0 s a1 a2} (h : Within P s0 s) (hp : sub 2273871 P) : Within P s0 (finishAll s a1 a2) := by
  unfold finishAll
  repeat' (first | with_reducible assumption | exact sub_of rfl | with_reducible refine modJob_within ?_ (sub_trans ?_ hp) | with_reducible refine serveDram_within ?_ (sub_trans ?_ hp) | with_reducible refine finishEntry_within ?_ (sub_trans ?_ hp) | with_reducible refine Within.foldl ?_ (fun _ _ _ => ?_) | with_reducible refine Within.foldl_fst ?_ (fun _ _ _ => ?_))

theorem builtinEnd_within {P s0 s t a1 a2 a3 a4} (he : builtinEnd s a1 a2 a3 a4 = some t) (h : Within P s0 s) (hp : sub 2273871 P) : Within P s0 t := by
  have hm {x j f} : Within P s0 x → Within P s0 (modJob x j f) := fun k => modJob_within k (sub_trans (sub_of rfl) hp)
  unfold builtinEnd at he
  extract_lets free s1 m op e s1' at he
  have k1 : Within P s0 s1 := hm (hm h)
  have k2 : Within P s0 s1' := hm (hm h)
  clear_value s1 s1'
  split at he
  · split at he
    · cases he
    · split at he
      · injection he with he
        subst he
        exact hm (endRefresh_within k1 (sub_trans (sub_of rfl) hp))
      · injection he with he
        exact he ▸ k1
  · split at he
    · cases he
    · split at he
      · injection he with he
        subst he
        rename_i j1 _
        have k3 : Within P s0 (finishAll s1' a1.id (endedBy j1 a2 a4)) := finishAll_within k2 (sub_trans (sub_of rfl) hp)
        exact Within.ite (scratchCores_within k3 (sub_trans (sub_of rfl) hp)) k3
      · injection he with he
        exact he ▸ k2

theorem execStrideEnd_within {P s0 s t a0 a1} (h : Within P s0 s) (hp : sub 2273871 P) (he : execStrideEnd a0 a1 s = .next t) : Within P s0 t := by
  unfold execStrideEnd at he; injection he with he; subst he
  repeat' (first | with_reducible assumption | exact sub_of rfl | with_reducible refine modJob_within ?_ (sub_trans ?_ hp) | with_reducible refine advance_within ?_ (sub_trans ?_ hp) | with_reducible refine finishAll_within ?_ (sub_trans ?_ hp) | with_reducible refine builtinEnd_within ‹_› ?_ (sub_trans ?_ hp) | with_reducible refine modCore_within ?_ (sub_trans ?_ hp) | with_reducible refine Within.foldl ?_ (fun _ _ _ => ?_) | with_reducible refine Within.foldl_fst ?_ (fun _ _ _ => ?_) | with_reducible refine Within.ite ?_ ?_ | (extract_lets +onlyGivenNames x; refine (fun (_ : Within P s0 x) => ?_) ?_; rotate_left; subst x; rotate_left; clear_value x) | (extract_lets +onlyGivenNames x; clear_value x) | split)

theorem execRefreshTableCopy_within {P s0 s t a0} (h : Within P s0 s) (hp : sub 2273867 P) (he : execRefreshTableCopy a0 s = .next t) : Within P s0 t := by
  unfold execRefreshTableCopy at he; injection he with he; subst he
  repeat' (first | with_reducible assumption | exact sub_of rfl | with_reducible refine modJob_within ?_ (sub_trans ?_ hp) | with_reducible refine advance_within ?_ (sub_trans ?_ hp) | with_reducible refine regSetPair_within ?_ (sub_trans ?_ hp) | with_reducible refine writeT_within ?_ (sub_trans ?_ hp) | with_reducible refine Within.foldl ?_ (fun _ _ _ => ?_) | with_reducible refine Within.foldl_fst ?_ (fun _ _ _ => ?_) | with_reducible refine Within.ite ?_ ?_ | (extract_lets +onlyGivenNames x; refine (fun (_ : Within P s0 x) => ?_) ?_; rotate_left; subst x; rotate_left; clear_value x) | (extract_lets +onlyGivenNames x; refine (fun (_ : Within P s0 x.1) => ?_) ?_; rotate_left; subst x; rotate_left; clear_value x) | (extract_lets +onlyGivenNames x; clear_value x) | split)

end Sys2Proof.Machine
end

