-- ==== Sys2Proof/Laws/WithinModel.lean ====
section
/-! SUPPORT. What each operation of Machine/Model.lean may change (see Within.lean). -/

namespace Sys2Proof.Machine

theorem placeTile_within {P s0 s a1 a2 a3} (h : Within P s0 s) (hp : sub 2273283 P) : Within P s0 (placeTile s a1 a2 a3) := by
  unfold placeTile
  repeat' (first | with_reducible assumption | exact sub_of rfl | with_reducible refine writeT_within ?_ (sub_trans ?_ hp) | (extract_lets +onlyGivenNames x; refine (fun (_ : Within P s0 x) => ?_) ?_; rotate_left; subst x; rotate_left; clear_value x) | (extract_lets +onlyGivenNames x; clear_value x))

theorem setBadUnits_within {P s0 s a1 a2 a3} (h : Within P s0 s) (hp : sub 17 P) : Within P s0 (setBadUnits s a1 a2 a3) := by
  unfold setBadUnits
  repeat' (first | with_reducible assumption | exact sub_of rfl | with_reducible refine regSetFld_within ?_ (sub_trans ?_ hp) | with_reducible refine modModel_within ?_ (sub_trans ?_ hp) | with_reducible refine Within.ite ?_ ?_ | split)

theorem placeModel_within {P s0 s a1 a2 a3} (h : Within P s0 s) (hp : sub 2273299 P) : Within P s0 (placeModel s a1 a2 a3) := by
  unfold placeModel
  repeat' (first | with_reducible assumption | exact sub_of rfl | with_reducible refine setBadUnits_within ?_ (sub_trans ?_ hp) | with_reducible refine placeTile_within ?_ (sub_trans ?_ hp) | with_reducible refine Within.foldl ?_ (fun _ _ _ => ?_) | with_reducible refine Within.foldl_fst ?_ (fun _ _ _ => ?_) | (extract_lets +onlyGivenNames x; refine (fun (_ : Within P s0 x) => ?_) ?_; rotate_left; subst x; rotate_left; clear_value x) | (extract_lets +onlyGivenNames x; refine (fun (_ : Within P s0 x.1) => ?_) ?_; rotate_left; subst x; rotate_left; clear_value x) | (extract_lets +onlyGivenNames x; clear_value x))

theorem stageGroup_within {P s0 s a1 a2} (h : Within P s0 s) (hp : sub 2273283 P) : Within P s0 (stageGroup s a1 a2) := by
  unfold stageGroup
  repeat' (first | with_reducible assumption | exact sub_of rfl | with_reducible refine writeT_within ?_ (sub_trans ?_ hp) | with_reducible refine Within.foldl ?_ (fun _ _ _ => ?_) | with_reducible refine Within.foldl_fst ?_ (fun _ _ _ => ?_) | (extract_lets +onlyGivenNames x; refine (fun (_ : Within P s0 x) => ?_) ?_; rotate_left; subst x; rotate_left; clear_value x) | (extract_lets +onlyGivenNames x; refine (fun (_ : Within P s0 x.1) => ?_) ?_; rotate_left; subst x; rotate_left; clear_value x) | (extract_lets +onlyGivenNames x; clear_value x))

theorem execStageGroup_within {P s0 s t a0 a1} (h : Within P s0 s) (hp : sub 2274127 P) (he : execStageGroup a0 a1 s = .next t) : Within P s0 t := by
  unfold execStageGroup at he; injection he with he; subst he
  repeat' (first | with_reducible assumption | exact sub_of rfl | with_reducible refine modJob_within ?_ (sub_trans ?_ hp) | with_reducible refine stagerFill_within ?_ (sub_trans ?_ hp) | with_reducible refine queueAllEncodes_within ?_ (sub_trans ?_ hp) | with_reducible refine serveDram_within ?_ (sub_trans ?_ hp) | with_reducible refine releaseStager_within ?_ (sub_trans ?_ hp) | with_reducible refine stageGroup_within ?_ (sub_trans ?_ hp) | with_reducible refine Within.ite ?_ ?_ | (extract_lets +onlyGivenNames x; refine (fun (_ : Within P s0 x) => ?_) ?_; rotate_left; subst x; rotate_left; clear_value x) | (extract_lets +onlyGivenNames x; clear_value x) | split)

theorem restoreSaved_within {P s0 s a1} (h : Within P s0 s) (hp : sub 235 P) : Within P s0 (restoreSaved s a1) := by
  unfold restoreSaved; try dsimp only
  repeat' (first | with_reducible assumption | exact sub_of rfl | with_reducible refine modJob_within ?_ (sub_trans ?_ hp) | with_reducible refine dropGddr_within ?_ (sub_trans ?_ hp) | with_reducible refine setCore_within ?_ (sub_trans ?_ hp) | with_reducible refine setByte_within ?_ (sub_trans ?_ hp) | with_reducible refine modSector_within ?_ (sub_trans ?_ hp) | with_reducible refine memRegs_within ?_ (sub_trans ?_ hp) | with_reducible refine Within.foldl ?_ (fun _ _ _ => ?_) | split | with_reducible refine Within.upd_sramPoison ?_ (sub_trans ?_ hp) ?_ | exact twf_tset _ _)

theorem execSwapIn_within {P s0 s t a0} (h : Within P s0 s) (hp : sub 2274047 P) (he : execSwapIn a0 s = .next t) : Within P s0 t := by
  unfold execSwapIn at he; injection he with he; subst he
  repeat' (first | with_reducible assumption | exact sub_of rfl | with_reducible refine restoreSaved_within ?_ (sub_trans ?_ hp) | with_reducible refine modSector_within ?_ (sub_trans ?_ hp) | with_reducible refine bump_within ?_ (sub_trans ?_ hp) | with_reducible refine placeModel_within ?_ (sub_trans ?_ hp) | with_reducible refine advance_within ?_ (sub_trans ?_ hp) | with_reducible refine dayEvent_within ?_ (sub_trans ?_ hp) | with_reducible refine modModel_within ?_ (sub_trans ?_ hp) | with_reducible refine serveDram_within ?_ (sub_trans ?_ hp) | with_reducible refine stageGroup_within ?_ (sub_trans ?_ hp) | with_reducible refine Within.foldl ?_ (fun _ _ _ => ?_) | with_reducible refine Within.foldl_fst ?_ (fun _ _ _ => ?_) | with_reducible refine Within.ite ?_ ?_ | (extract_lets +onlyGivenNames x; refine (fun (_ : Within P s0 x) => ?_) ?_; rotate_left; subst x; rotate_left; clear_value x) | (extract_lets +onlyGivenNames x; refine (fun (_ : Within P s0 x.1) => ?_) ?_; rotate_left; subst x; rotate_left; clear_value x) | (extract_lets +onlyGivenNames x; clear_value x) | split)

theorem execWeightReload_within {P s0 s t a0} (h : Within P s0 s) (hp : sub 2273299 P) (he : execWeightReload a0 s = .next t) : Within P s0 t := by
  unfold execWeightReload at he; injection he with he; subst he
  repeat' (first | with_reducible assumption | exact sub_of rfl | with_reducible refine setBadUnits_within ?_ (sub_trans ?_ hp) | with_reducible refine modelLost_within ?_ (sub_trans ?_ hp) | with_reducible refine bumpN_within ?_ (sub_trans ?_ hp) | with_reducible refine writeT_within ?_ (sub_trans ?_ hp) | with_reducible refine Within.foldl ?_ (fun _ _ _ => ?_) | with_reducible refine Within.foldl_fst ?_ (fun _ _ _ => ?_) | with_reducible refine Within.ite ?_ ?_ | (extract_lets +onlyGivenNames x; refine (fun (_ : Within P s0 x) => ?_) ?_; rotate_left; subst x; rotate_left; clear_value x) | (extract_lets +onlyGivenNames x; refine (fun (_ : Within P s0 x.1) => ?_) ?_; rotate_left; subst x; rotate_left; clear_value x) | (extract_lets +onlyGivenNames x; clear_value x) | split)

theorem execQuantumExpiry_within {P s0 s t a0} (h : Within P s0 s) (hp : sub 32 P) (he : execQuantumExpiry a0 s = .next t) : Within P s0 t := by
  unfold execQuantumExpiry at he; injection he with he; subst he
  repeat' (first | with_reducible assumption | exact sub_of rfl | with_reducible refine setSector_within ?_ (sub_trans ?_ hp) | with_reducible refine Within.ite ?_ ?_ | split)

theorem execSliceSuspend_within {P s0 s t a0} (h : Within P s0 s) (hp : sub 133355 P) (he : execSliceSuspend a0 s = .next t) : Within P s0 t := by
  unfold execSliceSuspend at he; injection he with he; subst he
  repeat' (first | with_reducible assumption | exact sub_of rfl | with_reducible refine bump_within ?_ (sub_trans ?_ hp) | with_reducible refine modJob_within ?_ (sub_trans ?_ hp) | with_reducible refine setWaiting_within ?_ (sub_trans ?_ hp) | with_reducible refine passTiles_within ?_ (sub_trans ?_ hp) | with_reducible refine memRegs_within ?_ (sub_trans ?_ hp) | with_reducible refine takeGddr_within ‹_› ?_ (sub_trans ?_ hp) | with_reducible refine setSector_within ?_ (sub_trans ?_ hp) | with_reducible refine Within.ite ?_ ?_ | (extract_lets +onlyGivenNames x; refine (fun (_ : Within P s0 x) => ?_) ?_; rotate_left; subst x; rotate_left; clear_value x) | (extract_lets +onlyGivenNames x; clear_value x) | split)

theorem fenceEvent_within {P s0 s a1 a2 a3 a4 a5 a6 a7} (h : Within P s0 s) (hp : sub 2097169 P) : Within P s0 (fenceEvent s a1 a2 a3 a4 a5 a6 a7) := by
  unfold fenceEvent
  repeat' (first | with_reducible assumption | exact sub_of rfl | with_reducible refine postEvent_within ?_ (sub_trans ?_ hp) | with_reducible refine Within.ite ?_ ?_ | (extract_lets +onlyGivenNames x; refine (fun (_ : Within P s0 x) => ?_) ?_; rotate_left; subst x; rotate_left; clear_value x) | (extract_lets +onlyGivenNames x; clear_value x) | split)

theorem reformSector_within {P s0 s a1} (h : Within P s0 s) (hp : sub 40 P) : Within P s0 (reformSector s a1) := by
  unfold reformSector
  repeat' (first | with_reducible assumption | exact sub_of rfl | with_reducible refine bindCores_within ?_ (sub_trans ?_ hp) | with_reducible refine unbindCores_within ?_ (sub_trans ?_ hp) | with_reducible refine setSector_within ?_ (sub_trans ?_ hp) | (extract_lets +onlyGivenNames x; refine (fun (_ : Within P s0 x) => ?_) ?_; rotate_left; subst x; rotate_left; clear_value x) | (extract_lets +onlyGivenNames x; clear_value x) | split)

theorem execSectorReform_within {P s0 s t a0} (h : Within P s0 s) (hp : sub 40 P) (he : execSectorReform a0 s = .next t) : Within P s0 t := by
  unfold execSectorReform at he; injection he with he; subst he
  repeat' (first | with_reducible assumption | exact sub_of rfl | with_reducible refine reformSector_within ?_ (sub_trans ?_ hp) | with_reducible refine Within.ite ?_ ?_ | split)

theorem execModelTileReplace_within {P s0 s t a0 a1 a2} (h : Within P s0 s) (hp : sub 2230329 P) (he : execModelTileReplace a0 a1 a2 s = .next t) : Within P s0 t := by
  unfold execModelTileReplace at he; injection he with he; subst he
  repeat' (first | with_reducible assumption | exact sub_of rfl | with_reducible refine reformSector_within ?_ (sub_trans ?_ hp) | with_reducible refine modModel_within ?_ (sub_trans ?_ hp) | with_reducible refine zeroTiles_within ?_ (sub_trans ?_ hp) | with_reducible refine fenceEvent_within ?_ (sub_trans ?_ hp) | with_reducible refine updateSector_within ?_ (sub_trans ?_ hp) | with_reducible refine setSector_within ?_ (sub_trans ?_ hp) | with_reducible refine Within.ite ?_ ?_ | (extract_lets +onlyGivenNames x; refine (fun (_ : Within P s0 x) => ?_) ?_; rotate_left; subst x; rotate_left; clear_value x) | (extract_lets +onlyGivenNames x; clear_value x) | split)

theorem dropModel_within {P s0 s a1 a2} (h : Within P s0 s) (hp : sub 133305 P) : Within P s0 (dropModel s a1 a2) := by
  unfold dropModel
  repeat' (first | with_reducible assumption | exact sub_of rfl | with_reducible refine regSetFld_within ?_ (sub_trans ?_ hp) | with_reducible refine dropGddr_within ?_ (sub_trans ?_ hp) | with_reducible refine releaseSector_within ?_ (sub_trans ?_ hp) | with_reducible refine modModel_within ?_ (sub_trans ?_ hp) | with_reducible refine memRegs_within ?_ (sub_trans ?_ hp) | (extract_lets +onlyGivenNames x; refine (fun (_ : Within P s0 x) => ?_) ?_; rotate_left; subst x; rotate_left; clear_value x) | (extract_lets +onlyGivenNames x; clear_value x))

theorem installModel_within {P s0 s a1 a2 a3 a4 a5 a6 a7} (h : Within P s0 s) (hp : sub 2275515 P) : Within P s0 (installModel s a1 a2 a3 a4 a5 a6 a7) := by
  unfold installModel
  split
  · exact h
  · rename_i e t0 hg
    have h_t0 : Within P s0 t0 := takeGddr_within hg h (sub_trans (sub_of rfl) hp)
    extract_lets old t1 formed o
    have h_t1 : Within P s0 t1 := by dsimp only [t1]; repeat' (first | with_reducible assumption | exact sub_of rfl | with_reducible refine writeT_within ?_ (sub_trans ?_ hp))
    clear_value t1
    have hform : ∀ n t, formed = some (n, t) → Within P s0 t := by
      intro n t hf
      dsimp only [formed] at hf; split at hf
      · simp only [Option.some.injEq] at hf; exact formSector_within' hf h_t1 (sub_trans (sub_of rfl) hp)
      · exact formShadow_within hf h_t1 (sub_trans (sub_of rfl) hp)
      · cases hf
    clear_value formed
    split
    · exact h
    · rename_i n t2
      have h_t2 : Within P s0 t2 := hform _ _ rfl
      extract_lets ts q t3 t4 t5 t6
      have h_t3 : Within P s0 t3 := by dsimp only [t3]; repeat' (first | with_reducible assumption | exact sub_of rfl | with_reducible refine dropGddr_within ?_ (sub_trans ?_ hp) | with_reducible refine releaseSector_within ?_ (sub_trans ?_ hp) | with_reducible refine Within.ite ?_ ?_)
      clear_value t3
      have h_t4 : Within P s0 t4 := by dsimp only [t4]; repeat' (first | with_reducible assumption | exact sub_of rfl | with_reducible refine modModel_within ?_ (sub_trans ?_ hp))
      clear_value t4
      have h_t5 : Within P s0 t5 := by dsimp only [t5]; repeat' (first | with_reducible assumption | exact sub_of rfl | with_reducible refine regSetFld_within ?_ (sub_trans ?_ hp))
      clear_value t5
      have h_t6 : Within P s0 t6 := by dsimp only [t6]; repeat' (first | with_reducible assumption | exact sub_of rfl | with_reducible refine placeModel_within ?_ (sub_trans ?_ hp) | split)
      clear_value t6
      repeat' (first | with_reducible assumption | exact sub_of rfl | with_reducible refine memRegs_within ?_ (sub_trans ?_ hp))

end Sys2Proof.Machine
end

