-- ==== Sys2Proof/Laws/WithinLoads.lean ====
section
/-! SUPPORT. What each operation of Machine/Loads.lean may change (see Within.lean). -/

namespace Sys2Proof.Machine

theorem dropXfer_within {P s0 s a1} (h : Within P s0 s) (hp : sub 1024 P) : Within P s0 (dropXfer s a1) := by
  unfold dropXfer
  repeat' (first | with_reducible assumption | exact sub_of rfl | with_reducible refine Within.upd_xfers ?_ (sub_trans ?_ hp))

theorem holdObject_within {P s0 s a1 a2} (h : Within P s0 s) (hp : sub 1040 P) : Within P s0 (holdObject s a1 a2) := by
  unfold holdObject
  repeat' (first | with_reducible assumption | exact sub_of rfl | with_reducible refine setPhase_within ?_ (sub_trans ?_ hp) | with_reducible refine Within.upd_xfers_xferSeq ?_ (sub_trans ?_ hp) | (extract_lets +onlyGivenNames x; refine (fun (_ : Within P s0 x) => ?_) ?_; rotate_left; subst x; rotate_left; clear_value x) | (extract_lets +onlyGivenNames x; clear_value x))

theorem fetchObject_within {P s0 s a1 a2} (h : Within P s0 s) (hp : sub 2799135 P) : Within P s0 (fetchObject s a1 a2) := by
  unfold fetchObject
  repeat' (first | with_reducible assumption | exact sub_of rfl | with_reducible refine failDesc_within ?_ (sub_trans ?_ hp) | with_reducible refine engineAccess_within ?_ (sub_trans ?_ hp) | with_reducible refine startXfer_within ?_ (sub_trans ?_ hp) | with_reducible refine holdObject_within ?_ (sub_trans ?_ hp) | with_reducible refine Within.ite ?_ ?_ | (extract_lets +onlyGivenNames x; refine (fun (_ : Within P s0 x) => ?_) ?_; rotate_left; subst x; rotate_left; clear_value x) | (extract_lets +onlyGivenNames x; clear_value x) | split)

theorem endLoad_within {P s0 s a1 a2 a3} (h : Within P s0 s) (hp : sub 2622481 P) : Within P s0 (endLoad s a1 a2 a3) := by
  unfold endLoad
  repeat' (first | with_reducible assumption | exact sub_of rfl | with_reducible refine completeWith_within ?_ (sub_trans ?_ hp) | with_reducible refine dropXfer_within ?_ (sub_trans ?_ hp))

theorem loadRow_within {P s0 s t len check finish f r i} (hc : ∀ s d b, Within P s0 s → Within P s0 (check s d b))
    (hf : ∀ s d n b, Within P s0 s → Within P s0 (finish s d n b)) (h : Within P s0 s) (hp : sub 2799135 P) :
    Within P s0 (loadRow t len check finish f r i s) := by
  unfold loadRow
  split
  · exact h
  · extract_lets t1
    have h_t1 : Within P s0 t1 := by dsimp only [t1]; repeat' (first | with_reducible assumption | exact sub_of rfl | with_reducible refine fetchObject_within ?_ (sub_trans ?_ hp) | with_reducible refine Within.ite ?_ ?_)
    clear_value t1
    split
    · exact h_t1
    · split
      · exact hc _ _ _ h_t1
      · exact hf _ _ _ _ h_t1
      · exact h_t1

theorem paramRegs_within {P s0 s a1 a2 a3 a4 a5} (h : Within P s0 s) (hp : sub 1 P) : Within P s0 (paramRegs s a1 a2 a3 a4 a5) := by
  unfold paramRegs
  repeat' (first | with_reducible assumption | exact sub_of rfl | with_reducible refine regSetFld_within ?_ (sub_trans ?_ hp) | with_reducible refine Within.ite ?_ ?_ | (extract_lets +onlyGivenNames x; refine (fun (_ : Within P s0 x) => ?_) ?_; rotate_left; subst x; rotate_left; clear_value x) | (extract_lets +onlyGivenNames x; clear_value x) | split)

theorem setParam_within {P s0 s a1 a2 a3} (h : Within P s0 s) (hp : sub 16 P) : Within P s0 (setParam s a1 a2 a3) := by
  unfold setParam
  repeat' (first | with_reducible assumption | exact sub_of rfl | with_reducible refine modFn_within ?_ (sub_trans ?_ hp))

theorem installParams_within {P s0 s a1 a2 a3 a4} (h : Within P s0 s) (hp : sub 2626707 P) : Within P s0 (installParams s a1 a2 a3 a4) := by
  unfold installParams
  repeat' (first | with_reducible assumption | exact sub_of rfl | with_reducible refine dropHbm_within ?_ (sub_trans ?_ hp) | with_reducible refine hbmRegs_within ?_ (sub_trans ?_ hp) | with_reducible refine setParam_within ?_ (sub_trans ?_ hp) | with_reducible refine bump_within ?_ (sub_trans ?_ hp) | with_reducible refine paramRegs_within ?_ (sub_trans ?_ hp) | with_reducible refine dayEvent_within ?_ (sub_trans ?_ hp) | with_reducible refine setBytes_within ?_ (sub_trans ?_ hp) | with_reducible refine endLoad_within ?_ (sub_trans ?_ hp) | with_reducible refine Within.foldl ?_ (fun _ _ _ => ?_) | with_reducible refine Within.foldl_fst ?_ (fun _ _ _ => ?_) | with_reducible refine Within.ite ?_ ?_ | (extract_lets +onlyGivenNames x; refine (fun (_ : Within P s0 x) => ?_) ?_; rotate_left; subst x; rotate_left; clear_value x) | (extract_lets +onlyGivenNames x; clear_value x) | split)

theorem checkParams_within {P s0 s a1 a2} (h : Within P s0 s) (hp : sub 2626707 P) : Within P s0 (checkParams s a1 a2) := by
  unfold checkParams
  extract_lets f n o st
  split
  · exact endLoad_within h (sub_trans (sub_of rfl) hp)
  · split
    · exact endLoad_within h (sub_trans (sub_of rfl) hp)
    · rename_i hq
      have k := takeHbm_within hq h (sub_trans (sub_of rfl) hp)
      split
      · exact endLoad_within h (sub_trans (sub_of rfl) hp)
      · exact installParams_within k (sub_trans (sub_of rfl) hp)

theorem execLoadParams_within {P s0 s t a0 a1 a2} (h : Within P s0 s) (hp : sub 2799263 P) (he : execLoadParams a0 a1 a2 s = .next t) : Within P s0 t := by
  unfold execLoadParams at he; injection he with he; subst he; try dsimp only
  repeat' (first | with_reducible assumption | exact sub_of rfl | with_reducible refine checkParams_within ?_ (sub_trans ?_ hp) | refine loadRow_within (fun _ _ _ _ => ?_) (fun _ _ _ _ _ => ?_) ?_ (sub_trans ?_ hp))

theorem setKeys_within {P s0 s a1 a2 a3} (h : Within P s0 s) (hp : sub 16 P) : Within P s0 (setKeys s a1 a2 a3) := by
  unfold setKeys
  repeat' (first | with_reducible assumption | exact sub_of rfl | with_reducible refine modFn_within ?_ (sub_trans ?_ hp))

theorem setTabs_within {P s0 s a1 a2 a3} (h : Within P s0 s) (hp : sub 16 P) : Within P s0 (setTabs s a1 a2 a3) := by
  unfold setTabs
  repeat' (first | with_reducible assumption | exact sub_of rfl | with_reducible refine modFn_within ?_ (sub_trans ?_ hp))

theorem keyLoadedReg_within {P s0 s a1 a2 a3} (h : Within P s0 s) (hp : sub 1 P) : Within P s0 (keyLoadedReg s a1 a2 a3) := by
  unfold keyLoadedReg
  repeat' (first | with_reducible assumption | exact sub_of rfl | with_reducible refine regSetFld_within ?_ (sub_trans ?_ hp) | with_reducible refine Within.ite ?_ ?_ | split)

theorem keyPoisonReg_within {P s0 s a1 a2 a3} (h : Within P s0 s) (hp : sub 1 P) : Within P s0 (keyPoisonReg s a1 a2 a3) := by
  unfold keyPoisonReg
  repeat' (first | with_reducible assumption | exact sub_of rfl | with_reducible refine regSetFld_within ?_ (sub_trans ?_ hp) | with_reducible refine Within.ite ?_ ?_ | split)

theorem repairKeys_within {P s0 s a1 a2 a3} (h : Within P s0 s) (hp : sub 2798611 P) : Within P s0 (repairKeys s a1 a2 a3) := by
  unfold repairKeys
  repeat' (first | with_reducible assumption | exact sub_of rfl | with_reducible refine setKeys_within ?_ (sub_trans ?_ hp) | with_reducible refine bump_within ?_ (sub_trans ?_ hp) | with_reducible refine endLoad_within ?_ (sub_trans ?_ hp) | with_reducible refine keyPoisonReg_within ?_ (sub_trans ?_ hp) | with_reducible refine writeT_within ?_ (sub_trans ?_ hp) | with_reducible refine Within.foldl ?_ (fun _ _ _ => ?_) | with_reducible refine Within.foldl_fst ?_ (fun _ _ _ => ?_) | (extract_lets +onlyGivenNames x; refine (fun (_ : Within P s0 x) => ?_) ?_; rotate_left; subst x; rotate_left; clear_value x) | (extract_lets +onlyGivenNames x; clear_value x) | split)

theorem placeKeys_within {P s0 s a1 a2} (h : Within P s0 s) (hp : sub 2798739 P) : Within P s0 (placeKeys s a1 a2) := by
  unfold placeKeys
  repeat' (first | with_reducible assumption | exact sub_of rfl | with_reducible refine dropHbm_within ?_ (sub_trans ?_ hp) | with_reducible refine hbmRegs_within ?_ (sub_trans ?_ hp) | with_reducible refine setKeys_within ?_ (sub_trans ?_ hp) | with_reducible refine putShares_within ?_ (sub_trans ?_ hp) | with_reducible refine takeHbm_within ‹_› ?_ (sub_trans ?_ hp) | with_reducible refine keyLoadedReg_within ?_ (sub_trans ?_ hp) | with_reducible refine repairKeys_within ?_ (sub_trans ?_ hp) | with_reducible refine endLoad_within ?_ (sub_trans ?_ hp) | with_reducible refine keyPoisonReg_within ?_ (sub_trans ?_ hp) | with_reducible refine Within.ite ?_ ?_ | (extract_lets +onlyGivenNames x; refine (fun (_ : Within P s0 x) => ?_) ?_; rotate_left; subst x; rotate_left; clear_value x) | (extract_lets +onlyGivenNames x; clear_value x) | split)

theorem checkTables_within {P s0 s a1 a2} (h : Within P s0 s) (hp : sub 2798739 P) : Within P s0 (checkTables s a1 a2) := by
  unfold checkTables
  repeat' (first | with_reducible assumption | exact sub_of rfl | with_reducible refine dropHbm_within ?_ (sub_trans ?_ hp) | with_reducible refine hbmRegs_within ?_ (sub_trans ?_ hp) | with_reducible refine putShares_within ?_ (sub_trans ?_ hp) | with_reducible refine regSetFld_within ?_ (sub_trans ?_ hp) | with_reducible refine takeHbm_within ‹_› ?_ (sub_trans ?_ hp) | with_reducible refine endLoad_within ?_ (sub_trans ?_ hp) | with_reducible refine setTabs_within ?_ (sub_trans ?_ hp) | with_reducible refine Within.ite ?_ ?_ | (extract_lets +onlyGivenNames x; refine (fun (_ : Within P s0 x) => ?_) ?_; rotate_left; subst x; rotate_left; clear_value x) | (extract_lets +onlyGivenNames x; clear_value x) | split)

theorem sigReject_within {P s0 s a1} (h : Within P s0 s) (hp : sub 2622481 P) : Within P s0 (sigReject s a1) := by
  unfold sigReject
  repeat' (first | with_reducible assumption | exact sub_of rfl | with_reducible refine bump_within ?_ (sub_trans ?_ hp) | with_reducible refine endLoad_within ?_ (sub_trans ?_ hp))

theorem checkKeys_within {P s0 s a1 a2} (h : Within P s0 s) (hp : sub 3060947 P) : Within P s0 (checkKeys s a1 a2) := by
  unfold checkKeys
  repeat' (first | with_reducible assumption | exact sub_of rfl | with_reducible refine pkeSubmit_within ?_ (sub_trans ?_ hp) | with_reducible refine sigReject_within ?_ (sub_trans ?_ hp) | with_reducible refine checkTables_within ?_ (sub_trans ?_ hp) | with_reducible refine setPhase_within ?_ (sub_trans ?_ hp) | with_reducible refine endLoad_within ?_ (sub_trans ?_ hp) | with_reducible refine hashSubmit_within ?_ (sub_trans ?_ hp) | with_reducible refine placeKeys_within ?_ (sub_trans ?_ hp) | with_reducible refine Within.foldl ?_ (fun _ _ _ => ?_) | with_reducible refine Within.foldl_fst ?_ (fun _ _ _ => ?_) | with_reducible refine Within.ite ?_ ?_ | (extract_lets +onlyGivenNames x; refine (fun (_ : Within P s0 x) => ?_) ?_; rotate_left; subst x; rotate_left; clear_value x) | (extract_lets +onlyGivenNames x; clear_value x) | split)

theorem finishKeys_within {P s0 s a1 a2 a3} (h : Within P s0 s) (hp : sub 2798739 P) : Within P s0 (finishKeys s a1 a2 a3) := by
  unfold finishKeys
  repeat' (first | with_reducible assumption | exact sub_of rfl | with_reducible refine bump_within ?_ (sub_trans ?_ hp) | with_reducible refine sigReject_within ?_ (sub_trans ?_ hp) | with_reducible refine endLoad_within ?_ (sub_trans ?_ hp) | with_reducible refine placeKeys_within ?_ (sub_trans ?_ hp) | with_reducible refine Within.ite ?_ ?_ | (extract_lets +onlyGivenNames x; refine (fun (_ : Within P s0 x) => ?_) ?_; rotate_left; subst x; rotate_left; clear_value x) | (extract_lets +onlyGivenNames x; clear_value x) | split)

theorem execLoadKeys_within {P s0 s t a0 a1 a2} (h : Within P s0 s) (hp : sub 3061471 P) (he : execLoadKeys a0 a1 a2 s = .next t) : Within P s0 t := by
  unfold execLoadKeys at he; injection he with he; subst he; try dsimp only
  repeat' (first | with_reducible assumption | exact sub_of rfl | refine loadRow_within (fun _ _ _ _ => ?_) (fun _ _ _ _ _ => ?_) ?_ (sub_trans ?_ hp) | with_reducible refine checkKeys_within ?_ (sub_trans ?_ hp) | with_reducible refine finishKeys_within ?_ (sub_trans ?_ hp))

theorem placeBlob_within {P s0 s a1 a2 a3 a4} (h : Within P s0 s) (hp : sub 2800827 P) : Within P s0 (placeBlob s a1 a2 a3 a4) := by
  have hq {x st n} : Within P s0 x → Within P s0 (endLoad x a1 st n) := fun k => endLoad_within k (sub_trans (sub_of rfl) hp)
  unfold placeBlob
  extract_lets f m hh st
  split
  · exact hq h
  · split
    split
    · exact hq (countOutcome_within h (sub_trans (sub_of rfl) hp))
    · split
      · exact hq h
      · split
        · exact hq h
        · split
          · split
            · exact h
            · exact hq (installModel_within h (sub_trans (sub_of rfl) hp))
          · split
            · exact h
            · exact hq (installModel_within h (sub_trans (sub_of rfl) hp))

theorem checkModel_within {P s0 s a1 a2} (h : Within P s0 s) (hp : sub 3063035 P) : Within P s0 (checkModel s a1 a2) := by
  unfold checkModel
  repeat' (first | with_reducible assumption | exact sub_of rfl | with_reducible refine pkeSubmit_within ?_ (sub_trans ?_ hp) | with_reducible refine setPhase_within ?_ (sub_trans ?_ hp) | with_reducible refine placeBlob_within ?_ (sub_trans ?_ hp) | with_reducible refine endLoad_within ?_ (sub_trans ?_ hp) | with_reducible refine takeGddr_within ‹_› ?_ (sub_trans ?_ hp) | with_reducible refine hashSubmit_within ?_ (sub_trans ?_ hp) | with_reducible refine Within.foldl ?_ (fun _ _ _ => ?_) | with_reducible refine Within.foldl_fst ?_ (fun _ _ _ => ?_) | with_reducible refine Within.ite ?_ ?_ | (extract_lets +onlyGivenNames x; refine (fun (_ : Within P s0 x) => ?_) ?_; rotate_left; subst x; rotate_left; clear_value x) | (extract_lets +onlyGivenNames x; clear_value x) | split)

theorem finishModel_within {P s0 s a1 a2 a3} (h : Within P s0 s) (hp : sub 2800827 P) : Within P s0 (finishModel s a1 a2 a3) := by
  unfold finishModel
  repeat' (first | with_reducible assumption | exact sub_of rfl | with_reducible refine bump_within ?_ (sub_trans ?_ hp) | with_reducible refine placeBlob_within ?_ (sub_trans ?_ hp) | with_reducible refine endLoad_within ?_ (sub_trans ?_ hp) | with_reducible refine takeGddr_within ‹_› ?_ (sub_trans ?_ hp) | with_reducible refine Within.ite ?_ ?_ | (extract_lets +onlyGivenNames x; refine (fun (_ : Within P s0 x) => ?_) ?_; rotate_left; subst x; rotate_left; clear_value x) | (extract_lets +onlyGivenNames x; clear_value x) | split)

theorem execLoadModel_within {P s0 s t a0 a1 a2} (h : Within P s0 s) (hp : sub 3063551 P) (he : execLoadModel a0 a1 a2 s = .next t) : Within P s0 t := by
  unfold execLoadModel at he; injection he with he; subst he; try dsimp only
  repeat' (first | with_reducible assumption | exact sub_of rfl | refine loadRow_within (fun _ _ _ _ => ?_) (fun _ _ _ _ _ => ?_) ?_ (sub_trans ?_ hp) | with_reducible refine checkModel_within ?_ (sub_trans ?_ hp) | with_reducible refine finishModel_within ?_ (sub_trans ?_ hp))

end Sys2Proof.Machine
end

