-- ==== Sys2Proof/Laws/WithinTime.lean ====
section
/-! SUPPORT. What each operation of Machine/Time.lean may change (see Within.lean). -/

namespace Sys2Proof.Machine

theorem bankRegs_within {P s0 s} (h : Within P s0 s) (hp : sub 1 P) : Within P s0 (bankRegs s) := by
  unfold bankRegs
  repeat' (first | with_reducible assumption | exact sub_of rfl | with_reducible refine regSetFld_within ?_ (sub_trans ?_ hp) | with_reducible refine Within.foldl ?_ (fun _ _ _ => ?_) | with_reducible refine Within.foldl_fst ?_ (fun _ _ _ => ?_))

theorem setBank_within {P s0 s a1 a2} (h : Within P s0 s) (hp : sub 131073 P) : Within P s0 (setBank s a1 a2) := by
  unfold setBank
  repeat' (first | with_reducible assumption | exact sub_of rfl | with_reducible refine bankRegs_within ?_ (sub_trans ?_ hp) | with_reducible refine Within.upd_sched ?_ (sub_trans ?_ hp))

theorem takeStrobe_within {P s0 s} (h : Within P s0 s) (hp : sub 131073 P) : Within P s0 (takeStrobe s) := by
  unfold takeStrobe; try dsimp only
  repeat' (first | with_reducible assumption | exact sub_of rfl | with_reducible refine setBank_within ?_ (sub_trans ?_ hp) | with_reducible refine regSetPair_within ?_ (sub_trans ?_ hp) | split | with_reducible refine Within.upd_sched ?_ (sub_trans ?_ hp))

theorem sendDigest_within {P s0 s} (h : Within P s0 s) (hp : sub 524288 P) : Within P s0 (sendDigest s) := by
  unfold sendDigest
  repeat' (first | with_reducible assumption | exact sub_of rfl | with_reducible refine pairSend_within ?_ (sub_trans ?_ hp) | with_reducible refine Within.upd_fab ?_ (sub_trans ?_ hp))

theorem dropHold_within {P s0 s a1 a2} (h : Within P s0 s) (hp : sub 131072 P) : Within P s0 (dropHold s a1 a2) := by
  unfold dropHold
  repeat' (first | with_reducible assumption | exact sub_of rfl | with_reducible refine Within.upd_sched ?_ (sub_trans ?_ hp))

theorem schedFail_within {P s0 s a1 a2 a3} (h : Within P s0 s) (hp : sub 2752529 P) : Within P s0 (schedFail s a1 a2 a3) := by
  unfold schedFail
  repeat' (first | with_reducible assumption | exact sub_of rfl | with_reducible refine countOutcome_within ?_ (sub_trans ?_ hp) | with_reducible refine schedEnd_within ?_ (sub_trans ?_ hp))

theorem fireAction_within {P s0 s a1 a2} (h : Within P s0 s) (hp : sub 2822161 P) : Within P s0 (fireAction s a1 a2) := by
  have hq {x n st} : Within P s0 x → Within P s0 (schedEnd x n st) := fun k => schedEnd_within k (sub_trans (sub_of rfl) hp)
  have hf {x n e st} : Within P s0 x → Within P s0 (schedFail x n e st) := fun k => schedFail_within k (sub_trans (sub_of rfl) hp)
  unfold fireAction
  split
  · split
    · exact hq h
    · exact hq (Within.upd_sched h (sub_trans (sub_of rfl) hp))
  · split
    · exact hq h
    · exact hq (dropHold_within h (sub_trans (sub_of rfl) hp))
  · split
    · extract_lets s1
      have k : Within P s0 s1 := takeStrobe_within h (sub_trans (sub_of rfl) hp)
      clear_value s1
      split
      split
      · exact hf k
      · split
        · exact hq k
        · exact setBank_within k (sub_trans (sub_of rfl) hp)
    · exact hq (bump_within h (sub_trans (sub_of rfl) hp))
  · extract_lets sec
    split
    · split
      · exact hq (regSet_within h (sub_trans (sub_of rfl) hp))
      · exact hf h
    · exact hf h
  · split
    · exact hq (sendDigest_within h (sub_trans (sub_of rfl) hp))
    · exact hq h
  · exact mntRequest_within h (sub_trans (sub_of rfl) hp)
  · exact hq h

theorem fireEntry_within {P s0 s a1} (h : Within P s0 s) (hp : sub 2822161 P) : Within P s0 (fireEntry s a1) := by
  unfold fireEntry; try dsimp only
  repeat' (first | with_reducible assumption | exact sub_of rfl | with_reducible refine setSched_within ?_ (sub_trans ?_ hp) | with_reducible refine fireAction_within ?_ (sub_trans ?_ hp) | with_reducible refine regSetFld_within ?_ (sub_trans ?_ hp) | with_reducible refine bump_within ?_ (sub_trans ?_ hp) | with_reducible refine Within.ite ?_ ?_ | split)

theorem freeBanks_within {P s0 s} (h : Within P s0 s) (hp : sub 131073 P) : Within P s0 (freeBanks s) := by
  unfold freeBanks
  repeat' (first | with_reducible assumption | exact sub_of rfl | with_reducible refine setBank_within ?_ (sub_trans ?_ hp) | with_reducible refine Within.foldl ?_ (fun _ _ _ => ?_) | with_reducible refine Within.foldl_fst ?_ (fun _ _ _ => ?_) | with_reducible refine Within.ite ?_ ?_ | split)

theorem tickWalk_within {P s0 s} (h : Within P s0 s) (hp : sub 131657 P) : Within P s0 (tickWalk s) := by
  unfold tickWalk
  repeat' (first | with_reducible assumption | exact sub_of rfl | with_reducible refine freeBanks_within ?_ (sub_trans ?_ hp) | with_reducible refine countWaits_within ?_ (sub_trans ?_ hp) | with_reducible refine admitWalk_within ?_ (sub_trans ?_ hp) | with_reducible refine Within.ite ?_ ?_ | with_reducible refine Within.upd_sched ?_ (sub_trans ?_ hp) | split)

theorem finishTick_within {P s0 s} (h : Within P s0 s) (hp : sub 2822745 P) : Within P s0 (finishTick s) := by
  unfold finishTick
  repeat' (first | with_reducible assumption | exact sub_of rfl | with_reducible refine fireEntry_within ?_ (sub_trans ?_ hp) | with_reducible refine tickWalk_within ?_ (sub_trans ?_ hp) | with_reducible refine Within.foldl ?_ (fun _ _ _ => ?_) | with_reducible refine Within.foldl_fst ?_ (fun _ _ _ => ?_) | with_reducible refine Within.ite ?_ ?_ | (extract_lets +onlyGivenNames x; refine (fun (_ : Within P s0 x) => ?_) ?_; rotate_left; subst x; rotate_left; clear_value x) | (extract_lets +onlyGivenNames x; clear_value x) | split)

theorem fireRow_within {P s0 s t a0 a1} (h : Within P s0 s) (hp : sub 2822161 P) (he : fireRow a0 a1 s = .next t) : Within P s0 t := by
  unfold fireRow at he; injection he with he; subst he
  repeat' (first | with_reducible assumption | exact sub_of rfl | with_reducible refine fireEntry_within ?_ (sub_trans ?_ hp) | with_reducible refine Within.ite ?_ ?_ | split)

theorem execRingHold_within {P s0 s t a0} (h : Within P s0 s) (hp : sub 2822161 P) (he : execRingHold a0 s = .next t) : Within P s0 t :=
  fireRow_within h hp he

theorem execRingRelease_within {P s0 s t a0} (h : Within P s0 s) (hp : sub 2822161 P) (he : execRingRelease a0 s = .next t) : Within P s0 t :=
  fireRow_within h hp he

theorem execCapture_within {P s0 s t a0} (h : Within P s0 s) (hp : sub 2822161 P) (he : execCapture a0 s = .next t) : Within P s0 t :=
  fireRow_within h hp he

theorem execPace_within {P s0 s t a0} (h : Within P s0 s) (hp : sub 2822161 P) (he : execPace a0 s = .next t) : Within P s0 t :=
  fireRow_within h hp he

theorem execCheckpoint_within {P s0 s t a0} (h : Within P s0 s) (hp : sub 2822161 P) (he : execCheckpoint a0 s = .next t) : Within P s0 t :=
  fireRow_within h hp he

theorem execMaintenance_within {P s0 s t a0} (h : Within P s0 s) (hp : sub 2822161 P) (he : execMaintenance a0 s = .next t) : Within P s0 t :=
  fireRow_within h hp he

theorem execMark_within {P s0 s t a0} (h : Within P s0 s) (hp : sub 2822161 P) (he : execMark a0 s = .next t) : Within P s0 t :=
  fireRow_within h hp he

theorem execCaptureGatherEnd_within {P s0 s t a0} (h : Within P s0 s) (hp : sub 2798111 P) (he : execCaptureGatherEnd a0 s = .next t) : Within P s0 t := by
  unfold execCaptureGatherEnd at he; injection he with he; subst he
  repeat' (first | with_reducible assumption | exact sub_of rfl | with_reducible refine setBank_within ?_ (sub_trans ?_ hp) | with_reducible refine engineAccess_within ?_ (sub_trans ?_ hp) | with_reducible refine writeT_within ?_ (sub_trans ?_ hp) | with_reducible refine schedFail_within ?_ (sub_trans ?_ hp) | with_reducible refine Within.ite ?_ ?_ | (extract_lets +onlyGivenNames x; refine (fun (_ : Within P s0 x) => ?_) ?_; rotate_left; subst x; rotate_left; clear_value x) | (extract_lets +onlyGivenNames x; clear_value x) | split)

theorem execAdmissionWalk_within {P s0 s t} (h : Within P s0 s) (hp : sub 131657 P) (he : execAdmissionWalk s = .next t) : Within P s0 t := by
  unfold execAdmissionWalk at he; injection he with he; subst he
  repeat' (first | with_reducible assumption | exact sub_of rfl | with_reducible refine tickWalk_within ?_ (sub_trans ?_ hp) | with_reducible refine Within.ite ?_ ?_ | split)

theorem forwardTick_within {P s0 s a1 a2} (h : Within P s0 s) (hp : sub 524288 P) : Within P s0 (forwardTick s a1 a2) := by
  unfold forwardTick
  repeat' (first | with_reducible assumption | exact sub_of rfl | with_reducible refine modPort_within ?_ (sub_trans ?_ hp) | with_reducible refine Within.foldl ?_ (fun _ _ _ => ?_) | with_reducible refine Within.foldl_fst ?_ (fun _ _ _ => ?_) | (extract_lets +onlyGivenNames x; refine (fun (_ : Within P s0 x) => ?_) ?_; rotate_left; subst x; rotate_left; clear_value x) | (extract_lets +onlyGivenNames x; clear_value x))

theorem countFns_within {P s0 s a1 a2} (h : Within P s0 s) (hp : sub 1 P) : Within P s0 (countFns s a1 a2) := by
  unfold countFns
  repeat' (first | with_reducible assumption | exact sub_of rfl | with_reducible refine bump_within ?_ (sub_trans ?_ hp) | with_reducible refine Within.foldl ?_ (fun _ _ _ => ?_) | with_reducible refine Within.foldl_fst ?_ (fun _ _ _ => ?_))

theorem swapTicks_within {P s0 s} (h : Within P s0 s) (hp : sub 64 P) : Within P s0 (swapTicks s) := by
  unfold swapTicks
  repeat' (first | with_reducible assumption | exact sub_of rfl | with_reducible refine modJob_within ?_ (sub_trans ?_ hp) | with_reducible refine Within.foldl ?_ (fun _ _ _ => ?_) | with_reducible refine Within.foldl_fst ?_ (fun _ _ _ => ?_) | with_reducible refine Within.ite ?_ ?_ | split)

theorem countHeld_within {P s0 s} (h : Within P s0 s) (hp : sub 65 P) : Within P s0 (countHeld s) := by
  unfold countHeld
  repeat' (first | with_reducible assumption | exact sub_of rfl | with_reducible refine bump_within ?_ (sub_trans ?_ hp) | with_reducible refine modJob_within ?_ (sub_trans ?_ hp) | with_reducible refine countFns_within ?_ (sub_trans ?_ hp) | with_reducible refine swapTicks_within ?_ (sub_trans ?_ hp) | with_reducible refine Within.foldl ?_ (fun _ _ _ => ?_) | with_reducible refine Within.foldl_fst ?_ (fun _ _ _ => ?_) | with_reducible refine Within.ite ?_ ?_ | (extract_lets +onlyGivenNames x; refine (fun (_ : Within P s0 x) => ?_) ?_; rotate_left; subst x; rotate_left; clear_value x) | (extract_lets +onlyGivenNames x; clear_value x) | split)

theorem markDue_within {P s0 s} (h : Within P s0 s) (hp : sub 2752529 P) : Within P s0 (markDue s) := by
  unfold markDue
  repeat' (first | with_reducible assumption | exact sub_of rfl | with_reducible refine bump_within ?_ (sub_trans ?_ hp) | with_reducible refine setSched_within ?_ (sub_trans ?_ hp) | with_reducible refine schedEnd_within ?_ (sub_trans ?_ hp) | with_reducible refine Within.foldl ?_ (fun _ _ _ => ?_) | with_reducible refine Within.foldl_fst ?_ (fun _ _ _ => ?_) | with_reducible refine Within.ite ?_ ?_ | split)

theorem handoverStep_within {P s0 s} (h : Within P s0 s) (hp : sub 524289 P) : Within P s0 (handoverStep s) := by
  unfold handoverStep
  repeat' (first | with_reducible assumption | exact sub_of rfl | with_reducible refine regSetFld_within ?_ (sub_trans ?_ hp) | with_reducible refine sendDigest_within ?_ (sub_trans ?_ hp) | with_reducible refine takeoverOn_within ?_ (sub_trans ?_ hp) | with_reducible refine Within.ite ?_ ?_ | with_reducible refine Within.upd_fab ?_ (sub_trans ?_ hp) | (extract_lets +onlyGivenNames x; refine (fun (_ : Within P s0 x) => ?_) ?_; rotate_left; subst x; rotate_left; clear_value x) | (extract_lets +onlyGivenNames x; clear_value x) | split)

theorem rerunStep_within {P s0 s} (h : Within P s0 s) (hp : sub 2621457 P) : Within P s0 (rerunStep s) := by
  unfold rerunStep
  repeat' (first | with_reducible assumption | exact sub_of rfl | with_reducible refine postEvent_within ?_ (sub_trans ?_ hp) | with_reducible refine Within.foldl ?_ (fun _ _ _ => ?_) | with_reducible refine Within.foldl_fst ?_ (fun _ _ _ => ?_) | with_reducible refine Within.ite ?_ ?_ | with_reducible refine Within.upd_fab ?_ (sub_trans ?_ hp) | (extract_lets +onlyGivenNames x; refine (fun (_ : Within P s0 x) => ?_) ?_; rotate_left; subst x; rotate_left; clear_value x) | (extract_lets +onlyGivenNames x; refine (fun (_ : Within P s0 x.1) => ?_) ?_; rotate_left; subst x; rotate_left; clear_value x) | (extract_lets +onlyGivenNames x; clear_value x) | split)

theorem acceptTick_within {P s0 s a1 a2 a3 a4} (h : Within P s0 s) (hp : sub 3871325 P) : Within P s0 (acceptTick s a1 a2 a3 a4) := by
  unfold acceptTick
  repeat' (first | with_reducible assumption | exact sub_of rfl | with_reducible refine latchPower_within ?_ (sub_trans ?_ hp) | with_reducible refine markDue_within ?_ (sub_trans ?_ hp) | with_reducible refine countHeld_within ?_ (sub_trans ?_ hp) | with_reducible refine pairOnPort_within ?_ (sub_trans ?_ hp) | with_reducible refine grantAll_within ?_ (sub_trans ?_ hp) | with_reducible refine rerunStep_within ?_ (sub_trans ?_ hp) | with_reducible refine regSetFld_within ?_ (sub_trans ?_ hp) | with_reducible refine updatePaces_within ?_ (sub_trans ?_ hp) | with_reducible refine regSetPair_within ?_ (sub_trans ?_ hp) | with_reducible refine regSet_within ?_ (sub_trans ?_ hp) | with_reducible refine emit_within ?_ (sub_trans ?_ hp) | with_reducible refine forwardTick_within ?_ (sub_trans ?_ hp) | with_reducible refine flushBufEvents_within ?_ (sub_trans ?_ hp) | with_reducible refine takeStrobe_within ?_ (sub_trans ?_ hp) | with_reducible refine handoverStep_within ?_ (sub_trans ?_ hp) | with_reducible refine finishTick_within ?_ (sub_trans ?_ hp) | with_reducible refine Within.foldl ?_ (fun _ _ _ => ?_) | with_reducible refine Within.foldl_fst ?_ (fun _ _ _ => ?_) | with_reducible refine Within.ite ?_ ?_ | with_reducible refine Within.upd_sched_ftime ?_ (sub_trans ?_ hp) | with_reducible refine Within.upd_sched ?_ (sub_trans ?_ hp) | (extract_lets +onlyGivenNames x; refine (fun (_ : Within P s0 x) => ?_) ?_; rotate_left; subst x; rotate_left; clear_value x) | (extract_lets +onlyGivenNames x; clear_value x) | split)

theorem acceptLocal_within {P s0 s a1} (h : Within P s0 s) (hp : sub 3871325 P) : Within P s0 (acceptLocal s a1) := by
  unfold acceptLocal
  repeat' (first | with_reducible assumption | exact sub_of rfl | with_reducible refine regSetFld_within ?_ (sub_trans ?_ hp) | with_reducible refine acceptTick_within ?_ (sub_trans ?_ hp) | with_reducible refine Within.ite ?_ ?_ | (extract_lets +onlyGivenNames x; refine (fun (_ : Within P s0 x) => ?_) ?_; rotate_left; subst x; rotate_left; clear_value x) | (extract_lets +onlyGivenNames x; clear_value x) | split)

theorem endFallback_within {P s0 s} (h : Within P s0 s) (hp : sub 1 P) : Within P s0 (endFallback s) := by
  unfold endFallback
  repeat' (first | with_reducible assumption | exact sub_of rfl | with_reducible refine regSetFld_within ?_ (sub_trans ?_ hp))

theorem execSyncInEdge_within {P s0 s t a0} (h : Within P s0 s) (hp : sub 3871325 P) (he : execSyncInEdge a0 s = .next t) : Within P s0 t := by
  unfold execSyncInEdge at he; injection he with he; subst he
  repeat' (first | with_reducible assumption | exact sub_of rfl | with_reducible refine bump_within ?_ (sub_trans ?_ hp) | with_reducible refine acceptLocal_within ?_ (sub_trans ?_ hp) | with_reducible refine endFallback_within ?_ (sub_trans ?_ hp) | with_reducible refine Within.ite ?_ ?_ | split)

theorem execLocalTick_within {P s0 s t a0} (h : Within P s0 s) (hp : sub 3871325 P) (he : execLocalTick a0 s = .next t) : Within P s0 t := by
  unfold execLocalTick at he; injection he with he; subst he
  repeat' (first | with_reducible assumption | exact sub_of rfl | with_reducible refine bump_within ?_ (sub_trans ?_ hp) | with_reducible refine regSetFld_within ?_ (sub_trans ?_ hp) | with_reducible refine acceptLocal_within ?_ (sub_trans ?_ hp) | with_reducible refine endFallback_within ?_ (sub_trans ?_ hp) | with_reducible refine acceptTick_within ?_ (sub_trans ?_ hp) | with_reducible refine Within.ite ?_ ?_ | (extract_lets +onlyGivenNames x; refine (fun (_ : Within P s0 x) => ?_) ?_; rotate_left; subst x; rotate_left; clear_value x) | (extract_lets +onlyGivenNames x; clear_value x) | split)

theorem acceptFlitTick_within {P s0 s a1 a2 a3} (h : Within P s0 s) (hp : sub 3871325 P) : Within P s0 (acceptFlitTick s a1 a2 a3) := by
  unfold acceptFlitTick
  repeat' (first | with_reducible assumption | exact sub_of rfl | with_reducible refine bump_within ?_ (sub_trans ?_ hp) | with_reducible refine regSetFld_within ?_ (sub_trans ?_ hp) | with_reducible refine endFallback_within ?_ (sub_trans ?_ hp) | with_reducible refine acceptTick_within ?_ (sub_trans ?_ hp) | with_reducible refine Within.ite ?_ ?_ | (extract_lets +onlyGivenNames x; refine (fun (_ : Within P s0 x) => ?_) ?_; rotate_left; subst x; rotate_left; clear_value x) | (extract_lets +onlyGivenNames x; clear_value x) | split)

theorem execTickWatchdogExpiry_within {P s0 s t a0} (h : Within P s0 s) (hp : sub 3879517 P) (he : execTickWatchdogExpiry a0 s = .next t) : Within P s0 t := by
  unfold execTickWatchdogExpiry at he; injection he with he; subst he
  repeat' (first | with_reducible assumption | exact sub_of rfl | with_reducible refine bump_within ?_ (sub_trans ?_ hp) | with_reducible refine regSetFld_within ?_ (sub_trans ?_ hp) | with_reducible refine dayEvent_within ?_ (sub_trans ?_ hp) | with_reducible refine raiseSrc_within ?_ (sub_trans ?_ hp) | with_reducible refine acceptLocal_within ?_ (sub_trans ?_ hp) | with_reducible refine sbAlert_within ?_ (sub_trans ?_ hp) | with_reducible refine acceptTick_within ?_ (sub_trans ?_ hp) | with_reducible refine Within.ite ?_ ?_ | (extract_lets +onlyGivenNames x; refine (fun (_ : Within P s0 x) => ?_) ?_; rotate_left; subst x; rotate_left; clear_value x) | (extract_lets +onlyGivenNames x; clear_value x) | split)

end Sys2Proof.Machine
end

