-- ==== Sys2Proof/Laws/WithinHostRows.lean ====
section
/-! SUPPORT. What each operation of Machine/HostRows.lean may change (see Within.lean). -/

namespace Sys2Proof.Machine

theorem closeDesc_within {P s0 s a1 a2 a3} (h : Within P s0 s) (hp : sub 2621457 P) : Within P s0 (closeDesc s a1 a2 a3) := by
  unfold closeDesc
  repeat' (first | with_reducible assumption | exact sub_of rfl | with_reducible refine dropDesc_within ?_ (sub_trans ?_ hp) | with_reducible refine completeDesc_within ?_ (sub_trans ?_ hp) | with_reducible refine Within.ite ?_ ?_ | split)

theorem dropUser_within {P s0 s a1} (h : Within P s0 s) (hp : sub 131073 P) : Within P s0 (dropUser s a1) := by
  unfold dropUser
  repeat' (first | with_reducible assumption | exact sub_of rfl | with_reducible refine freeBanks_within ?_ (sub_trans ?_ hp) | with_reducible refine Within.upd_sched ?_ (sub_trans ?_ hp))

theorem stopDesc_within {P s0 s a1 a2 a3 a4} (h : Within P s0 s) (hp : sub 3129343 P) : Within P s0 (stopDesc s a1 a2 a3 a4) := by
  have hw {x n st} : Within P s0 x → Within P s0 (mntWithdraw x n st) := fun k => mntWithdraw_within k (sub_trans (sub_of rfl) hp)
  have hc {x d st b} : Within P s0 x → Within P s0 (closeDesc x d st b) := fun k => closeDesc_within k (sub_trans (sub_of rfl) hp)
  unfold stopDesc
  split
  · exact stopJob_within h (sub_trans (sub_of rfl) hp)
  · split
    · exact hc h
    · split
      · extract_lets _ s1 s2
        have k1 : Within P s0 s1 := Within.ite (Within.upd_maint h (sub_trans (sub_of rfl) hp)) (hw h)
        clear_value s1
        split
        · exact k1
        · have k2 : Within P s0 s2 := dropUser_within k1 (sub_trans (sub_of rfl) hp)
          clear_value s2
          refine Within.ite (dropDesc_within (setSched_within k2 ?_) ?_) (schedEnd_within k2 ?_) <;>
            exact sub_trans (sub_of rfl) hp
      · exact hw h
  · extract_lets s1 s2
    have k1 : Within P s0 s1 := by
      refine pkeCancel_within (dropMoves_within (dropXfer_within h ?_) ?_) ?_ <;> exact sub_trans (sub_of rfl) hp
    clear_value s1
    have k2 : Within P s0 s2 := Within.upd_sectors k1 (sub_trans (sub_of rfl) hp) (twf_tmap _)
    clear_value s2
    exact hc k2

theorem execCancel_within {P s0 s t a0 a1 a2} (h : Within P s0 s) (hp : sub 3129343 P) (he : execCancel a0 a1 a2 s = .next t) : Within P s0 t := by
  unfold execCancel at he; injection he with he; subst he
  repeat' (first | with_reducible assumption | exact sub_of rfl | with_reducible refine stopDesc_within ?_ (sub_trans ?_ hp) | with_reducible refine completeDesc_within ?_ (sub_trans ?_ hp) | split)

theorem execFence_within {P s0 s t a0 a1 a2} (h : Within P s0 s) (hp : sub 2621457 P) (he : execFence a0 a1 a2 s = .next t) : Within P s0 t := by
  unfold execFence at he; injection he with he; subst he
  repeat' (first | with_reducible assumption | exact sub_of rfl | with_reducible refine completeDesc_within ?_ (sub_trans ?_ hp) | with_reducible refine Within.ite ?_ ?_ | (extract_lets +onlyGivenNames x; refine (fun (_ : Within P s0 x) => ?_) ?_; rotate_left; subst x; rotate_left; clear_value x) | (extract_lets +onlyGivenNames x; clear_value x) | split)

theorem copyEnd_within {P s0 s a1 a2} (h : Within P s0 s) (hp : sub 2622485 P) : Within P s0 (copyEnd s a1 a2) := by
  unfold copyEnd
  repeat' (first | with_reducible assumption | exact sub_of rfl | with_reducible refine completeWith_within ?_ (sub_trans ?_ hp) | with_reducible refine dropXfer_within ?_ (sub_trans ?_ hp) | with_reducible refine emit_within ?_ (sub_trans ?_ hp) | with_reducible refine dropMoves_within ?_ (sub_trans ?_ hp) | with_reducible refine Within.ite ?_ ?_ | (extract_lets +onlyGivenNames x; refine (fun (_ : Within P s0 x) => ?_) ?_; rotate_left; subst x; rotate_left; clear_value x) | (extract_lets +onlyGivenNames x; clear_value x) | split)

theorem copyBegin_within {P s0 s a1 a2} (h : Within P s0 s) (hp : sub 2622485 P) : Within P s0 (copyBegin s a1 a2) := by
  unfold copyBegin
  repeat' (first | with_reducible assumption | exact sub_of rfl | with_reducible refine moveGot_within ?_ (sub_trans ?_ hp) | with_reducible refine failDesc_within ?_ (sub_trans ?_ hp) | with_reducible refine beginMove_within ?_ (sub_trans ?_ hp) | with_reducible refine dropXfer_within ?_ (sub_trans ?_ hp) | with_reducible refine setPhase_within ?_ (sub_trans ?_ hp) | with_reducible refine Within.ite ?_ ?_ | (extract_lets +onlyGivenNames x; refine (fun (_ : Within P s0 x) => ?_) ?_; rotate_left; subst x; rotate_left; clear_value x) | (extract_lets +onlyGivenNames x; clear_value x) | split)

theorem execCopy_within {P s0 s t a0 a1 a2} (h : Within P s0 s) (hp : sub 2622485 P) (he : execCopy a0 a1 a2 s = .next t) : Within P s0 t := by
  unfold execCopy at he; injection he with he; subst he
  repeat' (first | with_reducible assumption | exact sub_of rfl | with_reducible refine failDesc_within ?_ (sub_trans ?_ hp) | with_reducible refine copyBegin_within ?_ (sub_trans ?_ hp) | with_reducible refine journalDesc_within ?_ (sub_trans ?_ hp) | with_reducible refine copyEnd_within ?_ (sub_trans ?_ hp) | with_reducible refine startXfer_within ?_ (sub_trans ?_ hp) | with_reducible refine Within.ite ?_ ?_ | (extract_lets +onlyGivenNames x; refine (fun (_ : Within P s0 x) => ?_) ?_; rotate_left; subst x; rotate_left; clear_value x) | (extract_lets +onlyGivenNames x; clear_value x) | split)

theorem execAlloc_within {P s0 s t a0 a1 a2} (h : Within P s0 s) (hp : sub 2621459 P) (he : execAlloc a0 a1 a2 s = .next t) : Within P s0 t := by
  unfold execAlloc at he; injection he with he; subst he
  repeat' (first | with_reducible assumption | exact sub_of rfl | with_reducible refine completeWith_within ?_ (sub_trans ?_ hp) | with_reducible refine allocBuf_within ‹_› ?_ (sub_trans ?_ hp) | with_reducible refine completeDesc_within ?_ (sub_trans ?_ hp) | with_reducible refine Within.ite ?_ ?_ | (extract_lets +onlyGivenNames x; refine (fun (_ : Within P s0 x) => ?_) ?_; rotate_left; subst x; rotate_left; clear_value x) | (extract_lets +onlyGivenNames x; clear_value x) | split)

theorem dropApertures_within {P s0 s a1} (h : Within P s0 s) (hp : sub 1 P) : Within P s0 (dropApertures s a1) := by
  unfold dropApertures
  repeat' (first | with_reducible assumption | exact sub_of rfl | with_reducible refine regSetFld_within ?_ (sub_trans ?_ hp) | with_reducible refine Within.foldl ?_ (fun _ _ _ => ?_) | with_reducible refine Within.foldl_fst ?_ (fun _ _ _ => ?_) | with_reducible refine Within.ite ?_ ?_ | (extract_lets +onlyGivenNames x; refine (fun (_ : Within P s0 x) => ?_) ?_; rotate_left; subst x; rotate_left; clear_value x) | (extract_lets +onlyGivenNames x; clear_value x) | split)

theorem staleRecord_within {P s0 s a1 a2} (h : Within P s0 s) (hp : sub 4113 P) : Within P s0 (staleRecord s a1 a2) := by
  unfold staleRecord
  repeat' (first | with_reducible assumption | exact sub_of rfl | with_reducible refine modFn_within ?_ (sub_trans ?_ hp) | with_reducible refine dayEvent_within ?_ (sub_trans ?_ hp) | with_reducible refine Within.ite ?_ ?_ | (extract_lets +onlyGivenNames x; refine (fun (_ : Within P s0 x) => ?_) ?_; rotate_left; subst x; rotate_left; clear_value x) | (extract_lets +onlyGivenNames x; clear_value x) | split)

theorem execFreeBuffer_within {P s0 s t a0 a1 a2} (h : Within P s0 s) (hp : sub 2625681 P) (he : execFreeBuffer a0 a1 a2 s = .next t) : Within P s0 t := by
  unfold execFreeBuffer at he; injection he with he; subst he
  repeat' (first | with_reducible assumption | exact sub_of rfl | with_reducible refine failDesc_within ?_ (sub_trans ?_ hp) | with_reducible refine dropApertures_within ?_ (sub_trans ?_ hp) | with_reducible refine freeBuf_within ?_ (sub_trans ?_ hp) | with_reducible refine dayEvent_within ?_ (sub_trans ?_ hp) | with_reducible refine staleRecord_within ?_ (sub_trans ?_ hp) | with_reducible refine completeDesc_within ?_ (sub_trans ?_ hp) | with_reducible refine Within.ite ?_ ?_ | (extract_lets +onlyGivenNames x; refine (fun (_ : Within P s0 x) => ?_) ?_; rotate_left; subst x; rotate_left; clear_value x) | (extract_lets +onlyGivenNames x; clear_value x) | split)

theorem emptySlot_within {P s0 s a1 a2 a3} (h : Within P s0 s) (hp : sub 133305 P) : Within P s0 (emptySlot s a1 a2 a3) := by
  unfold emptySlot
  repeat' (first | with_reducible assumption | exact sub_of rfl | with_reducible refine dropHbm_within ?_ (sub_trans ?_ hp) | with_reducible refine hbmRegs_within ?_ (sub_trans ?_ hp) | with_reducible refine setParam_within ?_ (sub_trans ?_ hp) | with_reducible refine setKeys_within ?_ (sub_trans ?_ hp) | with_reducible refine regSetFld_within ?_ (sub_trans ?_ hp) | with_reducible refine paramRegs_within ?_ (sub_trans ?_ hp) | with_reducible refine keyLoadedReg_within ?_ (sub_trans ?_ hp) | with_reducible refine dropModel_within ?_ (sub_trans ?_ hp) | with_reducible refine keyPoisonReg_within ?_ (sub_trans ?_ hp) | with_reducible refine setTabs_within ?_ (sub_trans ?_ hp) | (extract_lets +onlyGivenNames x; refine (fun (_ : Within P s0 x) => ?_) ?_; rotate_left; subst x; rotate_left; clear_value x) | (extract_lets +onlyGivenNames x; clear_value x) | split)

theorem execFreeSlot_within {P s0 s t a0 a1 a2} (h : Within P s0 s) (hp : sub 2754745 P) (he : execFreeSlot a0 a1 a2 s = .next t) : Within P s0 t := by
  unfold execFreeSlot at he; injection he with he; subst he
  repeat' (first | with_reducible assumption | exact sub_of rfl | with_reducible refine failDesc_within ?_ (sub_trans ?_ hp) | with_reducible refine emptySlot_within ?_ (sub_trans ?_ hp) | with_reducible refine completeDesc_within ?_ (sub_trans ?_ hp) | with_reducible refine Within.ite ?_ ?_ | (extract_lets +onlyGivenNames x; refine (fun (_ : Within P s0 x) => ?_) ?_; rotate_left; subst x; rotate_left; clear_value x) | (extract_lets +onlyGivenNames x; clear_value x) | split)

theorem execSectorForm_within {P s0 s t a0 a1 a2} (h : Within P s0 s) (hp : sub 2752569 P) (he : execSectorForm a0 a1 a2 s = .next t) : Within P s0 t := by
  unfold execSectorForm at he; injection he with he; subst he
  repeat' (first | with_reducible assumption | exact sub_of rfl | with_reducible refine failDesc_within ?_ (sub_trans ?_ hp) | with_reducible refine formShadow_within ‹_› ?_ (sub_trans ?_ hp) | with_reducible refine completeWith_within ?_ (sub_trans ?_ hp) | with_reducible refine formSector_within ?_ (sub_trans ?_ hp) | with_reducible refine formSector_within' ‹_› ?_ (sub_trans ?_ hp) | with_reducible refine completeDesc_within ?_ (sub_trans ?_ hp) | with_reducible refine Within.ite ?_ ?_ | (extract_lets +onlyGivenNames x; refine (fun (_ : Within P s0 x) => ?_) ?_; rotate_left; subst x; rotate_left; clear_value x) | (extract_lets +onlyGivenNames x; refine (fun (_ : Within P s0 x.2) => ?_) ?_; rotate_left; subst x; rotate_left; clear_value x) | (extract_lets +onlyGivenNames x; clear_value x) | split)

theorem execSectorRelease_within {P s0 s t a0 a1 a2} (h : Within P s0 s) (hp : sub 2754745 P) (he : execSectorRelease a0 a1 a2 s = .next t) : Within P s0 t := by
  unfold execSectorRelease at he; injection he with he; subst he
  repeat' (first | with_reducible assumption | exact sub_of rfl | with_reducible refine failDesc_within ?_ (sub_trans ?_ hp) | with_reducible refine setPhase_within ?_ (sub_trans ?_ hp) | with_reducible refine releaseDue_within ?_ (sub_trans ?_ hp) | with_reducible refine completeDesc_within ?_ (sub_trans ?_ hp) | with_reducible refine setSector_within ?_ (sub_trans ?_ hp) | with_reducible refine Within.ite ?_ ?_ | (extract_lets +onlyGivenNames x; refine (fun (_ : Within P s0 x) => ?_) ?_; rotate_left; subst x; rotate_left; clear_value x) | (extract_lets +onlyGivenNames x; clear_value x) | split)

theorem execSetQuota_within {P s0 s t a0 a1 a2} (h : Within P s0 s) (hp : sub 2621457 P) (he : execSetQuota a0 a1 a2 s = .next t) : Within P s0 t := by
  unfold execSetQuota at he; injection he with he; subst he
  repeat' (first | with_reducible assumption | exact sub_of rfl | with_reducible refine regSet_within ?_ (sub_trans ?_ hp) | with_reducible refine completeDesc_within ?_ (sub_trans ?_ hp) | with_reducible refine Within.ite ?_ ?_ | split)

theorem execSetExpert_within {P s0 s t a0 a1 a2} (h : Within P s0 s) (hp : sub 2621457 P) (he : execSetExpert a0 a1 a2 s = .next t) : Within P s0 t := by
  unfold execSetExpert at he; injection he with he; subst he
  repeat' (first | with_reducible assumption | exact sub_of rfl | with_reducible refine regSetFld_within ?_ (sub_trans ?_ hp) | with_reducible refine completeDesc_within ?_ (sub_trans ?_ hp) | with_reducible refine Within.ite ?_ ?_ | (extract_lets +onlyGivenNames x; refine (fun (_ : Within P s0 x) => ?_) ?_; rotate_left; subst x; rotate_left; clear_value x) | (extract_lets +onlyGivenNames x; clear_value x) | split)

theorem execSchedule_within {P s0 s t a0 a1 a2} (h : Within P s0 s) (hp : sub 2752529 P) (he : execSchedule a0 a1 a2 s = .next t) : Within P s0 t := by
  unfold execSchedule at he; injection he with he; subst he
  repeat' (first | with_reducible assumption | exact sub_of rfl | with_reducible refine failDesc_within ?_ (sub_trans ?_ hp) | with_reducible refine bump_within ?_ (sub_trans ?_ hp) | with_reducible refine setPhase_within ?_ (sub_trans ?_ hp) | with_reducible refine setSched_within ?_ (sub_trans ?_ hp) | with_reducible refine schedEnd_within ?_ (sub_trans ?_ hp) | with_reducible refine Within.ite ?_ ?_ | (extract_lets +onlyGivenNames x; refine (fun (_ : Within P s0 x) => ?_) ?_; rotate_left; subst x; rotate_left; clear_value x) | (extract_lets +onlyGivenNames x; clear_value x) | split)

theorem queryEnd_within {P s0 s a1 a2} (h : Within P s0 s) (hp : sub 2799135 P) : Within P s0 (queryEnd s a1 a2) := by
  unfold queryEnd
  repeat' (first | with_reducible assumption | exact sub_of rfl | with_reducible refine failDesc_within ?_ (sub_trans ?_ hp) | with_reducible refine completeWith_within ?_ (sub_trans ?_ hp) | with_reducible refine dropXfer_within ?_ (sub_trans ?_ hp) | with_reducible refine emit_within ?_ (sub_trans ?_ hp) | with_reducible refine engineAccess_within ?_ (sub_trans ?_ hp) | with_reducible refine writeT_within ?_ (sub_trans ?_ hp) | with_reducible refine Within.ite ?_ ?_ | (extract_lets +onlyGivenNames x; refine (fun (_ : Within P s0 x) => ?_) ?_; rotate_left; subst x; rotate_left; clear_value x) | (extract_lets +onlyGivenNames x; clear_value x) | split)

theorem queryRow_within {P s0 s a0 a1 a2 a3 a4 a5} (h : Within P s0 s) (hp : sub 2799135 P) : Within P s0 (queryRow a0 a1 a2 a3 a4 a5 s) := by
  unfold queryRow
  repeat' (first | with_reducible assumption | exact sub_of rfl | with_reducible refine failDesc_within ?_ (sub_trans ?_ hp) | with_reducible refine queryEnd_within ?_ (sub_trans ?_ hp) | with_reducible refine Within.ite ?_ ?_ | (extract_lets +onlyGivenNames x; refine (fun (_ : Within P s0 x) => ?_) ?_; rotate_left; subst x; rotate_left; clear_value x) | (extract_lets +onlyGivenNames x; clear_value x) | split)

theorem execQueryDevice_within {P s0 s t a0 a1 a2} (h : Within P s0 s) (hp : sub 2799135 P) (he : execQueryDevice a0 a1 a2 s = .next t) : Within P s0 t := by
  unfold execQueryDevice at he; injection he with he; subst he
  repeat' (first | with_reducible assumption | exact sub_of rfl | with_reducible refine queryRow_within ?_ (sub_trans ?_ hp))

theorem execQueryFunction_within {P s0 s t a0 a1 a2} (h : Within P s0 s) (hp : sub 2799135 P) (he : execQueryFunction a0 a1 a2 s = .next t) : Within P s0 t := by
  unfold execQueryFunction at he; injection he with he; subst he
  repeat' (first | with_reducible assumption | exact sub_of rfl | with_reducible refine queryRow_within ?_ (sub_trans ?_ hp))

theorem execQuerySector_within {P s0 s t a0 a1 a2} (h : Within P s0 s) (hp : sub 2799135 P) (he : execQuerySector a0 a1 a2 s = .next t) : Within P s0 t := by
  unfold execQuerySector at he; injection he with he; subst he
  repeat' (first | with_reducible assumption | exact sub_of rfl | with_reducible refine queryRow_within ?_ (sub_trans ?_ hp))

theorem execQueryModel_within {P s0 s t a0 a1 a2} (h : Within P s0 s) (hp : sub 2799135 P) (he : execQueryModel a0 a1 a2 s = .next t) : Within P s0 t := by
  unfold execQueryModel at he; injection he with he; subst he
  repeat' (first | with_reducible assumption | exact sub_of rfl | with_reducible refine queryRow_within ?_ (sub_trans ?_ hp) | with_reducible refine Within.ite ?_ ?_ | split)

theorem execQueryBuiltin_within {P s0 s t a0 a1 a2} (h : Within P s0 s) (hp : sub 2799135 P) (he : execQueryBuiltin a0 a1 a2 s = .next t) : Within P s0 t := by
  unfold execQueryBuiltin at he; injection he with he; subst he
  repeat' (first | with_reducible assumption | exact sub_of rfl | with_reducible refine queryRow_within ?_ (sub_trans ?_ hp) | with_reducible refine Within.ite ?_ ?_ | split)

theorem execQueryIdentity_within {P s0 s t a0 a1 a2} (h : Within P s0 s) (hp : sub 2799135 P) (he : execQueryIdentity a0 a1 a2 s = .next t) : Within P s0 t := by
  unfold execQueryIdentity at he; injection he with he; subst he
  repeat' (first | with_reducible assumption | exact sub_of rfl | with_reducible refine queryRow_within ?_ (sub_trans ?_ hp))

theorem freeList_within {P s0 s a1} (h : Within P s0 s)  : Within P s0 (freeList s a1).2 := by
  unfold freeList
  repeat' (first | with_reducible assumption | exact sub_of rfl | with_reducible refine Within.upd_free ?_ ?_ | exact Nat.le_add_right _ _)
theorem freeList_within' {P s0 s t r a1} (he : freeList s a1 = (r, t)) (h : Within P s0 s)  : Within P s0 t := by
  have k : Within P s0 (freeList s a1).2 := freeList_within h
  rw [he] at k; exact k

theorem attestSign_within {P s0 s a1 a2} (h : Within P s0 s) (hp : sub 263249 P) : Within P s0 (attestSign s a1 a2) := by
  unfold attestSign
  repeat' (first | with_reducible assumption | exact sub_of rfl | with_reducible refine pkeSubmit_within ?_ (sub_trans ?_ hp) | with_reducible refine dropXfer_within ?_ (sub_trans ?_ hp) | with_reducible refine setPhase_within ?_ (sub_trans ?_ hp) | with_reducible refine holdObject_within ?_ (sub_trans ?_ hp) | (extract_lets +onlyGivenNames x; refine (fun (_ : Within P s0 x) => ?_) ?_; rotate_left; subst x; rotate_left; clear_value x) | (extract_lets +onlyGivenNames x; clear_value x))

theorem attestEnd_within {P s0 s a1 a2 a3} (h : Within P s0 s) (hp : sub 2799135 P) : Within P s0 (attestEnd s a1 a2 a3) := by
  unfold attestEnd
  repeat' (first | with_reducible assumption | exact sub_of rfl | with_reducible refine bump_within ?_ (sub_trans ?_ hp) | with_reducible refine queryEnd_within ?_ (sub_trans ?_ hp) | with_reducible refine dropXfer_within ?_ (sub_trans ?_ hp) | with_reducible refine freeList_within ?_ | with_reducible refine freeList_within' ‹_› ?_ | with_reducible refine completeDesc_within ?_ (sub_trans ?_ hp) | with_reducible refine Within.ite ?_ ?_ | (extract_lets +onlyGivenNames x; refine (fun (_ : Within P s0 x) => ?_) ?_; rotate_left; subst x; rotate_left; clear_value x) | (extract_lets +onlyGivenNames x; refine (fun (_ : Within P s0 x.2) => ?_) ?_; rotate_left; subst x; rotate_left; clear_value x) | (extract_lets +onlyGivenNames x; clear_value x) | split)

theorem execQueryAttest_within {P s0 s t a0 a1 a2} (h : Within P s0 s) (hp : sub 3061343 P) (he : execQueryAttest a0 a1 a2 s = .next t) : Within P s0 t := by
  unfold execQueryAttest at he; injection he with he; subst he
  repeat' (first | with_reducible assumption | exact sub_of rfl | with_reducible refine failDesc_within ?_ (sub_trans ?_ hp) | with_reducible refine attestEnd_within ?_ (sub_trans ?_ hp) | with_reducible refine engineAccess_within ?_ (sub_trans ?_ hp) | with_reducible refine attestSign_within ?_ (sub_trans ?_ hp) | with_reducible refine startXfer_within ?_ (sub_trans ?_ hp) | with_reducible refine Within.ite ?_ ?_ | (extract_lets +onlyGivenNames x; refine (fun (_ : Within P s0 x) => ?_) ?_; rotate_left; subst x; rotate_left; clear_value x) | (extract_lets +onlyGivenNames x; clear_value x) | split)

theorem writeRingCfg_within {P s0 s a1 a2 a3} (h : Within P s0 s) (hp : sub 2621441 P) : Within P s0 (writeRingCfg s a1 a2 a3) := by
  unfold writeRingCfg
  repeat' (first | with_reducible assumption | exact sub_of rfl | with_reducible refine ringErrors_within ?_ (sub_trans ?_ hp) | with_reducible refine regSetFld_within ?_ (sub_trans ?_ hp) | with_reducible refine regSet_within ?_ (sub_trans ?_ hp) | with_reducible refine flushHeld_within ?_ (sub_trans ?_ hp) | with_reducible refine Within.ite ?_ ?_ | (extract_lets +onlyGivenNames x; refine (fun (_ : Within P s0 x) => ?_) ?_; rotate_left; subst x; rotate_left; clear_value x) | (extract_lets +onlyGivenNames x; clear_value x) | split)

theorem execRingEnable_within {P s0 s t a0 a1 a2} (h : Within P s0 s) (hp : sub 2621441 P) (he : execRingEnable a0 a1 a2 s = .next t) : Within P s0 t := by
  unfold execRingEnable at he; injection he with he; subst he
  repeat' (first | with_reducible assumption | exact sub_of rfl | with_reducible refine writeRingCfg_within ?_ (sub_trans ?_ hp) | with_reducible refine Within.ite ?_ ?_ | split)

theorem execRingDisable_within {P s0 s t a0 a1 a2} (h : Within P s0 s) (hp : sub 2621441 P) (he : execRingDisable a0 a1 a2 s = .next t) : Within P s0 t := by
  unfold execRingDisable at he; injection he with he; subst he
  repeat' (first | with_reducible assumption | exact sub_of rfl | with_reducible refine writeRingCfg_within ?_ (sub_trans ?_ hp) | with_reducible refine Within.ite ?_ ?_ | split)

theorem execBar2Access_within {P s0 s t a0 a1 a2 a3} (h : Within P s0 s) (hp : sub 2097157 P) (he : execBar2Access a0 a1 a2 a3 s = .next t) : Within P s0 t := by
  unfold execBar2Access at he; injection he with he; subst he
  repeat' (first | with_reducible assumption | exact sub_of rfl | with_reducible refine bump_within ?_ (sub_trans ?_ hp) | with_reducible refine bar2End_within ?_ (sub_trans ?_ hp) | with_reducible refine beginMove_within ?_ (sub_trans ?_ hp) | with_reducible refine moveOut_within ?_ (sub_trans ?_ hp) | with_reducible refine Within.foldl ?_ (fun _ _ _ => ?_) | with_reducible refine Within.foldl_fst ?_ (fun _ _ _ => ?_) | with_reducible refine Within.ite ?_ ?_ | (extract_lets +onlyGivenNames x; refine (fun (_ : Within P s0 x) => ?_) ?_; rotate_left; subst x; rotate_left; clear_value x) | (extract_lets +onlyGivenNames x; refine (fun (_ : Within P s0 x.1) => ?_) ?_; rotate_left; subst x; rotate_left; clear_value x) | (extract_lets +onlyGivenNames x; clear_value x) | split)

end Sys2Proof.Machine
end

