-- ==== Sys2Proof/Laws/WithinReset.lean ====
section
/-! SUPPORT. What each operation of Machine/Reset.lean may change (see Within.lean). -/

namespace Sys2Proof.Machine

theorem stopAll_within {P s0 s a1 a2} (h : Within P s0 s) (hp : sub 3129343 P) : Within P s0 (stopAll s a1 a2) := by
  unfold stopAll
  repeat' (first | with_reducible assumption | exact sub_of rfl | with_reducible refine stopDesc_within ?_ (sub_trans ?_ hp) | with_reducible refine Within.foldl ?_ (fun _ _ _ => ?_) | with_reducible refine Within.foldl_fst ?_ (fun _ _ _ => ?_) | split)

theorem emptySlots_within {P s0 s a1 a2 a3} (h : Within P s0 s) (hp : sub 133305 P) : Within P s0 (emptySlots s a1 a2 a3) := by
  unfold emptySlots
  repeat' (first | with_reducible assumption | exact sub_of rfl | with_reducible refine emptySlot_within ?_ (sub_trans ?_ hp) | with_reducible refine Within.foldl ?_ (fun _ _ _ => ?_) | with_reducible refine Within.foldl_fst ?_ (fun _ _ _ => ?_) | with_reducible refine Within.ite ?_ ?_ | split)

theorem freeBufs_within {P s0 s a1} (h : Within P s0 s) (hp : sub 524433 P) : Within P s0 (freeBufs s a1) := by
  unfold freeBufs
  repeat' (first | with_reducible assumption | exact sub_of rfl | with_reducible refine freeBuf_within ?_ (sub_trans ?_ hp) | with_reducible refine Within.foldl ?_ (fun _ _ _ => ?_) | with_reducible refine Within.foldl_fst ?_ (fun _ _ _ => ?_))

theorem dropWork_within {P s0 s a1} (h : Within P s0 s) (hp : sub 656896 P) : Within P s0 (dropWork s a1) := by
  unfold dropWork
  repeat' (first | with_reducible assumption | exact sub_of rfl | with_reducible refine Within.upd_passes_xfers_batches_sched_fab ?_ (sub_trans ?_ hp))

theorem releaseFn_within {P s0 s a1} (h : Within P s0 s) (hp : sub 659129 P) : Within P s0 (releaseFn s a1) := by
  unfold releaseFn
  repeat' (first | with_reducible assumption | exact sub_of rfl | with_reducible refine modFn_within ?_ (sub_trans ?_ hp) | with_reducible refine dropWork_within ?_ (sub_trans ?_ hp) | with_reducible refine releaseSector_within ?_ (sub_trans ?_ hp) | with_reducible refine freeBufs_within ?_ (sub_trans ?_ hp) | with_reducible refine emptySlots_within ?_ (sub_trans ?_ hp) | with_reducible refine Within.foldl ?_ (fun _ _ _ => ?_) | with_reducible refine Within.foldl_fst ?_ (fun _ _ _ => ?_) | (extract_lets +onlyGivenNames x; refine (fun (_ : Within P s0 x) => ?_) ?_; rotate_left; subst x; rotate_left; clear_value x) | (extract_lets +onlyGivenNames x; refine (fun (_ : Within P s0 x.1) => ?_) ?_; rotate_left; subst x; rotate_left; clear_value x) | (extract_lets +onlyGivenNames x; clear_value x))

theorem resetFnRegs_within {P s0 s a1 a2} (h : Within P s0 s) (hp : sub 1 P) : Within P s0 (resetFnRegs s a1 a2) := by
  unfold resetFnRegs
  repeat' (first | with_reducible assumption | exact sub_of rfl | with_reducible refine regSetFld_within ?_ (sub_trans ?_ hp) | with_reducible refine Within.upd_regs_shadows_holds ?_ (sub_trans ?_ hp) ?_ | exact kwf_tset _ _ | exact kwf_filter _ | (extract_lets +onlyGivenNames x; refine (fun (_ : Within P s0 x) => ?_) ?_; rotate_left; subst x; rotate_left; clear_value x) | (extract_lets +onlyGivenNames x; clear_value x))

theorem resetPfKept_within {P s0 s} (h : Within P s0 s) (hp : sub 17 P) : Within P s0 (resetPfKept s) := by
  unfold resetPfKept
  repeat' (first | with_reducible assumption | exact sub_of rfl | with_reducible refine regSetFld_within ?_ (sub_trans ?_ hp) | with_reducible refine regSet_within ?_ (sub_trans ?_ hp) | with_reducible refine Within.foldl ?_ (fun _ _ _ => ?_) | with_reducible refine Within.foldl_fst ?_ (fun _ _ _ => ?_) | with_reducible refine Within.upd_fns ?_ (sub_trans ?_ hp) ?_ | exact twf_tset _ _ | exact twf_tmap _ | exact twf_filter _ | exact twf_tsetRun _ _ | (extract_lets +onlyGivenNames x; refine (fun (_ : Within P s0 x) => ?_) ?_; rotate_left; subst x; rotate_left; clear_value x) | (extract_lets +onlyGivenNames x; clear_value x))

theorem finishFnReset_within {P s0 s a1} (h : Within P s0 s) (hp : sub 17 P) : Within P s0 (finishFnReset s a1) := by
  unfold finishFnReset
  repeat' (first | with_reducible assumption | exact sub_of rfl | with_reducible refine modFn_within ?_ (sub_trans ?_ hp) | with_reducible refine resetPfKept_within ?_ (sub_trans ?_ hp) | with_reducible refine resetFnRegs_within ?_ (sub_trans ?_ hp) | with_reducible refine Within.ite ?_ ?_ | (extract_lets +onlyGivenNames x; refine (fun (_ : Within P s0 x) => ?_) ?_; rotate_left; subst x; rotate_left; clear_value x) | (extract_lets +onlyGivenNames x; clear_value x) | split)

theorem resetFn_within {P s0 s a1 a2} (h : Within P s0 s) (hp : sub 3129343 P) : Within P s0 (resetFn s a1 a2) := by
  unfold resetFn
  repeat' (first | with_reducible assumption | exact sub_of rfl | with_reducible refine modFn_within ?_ (sub_trans ?_ hp) | with_reducible refine regSet_within ?_ (sub_trans ?_ hp) | with_reducible refine finishFnReset_within ?_ (sub_trans ?_ hp) | with_reducible refine stopAll_within ?_ (sub_trans ?_ hp) | with_reducible refine releaseFn_within ?_ (sub_trans ?_ hp) | with_reducible refine Within.ite ?_ ?_ | (extract_lets +onlyGivenNames x; refine (fun (_ : Within P s0 x) => ?_) ?_; rotate_left; subst x; rotate_left; clear_value x) | (extract_lets +onlyGivenNames x; clear_value x) | split)

theorem execHifFnResetGo_within {P s0 s t a0} (h : Within P s0 s) (hp : sub 3129343 P) (he : execHifFnResetGo a0 s = .next t) : Within P s0 t := by
  unfold execHifFnResetGo at he; injection he with he; subst he
  repeat' (first | with_reducible assumption | exact sub_of rfl | with_reducible refine resetFn_within ?_ (sub_trans ?_ hp))

theorem execFunctionLevelReset_within {P s0 s t a0} (h : Within P s0 s) (hp : sub 3129343 P) (he : execFunctionLevelReset a0 s = .next t) : Within P s0 t := by
  unfold execFunctionLevelReset at he; injection he with he; subst he
  repeat' (first | with_reducible assumption | exact sub_of rfl | with_reducible refine resetFn_within ?_ (sub_trans ?_ hp) | with_reducible refine Within.foldl ?_ (fun _ _ _ => ?_) | with_reducible refine Within.foldl_fst ?_ (fun _ _ _ => ?_) | with_reducible refine Within.ite ?_ ?_ | (extract_lets +onlyGivenNames x; refine (fun (_ : Within P s0 x) => ?_) ?_; rotate_left; subst x; rotate_left; clear_value x) | (extract_lets +onlyGivenNames x; clear_value x) | split)

theorem execVfEnableClear_within {P s0 s t} (h : Within P s0 s) (hp : sub 3129343 P) (he : execVfEnableClear s = .next t) : Within P s0 t := by
  unfold execVfEnableClear at he; injection he with he; subst he
  repeat' (first | with_reducible assumption | exact sub_of rfl | with_reducible refine resetFn_within ?_ (sub_trans ?_ hp) | with_reducible refine Within.foldl ?_ (fun _ _ _ => ?_) | with_reducible refine Within.foldl_fst ?_ (fun _ _ _ => ?_))

theorem resetsGoOn_within {P s0 s a1} (h : Within P s0 s) (hp : sub 17 P) : Within P s0 (resetsGoOn s a1) := by
  unfold resetsGoOn
  repeat' (first | with_reducible assumption | exact sub_of rfl | with_reducible refine modFn_within ?_ (sub_trans ?_ hp) | with_reducible refine finishFnReset_within ?_ (sub_trans ?_ hp) | with_reducible refine Within.foldl ?_ (fun _ _ _ => ?_) | with_reducible refine Within.foldl_fst ?_ (fun _ _ _ => ?_) | with_reducible refine Within.ite ?_ ?_ | (extract_lets +onlyGivenNames x; refine (fun (_ : Within P s0 x) => ?_) ?_; rotate_left; subst x; rotate_left; clear_value x) | (extract_lets +onlyGivenNames x; clear_value x) | split)

theorem execSectorZeroingEnd_within {P s0 s t a0} (h : Within P s0 s) (hp : sub 2067 P) (he : execSectorZeroingEnd a0 s = .next t) : Within P s0 t := by
  unfold execSectorZeroingEnd at he; injection he with he; subst he
  repeat' (first | with_reducible assumption | exact sub_of rfl | with_reducible refine resetsGoOn_within ?_ (sub_trans ?_ hp) | with_reducible refine clearTile_within ?_ (sub_trans ?_ hp) | with_reducible refine Within.ite ?_ ?_ | with_reducible refine Within.upd_zeroing ?_ (sub_trans ?_ hp) | (extract_lets +onlyGivenNames x; refine (fun (_ : Within P s0 x) => ?_) ?_; rotate_left; subst x; rotate_left; clear_value x) | (extract_lets +onlyGivenNames x; clear_value x) | split)

end Sys2Proof.Machine
end

