-- ==== Sys2Proof/Laws/WithinSubmit.lean ====
section
/-! SUPPORT. What each operation of Machine/Submit.lean may change (see Within.lean). -/

namespace Sys2Proof.Machine

theorem failJob_within {P s0 s a1 a2} (h : Within P s0 s) (hp : sub 3062783 P) : Within P s0 (failJob s a1 a2) := by
  unfold failJob
  repeat' (first | with_reducible assumption | exact sub_of rfl | with_reducible refine failStage5_within ?_ (sub_trans ?_ hp))

theorem failStage3_within {P s0 s a1 a2 a3} (h : Within P s0 s) (hp : sub 3062783 P) : Within P s0 (failStage3 s a1 a2 a3) := by
  unfold failStage3
  repeat' (first | with_reducible assumption | exact sub_of rfl | with_reducible refine countOutcome_within ?_ (sub_trans ?_ hp) | with_reducible refine setJob_within ?_ (sub_trans ?_ hp) | with_reducible refine failJob_within ?_ (sub_trans ?_ hp) | with_reducible refine setPhase_within ?_ (sub_trans ?_ hp) | with_reducible refine writeT_within ?_ (sub_trans ?_ hp) | with_reducible refine completeDesc_within ?_ (sub_trans ?_ hp) | with_reducible refine Within.ite ?_ ?_ | with_reducible refine Within.upd_jobSeq ?_ (sub_trans ?_ hp) | (extract_lets +onlyGivenNames x; refine (fun (_ : Within P s0 x) => ?_) ?_; rotate_left; subst x; rotate_left; clear_value x) | (extract_lets +onlyGivenNames x; clear_value x) | split)

theorem namedSector_within {P s0 s t f n raw m k} (he : namedSector s f n raw m = .use k t) (h : Within P s0 s) :
    Within P s0 t := by
  unfold namedSector at he
  repeat' split at he
  all_goals first | (injection he with _ he; subst he; exact h) | cases he

theorem sectorFor_within {P s0 s t d j n} (he : sectorFor s d j = .use n t) (h : Within P s0 s)
    (hp : sub 131113 P) : Within P s0 t := by
  unfold sectorFor at he
  dsimp only at he
  split at he
  · exact namedSector_within he h
  · exact namedSector_within he h
  · split at he
    · exact namedSector_within he h
    · split at he
      · split at he
        · cases he
        · injection he with _ he; subst he; exact h
      · split at he
        · injection he with _ he; subst he; exact h
        · split at he
          · injection he with _ he; subst he; exact formSector_within h (sub_trans (sub_of rfl) hp)
          · split at he
            · rename_i hg
              injection he with _ he; subst he; exact formShadow_within hg h (sub_trans (sub_of rfl) hp)
            · cases he
          · cases he

theorem enterStage4_within {P s0 s a1} (h : Within P s0 s) (hp : sub 3062783 P) : Within P s0 (enterStage4 s a1) := by
  unfold enterStage4
  repeat' (first | with_reducible assumption | exact sub_of rfl | with_reducible refine modSector_within ?_ (sub_trans ?_ hp) | with_reducible refine modJob_within ?_ (sub_trans ?_ hp) | with_reducible refine countOutcome_within ?_ (sub_trans ?_ hp) | with_reducible refine sectorFor_within ‹_› ?_ (sub_trans ?_ hp) | with_reducible refine failJob_within ?_ (sub_trans ?_ hp) | with_reducible refine passIdleSet_within ?_ (sub_trans ?_ hp) | with_reducible refine updateSector_within ?_ (sub_trans ?_ hp) | with_reducible refine Within.ite ?_ ?_ | (extract_lets +onlyGivenNames x; refine (fun (_ : Within P s0 x) => ?_) ?_; rotate_left; subst x; rotate_left; clear_value x) | (extract_lets +onlyGivenNames x; clear_value x) | split)

theorem dispatchBatch_within {P s0 s a1} (h : Within P s0 s) (hp : sub 3063807 P) : Within P s0 (dispatchBatch s a1) := by
  unfold dispatchBatch
  repeat' (first | with_reducible assumption | exact sub_of rfl | with_reducible refine modJob_within ?_ (sub_trans ?_ hp) | with_reducible refine enterStage4_within ?_ (sub_trans ?_ hp) | with_reducible refine Within.foldl ?_ (fun _ _ _ => ?_) | with_reducible refine Within.foldl_fst ?_ (fun _ _ _ => ?_) | with_reducible refine Within.ite ?_ ?_ | with_reducible refine Within.upd_batches ?_ (sub_trans ?_ hp) | (extract_lets +onlyGivenNames x; refine (fun (_ : Within P s0 x) => ?_) ?_; rotate_left; subst x; rotate_left; clear_value x) | (extract_lets +onlyGivenNames x; clear_value x) | split)

theorem closeBatches_within {P s0 s a1} (h : Within P s0 s) (hp : sub 3063807 P) : Within P s0 (closeBatches s a1) := by
  unfold closeBatches
  repeat' (first | with_reducible assumption | exact sub_of rfl | with_reducible refine dispatchBatch_within ?_ (sub_trans ?_ hp) | with_reducible refine Within.foldl ?_ (fun _ _ _ => ?_) | with_reducible refine Within.foldl_fst ?_ (fun _ _ _ => ?_) | with_reducible refine Within.ite ?_ ?_ | split)

theorem placeDirect_within {P s0 s a1 a2} (h : Within P s0 s) (hp : sub 3063807 P) : Within P s0 (placeDirect s a1 a2) := by
  unfold placeDirect; try dsimp only
  repeat' (first | with_reducible assumption | exact sub_of rfl | with_reducible refine closeBatches_within ?_ (sub_trans ?_ hp) | with_reducible refine enterStage4_within ?_ (sub_trans ?_ hp) | with_reducible refine dispatchBatch_within ?_ (sub_trans ?_ hp) | split | with_reducible refine Within.upd_batches ?_ (sub_trans ?_ hp))

theorem jobRow_within {P s0 s t stage3 place f r i} (ha : ∀ s d j, Within P s0 s → Within P s0 (place s d j))
    (h : Within P s0 s) (hp : sub 3062783 P) : Within P s0 (jobRow t stage3 place f r i s) := by
  unfold jobRow
  split
  · exact h
  · split
    · split
      extract_lets s0' s1
      split
      · exact failStage3_within h (sub_trans (sub_of rfl) hp)
      · split
        · exact h
        · have k0 : Within P s0 s0' := readHdrs_within h (sub_trans (sub_of rfl) hp)
          clear_value s0'
          have k1 : Within P s0 s1 := setJob_within (Within.upd_jobSeq k0 (sub_trans (sub_of rfl) hp)) (sub_trans (sub_of rfl) hp)
          clear_value s1
          exact ha _ _ _ (journalDesc_within (setPhase_within k1 (sub_trans (sub_of rfl) hp)) (sub_trans (sub_of rfl) hp))
    · split
      · exact Within.ite (closeJob_within h (sub_trans (sub_of rfl) hp))
          (Within.ite h (enterStage4_within h (sub_trans (sub_of rfl) hp)))
      · exact h
    · exact h

theorem execSubmitCircuit_within {P s0 s t a0 a1 a2} (h : Within P s0 s) (hp : sub 3062783 P) (he : execSubmitCircuit a0 a1 a2 s = .next t) : Within P s0 t := by
  unfold execSubmitCircuit at he
  injection he with he
  subst he
  exact jobRow_within (fun _ _ _ k => enterStage4_within k (sub_trans (sub_of rfl) hp)) h (sub_trans (sub_of rfl) hp)

theorem execDirectOp_within {P s0 s t a0 a1 a2} (h : Within P s0 s) (hp : sub 3063807 P) (he : execDirectOp a0 a1 a2 s = .next t) : Within P s0 t := by
  unfold execDirectOp at he
  injection he with he
  subst he
  exact jobRow_within (fun _ _ _ k => placeDirect_within k (sub_trans (sub_of rfl) hp)) h (sub_trans (sub_of rfl) hp)

theorem execRawSector_within {P s0 s t a0 a1 a2} (h : Within P s0 s) (hp : sub 3062783 P) (he : execRawSector a0 a1 a2 s = .next t) : Within P s0 t := by
  unfold execRawSector at he
  injection he with he
  subst he
  exact jobRow_within (fun _ _ _ k => enterStage4_within k (sub_trans (sub_of rfl) hp)) h (sub_trans (sub_of rfl) hp)

theorem execDirectOpBatchWindow_within {P s0 s t a0 a1} (h : Within P s0 s) (hp : sub 3063807 P) (he : execDirectOpBatchWindow a0 a1 s = .next t) : Within P s0 t := by
  unfold execDirectOpBatchWindow at he; injection he with he; subst he
  repeat' (first | with_reducible assumption | exact sub_of rfl | with_reducible refine dispatchBatch_within ?_ (sub_trans ?_ hp) | with_reducible refine Within.ite ?_ ?_ | split)

theorem execBellPoll_within {P s0 s t a0 a1 a2} (h : Within P s0 s) (hp : sub 3063807 P) (he : execBellPoll a0 a1 a2 s = .next t) : Within P s0 t := by
  unfold execBellPoll at he; injection he with he; subst he
  repeat' (first | with_reducible assumption | exact sub_of rfl | with_reducible refine closeBatches_within ?_ (sub_trans ?_ hp) | with_reducible refine pollBell_within ?_ (sub_trans ?_ hp))

end Sys2Proof.Machine
end

