-- ==== Sys2Proof/Laws/WithinFence.lean ====
section
/-! SUPPORT. What each operation of Machine/Fence.lean may change (see Within.lean). -/

namespace Sys2Proof.Machine

theorem writeField_within {P s0 s a1} (h : Within P s0 s) (hp : sub 32768 P) : Within P s0 (writeField s a1) := by
  unfold writeField
  repeat' (first | with_reducible assumption | exact sub_of rfl | with_reducible refine Within.upd_start ?_ (sub_trans ?_ hp) ?_ | exact id | exact fun _ => by (dsimp only; decide) | (extract_lets +onlyGivenNames x; refine (fun (_ : Within P s0 x) => ?_) ?_; rotate_left; subst x; rotate_left; clear_value x) | (extract_lets +onlyGivenNames x; clear_value x))

theorem spareReg_within {P s0 s a1} (h : Within P s0 s) (hp : sub 1 P) : Within P s0 (spareReg s a1) := by
  unfold spareReg
  repeat' (first | with_reducible assumption | exact sub_of rfl | with_reducible refine regSetFld_within ?_ (sub_trans ?_ hp) | with_reducible refine Within.ite ?_ ?_ | (extract_lets +onlyGivenNames x; refine (fun (_ : Within P s0 x) => ?_) ?_; rotate_left; subst x; rotate_left; clear_value x) | (extract_lets +onlyGivenNames x; clear_value x) | split)

theorem markCore_within {P s0 s a1} (h : Within P s0 s) (hp : sub 1 P) : Within P s0 (markCore s a1) := by
  unfold markCore
  repeat' (first | with_reducible assumption | exact sub_of rfl | with_reducible refine regSetFld_within ?_ (sub_trans ?_ hp))

theorem markTile_within {P s0 s a1} (h : Within P s0 s) (hp : sub 1 P) : Within P s0 (markTile s a1) := by
  unfold markTile
  repeat' (first | with_reducible assumption | exact sub_of rfl | with_reducible refine regSetFld_within ?_ (sub_trans ?_ hp) | with_reducible refine markCore_within ?_ (sub_trans ?_ hp) | with_reducible refine Within.foldl ?_ (fun _ _ _ => ?_) | with_reducible refine Within.foldl_fst ?_ (fun _ _ _ => ?_))

theorem fenceStatus_within {P s0 s} (h : Within P s0 s) (hp : sub 2105345 P) : Within P s0 (fenceStatus s) := by
  unfold fenceStatus
  repeat' (first | with_reducible assumption | exact sub_of rfl | with_reducible refine regSet_within ?_ (sub_trans ?_ hp) | with_reducible refine sbAlert_within ?_ (sub_trans ?_ hp) | with_reducible refine Within.ite ?_ ?_ | (extract_lets +onlyGivenNames x; refine (fun (_ : Within P s0 x) => ?_) ?_; rotate_left; subst x; rotate_left; clear_value x) | (extract_lets +onlyGivenNames x; clear_value x) | split)

theorem checkStop_within {P s0 s a1} (h : Within P s0 s) (hp : sub 3062783 P) : Within P s0 (checkStop s a1) := by
  unfold checkStop
  repeat' (first | with_reducible assumption | exact sub_of rfl | with_reducible refine stopSector_within ?_ (sub_trans ?_ hp) | with_reducible refine Within.ite ?_ ?_ | (extract_lets +onlyGivenNames x; refine (fun (_ : Within P s0 x) => ?_) ?_; rotate_left; subst x; rotate_left; clear_value x) | (extract_lets +onlyGivenNames x; clear_value x) | split)

theorem loseCore_within {P s0 s a1} (h : Within P s0 s) (hp : sub 2097165 P) : Within P s0 (loseCore s a1) := by
  unfold loseCore
  repeat' (first | with_reducible assumption | exact sub_of rfl | with_reducible refine loseReqs_within ?_ (sub_trans ?_ hp) | with_reducible refine setCore_within ?_ (sub_trans ?_ hp) | (extract_lets +onlyGivenNames x; refine (fun (_ : Within P s0 x) => ?_) ?_; rotate_left; subst x; rotate_left; clear_value x) | (extract_lets +onlyGivenNames x; clear_value x) | split)

theorem loseTile_within {P s0 s a1 a2 a3} (h : Within P s0 s) (hp : sub 3062783 P) : Within P s0 (loseTile s a1 a2 a3) := by
  unfold loseTile
  repeat' (first | with_reducible assumption | exact sub_of rfl | with_reducible refine releaseSector_within ?_ (sub_trans ?_ hp) | with_reducible refine modModel_within ?_ (sub_trans ?_ hp) | with_reducible refine fenceEvent_within ?_ (sub_trans ?_ hp) | with_reducible refine failJob_within ?_ (sub_trans ?_ hp) | with_reducible refine completeDesc_within ?_ (sub_trans ?_ hp) | with_reducible refine setSector_within ?_ (sub_trans ?_ hp) | with_reducible refine Within.foldl ?_ (fun _ _ _ => ?_) | with_reducible refine Within.foldl_fst ?_ (fun _ _ _ => ?_) | with_reducible refine Within.ite ?_ ?_ | (extract_lets +onlyGivenNames x; refine (fun (_ : Within P s0 x) => ?_) ?_; rotate_left; subst x; rotate_left; clear_value x) | (extract_lets +onlyGivenNames x; clear_value x) | split)

theorem fenceRecord_within {P s0 s a1 a2 a3 a4} (h : Within P s0 s) (hp : sub 2101265 P) : Within P s0 (fenceRecord s a1 a2 a3 a4) := by
  unfold fenceRecord
  repeat' (first | with_reducible assumption | exact sub_of rfl | with_reducible refine bump_within ?_ (sub_trans ?_ hp) | with_reducible refine dayEvent_within ?_ (sub_trans ?_ hp) | with_reducible refine fenceEvent_within ?_ (sub_trans ?_ hp) | with_reducible refine Within.foldl ?_ (fun _ _ _ => ?_) | with_reducible refine Within.foldl_fst ?_ (fun _ _ _ => ?_) | with_reducible refine Within.ite ?_ ?_ | (extract_lets +onlyGivenNames x; refine (fun (_ : Within P s0 x) => ?_) ?_; rotate_left; subst x; rotate_left; clear_value x) | (extract_lets +onlyGivenNames x; refine (fun (_ : Within P s0 x.1) => ?_) ?_; rotate_left; subst x; rotate_left; clear_value x) | (extract_lets +onlyGivenNames x; clear_value x) | split)

theorem fenceCore_within {P s0 s a1 a2} (h : Within P s0 s) (hp : sub 3062783 P) : Within P s0 (fenceCore s a1 a2) := by
  unfold fenceCore
  repeat' (first | with_reducible assumption | exact sub_of rfl | with_reducible refine modSector_within ?_ (sub_trans ?_ hp) | with_reducible refine checkStop_within ?_ (sub_trans ?_ hp) | with_reducible refine fenceStatus_within ?_ (sub_trans ?_ hp) | with_reducible refine writeField_within ?_ (sub_trans ?_ hp) | with_reducible refine markCore_within ?_ (sub_trans ?_ hp) | with_reducible refine loseCore_within ?_ (sub_trans ?_ hp) | with_reducible refine fenceRecord_within ?_ (sub_trans ?_ hp) | with_reducible refine Within.foldl ?_ (fun _ _ _ => ?_) | with_reducible refine Within.foldl_fst ?_ (fun _ _ _ => ?_) | with_reducible refine Within.ite ?_ ?_ | (extract_lets +onlyGivenNames x; refine (fun (_ : Within P s0 x) => ?_) ?_; rotate_left; subst x; rotate_left; clear_value x) | (extract_lets +onlyGivenNames x; clear_value x) | split)

theorem fenceTile_within {P s0 s a1 a2} (h : Within P s0 s) (hp : sub 3062783 P) : Within P s0 (fenceTile s a1 a2) := by
  unfold fenceTile
  repeat' (first | with_reducible assumption | exact sub_of rfl | with_reducible refine modSector_within ?_ (sub_trans ?_ hp) | with_reducible refine checkStop_within ?_ (sub_trans ?_ hp) | with_reducible refine loseReqs_within ?_ (sub_trans ?_ hp) | with_reducible refine fenceStatus_within ?_ (sub_trans ?_ hp) | with_reducible refine resetsGoOn_within ?_ (sub_trans ?_ hp) | with_reducible refine writeField_within ?_ (sub_trans ?_ hp) | with_reducible refine markTile_within ?_ (sub_trans ?_ hp) | with_reducible refine loseTile_within ?_ (sub_trans ?_ hp) | with_reducible refine loseExpanders_within ?_ (sub_trans ?_ hp) | with_reducible refine loseCore_within ?_ (sub_trans ?_ hp) | with_reducible refine fenceRecord_within ?_ (sub_trans ?_ hp) | with_reducible refine Within.foldl ?_ (fun _ _ _ => ?_) | with_reducible refine Within.foldl_fst ?_ (fun _ _ _ => ?_) | with_reducible refine Within.ite ?_ ?_ | with_reducible refine Within.upd_zeroing ?_ (sub_trans ?_ hp) | (extract_lets +onlyGivenNames x; refine (fun (_ : Within P s0 x) => ?_) ?_; rotate_left; subst x; rotate_left; clear_value x) | (extract_lets +onlyGivenNames x; clear_value x) | split)

theorem fenceRow_within {P s0 s a1 a2} (h : Within P s0 s) (hp : sub 3062783 P) : Within P s0 (fenceRow s a1 a2) := by
  unfold fenceRow
  repeat' (first | with_reducible assumption | exact sub_of rfl | with_reducible refine fenceCore_within ?_ (sub_trans ?_ hp) | with_reducible refine fenceTile_within ?_ (sub_trans ?_ hp) | with_reducible refine Within.ite ?_ ?_ | split)

theorem execHardwareCheck_within {P s0 s t a0 a1} (h : Within P s0 s) (hp : sub 3128319 P) (he : execHardwareCheck a0 a1 s = .next t) : Within P s0 t := by
  unfold execHardwareCheck at he; injection he with he; subst he; try dsimp only
  repeat' (first | with_reducible assumption | exact sub_of rfl | with_reducible refine raiseSrc_within ?_ (sub_trans ?_ hp) | with_reducible refine fenceTile_within ?_ (sub_trans ?_ hp) | with_reducible refine checkStop_within ?_ (sub_trans ?_ hp) | with_reducible refine fenceCore_within ?_ (sub_trans ?_ hp) | with_reducible refine bump_within ?_ (sub_trans ?_ hp) | with_reducible refine mntNeed_within ?_ (sub_trans ?_ hp) | with_reducible refine Within.foldl ?_ (fun _ _ _ => ?_) | split | with_reducible refine Within.upd_start ?_ (sub_trans ?_ hp) ?_ | exact id)

theorem execFenCmdFence_within {P s0 s t} (h : Within P s0 s) (hp : sub 3062783 P) (he : execFenCmdFence s = .next t) : Within P s0 t := by
  unfold execFenCmdFence at he; injection he with he; subst he
  repeat' (first | with_reducible assumption | exact sub_of rfl | with_reducible refine fenceCore_within ?_ (sub_trans ?_ hp) | with_reducible refine fenceTile_within ?_ (sub_trans ?_ hp) | with_reducible refine Within.ite ?_ ?_ | (extract_lets +onlyGivenNames x; refine (fun (_ : Within P s0 x) => ?_) ?_; rotate_left; subst x; rotate_left; clear_value x) | (extract_lets +onlyGivenNames x; clear_value x) | split)

theorem execFenCmdRead_within {P s0 s t} (h : Within P s0 s) (hp : sub 1 P) (he : execFenCmdRead s = .next t) : Within P s0 t := by
  unfold execFenCmdRead at he; injection he with he; subst he
  repeat' (first | with_reducible assumption | exact sub_of rfl | with_reducible refine regSetFld_within ?_ (sub_trans ?_ hp) | with_reducible refine Within.ite ?_ ?_ | (extract_lets +onlyGivenNames x; refine (fun (_ : Within P s0 x) => ?_) ?_; rotate_left; subst x; rotate_left; clear_value x) | (extract_lets +onlyGivenNames x; clear_value x) | split)

theorem execFenCmdUnfence_within {P s0 s t} (h : Within P s0 s) (hp : sub 32769 P) (he : execFenCmdUnfence s = .next t) : Within P s0 t := by
  unfold execFenCmdUnfence at he; injection he with he; subst he
  repeat' (first | with_reducible assumption | exact sub_of rfl | with_reducible refine regSetFld_within ?_ (sub_trans ?_ hp) | with_reducible refine writeField_within ?_ (sub_trans ?_ hp) | with_reducible refine Within.ite ?_ ?_ | (extract_lets +onlyGivenNames x; refine (fun (_ : Within P s0 x) => ?_) ?_; rotate_left; subst x; rotate_left; clear_value x) | (extract_lets +onlyGivenNames x; clear_value x) | split)

end Sys2Proof.Machine
end

