-- ==== Sys2Proof/Laws/WithinStartup.lean ====
section
/-! SUPPORT. What each operation of Machine/Startup.lean may change (see Within.lean). -/

namespace Sys2Proof.Machine

theorem keepCeilings_within {P s0 s a0} (h : Within P s0 s) (hp : sub 1 P) : Within P s0 (keepCeilings a0 s) := by
  unfold keepCeilings
  repeat' (first | with_reducible assumption | exact sub_of rfl | with_reducible refine regSetFld_within ?_ (sub_trans ?_ hp) | with_reducible refine Within.foldl ?_ (fun _ _ _ => ?_) | with_reducible refine Within.foldl_fst ?_ (fun _ _ _ => ?_))

theorem mainReset_within {P s0 s a1} (h : Within P s0 s) (hp : sub 4194303 P) : Within P s0 (mainReset s a1) := by
  unfold mainReset
  refine keepCeilings_within (Within.all hp h.pending h.free fun hi => ?_) (sub_trans (sub_of rfl) hp)
  exact ⟨rfl, rfl, kwf_filter _ (h.inv hi).regs, rfl, rfl, rfl, rfl, (h.inv hi).phase⟩

theorem powerDown_within {P s0 s} (h : Within P s0 s) (hp : sub 4194303 P) : Within P s0 (powerDown s) := by
  unfold powerDown
  repeat' (first | with_reducible assumption | exact sub_of rfl | with_reducible refine mainReset_within ?_ (sub_trans ?_ hp) | with_reducible refine Within.upd_start ?_ (sub_trans ?_ hp) ?_ | exact id | exact fun _ => by (dsimp only; decide) | (extract_lets +onlyGivenNames x; refine (fun (_ : Within P s0 x) => ?_) ?_; rotate_left; subst x; rotate_left; clear_value x) | (extract_lets +onlyGivenNames x; clear_value x))

theorem setModState_within {P s0 s a1} (h : Within P s0 s) (hp : sub 8193 P) : Within P s0 (setModState s a1) := by
  unfold setModState
  repeat' (first | with_reducible assumption | exact sub_of rfl | with_reducible refine regSetFld_within ?_ (sub_trans ?_ hp) | with_reducible refine Within.upd_keeper ?_ (sub_trans ?_ hp) | (extract_lets +onlyGivenNames x; refine (fun (_ : Within P s0 x) => ?_) ?_; rotate_left; subst x; rotate_left; clear_value x) | (extract_lets +onlyGivenNames x; clear_value x) | split)

theorem setStartStatus_within {P s0 s a1 a2} (h : Within P s0 s) (hp : sub 1 P) : Within P s0 (setStartStatus s a1 a2) := by
  unfold setStartStatus
  repeat' (first | with_reducible assumption | exact sub_of rfl | with_reducible refine regSet_within ?_ (sub_trans ?_ hp))

theorem shutdown_within {P s0 s a1 a2 a3} (h : Within P s0 s) (hp : sub 4194303 P) : Within P s0 (shutdown s a1 a2 a3) := by
  unfold shutdown
  repeat' (first | with_reducible assumption | exact sub_of rfl | with_reducible refine powerDown_within ?_ (sub_trans ?_ hp) | with_reducible refine dayEvent_within ?_ (sub_trans ?_ hp) | with_reducible refine regSet_within ?_ (sub_trans ?_ hp) | with_reducible refine dayEndFreezes_within ?_ (sub_trans ?_ hp) | with_reducible refine sbAlert_within ?_ (sub_trans ?_ hp) | with_reducible refine setModState_within ?_ (sub_trans ?_ hp) | (extract_lets +onlyGivenNames x; refine (fun (_ : Within P s0 x) => ?_) ?_; rotate_left; subst x; rotate_left; clear_value x) | (extract_lets +onlyGivenNames x; clear_value x))

theorem failStart_within {P s0 s a1 a2} (h : Within P s0 s) (hp : sub 4194303 P) : Within P s0 (failStart s a1 a2) := by
  unfold failStart
  repeat' (first | with_reducible assumption | exact sub_of rfl | with_reducible refine powerDown_within ?_ (sub_trans ?_ hp) | with_reducible refine setStartStatus_within ?_ (sub_trans ?_ hp) | with_reducible refine dayEvent_within ?_ (sub_trans ?_ hp) | with_reducible refine sbAlert_within ?_ (sub_trans ?_ hp) | with_reducible refine setModState_within ?_ (sub_trans ?_ hp) | (extract_lets +onlyGivenNames x; refine (fun (_ : Within P s0 x) => ?_) ?_; rotate_left; subst x; rotate_left; clear_value x) | (extract_lets +onlyGivenNames x; clear_value x))

theorem enterPhase_within {P s0 s a1} (h : Within P s0 s) (hle : a1 ≤ 8) (hp : sub 32769 P) : Within P s0 (enterPhase s a1) := by
  unfold enterPhase
  repeat' (first | with_reducible assumption | exact sub_of rfl | with_reducible refine setStartStatus_within ?_ (sub_trans ?_ hp) | with_reducible refine Within.upd_start ?_ (sub_trans ?_ hp) ?_ | exact fun _ => by (dsimp only; assumption))

theorem beginStart_within {P s0 s a1 a2 a3} (h : Within P s0 s) (hle : a1 ≤ 8) (hp : sub 40961 P) : Within P s0 (beginStart s a1 a2 a3) := by
  unfold beginStart
  extract_lets z1 t1
  have h_t1 : Within P s0 t1 := by dsimp only [t1]; repeat' (first | with_reducible assumption | exact sub_of rfl | with_reducible refine Within.upd_start ?_ (sub_trans ?_ hp) ?_ | exact id)
  clear_value t1
  repeat' (first | with_reducible refine enterPhase_within ?_ hle (sub_trans ?_ hp) | with_reducible assumption | exact sub_of rfl | with_reducible refine enterPhase_within ?_ (by first | decide | (split <;> decide)) (sub_trans ?_ hp) | with_reducible refine setModState_within ?_ (sub_trans ?_ hp))

theorem railsUp_within {P s0 s} (h : Within P s0 s) (hp : sub 1081345 P) : Within P s0 (railsUp s) := by
  unfold railsUp
  repeat' (first | with_reducible assumption | exact sub_of rfl | with_reducible refine regSetPair_within ?_ (sub_trans ?_ hp) | with_reducible refine regSet_within ?_ (sub_trans ?_ hp) | with_reducible refine Within.ite ?_ ?_ | with_reducible refine Within.upd_start_ftime ?_ (sub_trans ?_ hp) ?_ | exact id | exact fun _ => by (dsimp only; decide) | (extract_lets +onlyGivenNames x; refine (fun (_ : Within P s0 x) => ?_) ?_; rotate_left; subst x; rotate_left; clear_value x) | (extract_lets +onlyGivenNames x; clear_value x) | split)

theorem memoryShape_within {P s0 s} (h : Within P s0 s) (hp : sub 1 P) : Within P s0 (memoryShape s) := by
  unfold memoryShape
  repeat' (first | with_reducible assumption | exact sub_of rfl | with_reducible refine regSet_within ?_ (sub_trans ?_ hp) | with_reducible refine Within.foldl ?_ (fun _ _ _ => ?_) | with_reducible refine Within.foldl_fst ?_ (fun _ _ _ => ?_) | (extract_lets +onlyGivenNames x; refine (fun (_ : Within P s0 x) => ?_) ?_; rotate_left; subst x; rotate_left; clear_value x) | (extract_lets +onlyGivenNames x; clear_value x))

theorem testResults_within {P s0 s a1} (h : Within P s0 s) (hp : sub 32768 P) : Within P s0 (testResults s a1) := by
  unfold testResults
  repeat' (first | with_reducible assumption | exact sub_of rfl | with_reducible refine writeField_within ?_ (sub_trans ?_ hp) | with_reducible refine Within.foldl ?_ (fun _ _ _ => ?_) | with_reducible refine Within.foldl_fst ?_ (fun _ _ _ => ?_) | with_reducible refine Within.ite ?_ ?_ | with_reducible refine Within.upd_start ?_ (sub_trans ?_ hp) ?_ | exact id | exact fun _ => by (dsimp only; decide) | (extract_lets +onlyGivenNames x; refine (fun (_ : Within P s0 x) => ?_) ?_; rotate_left; subst x; rotate_left; clear_value x) | (extract_lets +onlyGivenNames x; refine (fun (_ : Within P s0 x.1) => ?_) ?_; rotate_left; subst x; rotate_left; clear_value x) | (extract_lets +onlyGivenNames x; clear_value x) | split)

theorem buildFences_within {P s0 s} (h : Within P s0 s) (hp : sub 2105345 P) : Within P s0 (buildFences s) := by
  unfold buildFences
  repeat' (first | with_reducible assumption | exact sub_of rfl | with_reducible refine fenceStatus_within ?_ (sub_trans ?_ hp) | with_reducible refine markCore_within ?_ (sub_trans ?_ hp) | with_reducible refine markTile_within ?_ (sub_trans ?_ hp) | with_reducible refine Within.foldl ?_ (fun _ _ _ => ?_) | with_reducible refine Within.foldl_fst ?_ (fun _ _ _ => ?_) | with_reducible refine Within.upd_regs ?_ (sub_trans ?_ hp) ?_ | exact kwf_tset _ _ | exact kwf_filter _ | (extract_lets +onlyGivenNames x; refine (fun (_ : Within P s0 x) => ?_) ?_; rotate_left; subst x; rotate_left; clear_value x) | (extract_lets +onlyGivenNames x; refine (fun (_ : Within P s0 x.1) => ?_) ?_; rotate_left; subst x; rotate_left; clear_value x) | (extract_lets +onlyGivenNames x; clear_value x))

theorem spareRegs_within {P s0 s} (h : Within P s0 s) (hp : sub 1 P) : Within P s0 (spareRegs s) := by
  unfold spareRegs
  repeat' (first | with_reducible assumption | exact sub_of rfl | with_reducible refine spareReg_within ?_ (sub_trans ?_ hp) | with_reducible refine Within.foldl ?_ (fun _ _ _ => ?_) | with_reducible refine Within.foldl_fst ?_ (fun _ _ _ => ?_))

theorem setEics_within {P s0 s} (h : Within P s0 s) (hp : sub 1 P) : Within P s0 (setEics s) := by
  unfold setEics
  repeat' (first | with_reducible assumption | exact sub_of rfl | with_reducible refine regSet_within ?_ (sub_trans ?_ hp) | with_reducible refine Within.foldl ?_ (fun _ _ _ => ?_) | with_reducible refine Within.foldl_fst ?_ (fun _ _ _ => ?_) | with_reducible refine Within.upd_regs ?_ (sub_trans ?_ hp) ?_ | exact kwf_tset _ _ | exact kwf_filter _ | (extract_lets +onlyGivenNames x; refine (fun (_ : Within P s0 x) => ?_) ?_; rotate_left; subst x; rotate_left; clear_value x) | (extract_lets +onlyGivenNames x; refine (fun (_ : Within P s0 x.1) => ?_) ?_; rotate_left; subst x; rotate_left; clear_value x) | (extract_lets +onlyGivenNames x; clear_value x))

theorem idleTiles_within {P s0 s} (h : Within P s0 s) (hp : sub 131081 P) : Within P s0 (idleTiles s) := by
  unfold idleTiles
  generalize List.range nTiles = l1
  generalize List.range nDies = l2
  extract_lets p t1
  have h_t1 : Within P s0 t1 := by dsimp only [t1]; repeat' (first | with_reducible assumption | exact sub_of rfl | with_reducible refine setTilePace_within ?_ (sub_trans ?_ hp) | with_reducible refine Within.foldl ?_ (fun _ _ _ => ?_))
  clear_value t1
  repeat' (first | with_reducible assumption | exact sub_of rfl | with_reducible refine updateHub_within ?_ (sub_trans ?_ hp) | with_reducible refine Within.foldl ?_ (fun _ _ _ => ?_) | with_reducible refine Within.ite ?_ ?_ | with_reducible refine Within.upd_cores ?_ (sub_trans ?_ hp) ?_ | exact fun _ => (rfl : Memory.wf [] = true))

theorem deviceReady_within {P s0 s} (h : Within P s0 s) (hp : sub 2138113 P) : Within P s0 (deviceReady s) := by
  unfold deviceReady
  repeat' (first | with_reducible assumption | exact sub_of rfl | with_reducible refine setStartStatus_within ?_ (sub_trans ?_ hp) | with_reducible refine emit_within ?_ (sub_trans ?_ hp) | with_reducible refine setModState_within ?_ (sub_trans ?_ hp) | with_reducible refine Within.ite ?_ ?_ | with_reducible refine Within.upd_start ?_ (sub_trans ?_ hp) ?_ | exact id | exact fun _ => by (dsimp only; decide) | (extract_lets +onlyGivenNames x; refine (fun (_ : Within P s0 x) => ?_) ?_; rotate_left; subst x; rotate_left; clear_value x) | (extract_lets +onlyGivenNames x; clear_value x) | split)

theorem resumeReset_within {P s0 s a1} (h : Within P s0 s) (hp : sub 4194303 P) : Within P s0 (resumeReset s a1) := by
  unfold resumeReset; try dsimp only
  repeat' (first | with_reducible assumption | exact sub_of rfl | with_reducible refine enterPhase_within ?_ (by first | decide | (split <;> decide)) (sub_trans ?_ hp) | with_reducible refine shutdown_within ?_ (sub_trans ?_ hp) | with_reducible refine powerDown_within ?_ (sub_trans ?_ hp) | with_reducible refine setModState_within ?_ (sub_trans ?_ hp) | with_reducible refine beginStart_within ?_ (by first | decide | (split <;> decide)) (sub_trans ?_ hp) | with_reducible refine Within.ite ?_ ?_ | with_reducible refine Within.upd_start ?_ (sub_trans ?_ hp) ?_ | exact id)

theorem afterPhase_within {P s0 s a1} (h : Within P s0 s) (hle : a1 ≤ 7) (hp : sub 4194303 P) : Within P s0 (afterPhase s a1) := by
  unfold afterPhase
  repeat' (first | with_reducible refine enterPhase_within ?_ (Nat.succ_le_succ hle) (sub_trans ?_ hp) | with_reducible assumption | exact sub_of rfl | with_reducible refine enterPhase_within ?_ (by first | decide | (split <;> decide)) (sub_trans ?_ hp) | with_reducible refine resumeReset_within ?_ (sub_trans ?_ hp) | with_reducible refine deviceReady_within ?_ (sub_trans ?_ hp) | split)

theorem execStartPhaseEnd_within {P s0 s t a0} (h : Within P s0 s) (hp : sub 4194303 P) (he : execStartPhaseEnd a0 s = .next t) : Within P s0 t := by
  unfold execStartPhaseEnd at he; injection he with he; subst he
  extract_lets p t0 z t1 t2
  split
  · exact h
  · rename_i hp7
    have hle : p ≤ 7 := by omega
    clear hp7
    split
    · exact h
    · skip
      have h_t0 : Within P s0 t0 := by dsimp only [t0]; repeat' (first | with_reducible assumption | exact sub_of rfl | with_reducible refine regSet_within ?_ (sub_trans ?_ hp))
      clear_value t0
      have h_t1 : Within P s0 t1 := by dsimp only [t1]; repeat' (first | with_reducible assumption | exact sub_of rfl | with_reducible refine memoryShape_within ?_ (sub_trans ?_ hp) | with_reducible refine markMapOut_within ?_ (sub_trans ?_ hp) | with_reducible refine Within.foldl ?_ (fun _ _ _ => ?_) | with_reducible refine Within.ite ?_ ?_)
      clear_value t1
      have h_t2 : Within P s0 t2 := by dsimp only [t2]; repeat' (first | with_reducible assumption | exact sub_of rfl | with_reducible refine setEics_within ?_ (sub_trans ?_ hp) | with_reducible refine spareRegs_within ?_ (sub_trans ?_ hp) | with_reducible refine buildFences_within ?_ (sub_trans ?_ hp))
      clear_value t2
      clear_value p
      split
      · repeat' (first | with_reducible assumption | exact sub_of rfl | with_reducible refine railsUp_within ?_ (sub_trans ?_ hp) | with_reducible refine afterPhase_within ?_ (by first | decide | (split <;> decide)) (sub_trans ?_ hp) | with_reducible refine failStart_within ?_ (sub_trans ?_ hp) | with_reducible refine Within.ite ?_ ?_ | with_reducible refine Within.upd_start ?_ (sub_trans ?_ hp) ?_ | exact id)
      · repeat' (first | with_reducible assumption | exact sub_of rfl | with_reducible refine afterPhase_within ?_ (by first | decide | (split <;> decide)) (sub_trans ?_ hp) | with_reducible refine failStart_within ?_ (sub_trans ?_ hp) | with_reducible refine Within.ite ?_ ?_)
      · repeat' (first | with_reducible assumption | exact sub_of rfl | with_reducible refine testResults_within ?_ (sub_trans ?_ hp) | with_reducible refine afterPhase_within ?_ (by first | decide | (split <;> decide)) (sub_trans ?_ hp))
      · repeat' (first | with_reducible assumption | exact sub_of rfl | with_reducible refine afterPhase_within ?_ (by first | decide | (split <;> decide)) (sub_trans ?_ hp) | with_reducible refine failStart_within ?_ (sub_trans ?_ hp) | with_reducible refine Within.ite ?_ ?_)
      · repeat' (first | with_reducible assumption | exact sub_of rfl | with_reducible refine regSetFld_within ?_ (sub_trans ?_ hp) | with_reducible refine dayEvent_within ?_ (sub_trans ?_ hp) | with_reducible refine afterPhase_within ?_ (by first | decide | (split <;> decide)) (sub_trans ?_ hp) | with_reducible refine idleTiles_within ?_ (sub_trans ?_ hp) | with_reducible refine failStart_within ?_ (sub_trans ?_ hp) | with_reducible refine Within.ite ?_ ?_)
      · exact afterPhase_within h_t0 hle (sub_trans (sub_of rfl) hp)

theorem execPhaseTimeout_within {P s0 s t} (h : Within P s0 s) (hp : sub 4194303 P) (he : execPhaseTimeout s = .next t) : Within P s0 t := by
  unfold execPhaseTimeout at he; injection he with he; subst he
  repeat' (first | with_reducible assumption | exact sub_of rfl | with_reducible refine failStart_within ?_ (sub_trans ?_ hp) | with_reducible refine Within.ite ?_ ?_ | (extract_lets +onlyGivenNames x; refine (fun (_ : Within P s0 x) => ?_) ?_; rotate_left; subst x; rotate_left; clear_value x) | (extract_lets +onlyGivenNames x; clear_value x) | split)

theorem readFieldMaps_within {P s0 s a1 a2} (h : Within P s0 s) (hp : sub 36865 P) : Within P s0 (readFieldMaps s a1 a2) := by
  unfold readFieldMaps
  repeat' (first | with_reducible assumption | exact sub_of rfl | with_reducible refine dayEvent_within ?_ (sub_trans ?_ hp) | with_reducible refine writeField_within ?_ (sub_trans ?_ hp) | with_reducible refine Within.ite ?_ ?_ | with_reducible refine Within.upd_start ?_ (sub_trans ?_ hp) ?_ | exact id | exact fun _ => by (dsimp only; decide) | (extract_lets +onlyGivenNames x; refine (fun (_ : Within P s0 x) => ?_) ?_; rotate_left; subst x; rotate_left; clear_value x) | (extract_lets +onlyGivenNames x; clear_value x) | split)

theorem keeperUp_within {P s0 s a1 a2} (h : Within P s0 s) (hp : sub 8193 P) : Within P s0 (keeperUp s a1 a2) := by
  unfold keeperUp
  repeat' (first | with_reducible assumption | exact sub_of rfl | with_reducible refine regSet_within ?_ (sub_trans ?_ hp) | with_reducible refine Within.upd_keeper ?_ (sub_trans ?_ hp) | (extract_lets +onlyGivenNames x; refine (fun (_ : Within P s0 x) => ?_) ?_; rotate_left; subst x; rotate_left; clear_value x) | (extract_lets +onlyGivenNames x; clear_value x))

theorem bootRecords_within {P s0 s a1 a2 a3 a4} (h : Within P s0 s) (hp : sub 2109457 P) : Within P s0 (bootRecords s a1 a2 a3 a4) := by
  unfold bootRecords
  repeat' (first | with_reducible assumption | exact sub_of rfl | with_reducible refine dayRetry_within ?_ (sub_trans ?_ hp) | with_reducible refine dayEvent_within ?_ (sub_trans ?_ hp) | with_reducible refine dayRegs_within ?_ (sub_trans ?_ hp) | (extract_lets +onlyGivenNames x; refine (fun (_ : Within P s0 x) => ?_) ?_; rotate_left; subst x; rotate_left; clear_value x) | (extract_lets +onlyGivenNames x; clear_value x) | split)

theorem bootKeeper_within {P s0 s t a1 a2} (he : bootKeeper s a1 a2 = some t) (h : Within P s0 s) (hp : sub 2109457 P) : Within P s0 t := by
  unfold bootKeeper at he
  split at he
  · simp only [Option.some.injEq] at he
    subst he
    repeat' (first | with_reducible assumption | exact sub_of rfl | with_reducible refine keeperUp_within ?_ (sub_trans ?_ hp) | with_reducible refine bootRecords_within ?_ (sub_trans ?_ hp))
  · split at he
    · dsimp only at he
      simp only [Option.some.injEq] at he
      subst he
      repeat' (first | with_reducible assumption | exact sub_of rfl | with_reducible refine keeperUp_within ?_ (sub_trans ?_ hp) | with_reducible refine bootRecords_within ?_ (sub_trans ?_ hp) | with_reducible refine drawFree_within ?_ | with_reducible refine drawFree_within' (by assumption) ?_ | with_reducible refine Within.ite ?_ ?_)
    · cases he

theorem standbyLoss_within {P s0 s a1} (h : Within P s0 s) (hp : sub 4194303 P) : Within P s0 (standbyLoss s a1) := by
  unfold standbyLoss
  extract_lets seqs
  exact Within.all hp h.pending h.free fun hi => ⟨rfl, rfl, rfl, rfl, rfl, rfl, rfl, Nat.zero_le 8⟩

theorem execPowerApplied_within {P s0 s t a0 a1} (h : Within P s0 s) (hp : sub 4194303 P) (he : execPowerApplied a0 a1 s = .next t) : Within P s0 t := by
  unfold execPowerApplied at he; injection he with he; subst he; try dsimp only
  repeat' (first | with_reducible assumption | exact sub_of rfl | with_reducible refine regSet_within ?_ (sub_trans ?_ hp) | with_reducible refine standbyLoss_within ?_ (sub_trans ?_ hp) | with_reducible refine readFieldMaps_within ?_ (sub_trans ?_ hp) | with_reducible refine beginStart_within ?_ (by first | decide | (split <;> decide)) (sub_trans ?_ hp) | with_reducible refine bootKeeper_within (by assumption) ?_ (sub_trans ?_ hp) | split | with_reducible refine Within.upd_keeper ?_ (sub_trans ?_ hp))

theorem execKeeperWatchdog_within {P s0 s t a0} (h : Within P s0 s) (hp : sub 4194303 P) (he : execKeeperWatchdog a0 s = .next t) : Within P s0 t := by
  unfold execKeeperWatchdog at he; injection he with he; subst he; try dsimp only
  repeat' (first | with_reducible assumption | exact sub_of rfl | with_reducible refine keeperUp_within ?_ (sub_trans ?_ hp) | with_reducible refine powerDown_within ?_ (sub_trans ?_ hp) | with_reducible refine setModState_within ?_ (sub_trans ?_ hp) | with_reducible refine bootRecords_within ?_ (sub_trans ?_ hp) | with_reducible refine bootKeeper_within (by assumption) ?_ (sub_trans ?_ hp) | split | with_reducible refine Within.upd_keeper ?_ (sub_trans ?_ hp))

theorem dayFlushN_within {P s0 s a1} (h : Within P s0 s) (hp : sub 4097 P) : Within P s0 (dayFlushN s a1) := by
  unfold dayFlushN
  repeat' (first | with_reducible assumption | exact sub_of rfl | with_reducible refine dayPut_within ?_ (sub_trans ?_ hp) | with_reducible refine Within.foldl ?_ (fun _ _ _ => ?_) | with_reducible refine Within.foldl_fst ?_ (fun _ _ _ => ?_) | with_reducible refine Within.ite ?_ ?_ | split)

theorem execPowerFail_within {P s0 s t a0} (h : Within P s0 s) (hp : sub 4194303 P) (he : execPowerFail a0 s = .next t) : Within P s0 t := by
  unfold execPowerFail at he; injection he with he; subst he
  repeat' (first | with_reducible assumption | exact sub_of rfl | with_reducible refine powerDown_within ?_ (sub_trans ?_ hp) | with_reducible refine dayEvent_within ?_ (sub_trans ?_ hp) | with_reducible refine dayFlushN_within ?_ (sub_trans ?_ hp) | with_reducible refine regSet_within ?_ (sub_trans ?_ hp) | with_reducible refine dayEndFreezes_within ?_ (sub_trans ?_ hp) | with_reducible refine setModState_within ?_ (sub_trans ?_ hp) | with_reducible refine drawFree_within ?_ | with_reducible refine drawFree_within' ‹_› ?_ | with_reducible refine saveCounts_within ?_ (sub_trans ?_ hp) | with_reducible refine Within.ite ?_ ?_ | with_reducible refine Within.upd_start ?_ (sub_trans ?_ hp) ?_ | exact id | exact fun _ => by (dsimp only; decide) | (extract_lets +onlyGivenNames x; refine (fun (_ : Within P s0 x) => ?_) ?_; rotate_left; subst x; rotate_left; clear_value x) | (extract_lets +onlyGivenNames x; refine (fun (_ : Within P s0 x.2) => ?_) ?_; rotate_left; subst x; rotate_left; clear_value x) | (extract_lets +onlyGivenNames x; clear_value x) | split)

theorem standBy_within {P s0 s} (h : Within P s0 s) (hp : sub 4194303 P) : Within P s0 (standBy s) := by
  unfold standBy
  repeat' (first | with_reducible assumption | exact sub_of rfl | with_reducible refine powerDown_within ?_ (sub_trans ?_ hp) | with_reducible refine setModState_within ?_ (sub_trans ?_ hp) | with_reducible refine Within.ite ?_ ?_ | (extract_lets +onlyGivenNames x; refine (fun (_ : Within P s0 x) => ?_) ?_; rotate_left; subst x; rotate_left; clear_value x) | (extract_lets +onlyGivenNames x; clear_value x) | split)

theorem execModuleWithdrawal_within {P s0 s t a0} (h : Within P s0 s) (hp : sub 4194303 P) (he : execModuleWithdrawal a0 s = .next t) : Within P s0 t := by
  unfold execModuleWithdrawal at he; injection he with he; subst he
  repeat' (first | with_reducible assumption | exact sub_of rfl | with_reducible refine standBy_within ?_ (sub_trans ?_ hp) | with_reducible refine dayEvent_within ?_ (sub_trans ?_ hp) | with_reducible refine Within.ite ?_ ?_ | with_reducible refine Within.upd_start ?_ (sub_trans ?_ hp) ?_ | exact id | exact fun _ => by (dsimp only; decide) | (extract_lets +onlyGivenNames x; refine (fun (_ : Within P s0 x) => ?_) ?_; rotate_left; subst x; rotate_left; clear_value x) | (extract_lets +onlyGivenNames x; clear_value x) | split)

theorem execInputProtectionTrip_within {P s0 s t} (h : Within P s0 s) (hp : sub 4194303 P) (he : execInputProtectionTrip s = .next t) : Within P s0 t := by
  unfold execInputProtectionTrip at he; injection he with he; subst he
  repeat' (first | with_reducible assumption | exact sub_of rfl | with_reducible refine standBy_within ?_ (sub_trans ?_ hp) | with_reducible refine dayEvent_within ?_ (sub_trans ?_ hp) | with_reducible refine Within.ite ?_ ?_ | with_reducible refine Within.upd_start ?_ (sub_trans ?_ hp) ?_ | exact id | exact fun _ => by (dsimp only; decide) | split)

theorem execHwThermalTrip_within {P s0 s t a0} (h : Within P s0 s) (hp : sub 4194303 P) (he : execHwThermalTrip a0 s = .next t) : Within P s0 t := by
  unfold execHwThermalTrip at he; injection he with he; subst he
  repeat' (first | with_reducible assumption | exact sub_of rfl | with_reducible refine powerDown_within ?_ (sub_trans ?_ hp) | with_reducible refine shutdown_within ?_ (sub_trans ?_ hp) | with_reducible refine Within.ite ?_ ?_ | (extract_lets +onlyGivenNames x; refine (fun (_ : Within P s0 x) => ?_) ?_; rotate_left; subst x; rotate_left; clear_value x) | (extract_lets +onlyGivenNames x; clear_value x) | split)

theorem beginWarm_within {P s0 s} (h : Within P s0 s) (hp : sub 4194303 P) : Within P s0 (beginWarm s) := by
  unfold beginWarm
  extract_lets t1 z1 z2 t2
  have h_t1 : Within P s0 t1 := mainReset_within h hp
  clear_value t1
  have h_t2 : Within P s0 t2 := Within.all hp h_t1.pending h_t1.free fun hi =>
    { h_t1.inv hi with mem := (h.inv hi).mem, poison := (h.inv hi).poison, phase := (by decide : (5 : Nat) ≤ 8) }
  clear_value t2
  repeat' (first | with_reducible assumption | exact sub_of rfl | with_reducible refine setModState_within ?_ (sub_trans ?_ hp) | with_reducible refine regSetFld_within ?_ (sub_trans ?_ hp))

theorem takeReset_within {P s0 s a1} (h : Within P s0 s) (hp : sub 4194303 P) : Within P s0 (takeReset s a1) := by
  unfold takeReset; try dsimp only
  repeat' (first | with_reducible assumption | exact sub_of rfl | with_reducible refine powerDown_within ?_ (sub_trans ?_ hp) | with_reducible refine shutdown_within ?_ (sub_trans ?_ hp) | with_reducible refine beginStart_within ?_ (by first | decide | (split <;> decide)) (sub_trans ?_ hp) | with_reducible refine beginWarm_within ?_ (sub_trans ?_ hp) | with_reducible refine Within.ite ?_ ?_)

theorem execWarmResetZeroingEnd_within {P s0 s t} (h : Within P s0 s) (hp : sub 32771 P) (he : execWarmResetZeroingEnd s = .next t) : Within P s0 t := by
  unfold execWarmResetZeroingEnd at he; injection he with he; subst he; try dsimp only
  repeat' (first | with_reducible assumption | exact sub_of rfl | with_reducible refine enterPhase_within ?_ (by first | decide | (split <;> decide)) (sub_trans ?_ hp) | with_reducible refine Within.ite ?_ ?_ | with_reducible refine Within.upd_mem_sramPoison_poison0_poison1_start ?_ (sub_trans ?_ hp) ?_ ?_ ?_ | exact id | exact fun _ => (rfl : Memory.wf [] = true))

theorem requestReset_within {P s0 s a1} (h : Within P s0 s) (hp : sub 4194303 P) : Within P s0 (requestReset s a1) := by
  unfold requestReset
  generalize List.range 64 = l1
  extract_lets more
  have h_more : ∀ z, Within P s0 z → Within P s0 (more z) := by intro z hz; dsimp only [more]; repeat' (first | with_reducible assumption | exact sub_of rfl | with_reducible refine Within.upd_start ?_ (sub_trans ?_ hp) ?_ | exact id)
  clear_value more
  repeat' (first | with_reducible refine h_more _ ?_ | with_reducible assumption | exact sub_of rfl | with_reducible refine takeReset_within ?_ (sub_trans ?_ hp) | with_reducible refine raiseSrc_within ?_ (sub_trans ?_ hp) | with_reducible refine resetFn_within ?_ (sub_trans ?_ hp) | with_reducible refine Within.foldl ?_ (fun _ _ _ => ?_) | with_reducible refine Within.ite ?_ ?_ | with_reducible refine Within.upd_start ?_ (sub_trans ?_ hp) ?_ | exact id)

theorem execResetGraceExpiry_within {P s0 s t} (h : Within P s0 s) (hp : sub 4194303 P) (he : execResetGraceExpiry s = .next t) : Within P s0 t := by
  unfold execResetGraceExpiry at he; injection he with he; subst he
  repeat' (first | with_reducible assumption | exact sub_of rfl | with_reducible refine takeReset_within ?_ (sub_trans ?_ hp) | with_reducible refine Within.ite ?_ ?_ | split)

theorem execPerstAssert_within {P s0 s t} (h : Within P s0 s) (hp : sub 4194303 P) (he : execPerstAssert s = .next t) : Within P s0 t := by
  unfold execPerstAssert at he; injection he with he; subst he
  repeat' (first | with_reducible assumption | exact sub_of rfl | with_reducible refine dayEvent_within ?_ (sub_trans ?_ hp) | with_reducible refine takeReset_within ?_ (sub_trans ?_ hp) | with_reducible refine emit_within ?_ (sub_trans ?_ hp) | with_reducible refine Within.ite ?_ ?_ | with_reducible refine Within.upd_start ?_ (sub_trans ?_ hp) ?_ | exact id | exact fun _ => by (dsimp only; decide) | (extract_lets +onlyGivenNames x; refine (fun (_ : Within P s0 x) => ?_) ?_; rotate_left; subst x; rotate_left; clear_value x) | (extract_lets +onlyGivenNames x; clear_value x) | split)

theorem execPerstDeassert_within {P s0 s t} (h : Within P s0 s) (hp : sub 32768 P) (he : execPerstDeassert s = .next t) : Within P s0 t := by
  unfold execPerstDeassert at he; injection he with he; subst he
  repeat' (first | with_reducible assumption | exact sub_of rfl | with_reducible refine Within.upd_start ?_ (sub_trans ?_ hp) ?_ | exact id | exact fun _ => by (dsimp only; decide))

theorem execWakeRelease_within {P s0 s t} (h : Within P s0 s) (hp : sub 2129920 P) (he : execWakeRelease s = .next t) : Within P s0 t := by
  unfold execWakeRelease at he; injection he with he; subst he
  repeat' (first | with_reducible assumption | exact sub_of rfl | with_reducible refine emit_within ?_ (sub_trans ?_ hp) | with_reducible refine Within.ite ?_ ?_ | with_reducible refine Within.upd_start ?_ (sub_trans ?_ hp) ?_ | exact id | exact fun _ => by (dsimp only; decide) | split)

theorem execConfigRequest_within {P s0 s t a0 a1 a2 a3} (h : Within P s0 s) (hp : sub 2097152 P) (he : execConfigRequest a0 a1 a2 a3 s = .next t) : Within P s0 t := by
  unfold execConfigRequest at he; injection he with he; subst he
  repeat' (first | with_reducible assumption | exact sub_of rfl | with_reducible refine emit_within ?_ (sub_trans ?_ hp) | with_reducible refine drawFree_within ?_ | with_reducible refine drawFree_within' ‹_› ?_ | with_reducible refine Within.ite ?_ ?_ | (extract_lets +onlyGivenNames x; refine (fun (_ : Within P s0 x) => ?_) ?_; rotate_left; subst x; rotate_left; clear_value x) | (extract_lets +onlyGivenNames x; refine (fun (_ : Within P s0 x.2) => ?_) ?_; rotate_left; subst x; rotate_left; clear_value x) | (extract_lets +onlyGivenNames x; clear_value x) | split)

end Sys2Proof.Machine
end

