-- ==== Sys2Proof/Laws/WithinKeeper.lean ====
section
/-! SUPPORT. What each operation of Machine/Keeper.lean may change (see Within.lean). -/

namespace Sys2Proof.Machine

theorem filterAll_within {P s0 s a1} (h : Within P s0 s) (hp : sub 8192 P) : Within P s0 (filterAll s a1) := by
  unfold filterAll
  repeat' (first | with_reducible assumption | exact sub_of rfl | with_reducible refine Within.foldl ?_ (fun _ _ _ => ?_) | with_reducible refine Within.foldl_fst ?_ (fun _ _ _ => ?_) | with_reducible refine Within.upd_keeper ?_ (sub_trans ?_ hp) | (extract_lets +onlyGivenNames x; refine (fun (_ : Within P s0 x) => ?_) ?_; rotate_left; subst x; rotate_left; clear_value x) | (extract_lets +onlyGivenNames x; clear_value x))

theorem runCond_within {P s0 s a1 a2 a3 a4 a5} (h : Within P s0 s) (hp : sub 8192 P) : Within P s0 (runCond s a1 a2 a3 a4 a5) := by
  unfold runCond
  repeat' (first | with_reducible assumption | exact sub_of rfl | with_reducible refine Within.upd_keeper ?_ (sub_trans ?_ hp))

theorem runConds_within {P s0 s} (h : Within P s0 s) (hp : sub 8192 P) : Within P s0 (runConds s) := by
  unfold runConds
  repeat' (first | with_reducible assumption | exact sub_of rfl | with_reducible refine runCond_within ?_ (sub_trans ?_ hp) | with_reducible refine Within.foldl ?_ (fun _ _ _ => ?_) | with_reducible refine Within.foldl_fst ?_ (fun _ _ _ => ?_) | (extract_lets +onlyGivenNames x; refine (fun (_ : Within P s0 x) => ?_) ?_; rotate_left; subst x; rotate_left; clear_value x) | (extract_lets +onlyGivenNames x; clear_value x))

theorem setCeiling_within {P s0 s a0 a2} (h : Within P s0 s) (hp : sub 135169 P) : Within P s0 (setCeiling a0 s a2) := by
  unfold setCeiling
  repeat' (first | with_reducible assumption | exact sub_of rfl | with_reducible refine bump_within ?_ (sub_trans ?_ hp) | with_reducible refine regSetFld_within ?_ (sub_trans ?_ hp) | with_reducible refine dayEvent_within ?_ (sub_trans ?_ hp) | with_reducible refine updateTile_within ?_ (sub_trans ?_ hp) | with_reducible refine Within.foldl ?_ (fun _ _ _ => ?_) | with_reducible refine Within.foldl_fst ?_ (fun _ _ _ => ?_) | with_reducible refine Within.ite ?_ ?_ | (extract_lets +onlyGivenNames x; refine (fun (_ : Within P s0 x) => ?_) ?_; rotate_left; subst x; rotate_left; clear_value x) | (extract_lets +onlyGivenNames x; clear_value x) | split)

theorem setCeilings_within {P s0 s a0} (h : Within P s0 s) (hp : sub 135169 P) : Within P s0 (setCeilings a0 s) := by
  unfold setCeilings
  repeat' (first | with_reducible assumption | exact sub_of rfl | with_reducible refine setCeiling_within ?_ (sub_trans ?_ hp) | with_reducible refine Within.foldl ?_ (fun _ _ _ => ?_) | with_reducible refine Within.foldl_fst ?_ (fun _ _ _ => ?_))

theorem rampReg_within {P s0 s} (h : Within P s0 s) (hp : sub 32769 P) : Within P s0 (rampReg s) := by
  unfold rampReg
  repeat' (first | with_reducible assumption | exact sub_of rfl | with_reducible refine regSet_within ?_ (sub_trans ?_ hp) | with_reducible refine Within.ite ?_ ?_ | with_reducible refine Within.upd_start ?_ (sub_trans ?_ hp) ?_ | exact id | exact fun _ => by (dsimp only; decide) | (extract_lets +onlyGivenNames x; refine (fun (_ : Within P s0 x) => ?_) ?_; rotate_left; subst x; rotate_left; clear_value x) | (extract_lets +onlyGivenNames x; clear_value x) | split)

theorem countSecond_within {P s0 s} (h : Within P s0 s) (hp : sub 8193 P) : Within P s0 (countSecond s) := by
  unfold countSecond
  repeat' (first | with_reducible assumption | exact sub_of rfl | with_reducible refine regSet_within ?_ (sub_trans ?_ hp) | with_reducible refine Within.ite ?_ ?_ | with_reducible refine Within.upd_keeper ?_ (sub_trans ?_ hp) | (extract_lets +onlyGivenNames x; refine (fun (_ : Within P s0 x) => ?_) ?_; rotate_left; subst x; rotate_left; clear_value x) | (extract_lets +onlyGivenNames x; clear_value x) | split)

theorem execKeeperSample_within {P s0 s t a0} (h : Within P s0 s) (hp : sub 4194303 P) (he : execKeeperSample a0 s = .next t) : Within P s0 t := by
  unfold execKeeperSample at he; injection he with he; subst he; try dsimp only
  repeat' (first | with_reducible assumption | exact sub_of rfl | with_reducible refine filterAll_within ?_ (sub_trans ?_ hp) | with_reducible refine runConds_within ?_ (sub_trans ?_ hp) | with_reducible refine rampReg_within ?_ (sub_trans ?_ hp) | with_reducible refine setCeilings_within ?_ (sub_trans ?_ hp) | with_reducible refine shutdown_within ?_ (sub_trans ?_ hp) | with_reducible refine countSecond_within ?_ (sub_trans ?_ hp) | split | with_reducible refine Within.upd_keeper ?_ (sub_trans ?_ hp))

theorem execOpSecondsSave_within {P s0 s t} (h : Within P s0 s) (hp : sub 8192 P) (he : execOpSecondsSave s = .next t) : Within P s0 t := by
  unfold execOpSecondsSave at he; injection he with he; subst he
  repeat' (first | with_reducible assumption | exact sub_of rfl | with_reducible refine saveCounts_within ?_ (sub_trans ?_ hp) | with_reducible refine Within.ite ?_ ?_ | split)

theorem setPll_within {P s0 s a1 a2 a3} (h : Within P s0 s) (hp : sub 131073 P) : Within P s0 (setPll s a1 a2 a3) := by
  unfold setPll
  repeat' (first | with_reducible assumption | exact sub_of rfl | with_reducible refine regSetFld_within ?_ (sub_trans ?_ hp) | with_reducible refine Within.ite ?_ ?_ | with_reducible refine Within.upd_sched ?_ (sub_trans ?_ hp) | (extract_lets +onlyGivenNames x; refine (fun (_ : Within P s0 x) => ?_) ?_; rotate_left; subst x; rotate_left; clear_value x) | (extract_lets +onlyGivenNames x; clear_value x) | split)

theorem execPllUnlock_within {P s0 s t a0 a1} (h : Within P s0 s) (hp : sub 3062783 P) (he : execPllUnlock a0 a1 s = .next t) : Within P s0 t := by
  unfold execPllUnlock at he; injection he with he; subst he
  repeat' (first | with_reducible assumption | exact sub_of rfl | with_reducible refine bump_within ?_ (sub_trans ?_ hp) | with_reducible refine stopJob_within ?_ (sub_trans ?_ hp) | with_reducible refine setPll_within ?_ (sub_trans ?_ hp) | with_reducible refine raiseSrc_within ?_ (sub_trans ?_ hp) | with_reducible refine loseExpanders_within ?_ (sub_trans ?_ hp) | with_reducible refine Within.foldl ?_ (fun _ _ _ => ?_) | with_reducible refine Within.foldl_fst ?_ (fun _ _ _ => ?_) | with_reducible refine Within.ite ?_ ?_ | (extract_lets +onlyGivenNames x; refine (fun (_ : Within P s0 x) => ?_) ?_; rotate_left; subst x; rotate_left; clear_value x) | (extract_lets +onlyGivenNames x; clear_value x) | split)

theorem execPllRelock_within {P s0 s t a0 a1 a2} (h : Within P s0 s) (hp : sub 3062783 P) (he : execPllRelock a0 a1 a2 s = .next t) : Within P s0 t := by
  unfold execPllRelock at he; injection he with he; subst he
  repeat' (first | with_reducible assumption | exact sub_of rfl | with_reducible refine dayEvent_within ?_ (sub_trans ?_ hp) | with_reducible refine setPll_within ?_ (sub_trans ?_ hp) | with_reducible refine fenceTile_within ?_ (sub_trans ?_ hp) | with_reducible refine Within.foldl ?_ (fun _ _ _ => ?_) | with_reducible refine Within.foldl_fst ?_ (fun _ _ _ => ?_) | with_reducible refine Within.ite ?_ ?_ | (extract_lets +onlyGivenNames x; refine (fun (_ : Within P s0 x) => ?_) ?_; rotate_left; subst x; rotate_left; clear_value x) | (extract_lets +onlyGivenNames x; clear_value x) | split)

end Sys2Proof.Machine
end

