-- ==== Sys2Proof/Laws/Keeps.lean ====
section
/-! SUPPORT. The fields that the most used operations keep, each from what the operation may change (the Within files). -/

namespace Sys2Proof.Machine

variable (s : State)

/-! regSetFld -/
@[simp] theorem regSetFld_mem (o hi lo v : Nat) : (regSetFld s o hi lo v).mem = s.mem :=
  ((regSetFld_within (.refl 1 s) (sub_of rfl)).mem rfl).1
@[simp] theorem regSetFld_memq (o hi lo v : Nat) : (regSetFld s o hi lo v).memq = s.memq :=
  ((regSetFld_within (.refl 1 s) (sub_of rfl)).memq rfl).1
@[simp] theorem regSetFld_cores (o hi lo v : Nat) : (regSetFld s o hi lo v).cores = s.cores :=
  (regSetFld_within (.refl 1 s) (sub_of rfl)).cores rfl
@[simp] theorem regSetFld_fns (o hi lo v : Nat) : (regSetFld s o hi lo v).fns = s.fns :=
  (regSetFld_within (.refl 1 s) (sub_of rfl)).fns rfl
@[simp] theorem regSetFld_sectors (o hi lo v : Nat) : (regSetFld s o hi lo v).sectors = s.sectors :=
  (regSetFld_within (.refl 1 s) (sub_of rfl)).sectors rfl
@[simp] theorem regSetFld_jobs (o hi lo v : Nat) : (regSetFld s o hi lo v).jobs = s.jobs :=
  ((regSetFld_within (.refl 1 s) (sub_of rfl)).jobs rfl).1
@[simp] theorem regSetFld_zombies (o hi lo v : Nat) : (regSetFld s o hi lo v).zombies = s.zombies :=
  ((regSetFld_within (.refl 1 s) (sub_of rfl)).alloc rfl).1
@[simp] theorem regSetFld_encQ (o hi lo v : Nat) : (regSetFld s o hi lo v).encQ = s.encQ :=
  (regSetFld_within (.refl 1 s) (sub_of rfl)).encQ rfl
@[simp] theorem regSetFld_passes (o hi lo v : Nat) : (regSetFld s o hi lo v).passes = s.passes :=
  ((regSetFld_within (.refl 1 s) (sub_of rfl)).passes rfl).1
@[simp] theorem regSetFld_xfers (o hi lo v : Nat) : (regSetFld s o hi lo v).xfers = s.xfers :=
  ((regSetFld_within (.refl 1 s) (sub_of rfl)).xfers rfl).1
@[simp] theorem regSetFld_batches (o hi lo v : Nat) : (regSetFld s o hi lo v).batches = s.batches :=
  ((regSetFld_within (.refl 1 s) (sub_of rfl)).xfers rfl).2.2
@[simp] theorem regSetFld_zeroing (o hi lo v : Nat) : (regSetFld s o hi lo v).zeroing = s.zeroing :=
  (regSetFld_within (.refl 1 s) (sub_of rfl)).zeroing rfl
@[simp] theorem regSetFld_day (o hi lo v : Nat) : (regSetFld s o hi lo v).day = s.day :=
  (regSetFld_within (.refl 1 s) (sub_of rfl)).day rfl
@[simp] theorem regSetFld_keeper (o hi lo v : Nat) : (regSetFld s o hi lo v).keeper = s.keeper :=
  (regSetFld_within (.refl 1 s) (sub_of rfl)).keeper rfl
@[simp] theorem regSetFld_eicStack (o hi lo v : Nat) : (regSetFld s o hi lo v).eicStack = s.eicStack :=
  (regSetFld_within (.refl 1 s) (sub_of rfl)).eic rfl
@[simp] theorem regSetFld_start (o hi lo v : Nat) : (regSetFld s o hi lo v).start = s.start :=
  (regSetFld_within (.refl 1 s) (sub_of rfl)).start rfl
@[simp] theorem regSetFld_maint (o hi lo v : Nat) : (regSetFld s o hi lo v).maint = s.maint :=
  (regSetFld_within (.refl 1 s) (sub_of rfl)).maint rfl
@[simp] theorem regSetFld_sched (o hi lo v : Nat) : (regSetFld s o hi lo v).sched = s.sched :=
  (regSetFld_within (.refl 1 s) (sub_of rfl)).sched rfl
@[simp] theorem regSetFld_pke (o hi lo v : Nat) : (regSetFld s o hi lo v).pke = s.pke :=
  (regSetFld_within (.refl 1 s) (sub_of rfl)).pke rfl
@[simp] theorem regSetFld_fab (o hi lo v : Nat) : (regSetFld s o hi lo v).fab = s.fab :=
  (regSetFld_within (.refl 1 s) (sub_of rfl)).fab rfl
@[simp] theorem regSetFld_ftime (o hi lo v : Nat) : (regSetFld s o hi lo v).ftime = s.ftime :=
  (regSetFld_within (.refl 1 s) (sub_of rfl)).ftime rfl
@[simp] theorem regSetFld_outputs (o hi lo v : Nat) : (regSetFld s o hi lo v).outputs = s.outputs :=
  (regSetFld_within (.refl 1 s) (sub_of rfl)).outputs rfl
@[simp] theorem regSetFld_pending (o hi lo v : Nat) : (regSetFld s o hi lo v).pending = s.pending :=
  (regSetFld_within (.refl 1 s) (sub_of rfl)).pending

/-! regSetPair -/
@[simp] theorem regSetPair_mem (o v : Nat) : (regSetPair s o v).mem = s.mem :=
  ((regSetPair_within (.refl 1 s) (sub_of rfl)).mem rfl).1
@[simp] theorem regSetPair_memq (o v : Nat) : (regSetPair s o v).memq = s.memq :=
  ((regSetPair_within (.refl 1 s) (sub_of rfl)).memq rfl).1
@[simp] theorem regSetPair_cores (o v : Nat) : (regSetPair s o v).cores = s.cores :=
  (regSetPair_within (.refl 1 s) (sub_of rfl)).cores rfl
@[simp] theorem regSetPair_fns (o v : Nat) : (regSetPair s o v).fns = s.fns :=
  (regSetPair_within (.refl 1 s) (sub_of rfl)).fns rfl
@[simp] theorem regSetPair_sectors (o v : Nat) : (regSetPair s o v).sectors = s.sectors :=
  (regSetPair_within (.refl 1 s) (sub_of rfl)).sectors rfl
@[simp] theorem regSetPair_jobs (o v : Nat) : (regSetPair s o v).jobs = s.jobs :=
  ((regSetPair_within (.refl 1 s) (sub_of rfl)).jobs rfl).1
@[simp] theorem regSetPair_zombies (o v : Nat) : (regSetPair s o v).zombies = s.zombies :=
  ((regSetPair_within (.refl 1 s) (sub_of rfl)).alloc rfl).1
@[simp] theorem regSetPair_encQ (o v : Nat) : (regSetPair s o v).encQ = s.encQ :=
  (regSetPair_within (.refl 1 s) (sub_of rfl)).encQ rfl
@[simp] theorem regSetPair_passes (o v : Nat) : (regSetPair s o v).passes = s.passes :=
  ((regSetPair_within (.refl 1 s) (sub_of rfl)).passes rfl).1
@[simp] theorem regSetPair_xfers (o v : Nat) : (regSetPair s o v).xfers = s.xfers :=
  ((regSetPair_within (.refl 1 s) (sub_of rfl)).xfers rfl).1
@[simp] theorem regSetPair_batches (o v : Nat) : (regSetPair s o v).batches = s.batches :=
  ((regSetPair_within (.refl 1 s) (sub_of rfl)).xfers rfl).2.2
@[simp] theorem regSetPair_zeroing (o v : Nat) : (regSetPair s o v).zeroing = s.zeroing :=
  (regSetPair_within (.refl 1 s) (sub_of rfl)).zeroing rfl
@[simp] theorem regSetPair_day (o v : Nat) : (regSetPair s o v).day = s.day :=
  (regSetPair_within (.refl 1 s) (sub_of rfl)).day rfl
@[simp] theorem regSetPair_keeper (o v : Nat) : (regSetPair s o v).keeper = s.keeper :=
  (regSetPair_within (.refl 1 s) (sub_of rfl)).keeper rfl
@[simp] theorem regSetPair_eicStack (o v : Nat) : (regSetPair s o v).eicStack = s.eicStack :=
  (regSetPair_within (.refl 1 s) (sub_of rfl)).eic rfl
@[simp] theorem regSetPair_start (o v : Nat) : (regSetPair s o v).start = s.start :=
  (regSetPair_within (.refl 1 s) (sub_of rfl)).start rfl
@[simp] theorem regSetPair_maint (o v : Nat) : (regSetPair s o v).maint = s.maint :=
  (regSetPair_within (.refl 1 s) (sub_of rfl)).maint rfl
@[simp] theorem regSetPair_sched (o v : Nat) : (regSetPair s o v).sched = s.sched :=
  (regSetPair_within (.refl 1 s) (sub_of rfl)).sched rfl
@[simp] theorem regSetPair_pke (o v : Nat) : (regSetPair s o v).pke = s.pke :=
  (regSetPair_within (.refl 1 s) (sub_of rfl)).pke rfl
@[simp] theorem regSetPair_fab (o v : Nat) : (regSetPair s o v).fab = s.fab :=
  (regSetPair_within (.refl 1 s) (sub_of rfl)).fab rfl
@[simp] theorem regSetPair_ftime (o v : Nat) : (regSetPair s o v).ftime = s.ftime :=
  (regSetPair_within (.refl 1 s) (sub_of rfl)).ftime rfl
@[simp] theorem regSetPair_outputs (o v : Nat) : (regSetPair s o v).outputs = s.outputs :=
  (regSetPair_within (.refl 1 s) (sub_of rfl)).outputs rfl
@[simp] theorem regSetPair_pending (o v : Nat) : (regSetPair s o v).pending = s.pending :=
  (regSetPair_within (.refl 1 s) (sub_of rfl)).pending

/-! bump -/
@[simp] theorem bump_mem (o : Nat) : (bump s o).mem = s.mem :=
  ((bump_within (.refl 1 s) (sub_of rfl)).mem rfl).1
@[simp] theorem bump_memq (o : Nat) : (bump s o).memq = s.memq :=
  ((bump_within (.refl 1 s) (sub_of rfl)).memq rfl).1
@[simp] theorem bump_cores (o : Nat) : (bump s o).cores = s.cores :=
  (bump_within (.refl 1 s) (sub_of rfl)).cores rfl
@[simp] theorem bump_fns (o : Nat) : (bump s o).fns = s.fns :=
  (bump_within (.refl 1 s) (sub_of rfl)).fns rfl
@[simp] theorem bump_sectors (o : Nat) : (bump s o).sectors = s.sectors :=
  (bump_within (.refl 1 s) (sub_of rfl)).sectors rfl
@[simp] theorem bump_jobs (o : Nat) : (bump s o).jobs = s.jobs :=
  ((bump_within (.refl 1 s) (sub_of rfl)).jobs rfl).1
@[simp] theorem bump_zombies (o : Nat) : (bump s o).zombies = s.zombies :=
  ((bump_within (.refl 1 s) (sub_of rfl)).alloc rfl).1
@[simp] theorem bump_encQ (o : Nat) : (bump s o).encQ = s.encQ :=
  (bump_within (.refl 1 s) (sub_of rfl)).encQ rfl
@[simp] theorem bump_passes (o : Nat) : (bump s o).passes = s.passes :=
  ((bump_within (.refl 1 s) (sub_of rfl)).passes rfl).1
@[simp] theorem bump_xfers (o : Nat) : (bump s o).xfers = s.xfers :=
  ((bump_within (.refl 1 s) (sub_of rfl)).xfers rfl).1
@[simp] theorem bump_batches (o : Nat) : (bump s o).batches = s.batches :=
  ((bump_within (.refl 1 s) (sub_of rfl)).xfers rfl).2.2
@[simp] theorem bump_zeroing (o : Nat) : (bump s o).zeroing = s.zeroing :=
  (bump_within (.refl 1 s) (sub_of rfl)).zeroing rfl
@[simp] theorem bump_day (o : Nat) : (bump s o).day = s.day :=
  (bump_within (.refl 1 s) (sub_of rfl)).day rfl
@[simp] theorem bump_keeper (o : Nat) : (bump s o).keeper = s.keeper :=
  (bump_within (.refl 1 s) (sub_of rfl)).keeper rfl
@[simp] theorem bump_eicStack (o : Nat) : (bump s o).eicStack = s.eicStack :=
  (bump_within (.refl 1 s) (sub_of rfl)).eic rfl
@[simp] theorem bump_start (o : Nat) : (bump s o).start = s.start :=
  (bump_within (.refl 1 s) (sub_of rfl)).start rfl
@[simp] theorem bump_maint (o : Nat) : (bump s o).maint = s.maint :=
  (bump_within (.refl 1 s) (sub_of rfl)).maint rfl
@[simp] theorem bump_sched (o : Nat) : (bump s o).sched = s.sched :=
  (bump_within (.refl 1 s) (sub_of rfl)).sched rfl
@[simp] theorem bump_pke (o : Nat) : (bump s o).pke = s.pke :=
  (bump_within (.refl 1 s) (sub_of rfl)).pke rfl
@[simp] theorem bump_fab (o : Nat) : (bump s o).fab = s.fab :=
  (bump_within (.refl 1 s) (sub_of rfl)).fab rfl
@[simp] theorem bump_ftime (o : Nat) : (bump s o).ftime = s.ftime :=
  (bump_within (.refl 1 s) (sub_of rfl)).ftime rfl
@[simp] theorem bump_outputs (o : Nat) : (bump s o).outputs = s.outputs :=
  (bump_within (.refl 1 s) (sub_of rfl)).outputs rfl
@[simp] theorem bump_pending (o : Nat) : (bump s o).pending = s.pending :=
  (bump_within (.refl 1 s) (sub_of rfl)).pending

/-! setPendingBit -/
@[simp] theorem setPendingBit_mem (e n : Nat) (v : Bool) : (setPendingBit s e n v).mem = s.mem :=
  ((setPendingBit_within (.refl 1 s) (sub_of rfl)).mem rfl).1
@[simp] theorem setPendingBit_memq (e n : Nat) (v : Bool) : (setPendingBit s e n v).memq = s.memq :=
  ((setPendingBit_within (.refl 1 s) (sub_of rfl)).memq rfl).1
@[simp] theorem setPendingBit_cores (e n : Nat) (v : Bool) : (setPendingBit s e n v).cores = s.cores :=
  (setPendingBit_within (.refl 1 s) (sub_of rfl)).cores rfl
@[simp] theorem setPendingBit_fns (e n : Nat) (v : Bool) : (setPendingBit s e n v).fns = s.fns :=
  (setPendingBit_within (.refl 1 s) (sub_of rfl)).fns rfl
@[simp] theorem setPendingBit_sectors (e n : Nat) (v : Bool) : (setPendingBit s e n v).sectors = s.sectors :=
  (setPendingBit_within (.refl 1 s) (sub_of rfl)).sectors rfl
@[simp] theorem setPendingBit_jobs (e n : Nat) (v : Bool) : (setPendingBit s e n v).jobs = s.jobs :=
  ((setPendingBit_within (.refl 1 s) (sub_of rfl)).jobs rfl).1
@[simp] theorem setPendingBit_zombies (e n : Nat) (v : Bool) : (setPendingBit s e n v).zombies = s.zombies :=
  ((setPendingBit_within (.refl 1 s) (sub_of rfl)).alloc rfl).1
@[simp] theorem setPendingBit_encQ (e n : Nat) (v : Bool) : (setPendingBit s e n v).encQ = s.encQ :=
  (setPendingBit_within (.refl 1 s) (sub_of rfl)).encQ rfl
@[simp] theorem setPendingBit_passes (e n : Nat) (v : Bool) : (setPendingBit s e n v).passes = s.passes :=
  ((setPendingBit_within (.refl 1 s) (sub_of rfl)).passes rfl).1
@[simp] theorem setPendingBit_xfers (e n : Nat) (v : Bool) : (setPendingBit s e n v).xfers = s.xfers :=
  ((setPendingBit_within (.refl 1 s) (sub_of rfl)).xfers rfl).1
@[simp] theorem setPendingBit_batches (e n : Nat) (v : Bool) : (setPendingBit s e n v).batches = s.batches :=
  ((setPendingBit_within (.refl 1 s) (sub_of rfl)).xfers rfl).2.2
@[simp] theorem setPendingBit_zeroing (e n : Nat) (v : Bool) : (setPendingBit s e n v).zeroing = s.zeroing :=
  (setPendingBit_within (.refl 1 s) (sub_of rfl)).zeroing rfl
@[simp] theorem setPendingBit_day (e n : Nat) (v : Bool) : (setPendingBit s e n v).day = s.day :=
  (setPendingBit_within (.refl 1 s) (sub_of rfl)).day rfl
@[simp] theorem setPendingBit_keeper (e n : Nat) (v : Bool) : (setPendingBit s e n v).keeper = s.keeper :=
  (setPendingBit_within (.refl 1 s) (sub_of rfl)).keeper rfl
@[simp] theorem setPendingBit_eicStack (e n : Nat) (v : Bool) : (setPendingBit s e n v).eicStack = s.eicStack :=
  (setPendingBit_within (.refl 1 s) (sub_of rfl)).eic rfl
@[simp] theorem setPendingBit_start (e n : Nat) (v : Bool) : (setPendingBit s e n v).start = s.start :=
  (setPendingBit_within (.refl 1 s) (sub_of rfl)).start rfl
@[simp] theorem setPendingBit_maint (e n : Nat) (v : Bool) : (setPendingBit s e n v).maint = s.maint :=
  (setPendingBit_within (.refl 1 s) (sub_of rfl)).maint rfl
@[simp] theorem setPendingBit_sched (e n : Nat) (v : Bool) : (setPendingBit s e n v).sched = s.sched :=
  (setPendingBit_within (.refl 1 s) (sub_of rfl)).sched rfl
@[simp] theorem setPendingBit_pke (e n : Nat) (v : Bool) : (setPendingBit s e n v).pke = s.pke :=
  (setPendingBit_within (.refl 1 s) (sub_of rfl)).pke rfl
@[simp] theorem setPendingBit_fab (e n : Nat) (v : Bool) : (setPendingBit s e n v).fab = s.fab :=
  (setPendingBit_within (.refl 1 s) (sub_of rfl)).fab rfl
@[simp] theorem setPendingBit_ftime (e n : Nat) (v : Bool) : (setPendingBit s e n v).ftime = s.ftime :=
  (setPendingBit_within (.refl 1 s) (sub_of rfl)).ftime rfl
@[simp] theorem setPendingBit_outputs (e n : Nat) (v : Bool) : (setPendingBit s e n v).outputs = s.outputs :=
  (setPendingBit_within (.refl 1 s) (sub_of rfl)).outputs rfl
@[simp] theorem setPendingBit_pending (e n : Nat) (v : Bool) : (setPendingBit s e n v).pending = s.pending :=
  (setPendingBit_within (.refl 1 s) (sub_of rfl)).pending

/-! raiseSrc -/
@[simp] theorem raiseSrc_mem (e n : Nat) : (raiseSrc s e n).mem = s.mem :=
  ((raiseSrc_within (.refl 131073 s) (sub_of rfl)).mem rfl).1
@[simp] theorem raiseSrc_memq (e n : Nat) : (raiseSrc s e n).memq = s.memq :=
  ((raiseSrc_within (.refl 131073 s) (sub_of rfl)).memq rfl).1
@[simp] theorem raiseSrc_cores (e n : Nat) : (raiseSrc s e n).cores = s.cores :=
  (raiseSrc_within (.refl 131073 s) (sub_of rfl)).cores rfl
@[simp] theorem raiseSrc_fns (e n : Nat) : (raiseSrc s e n).fns = s.fns :=
  (raiseSrc_within (.refl 131073 s) (sub_of rfl)).fns rfl
@[simp] theorem raiseSrc_sectors (e n : Nat) : (raiseSrc s e n).sectors = s.sectors :=
  (raiseSrc_within (.refl 131073 s) (sub_of rfl)).sectors rfl
@[simp] theorem raiseSrc_jobs (e n : Nat) : (raiseSrc s e n).jobs = s.jobs :=
  ((raiseSrc_within (.refl 131073 s) (sub_of rfl)).jobs rfl).1
@[simp] theorem raiseSrc_zombies (e n : Nat) : (raiseSrc s e n).zombies = s.zombies :=
  ((raiseSrc_within (.refl 131073 s) (sub_of rfl)).alloc rfl).1
@[simp] theorem raiseSrc_encQ (e n : Nat) : (raiseSrc s e n).encQ = s.encQ :=
  (raiseSrc_within (.refl 131073 s) (sub_of rfl)).encQ rfl
@[simp] theorem raiseSrc_passes (e n : Nat) : (raiseSrc s e n).passes = s.passes :=
  ((raiseSrc_within (.refl 131073 s) (sub_of rfl)).passes rfl).1
@[simp] theorem raiseSrc_xfers (e n : Nat) : (raiseSrc s e n).xfers = s.xfers :=
  ((raiseSrc_within (.refl 131073 s) (sub_of rfl)).xfers rfl).1
@[simp] theorem raiseSrc_batches (e n : Nat) : (raiseSrc s e n).batches = s.batches :=
  ((raiseSrc_within (.refl 131073 s) (sub_of rfl)).xfers rfl).2.2
@[simp] theorem raiseSrc_zeroing (e n : Nat) : (raiseSrc s e n).zeroing = s.zeroing :=
  (raiseSrc_within (.refl 131073 s) (sub_of rfl)).zeroing rfl
@[simp] theorem raiseSrc_day (e n : Nat) : (raiseSrc s e n).day = s.day :=
  (raiseSrc_within (.refl 131073 s) (sub_of rfl)).day rfl
@[simp] theorem raiseSrc_keeper (e n : Nat) : (raiseSrc s e n).keeper = s.keeper :=
  (raiseSrc_within (.refl 131073 s) (sub_of rfl)).keeper rfl
@[simp] theorem raiseSrc_eicStack (e n : Nat) : (raiseSrc s e n).eicStack = s.eicStack :=
  (raiseSrc_within (.refl 131073 s) (sub_of rfl)).eic rfl
@[simp] theorem raiseSrc_start (e n : Nat) : (raiseSrc s e n).start = s.start :=
  (raiseSrc_within (.refl 131073 s) (sub_of rfl)).start rfl
@[simp] theorem raiseSrc_maint (e n : Nat) : (raiseSrc s e n).maint = s.maint :=
  (raiseSrc_within (.refl 131073 s) (sub_of rfl)).maint rfl
@[simp] theorem raiseSrc_pke (e n : Nat) : (raiseSrc s e n).pke = s.pke :=
  (raiseSrc_within (.refl 131073 s) (sub_of rfl)).pke rfl
@[simp] theorem raiseSrc_fab (e n : Nat) : (raiseSrc s e n).fab = s.fab :=
  (raiseSrc_within (.refl 131073 s) (sub_of rfl)).fab rfl
@[simp] theorem raiseSrc_ftime (e n : Nat) : (raiseSrc s e n).ftime = s.ftime :=
  (raiseSrc_within (.refl 131073 s) (sub_of rfl)).ftime rfl
@[simp] theorem raiseSrc_outputs (e n : Nat) : (raiseSrc s e n).outputs = s.outputs :=
  (raiseSrc_within (.refl 131073 s) (sub_of rfl)).outputs rfl
@[simp] theorem raiseSrc_pending (e n : Nat) : (raiseSrc s e n).pending = s.pending :=
  (raiseSrc_within (.refl 131073 s) (sub_of rfl)).pending

/-! dayEvent -/
@[simp] theorem dayEvent_mem (c d i : Nat) (l : List Nat) : (dayEvent s c d i l).mem = s.mem :=
  ((dayEvent_within (.refl 4097 s) (sub_of rfl)).mem rfl).1
@[simp] theorem dayEvent_memq (c d i : Nat) (l : List Nat) : (dayEvent s c d i l).memq = s.memq :=
  ((dayEvent_within (.refl 4097 s) (sub_of rfl)).memq rfl).1
@[simp] theorem dayEvent_cores (c d i : Nat) (l : List Nat) : (dayEvent s c d i l).cores = s.cores :=
  (dayEvent_within (.refl 4097 s) (sub_of rfl)).cores rfl
@[simp] theorem dayEvent_fns (c d i : Nat) (l : List Nat) : (dayEvent s c d i l).fns = s.fns :=
  (dayEvent_within (.refl 4097 s) (sub_of rfl)).fns rfl
@[simp] theorem dayEvent_sectors (c d i : Nat) (l : List Nat) : (dayEvent s c d i l).sectors = s.sectors :=
  (dayEvent_within (.refl 4097 s) (sub_of rfl)).sectors rfl
@[simp] theorem dayEvent_jobs (c d i : Nat) (l : List Nat) : (dayEvent s c d i l).jobs = s.jobs :=
  ((dayEvent_within (.refl 4097 s) (sub_of rfl)).jobs rfl).1
@[simp] theorem dayEvent_zombies (c d i : Nat) (l : List Nat) : (dayEvent s c d i l).zombies = s.zombies :=
  ((dayEvent_within (.refl 4097 s) (sub_of rfl)).alloc rfl).1
@[simp] theorem dayEvent_encQ (c d i : Nat) (l : List Nat) : (dayEvent s c d i l).encQ = s.encQ :=
  (dayEvent_within (.refl 4097 s) (sub_of rfl)).encQ rfl
@[simp] theorem dayEvent_passes (c d i : Nat) (l : List Nat) : (dayEvent s c d i l).passes = s.passes :=
  ((dayEvent_within (.refl 4097 s) (sub_of rfl)).passes rfl).1
@[simp] theorem dayEvent_xfers (c d i : Nat) (l : List Nat) : (dayEvent s c d i l).xfers = s.xfers :=
  ((dayEvent_within (.refl 4097 s) (sub_of rfl)).xfers rfl).1
@[simp] theorem dayEvent_batches (c d i : Nat) (l : List Nat) : (dayEvent s c d i l).batches = s.batches :=
  ((dayEvent_within (.refl 4097 s) (sub_of rfl)).xfers rfl).2.2
@[simp] theorem dayEvent_zeroing (c d i : Nat) (l : List Nat) : (dayEvent s c d i l).zeroing = s.zeroing :=
  (dayEvent_within (.refl 4097 s) (sub_of rfl)).zeroing rfl
@[simp] theorem dayEvent_keeper (c d i : Nat) (l : List Nat) : (dayEvent s c d i l).keeper = s.keeper :=
  (dayEvent_within (.refl 4097 s) (sub_of rfl)).keeper rfl
@[simp] theorem dayEvent_eicStack (c d i : Nat) (l : List Nat) : (dayEvent s c d i l).eicStack = s.eicStack :=
  (dayEvent_within (.refl 4097 s) (sub_of rfl)).eic rfl
@[simp] theorem dayEvent_start (c d i : Nat) (l : List Nat) : (dayEvent s c d i l).start = s.start :=
  (dayEvent_within (.refl 4097 s) (sub_of rfl)).start rfl
@[simp] theorem dayEvent_maint (c d i : Nat) (l : List Nat) : (dayEvent s c d i l).maint = s.maint :=
  (dayEvent_within (.refl 4097 s) (sub_of rfl)).maint rfl
@[simp] theorem dayEvent_sched (c d i : Nat) (l : List Nat) : (dayEvent s c d i l).sched = s.sched :=
  (dayEvent_within (.refl 4097 s) (sub_of rfl)).sched rfl
@[simp] theorem dayEvent_pke (c d i : Nat) (l : List Nat) : (dayEvent s c d i l).pke = s.pke :=
  (dayEvent_within (.refl 4097 s) (sub_of rfl)).pke rfl
@[simp] theorem dayEvent_fab (c d i : Nat) (l : List Nat) : (dayEvent s c d i l).fab = s.fab :=
  (dayEvent_within (.refl 4097 s) (sub_of rfl)).fab rfl
@[simp] theorem dayEvent_ftime (c d i : Nat) (l : List Nat) : (dayEvent s c d i l).ftime = s.ftime :=
  (dayEvent_within (.refl 4097 s) (sub_of rfl)).ftime rfl
@[simp] theorem dayEvent_outputs (c d i : Nat) (l : List Nat) : (dayEvent s c d i l).outputs = s.outputs :=
  (dayEvent_within (.refl 4097 s) (sub_of rfl)).outputs rfl
@[simp] theorem dayEvent_pending (c d i : Nat) (l : List Nat) : (dayEvent s c d i l).pending = s.pending :=
  (dayEvent_within (.refl 4097 s) (sub_of rfl)).pending

/-! sbAlert -/
@[simp] theorem sbAlert_mem : (sbAlert s).mem = s.mem :=
  ((sbAlert_within (.refl 2105345 s) (sub_of rfl)).mem rfl).1
@[simp] theorem sbAlert_memq : (sbAlert s).memq = s.memq :=
  ((sbAlert_within (.refl 2105345 s) (sub_of rfl)).memq rfl).1
@[simp] theorem sbAlert_cores : (sbAlert s).cores = s.cores :=
  (sbAlert_within (.refl 2105345 s) (sub_of rfl)).cores rfl
@[simp] theorem sbAlert_fns : (sbAlert s).fns = s.fns :=
  (sbAlert_within (.refl 2105345 s) (sub_of rfl)).fns rfl
@[simp] theorem sbAlert_sectors : (sbAlert s).sectors = s.sectors :=
  (sbAlert_within (.refl 2105345 s) (sub_of rfl)).sectors rfl
@[simp] theorem sbAlert_jobs : (sbAlert s).jobs = s.jobs :=
  ((sbAlert_within (.refl 2105345 s) (sub_of rfl)).jobs rfl).1
@[simp] theorem sbAlert_zombies : (sbAlert s).zombies = s.zombies :=
  ((sbAlert_within (.refl 2105345 s) (sub_of rfl)).alloc rfl).1
@[simp] theorem sbAlert_encQ : (sbAlert s).encQ = s.encQ :=
  (sbAlert_within (.refl 2105345 s) (sub_of rfl)).encQ rfl
@[simp] theorem sbAlert_passes : (sbAlert s).passes = s.passes :=
  ((sbAlert_within (.refl 2105345 s) (sub_of rfl)).passes rfl).1
@[simp] theorem sbAlert_xfers : (sbAlert s).xfers = s.xfers :=
  ((sbAlert_within (.refl 2105345 s) (sub_of rfl)).xfers rfl).1
@[simp] theorem sbAlert_batches : (sbAlert s).batches = s.batches :=
  ((sbAlert_within (.refl 2105345 s) (sub_of rfl)).xfers rfl).2.2
@[simp] theorem sbAlert_zeroing : (sbAlert s).zeroing = s.zeroing :=
  (sbAlert_within (.refl 2105345 s) (sub_of rfl)).zeroing rfl
@[simp] theorem sbAlert_day : (sbAlert s).day = s.day :=
  (sbAlert_within (.refl 2105345 s) (sub_of rfl)).day rfl
@[simp] theorem sbAlert_eicStack : (sbAlert s).eicStack = s.eicStack :=
  (sbAlert_within (.refl 2105345 s) (sub_of rfl)).eic rfl
@[simp] theorem sbAlert_start : (sbAlert s).start = s.start :=
  (sbAlert_within (.refl 2105345 s) (sub_of rfl)).start rfl
@[simp] theorem sbAlert_maint : (sbAlert s).maint = s.maint :=
  (sbAlert_within (.refl 2105345 s) (sub_of rfl)).maint rfl
@[simp] theorem sbAlert_sched : (sbAlert s).sched = s.sched :=
  (sbAlert_within (.refl 2105345 s) (sub_of rfl)).sched rfl
@[simp] theorem sbAlert_pke : (sbAlert s).pke = s.pke :=
  (sbAlert_within (.refl 2105345 s) (sub_of rfl)).pke rfl
@[simp] theorem sbAlert_fab : (sbAlert s).fab = s.fab :=
  (sbAlert_within (.refl 2105345 s) (sub_of rfl)).fab rfl
@[simp] theorem sbAlert_ftime : (sbAlert s).ftime = s.ftime :=
  (sbAlert_within (.refl 2105345 s) (sub_of rfl)).ftime rfl
@[simp] theorem sbAlert_pending : (sbAlert s).pending = s.pending :=
  (sbAlert_within (.refl 2105345 s) (sub_of rfl)).pending

/-! setModState -/
@[simp] theorem setModState_mem (m : ModState) : (setModState s m).mem = s.mem :=
  ((setModState_within (.refl 8193 s) (sub_of rfl)).mem rfl).1
@[simp] theorem setModState_memq (m : ModState) : (setModState s m).memq = s.memq :=
  ((setModState_within (.refl 8193 s) (sub_of rfl)).memq rfl).1
@[simp] theorem setModState_cores (m : ModState) : (setModState s m).cores = s.cores :=
  (setModState_within (.refl 8193 s) (sub_of rfl)).cores rfl
@[simp] theorem setModState_fns (m : ModState) : (setModState s m).fns = s.fns :=
  (setModState_within (.refl 8193 s) (sub_of rfl)).fns rfl
@[simp] theorem setModState_sectors (m : ModState) : (setModState s m).sectors = s.sectors :=
  (setModState_within (.refl 8193 s) (sub_of rfl)).sectors rfl
@[simp] theorem setModState_jobs (m : ModState) : (setModState s m).jobs = s.jobs :=
  ((setModState_within (.refl 8193 s) (sub_of rfl)).jobs rfl).1
@[simp] theorem setModState_zombies (m : ModState) : (setModState s m).zombies = s.zombies :=
  ((setModState_within (.refl 8193 s) (sub_of rfl)).alloc rfl).1
@[simp] theorem setModState_encQ (m : ModState) : (setModState s m).encQ = s.encQ :=
  (setModState_within (.refl 8193 s) (sub_of rfl)).encQ rfl
@[simp] theorem setModState_passes (m : ModState) : (setModState s m).passes = s.passes :=
  ((setModState_within (.refl 8193 s) (sub_of rfl)).passes rfl).1
@[simp] theorem setModState_xfers (m : ModState) : (setModState s m).xfers = s.xfers :=
  ((setModState_within (.refl 8193 s) (sub_of rfl)).xfers rfl).1
@[simp] theorem setModState_batches (m : ModState) : (setModState s m).batches = s.batches :=
  ((setModState_within (.refl 8193 s) (sub_of rfl)).xfers rfl).2.2
@[simp] theorem setModState_zeroing (m : ModState) : (setModState s m).zeroing = s.zeroing :=
  (setModState_within (.refl 8193 s) (sub_of rfl)).zeroing rfl
@[simp] theorem setModState_day (m : ModState) : (setModState s m).day = s.day :=
  (setModState_within (.refl 8193 s) (sub_of rfl)).day rfl
@[simp] theorem setModState_eicStack (m : ModState) : (setModState s m).eicStack = s.eicStack :=
  (setModState_within (.refl 8193 s) (sub_of rfl)).eic rfl
@[simp] theorem setModState_start (m : ModState) : (setModState s m).start = s.start :=
  (setModState_within (.refl 8193 s) (sub_of rfl)).start rfl
@[simp] theorem setModState_maint (m : ModState) : (setModState s m).maint = s.maint :=
  (setModState_within (.refl 8193 s) (sub_of rfl)).maint rfl
@[simp] theorem setModState_sched (m : ModState) : (setModState s m).sched = s.sched :=
  (setModState_within (.refl 8193 s) (sub_of rfl)).sched rfl
@[simp] theorem setModState_pke (m : ModState) : (setModState s m).pke = s.pke :=
  (setModState_within (.refl 8193 s) (sub_of rfl)).pke rfl
@[simp] theorem setModState_fab (m : ModState) : (setModState s m).fab = s.fab :=
  (setModState_within (.refl 8193 s) (sub_of rfl)).fab rfl
@[simp] theorem setModState_ftime (m : ModState) : (setModState s m).ftime = s.ftime :=
  (setModState_within (.refl 8193 s) (sub_of rfl)).ftime rfl
@[simp] theorem setModState_outputs (m : ModState) : (setModState s m).outputs = s.outputs :=
  (setModState_within (.refl 8193 s) (sub_of rfl)).outputs rfl
@[simp] theorem setModState_pending (m : ModState) : (setModState s m).pending = s.pending :=
  (setModState_within (.refl 8193 s) (sub_of rfl)).pending

/-! setStartStatus -/
@[simp] theorem setStartStatus_mem (p r : Nat) : (setStartStatus s p r).mem = s.mem :=
  ((setStartStatus_within (.refl 1 s) (sub_of rfl)).mem rfl).1
@[simp] theorem setStartStatus_memq (p r : Nat) : (setStartStatus s p r).memq = s.memq :=
  ((setStartStatus_within (.refl 1 s) (sub_of rfl)).memq rfl).1
@[simp] theorem setStartStatus_cores (p r : Nat) : (setStartStatus s p r).cores = s.cores :=
  (setStartStatus_within (.refl 1 s) (sub_of rfl)).cores rfl
@[simp] theorem setStartStatus_fns (p r : Nat) : (setStartStatus s p r).fns = s.fns :=
  (setStartStatus_within (.refl 1 s) (sub_of rfl)).fns rfl
@[simp] theorem setStartStatus_sectors (p r : Nat) : (setStartStatus s p r).sectors = s.sectors :=
  (setStartStatus_within (.refl 1 s) (sub_of rfl)).sectors rfl
@[simp] theorem setStartStatus_jobs (p r : Nat) : (setStartStatus s p r).jobs = s.jobs :=
  ((setStartStatus_within (.refl 1 s) (sub_of rfl)).jobs rfl).1
@[simp] theorem setStartStatus_zombies (p r : Nat) : (setStartStatus s p r).zombies = s.zombies :=
  ((setStartStatus_within (.refl 1 s) (sub_of rfl)).alloc rfl).1
@[simp] theorem setStartStatus_encQ (p r : Nat) : (setStartStatus s p r).encQ = s.encQ :=
  (setStartStatus_within (.refl 1 s) (sub_of rfl)).encQ rfl
@[simp] theorem setStartStatus_passes (p r : Nat) : (setStartStatus s p r).passes = s.passes :=
  ((setStartStatus_within (.refl 1 s) (sub_of rfl)).passes rfl).1
@[simp] theorem setStartStatus_xfers (p r : Nat) : (setStartStatus s p r).xfers = s.xfers :=
  ((setStartStatus_within (.refl 1 s) (sub_of rfl)).xfers rfl).1
@[simp] theorem setStartStatus_batches (p r : Nat) : (setStartStatus s p r).batches = s.batches :=
  ((setStartStatus_within (.refl 1 s) (sub_of rfl)).xfers rfl).2.2
@[simp] theorem setStartStatus_zeroing (p r : Nat) : (setStartStatus s p r).zeroing = s.zeroing :=
  (setStartStatus_within (.refl 1 s) (sub_of rfl)).zeroing rfl
@[simp] theorem setStartStatus_day (p r : Nat) : (setStartStatus s p r).day = s.day :=
  (setStartStatus_within (.refl 1 s) (sub_of rfl)).day rfl
@[simp] theorem setStartStatus_keeper (p r : Nat) : (setStartStatus s p r).keeper = s.keeper :=
  (setStartStatus_within (.refl 1 s) (sub_of rfl)).keeper rfl
@[simp] theorem setStartStatus_eicStack (p r : Nat) : (setStartStatus s p r).eicStack = s.eicStack :=
  (setStartStatus_within (.refl 1 s) (sub_of rfl)).eic rfl
@[simp] theorem setStartStatus_start (p r : Nat) : (setStartStatus s p r).start = s.start :=
  (setStartStatus_within (.refl 1 s) (sub_of rfl)).start rfl
@[simp] theorem setStartStatus_maint (p r : Nat) : (setStartStatus s p r).maint = s.maint :=
  (setStartStatus_within (.refl 1 s) (sub_of rfl)).maint rfl
@[simp] theorem setStartStatus_sched (p r : Nat) : (setStartStatus s p r).sched = s.sched :=
  (setStartStatus_within (.refl 1 s) (sub_of rfl)).sched rfl
@[simp] theorem setStartStatus_pke (p r : Nat) : (setStartStatus s p r).pke = s.pke :=
  (setStartStatus_within (.refl 1 s) (sub_of rfl)).pke rfl
@[simp] theorem setStartStatus_fab (p r : Nat) : (setStartStatus s p r).fab = s.fab :=
  (setStartStatus_within (.refl 1 s) (sub_of rfl)).fab rfl
@[simp] theorem setStartStatus_ftime (p r : Nat) : (setStartStatus s p r).ftime = s.ftime :=
  (setStartStatus_within (.refl 1 s) (sub_of rfl)).ftime rfl
@[simp] theorem setStartStatus_outputs (p r : Nat) : (setStartStatus s p r).outputs = s.outputs :=
  (setStartStatus_within (.refl 1 s) (sub_of rfl)).outputs rfl
@[simp] theorem setStartStatus_pending (p r : Nat) : (setStartStatus s p r).pending = s.pending :=
  (setStartStatus_within (.refl 1 s) (sub_of rfl)).pending

/-! sbAnswer -/
@[simp] theorem sbAnswer_regs (n : Nat) (l : List Byte) : (sbAnswer s n l).regs = s.regs :=
  ((sbAnswer_within (.refl 2097152 s) (sub_of rfl)).regs rfl).1
@[simp] theorem sbAnswer_shadows (n : Nat) (l : List Byte) : (sbAnswer s n l).shadows = s.shadows :=
  ((sbAnswer_within (.refl 2097152 s) (sub_of rfl)).regs rfl).2.1
@[simp] theorem sbAnswer_holds (n : Nat) (l : List Byte) : (sbAnswer s n l).holds = s.holds :=
  ((sbAnswer_within (.refl 2097152 s) (sub_of rfl)).regs rfl).2.2
@[simp] theorem sbAnswer_mem (n : Nat) (l : List Byte) : (sbAnswer s n l).mem = s.mem :=
  ((sbAnswer_within (.refl 2097152 s) (sub_of rfl)).mem rfl).1
@[simp] theorem sbAnswer_memq (n : Nat) (l : List Byte) : (sbAnswer s n l).memq = s.memq :=
  ((sbAnswer_within (.refl 2097152 s) (sub_of rfl)).memq rfl).1
@[simp] theorem sbAnswer_cores (n : Nat) (l : List Byte) : (sbAnswer s n l).cores = s.cores :=
  (sbAnswer_within (.refl 2097152 s) (sub_of rfl)).cores rfl
@[simp] theorem sbAnswer_fns (n : Nat) (l : List Byte) : (sbAnswer s n l).fns = s.fns :=
  (sbAnswer_within (.refl 2097152 s) (sub_of rfl)).fns rfl
@[simp] theorem sbAnswer_sectors (n : Nat) (l : List Byte) : (sbAnswer s n l).sectors = s.sectors :=
  (sbAnswer_within (.refl 2097152 s) (sub_of rfl)).sectors rfl
@[simp] theorem sbAnswer_jobs (n : Nat) (l : List Byte) : (sbAnswer s n l).jobs = s.jobs :=
  ((sbAnswer_within (.refl 2097152 s) (sub_of rfl)).jobs rfl).1
@[simp] theorem sbAnswer_zombies (n : Nat) (l : List Byte) : (sbAnswer s n l).zombies = s.zombies :=
  ((sbAnswer_within (.refl 2097152 s) (sub_of rfl)).alloc rfl).1
@[simp] theorem sbAnswer_encQ (n : Nat) (l : List Byte) : (sbAnswer s n l).encQ = s.encQ :=
  (sbAnswer_within (.refl 2097152 s) (sub_of rfl)).encQ rfl
@[simp] theorem sbAnswer_passes (n : Nat) (l : List Byte) : (sbAnswer s n l).passes = s.passes :=
  ((sbAnswer_within (.refl 2097152 s) (sub_of rfl)).passes rfl).1
@[simp] theorem sbAnswer_xfers (n : Nat) (l : List Byte) : (sbAnswer s n l).xfers = s.xfers :=
  ((sbAnswer_within (.refl 2097152 s) (sub_of rfl)).xfers rfl).1
@[simp] theorem sbAnswer_batches (n : Nat) (l : List Byte) : (sbAnswer s n l).batches = s.batches :=
  ((sbAnswer_within (.refl 2097152 s) (sub_of rfl)).xfers rfl).2.2
@[simp] theorem sbAnswer_zeroing (n : Nat) (l : List Byte) : (sbAnswer s n l).zeroing = s.zeroing :=
  (sbAnswer_within (.refl 2097152 s) (sub_of rfl)).zeroing rfl
@[simp] theorem sbAnswer_day (n : Nat) (l : List Byte) : (sbAnswer s n l).day = s.day :=
  (sbAnswer_within (.refl 2097152 s) (sub_of rfl)).day rfl
@[simp] theorem sbAnswer_keeper (n : Nat) (l : List Byte) : (sbAnswer s n l).keeper = s.keeper :=
  (sbAnswer_within (.refl 2097152 s) (sub_of rfl)).keeper rfl
@[simp] theorem sbAnswer_eicStack (n : Nat) (l : List Byte) : (sbAnswer s n l).eicStack = s.eicStack :=
  (sbAnswer_within (.refl 2097152 s) (sub_of rfl)).eic rfl
@[simp] theorem sbAnswer_start (n : Nat) (l : List Byte) : (sbAnswer s n l).start = s.start :=
  (sbAnswer_within (.refl 2097152 s) (sub_of rfl)).start rfl
@[simp] theorem sbAnswer_maint (n : Nat) (l : List Byte) : (sbAnswer s n l).maint = s.maint :=
  (sbAnswer_within (.refl 2097152 s) (sub_of rfl)).maint rfl
@[simp] theorem sbAnswer_sched (n : Nat) (l : List Byte) : (sbAnswer s n l).sched = s.sched :=
  (sbAnswer_within (.refl 2097152 s) (sub_of rfl)).sched rfl
@[simp] theorem sbAnswer_pke (n : Nat) (l : List Byte) : (sbAnswer s n l).pke = s.pke :=
  (sbAnswer_within (.refl 2097152 s) (sub_of rfl)).pke rfl
@[simp] theorem sbAnswer_fab (n : Nat) (l : List Byte) : (sbAnswer s n l).fab = s.fab :=
  (sbAnswer_within (.refl 2097152 s) (sub_of rfl)).fab rfl
@[simp] theorem sbAnswer_ftime (n : Nat) (l : List Byte) : (sbAnswer s n l).ftime = s.ftime :=
  (sbAnswer_within (.refl 2097152 s) (sub_of rfl)).ftime rfl
@[simp] theorem sbAnswer_pending (n : Nat) (l : List Byte) : (sbAnswer s n l).pending = s.pending :=
  (sbAnswer_within (.refl 2097152 s) (sub_of rfl)).pending

/-! setBytes -/
@[simp] theorem setBytes_regs (a : Nat) (l : List Byte) : (setBytes s a l).regs = s.regs :=
  ((setBytes_within (.refl 2 s) (sub_of rfl)).regs rfl).1
@[simp] theorem setBytes_shadows (a : Nat) (l : List Byte) : (setBytes s a l).shadows = s.shadows :=
  ((setBytes_within (.refl 2 s) (sub_of rfl)).regs rfl).2.1
@[simp] theorem setBytes_holds (a : Nat) (l : List Byte) : (setBytes s a l).holds = s.holds :=
  ((setBytes_within (.refl 2 s) (sub_of rfl)).regs rfl).2.2
@[simp] theorem setBytes_memq (a : Nat) (l : List Byte) : (setBytes s a l).memq = s.memq :=
  ((setBytes_within (.refl 2 s) (sub_of rfl)).memq rfl).1
@[simp] theorem setBytes_cores (a : Nat) (l : List Byte) : (setBytes s a l).cores = s.cores :=
  (setBytes_within (.refl 2 s) (sub_of rfl)).cores rfl
@[simp] theorem setBytes_fns (a : Nat) (l : List Byte) : (setBytes s a l).fns = s.fns :=
  (setBytes_within (.refl 2 s) (sub_of rfl)).fns rfl
@[simp] theorem setBytes_sectors (a : Nat) (l : List Byte) : (setBytes s a l).sectors = s.sectors :=
  (setBytes_within (.refl 2 s) (sub_of rfl)).sectors rfl
@[simp] theorem setBytes_jobs (a : Nat) (l : List Byte) : (setBytes s a l).jobs = s.jobs :=
  ((setBytes_within (.refl 2 s) (sub_of rfl)).jobs rfl).1
@[simp] theorem setBytes_zombies (a : Nat) (l : List Byte) : (setBytes s a l).zombies = s.zombies :=
  ((setBytes_within (.refl 2 s) (sub_of rfl)).alloc rfl).1
@[simp] theorem setBytes_encQ (a : Nat) (l : List Byte) : (setBytes s a l).encQ = s.encQ :=
  (setBytes_within (.refl 2 s) (sub_of rfl)).encQ rfl
@[simp] theorem setBytes_passes (a : Nat) (l : List Byte) : (setBytes s a l).passes = s.passes :=
  ((setBytes_within (.refl 2 s) (sub_of rfl)).passes rfl).1
@[simp] theorem setBytes_xfers (a : Nat) (l : List Byte) : (setBytes s a l).xfers = s.xfers :=
  ((setBytes_within (.refl 2 s) (sub_of rfl)).xfers rfl).1
@[simp] theorem setBytes_batches (a : Nat) (l : List Byte) : (setBytes s a l).batches = s.batches :=
  ((setBytes_within (.refl 2 s) (sub_of rfl)).xfers rfl).2.2
@[simp] theorem setBytes_zeroing (a : Nat) (l : List Byte) : (setBytes s a l).zeroing = s.zeroing :=
  (setBytes_within (.refl 2 s) (sub_of rfl)).zeroing rfl
@[simp] theorem setBytes_day (a : Nat) (l : List Byte) : (setBytes s a l).day = s.day :=
  (setBytes_within (.refl 2 s) (sub_of rfl)).day rfl
@[simp] theorem setBytes_keeper (a : Nat) (l : List Byte) : (setBytes s a l).keeper = s.keeper :=
  (setBytes_within (.refl 2 s) (sub_of rfl)).keeper rfl
@[simp] theorem setBytes_eicStack (a : Nat) (l : List Byte) : (setBytes s a l).eicStack = s.eicStack :=
  (setBytes_within (.refl 2 s) (sub_of rfl)).eic rfl
@[simp] theorem setBytes_start (a : Nat) (l : List Byte) : (setBytes s a l).start = s.start :=
  (setBytes_within (.refl 2 s) (sub_of rfl)).start rfl
@[simp] theorem setBytes_maint (a : Nat) (l : List Byte) : (setBytes s a l).maint = s.maint :=
  (setBytes_within (.refl 2 s) (sub_of rfl)).maint rfl
@[simp] theorem setBytes_sched (a : Nat) (l : List Byte) : (setBytes s a l).sched = s.sched :=
  (setBytes_within (.refl 2 s) (sub_of rfl)).sched rfl
@[simp] theorem setBytes_pke (a : Nat) (l : List Byte) : (setBytes s a l).pke = s.pke :=
  (setBytes_within (.refl 2 s) (sub_of rfl)).pke rfl
@[simp] theorem setBytes_fab (a : Nat) (l : List Byte) : (setBytes s a l).fab = s.fab :=
  (setBytes_within (.refl 2 s) (sub_of rfl)).fab rfl
@[simp] theorem setBytes_ftime (a : Nat) (l : List Byte) : (setBytes s a l).ftime = s.ftime :=
  (setBytes_within (.refl 2 s) (sub_of rfl)).ftime rfl
@[simp] theorem setBytes_outputs (a : Nat) (l : List Byte) : (setBytes s a l).outputs = s.outputs :=
  (setBytes_within (.refl 2 s) (sub_of rfl)).outputs rfl
@[simp] theorem setBytes_pending (a : Nat) (l : List Byte) : (setBytes s a l).pending = s.pending :=
  (setBytes_within (.refl 2 s) (sub_of rfl)).pending

/-! setPll -/
@[simp] theorem setPll_mem (d k n : Nat) : (setPll s d k n).mem = s.mem :=
  ((setPll_within (.refl 131073 s) (sub_of rfl)).mem rfl).1
@[simp] theorem setPll_memq (d k n : Nat) : (setPll s d k n).memq = s.memq :=
  ((setPll_within (.refl 131073 s) (sub_of rfl)).memq rfl).1
@[simp] theorem setPll_cores (d k n : Nat) : (setPll s d k n).cores = s.cores :=
  (setPll_within (.refl 131073 s) (sub_of rfl)).cores rfl
@[simp] theorem setPll_fns (d k n : Nat) : (setPll s d k n).fns = s.fns :=
  (setPll_within (.refl 131073 s) (sub_of rfl)).fns rfl
@[simp] theorem setPll_sectors (d k n : Nat) : (setPll s d k n).sectors = s.sectors :=
  (setPll_within (.refl 131073 s) (sub_of rfl)).sectors rfl
@[simp] theorem setPll_jobs (d k n : Nat) : (setPll s d k n).jobs = s.jobs :=
  ((setPll_within (.refl 131073 s) (sub_of rfl)).jobs rfl).1
@[simp] theorem setPll_zombies (d k n : Nat) : (setPll s d k n).zombies = s.zombies :=
  ((setPll_within (.refl 131073 s) (sub_of rfl)).alloc rfl).1
@[simp] theorem setPll_encQ (d k n : Nat) : (setPll s d k n).encQ = s.encQ :=
  (setPll_within (.refl 131073 s) (sub_of rfl)).encQ rfl
@[simp] theorem setPll_passes (d k n : Nat) : (setPll s d k n).passes = s.passes :=
  ((setPll_within (.refl 131073 s) (sub_of rfl)).passes rfl).1
@[simp] theorem setPll_xfers (d k n : Nat) : (setPll s d k n).xfers = s.xfers :=
  ((setPll_within (.refl 131073 s) (sub_of rfl)).xfers rfl).1
@[simp] theorem setPll_batches (d k n : Nat) : (setPll s d k n).batches = s.batches :=
  ((setPll_within (.refl 131073 s) (sub_of rfl)).xfers rfl).2.2
@[simp] theorem setPll_zeroing (d k n : Nat) : (setPll s d k n).zeroing = s.zeroing :=
  (setPll_within (.refl 131073 s) (sub_of rfl)).zeroing rfl
@[simp] theorem setPll_day (d k n : Nat) : (setPll s d k n).day = s.day :=
  (setPll_within (.refl 131073 s) (sub_of rfl)).day rfl
@[simp] theorem setPll_keeper (d k n : Nat) : (setPll s d k n).keeper = s.keeper :=
  (setPll_within (.refl 131073 s) (sub_of rfl)).keeper rfl
@[simp] theorem setPll_eicStack (d k n : Nat) : (setPll s d k n).eicStack = s.eicStack :=
  (setPll_within (.refl 131073 s) (sub_of rfl)).eic rfl
@[simp] theorem setPll_start (d k n : Nat) : (setPll s d k n).start = s.start :=
  (setPll_within (.refl 131073 s) (sub_of rfl)).start rfl
@[simp] theorem setPll_maint (d k n : Nat) : (setPll s d k n).maint = s.maint :=
  (setPll_within (.refl 131073 s) (sub_of rfl)).maint rfl
@[simp] theorem setPll_pke (d k n : Nat) : (setPll s d k n).pke = s.pke :=
  (setPll_within (.refl 131073 s) (sub_of rfl)).pke rfl
@[simp] theorem setPll_fab (d k n : Nat) : (setPll s d k n).fab = s.fab :=
  (setPll_within (.refl 131073 s) (sub_of rfl)).fab rfl
@[simp] theorem setPll_ftime (d k n : Nat) : (setPll s d k n).ftime = s.ftime :=
  (setPll_within (.refl 131073 s) (sub_of rfl)).ftime rfl
@[simp] theorem setPll_outputs (d k n : Nat) : (setPll s d k n).outputs = s.outputs :=
  (setPll_within (.refl 131073 s) (sub_of rfl)).outputs rfl
@[simp] theorem setPll_pending (d k n : Nat) : (setPll s d k n).pending = s.pending :=
  (setPll_within (.refl 131073 s) (sub_of rfl)).pending

/-! dayRetry -/
@[simp] theorem dayRetry_mem (r : FlashResult) : (dayRetry s r).mem = s.mem :=
  ((dayRetry_within (.refl 2109457 s) (sub_of rfl)).mem rfl).1
@[simp] theorem dayRetry_memq (r : FlashResult) : (dayRetry s r).memq = s.memq :=
  ((dayRetry_within (.refl 2109457 s) (sub_of rfl)).memq rfl).1
@[simp] theorem dayRetry_cores (r : FlashResult) : (dayRetry s r).cores = s.cores :=
  (dayRetry_within (.refl 2109457 s) (sub_of rfl)).cores rfl
@[simp] theorem dayRetry_sectors (r : FlashResult) : (dayRetry s r).sectors = s.sectors :=
  (dayRetry_within (.refl 2109457 s) (sub_of rfl)).sectors rfl
@[simp] theorem dayRetry_jobs (r : FlashResult) : (dayRetry s r).jobs = s.jobs :=
  ((dayRetry_within (.refl 2109457 s) (sub_of rfl)).jobs rfl).1
@[simp] theorem dayRetry_zombies (r : FlashResult) : (dayRetry s r).zombies = s.zombies :=
  ((dayRetry_within (.refl 2109457 s) (sub_of rfl)).alloc rfl).1
@[simp] theorem dayRetry_encQ (r : FlashResult) : (dayRetry s r).encQ = s.encQ :=
  (dayRetry_within (.refl 2109457 s) (sub_of rfl)).encQ rfl
@[simp] theorem dayRetry_passes (r : FlashResult) : (dayRetry s r).passes = s.passes :=
  ((dayRetry_within (.refl 2109457 s) (sub_of rfl)).passes rfl).1
@[simp] theorem dayRetry_xfers (r : FlashResult) : (dayRetry s r).xfers = s.xfers :=
  ((dayRetry_within (.refl 2109457 s) (sub_of rfl)).xfers rfl).1
@[simp] theorem dayRetry_batches (r : FlashResult) : (dayRetry s r).batches = s.batches :=
  ((dayRetry_within (.refl 2109457 s) (sub_of rfl)).xfers rfl).2.2
@[simp] theorem dayRetry_zeroing (r : FlashResult) : (dayRetry s r).zeroing = s.zeroing :=
  (dayRetry_within (.refl 2109457 s) (sub_of rfl)).zeroing rfl
@[simp] theorem dayRetry_eicStack (r : FlashResult) : (dayRetry s r).eicStack = s.eicStack :=
  (dayRetry_within (.refl 2109457 s) (sub_of rfl)).eic rfl
@[simp] theorem dayRetry_start (r : FlashResult) : (dayRetry s r).start = s.start :=
  (dayRetry_within (.refl 2109457 s) (sub_of rfl)).start rfl
@[simp] theorem dayRetry_maint (r : FlashResult) : (dayRetry s r).maint = s.maint :=
  (dayRetry_within (.refl 2109457 s) (sub_of rfl)).maint rfl
@[simp] theorem dayRetry_sched (r : FlashResult) : (dayRetry s r).sched = s.sched :=
  (dayRetry_within (.refl 2109457 s) (sub_of rfl)).sched rfl
@[simp] theorem dayRetry_pke (r : FlashResult) : (dayRetry s r).pke = s.pke :=
  (dayRetry_within (.refl 2109457 s) (sub_of rfl)).pke rfl
@[simp] theorem dayRetry_fab (r : FlashResult) : (dayRetry s r).fab = s.fab :=
  (dayRetry_within (.refl 2109457 s) (sub_of rfl)).fab rfl
@[simp] theorem dayRetry_ftime (r : FlashResult) : (dayRetry s r).ftime = s.ftime :=
  (dayRetry_within (.refl 2109457 s) (sub_of rfl)).ftime rfl
@[simp] theorem dayRetry_pending (r : FlashResult) : (dayRetry s r).pending = s.pending :=
  (dayRetry_within (.refl 2109457 s) (sub_of rfl)).pending

/-! dayEndFreezes -/
@[simp] theorem dayEndFreezes_mem : (dayEndFreezes s).mem = s.mem :=
  ((dayEndFreezes_within (.refl 4097 s) (sub_of rfl)).mem rfl).1
@[simp] theorem dayEndFreezes_memq : (dayEndFreezes s).memq = s.memq :=
  ((dayEndFreezes_within (.refl 4097 s) (sub_of rfl)).memq rfl).1
@[simp] theorem dayEndFreezes_cores : (dayEndFreezes s).cores = s.cores :=
  (dayEndFreezes_within (.refl 4097 s) (sub_of rfl)).cores rfl
@[simp] theorem dayEndFreezes_fns : (dayEndFreezes s).fns = s.fns :=
  (dayEndFreezes_within (.refl 4097 s) (sub_of rfl)).fns rfl
@[simp] theorem dayEndFreezes_sectors : (dayEndFreezes s).sectors = s.sectors :=
  (dayEndFreezes_within (.refl 4097 s) (sub_of rfl)).sectors rfl
@[simp] theorem dayEndFreezes_jobs : (dayEndFreezes s).jobs = s.jobs :=
  ((dayEndFreezes_within (.refl 4097 s) (sub_of rfl)).jobs rfl).1
@[simp] theorem dayEndFreezes_zombies : (dayEndFreezes s).zombies = s.zombies :=
  ((dayEndFreezes_within (.refl 4097 s) (sub_of rfl)).alloc rfl).1
@[simp] theorem dayEndFreezes_encQ : (dayEndFreezes s).encQ = s.encQ :=
  (dayEndFreezes_within (.refl 4097 s) (sub_of rfl)).encQ rfl
@[simp] theorem dayEndFreezes_passes : (dayEndFreezes s).passes = s.passes :=
  ((dayEndFreezes_within (.refl 4097 s) (sub_of rfl)).passes rfl).1
@[simp] theorem dayEndFreezes_xfers : (dayEndFreezes s).xfers = s.xfers :=
  ((dayEndFreezes_within (.refl 4097 s) (sub_of rfl)).xfers rfl).1
@[simp] theorem dayEndFreezes_batches : (dayEndFreezes s).batches = s.batches :=
  ((dayEndFreezes_within (.refl 4097 s) (sub_of rfl)).xfers rfl).2.2
@[simp] theorem dayEndFreezes_zeroing : (dayEndFreezes s).zeroing = s.zeroing :=
  (dayEndFreezes_within (.refl 4097 s) (sub_of rfl)).zeroing rfl
@[simp] theorem dayEndFreezes_keeper : (dayEndFreezes s).keeper = s.keeper :=
  (dayEndFreezes_within (.refl 4097 s) (sub_of rfl)).keeper rfl
@[simp] theorem dayEndFreezes_eicStack : (dayEndFreezes s).eicStack = s.eicStack :=
  (dayEndFreezes_within (.refl 4097 s) (sub_of rfl)).eic rfl
@[simp] theorem dayEndFreezes_start : (dayEndFreezes s).start = s.start :=
  (dayEndFreezes_within (.refl 4097 s) (sub_of rfl)).start rfl
@[simp] theorem dayEndFreezes_maint : (dayEndFreezes s).maint = s.maint :=
  (dayEndFreezes_within (.refl 4097 s) (sub_of rfl)).maint rfl
@[simp] theorem dayEndFreezes_sched : (dayEndFreezes s).sched = s.sched :=
  (dayEndFreezes_within (.refl 4097 s) (sub_of rfl)).sched rfl
@[simp] theorem dayEndFreezes_pke : (dayEndFreezes s).pke = s.pke :=
  (dayEndFreezes_within (.refl 4097 s) (sub_of rfl)).pke rfl
@[simp] theorem dayEndFreezes_fab : (dayEndFreezes s).fab = s.fab :=
  (dayEndFreezes_within (.refl 4097 s) (sub_of rfl)).fab rfl
@[simp] theorem dayEndFreezes_ftime : (dayEndFreezes s).ftime = s.ftime :=
  (dayEndFreezes_within (.refl 4097 s) (sub_of rfl)).ftime rfl
@[simp] theorem dayEndFreezes_outputs : (dayEndFreezes s).outputs = s.outputs :=
  (dayEndFreezes_within (.refl 4097 s) (sub_of rfl)).outputs rfl
@[simp] theorem dayEndFreezes_pending : (dayEndFreezes s).pending = s.pending :=
  (dayEndFreezes_within (.refl 4097 s) (sub_of rfl)).pending

/-! latchFailure -/
@[simp] theorem latchFailure_mem (k r : Nat) : (latchFailure s k r).mem = s.mem :=
  ((latchFailure_within (.refl 1 s) (sub_of rfl)).mem rfl).1
@[simp] theorem latchFailure_memq (k r : Nat) : (latchFailure s k r).memq = s.memq :=
  ((latchFailure_within (.refl 1 s) (sub_of rfl)).memq rfl).1
@[simp] theorem latchFailure_cores (k r : Nat) : (latchFailure s k r).cores = s.cores :=
  (latchFailure_within (.refl 1 s) (sub_of rfl)).cores rfl
@[simp] theorem latchFailure_fns (k r : Nat) : (latchFailure s k r).fns = s.fns :=
  (latchFailure_within (.refl 1 s) (sub_of rfl)).fns rfl
@[simp] theorem latchFailure_sectors (k r : Nat) : (latchFailure s k r).sectors = s.sectors :=
  (latchFailure_within (.refl 1 s) (sub_of rfl)).sectors rfl
@[simp] theorem latchFailure_jobs (k r : Nat) : (latchFailure s k r).jobs = s.jobs :=
  ((latchFailure_within (.refl 1 s) (sub_of rfl)).jobs rfl).1
@[simp] theorem latchFailure_zombies (k r : Nat) : (latchFailure s k r).zombies = s.zombies :=
  ((latchFailure_within (.refl 1 s) (sub_of rfl)).alloc rfl).1
@[simp] theorem latchFailure_encQ (k r : Nat) : (latchFailure s k r).encQ = s.encQ :=
  (latchFailure_within (.refl 1 s) (sub_of rfl)).encQ rfl
@[simp] theorem latchFailure_passes (k r : Nat) : (latchFailure s k r).passes = s.passes :=
  ((latchFailure_within (.refl 1 s) (sub_of rfl)).passes rfl).1
@[simp] theorem latchFailure_xfers (k r : Nat) : (latchFailure s k r).xfers = s.xfers :=
  ((latchFailure_within (.refl 1 s) (sub_of rfl)).xfers rfl).1
@[simp] theorem latchFailure_batches (k r : Nat) : (latchFailure s k r).batches = s.batches :=
  ((latchFailure_within (.refl 1 s) (sub_of rfl)).xfers rfl).2.2
@[simp] theorem latchFailure_zeroing (k r : Nat) : (latchFailure s k r).zeroing = s.zeroing :=
  (latchFailure_within (.refl 1 s) (sub_of rfl)).zeroing rfl
@[simp] theorem latchFailure_day (k r : Nat) : (latchFailure s k r).day = s.day :=
  (latchFailure_within (.refl 1 s) (sub_of rfl)).day rfl
@[simp] theorem latchFailure_keeper (k r : Nat) : (latchFailure s k r).keeper = s.keeper :=
  (latchFailure_within (.refl 1 s) (sub_of rfl)).keeper rfl
@[simp] theorem latchFailure_eicStack (k r : Nat) : (latchFailure s k r).eicStack = s.eicStack :=
  (latchFailure_within (.refl 1 s) (sub_of rfl)).eic rfl
@[simp] theorem latchFailure_start (k r : Nat) : (latchFailure s k r).start = s.start :=
  (latchFailure_within (.refl 1 s) (sub_of rfl)).start rfl
@[simp] theorem latchFailure_maint (k r : Nat) : (latchFailure s k r).maint = s.maint :=
  (latchFailure_within (.refl 1 s) (sub_of rfl)).maint rfl
@[simp] theorem latchFailure_sched (k r : Nat) : (latchFailure s k r).sched = s.sched :=
  (latchFailure_within (.refl 1 s) (sub_of rfl)).sched rfl
@[simp] theorem latchFailure_pke (k r : Nat) : (latchFailure s k r).pke = s.pke :=
  (latchFailure_within (.refl 1 s) (sub_of rfl)).pke rfl
@[simp] theorem latchFailure_fab (k r : Nat) : (latchFailure s k r).fab = s.fab :=
  (latchFailure_within (.refl 1 s) (sub_of rfl)).fab rfl
@[simp] theorem latchFailure_ftime (k r : Nat) : (latchFailure s k r).ftime = s.ftime :=
  (latchFailure_within (.refl 1 s) (sub_of rfl)).ftime rfl
@[simp] theorem latchFailure_outputs (k r : Nat) : (latchFailure s k r).outputs = s.outputs :=
  (latchFailure_within (.refl 1 s) (sub_of rfl)).outputs rfl
@[simp] theorem latchFailure_pending (k r : Nat) : (latchFailure s k r).pending = s.pending :=
  (latchFailure_within (.refl 1 s) (sub_of rfl)).pending

/-! bootRecords -/
@[simp] theorem bootRecords_mem (k i : Nat) (p : Option Nat) (r : FlashResult) : (bootRecords s k i p r).mem = s.mem :=
  ((bootRecords_within (.refl 2109457 s) (sub_of rfl)).mem rfl).1
@[simp] theorem bootRecords_memq (k i : Nat) (p : Option Nat) (r : FlashResult) : (bootRecords s k i p r).memq = s.memq :=
  ((bootRecords_within (.refl 2109457 s) (sub_of rfl)).memq rfl).1
@[simp] theorem bootRecords_cores (k i : Nat) (p : Option Nat) (r : FlashResult) : (bootRecords s k i p r).cores = s.cores :=
  (bootRecords_within (.refl 2109457 s) (sub_of rfl)).cores rfl
@[simp] theorem bootRecords_sectors (k i : Nat) (p : Option Nat) (r : FlashResult) : (bootRecords s k i p r).sectors = s.sectors :=
  (bootRecords_within (.refl 2109457 s) (sub_of rfl)).sectors rfl
@[simp] theorem bootRecords_jobs (k i : Nat) (p : Option Nat) (r : FlashResult) : (bootRecords s k i p r).jobs = s.jobs :=
  ((bootRecords_within (.refl 2109457 s) (sub_of rfl)).jobs rfl).1
@[simp] theorem bootRecords_zombies (k i : Nat) (p : Option Nat) (r : FlashResult) : (bootRecords s k i p r).zombies = s.zombies :=
  ((bootRecords_within (.refl 2109457 s) (sub_of rfl)).alloc rfl).1
@[simp] theorem bootRecords_encQ (k i : Nat) (p : Option Nat) (r : FlashResult) : (bootRecords s k i p r).encQ = s.encQ :=
  (bootRecords_within (.refl 2109457 s) (sub_of rfl)).encQ rfl
@[simp] theorem bootRecords_passes (k i : Nat) (p : Option Nat) (r : FlashResult) : (bootRecords s k i p r).passes = s.passes :=
  ((bootRecords_within (.refl 2109457 s) (sub_of rfl)).passes rfl).1
@[simp] theorem bootRecords_xfers (k i : Nat) (p : Option Nat) (r : FlashResult) : (bootRecords s k i p r).xfers = s.xfers :=
  ((bootRecords_within (.refl 2109457 s) (sub_of rfl)).xfers rfl).1
@[simp] theorem bootRecords_batches (k i : Nat) (p : Option Nat) (r : FlashResult) : (bootRecords s k i p r).batches = s.batches :=
  ((bootRecords_within (.refl 2109457 s) (sub_of rfl)).xfers rfl).2.2
@[simp] theorem bootRecords_zeroing (k i : Nat) (p : Option Nat) (r : FlashResult) : (bootRecords s k i p r).zeroing = s.zeroing :=
  (bootRecords_within (.refl 2109457 s) (sub_of rfl)).zeroing rfl
@[simp] theorem bootRecords_eicStack (k i : Nat) (p : Option Nat) (r : FlashResult) : (bootRecords s k i p r).eicStack = s.eicStack :=
  (bootRecords_within (.refl 2109457 s) (sub_of rfl)).eic rfl
@[simp] theorem bootRecords_start (k i : Nat) (p : Option Nat) (r : FlashResult) : (bootRecords s k i p r).start = s.start :=
  (bootRecords_within (.refl 2109457 s) (sub_of rfl)).start rfl
@[simp] theorem bootRecords_maint (k i : Nat) (p : Option Nat) (r : FlashResult) : (bootRecords s k i p r).maint = s.maint :=
  (bootRecords_within (.refl 2109457 s) (sub_of rfl)).maint rfl
@[simp] theorem bootRecords_sched (k i : Nat) (p : Option Nat) (r : FlashResult) : (bootRecords s k i p r).sched = s.sched :=
  (bootRecords_within (.refl 2109457 s) (sub_of rfl)).sched rfl
@[simp] theorem bootRecords_pke (k i : Nat) (p : Option Nat) (r : FlashResult) : (bootRecords s k i p r).pke = s.pke :=
  (bootRecords_within (.refl 2109457 s) (sub_of rfl)).pke rfl
@[simp] theorem bootRecords_fab (k i : Nat) (p : Option Nat) (r : FlashResult) : (bootRecords s k i p r).fab = s.fab :=
  (bootRecords_within (.refl 2109457 s) (sub_of rfl)).fab rfl
@[simp] theorem bootRecords_ftime (k i : Nat) (p : Option Nat) (r : FlashResult) : (bootRecords s k i p r).ftime = s.ftime :=
  (bootRecords_within (.refl 2109457 s) (sub_of rfl)).ftime rfl
@[simp] theorem bootRecords_pending (k i : Nat) (p : Option Nat) (r : FlashResult) : (bootRecords s k i p r).pending = s.pending :=
  (bootRecords_within (.refl 2109457 s) (sub_of rfl)).pending

/-! dayFlushN -/
@[simp] theorem dayFlushN_mem (n : Nat) : (dayFlushN s n).mem = s.mem :=
  ((dayFlushN_within (.refl 4097 s) (sub_of rfl)).mem rfl).1
@[simp] theorem dayFlushN_memq (n : Nat) : (dayFlushN s n).memq = s.memq :=
  ((dayFlushN_within (.refl 4097 s) (sub_of rfl)).memq rfl).1
@[simp] theorem dayFlushN_cores (n : Nat) : (dayFlushN s n).cores = s.cores :=
  (dayFlushN_within (.refl 4097 s) (sub_of rfl)).cores rfl
@[simp] theorem dayFlushN_fns (n : Nat) : (dayFlushN s n).fns = s.fns :=
  (dayFlushN_within (.refl 4097 s) (sub_of rfl)).fns rfl
@[simp] theorem dayFlushN_sectors (n : Nat) : (dayFlushN s n).sectors = s.sectors :=
  (dayFlushN_within (.refl 4097 s) (sub_of rfl)).sectors rfl
@[simp] theorem dayFlushN_jobs (n : Nat) : (dayFlushN s n).jobs = s.jobs :=
  ((dayFlushN_within (.refl 4097 s) (sub_of rfl)).jobs rfl).1
@[simp] theorem dayFlushN_zombies (n : Nat) : (dayFlushN s n).zombies = s.zombies :=
  ((dayFlushN_within (.refl 4097 s) (sub_of rfl)).alloc rfl).1
@[simp] theorem dayFlushN_encQ (n : Nat) : (dayFlushN s n).encQ = s.encQ :=
  (dayFlushN_within (.refl 4097 s) (sub_of rfl)).encQ rfl
@[simp] theorem dayFlushN_passes (n : Nat) : (dayFlushN s n).passes = s.passes :=
  ((dayFlushN_within (.refl 4097 s) (sub_of rfl)).passes rfl).1
@[simp] theorem dayFlushN_xfers (n : Nat) : (dayFlushN s n).xfers = s.xfers :=
  ((dayFlushN_within (.refl 4097 s) (sub_of rfl)).xfers rfl).1
@[simp] theorem dayFlushN_batches (n : Nat) : (dayFlushN s n).batches = s.batches :=
  ((dayFlushN_within (.refl 4097 s) (sub_of rfl)).xfers rfl).2.2
@[simp] theorem dayFlushN_zeroing (n : Nat) : (dayFlushN s n).zeroing = s.zeroing :=
  (dayFlushN_within (.refl 4097 s) (sub_of rfl)).zeroing rfl
@[simp] theorem dayFlushN_keeper (n : Nat) : (dayFlushN s n).keeper = s.keeper :=
  (dayFlushN_within (.refl 4097 s) (sub_of rfl)).keeper rfl
@[simp] theorem dayFlushN_eicStack (n : Nat) : (dayFlushN s n).eicStack = s.eicStack :=
  (dayFlushN_within (.refl 4097 s) (sub_of rfl)).eic rfl
@[simp] theorem dayFlushN_start (n : Nat) : (dayFlushN s n).start = s.start :=
  (dayFlushN_within (.refl 4097 s) (sub_of rfl)).start rfl
@[simp] theorem dayFlushN_maint (n : Nat) : (dayFlushN s n).maint = s.maint :=
  (dayFlushN_within (.refl 4097 s) (sub_of rfl)).maint rfl
@[simp] theorem dayFlushN_sched (n : Nat) : (dayFlushN s n).sched = s.sched :=
  (dayFlushN_within (.refl 4097 s) (sub_of rfl)).sched rfl
@[simp] theorem dayFlushN_pke (n : Nat) : (dayFlushN s n).pke = s.pke :=
  (dayFlushN_within (.refl 4097 s) (sub_of rfl)).pke rfl
@[simp] theorem dayFlushN_fab (n : Nat) : (dayFlushN s n).fab = s.fab :=
  (dayFlushN_within (.refl 4097 s) (sub_of rfl)).fab rfl
@[simp] theorem dayFlushN_ftime (n : Nat) : (dayFlushN s n).ftime = s.ftime :=
  (dayFlushN_within (.refl 4097 s) (sub_of rfl)).ftime rfl
@[simp] theorem dayFlushN_outputs (n : Nat) : (dayFlushN s n).outputs = s.outputs :=
  (dayFlushN_within (.refl 4097 s) (sub_of rfl)).outputs rfl
@[simp] theorem dayFlushN_pending (n : Nat) : (dayFlushN s n).pending = s.pending :=
  (dayFlushN_within (.refl 4097 s) (sub_of rfl)).pending

end Sys2Proof.Machine
end

