-- ==== Sys2Proof/Laws/Memory.lean ====
section
/-! SUPPORT. Every operation on device memory keeps its one canonical form: addresses rising, no entry equal to what an
unlisted address reads as. -/

namespace Sys2Proof.Machine

/-- Reset memory lists nothing. -/
theorem memory_wf_reset : Memory.wf State.reset.mem = true := rfl

/-- Writing a byte keeps the form. -/
theorem memory_wf_setByte {s : State} (a : Nat) (b : Byte) (h : Memory.wf s.mem = true) : Memory.wf (setByte s a b).mem = true :=
  twf_tset a b h

/-- Writing a run of bytes keeps the form. -/
theorem memory_wf_setBytes {s : State} (a : Nat) (bs : List Byte) (h : Memory.wf s.mem = true) :
    Memory.wf (setBytes s a bs).mem = true :=
  twf_tsetRun a bs h

/-- Dropping bytes (a tile being zeroed, a block being cleared) keeps the form. -/
theorem memory_wf_filter {m : List Host.Cell} (p : Host.Cell → Bool) (h : Memory.wf m = true) : Memory.wf (m.filter p) = true :=
  twf_filter p h

end Sys2Proof.Machine
end

