-- ==== Sys2Proof/Laws/Regs.lean ====
section
/-! SUPPORT. Reading a register after a write of it, or of another; the bits of a field. -/

namespace Sys2Proof.Machine

/-- A register reads back what was put into it. -/
theorem regGet_regSet_same {s : State} (hi : s.Inv) (o : Nat) (v : Word) : regGet (regSet s o v) o = v := by
  unfold regGet regSet; exact tget_tset_kwf o v hi.regs

/-- A register write leaves every other register. -/
theorem regGet_regSet_ne {s : State} {o p : Nat} (v : Word) (h : p ≠ o) : regGet (regSet s o v) p = regGet s p := by
  unfold regGet regSet; exact tget_tset_ne _ _ _ v h

/-- A register write keeps the invariant. -/
theorem inv_regSet {s : State} (hi : s.Inv) (o : Nat) (v : Word) : (regSet s o v).Inv := { hi with regs := kwf_tset o v hi.regs }

/-- A field write keeps the invariant. -/
theorem inv_regSetFld {s : State} (hi : s.Inv) (o a b v : Nat) : (regSetFld s o a b v).Inv := inv_regSet hi _ _

/-- The holding registers are no part of the invariant. -/
theorem inv_holds {s : State} (hi : s.Inv) (x) : ({ s with holds := x } : State).Inv := { hi with }

/-- The mask of n bits from bit lo. -/
theorem mask_bit (n lo j : Nat) : ((2 ^ n - 1) * 2 ^ lo).testBit j = (decide (lo ≤ j) && decide (j - lo < n)) := by
  rw [Nat.mul_comm, Nat.testBit_two_pow_mul, Nat.testBit_two_pow_sub_one]

/-- Bit by bit, what putting v into bits [hi:lo] leaves. -/
theorem getLsbD_putBits {w : Word} {hi lo v j : Nat} (hj : j < 32) :
    (putBits w hi lo v).getLsbD j = if lo ≤ j ∧ j - lo < hi + 1 - lo then v.testBit (j - lo) else w.getLsbD j := by
  unfold putBits
  simp only [BitVec.getLsbD_or, BitVec.getLsbD_and, BitVec.getLsbD_not, BitVec.getLsbD_ofNat, hj, decide_true, Bool.true_and, mask_bit]
  rw [Nat.mul_comm v, Nat.testBit_two_pow_mul]
  by_cases h1 : lo ≤ j <;> by_cases h2 : j - lo < hi + 1 - lo <;> simp [h1, h2]

/-- Bit i of bits [hi:lo]. -/
theorem bits_testBit (w hi lo i : Nat) : (bits w hi lo).testBit i = (decide (i < hi + 1 - lo) && w.testBit (lo + i)) := by
  unfold bits; rw [Nat.testBit_mod_two_pow, Nat.testBit_shiftRight]

/-- Bits [hi:lo] read back what was put there. -/
theorem bits_putBits {w : Word} {hi lo v : Nat} (h32 : hi < 32) : bits (putBits w hi lo v).toNat hi lo = v % 2 ^ (hi + 1 - lo) := by
  apply Nat.eq_of_testBit_eq
  intro i
  rw [bits_testBit, Nat.testBit_mod_two_pow]
  by_cases h : i < hi + 1 - lo
  · have := getLsbD_putBits (w := w) (hi := hi) (lo := lo) (v := v) (j := lo + i) (by omega)
    rw [BitVec.getLsbD] at this
    rw [this]; simp [h]
  · simp [h]

/-- A field of a register reads back what was put into it. -/
theorem regFld_regSetFld {s : State} (hi' : s.Inv) {o hi lo v : Nat} (h : hi < 32) : regFld (regSetFld s o hi lo v) o hi lo = v % 2 ^ (hi + 1 - lo) := by
  unfold regFld regSetFld; rw [regGet_regSet_same hi', bits_putBits h]

/-- bit is testBit. -/
theorem bit_eq (w i : Nat) : bit w i = w.testBit i := by
  unfold bit Nat.testBit; rw [Nat.and_comm, Nat.and_one_is_mod]
  rcases Nat.mod_two_eq_zero_or_one (w >>> i) with h | h <;> simp [h]

/-- bit of a bitwise or. -/
theorem bit_or (v w : Word) (i : Nat) : bit (v ||| w).toNat i = (bit v.toNat i || bit w.toNat i) := by
  simp [bit_eq, BitVec.toNat_or, Nat.testBit_or]

end Sys2Proof.Machine
end

