-- ==== Sys2Proof/Laws/WithinCoreArray.lean ====
section
/-! SUPPORT. What each operation of Machine/CoreArray.lean may change (see Within.lean). -/

namespace Sys2Proof.Machine

theorem runGang_within {P s0 s a1 a2 a3} (h : Within P s0 s) (hp : sub 8 P) : Within P s0 (runGang s a1 a2 a3) := by
  unfold runGang
  repeat' (first | with_reducible assumption | exact sub_of rfl | with_reducible refine setCore_within ?_ (sub_trans ?_ hp) | with_reducible refine Within.foldl ?_ (fun _ _ _ => ?_) | with_reducible refine Within.foldl_fst ?_ (fun _ _ _ => ?_) | with_reducible refine Within.ite ?_ ?_ | (extract_lets +onlyGivenNames x; refine (fun (_ : Within P s0 x) => ?_) ?_; rotate_left; subst x; rotate_left; clear_value x) | (extract_lets +onlyGivenNames x; refine (fun (_ : Within P s0 x.1) => ?_) ?_; rotate_left; subst x; rotate_left; clear_value x) | (extract_lets +onlyGivenNames x; clear_value x) | split)

theorem tryGang_within {P s0 s a1 a2} (h : Within P s0 s) (hp : sub 8 P) : Within P s0 (tryGang s a1 a2) := by
  unfold tryGang
  repeat' (first | with_reducible assumption | exact sub_of rfl | with_reducible refine runGang_within ?_ (sub_trans ?_ hp) | with_reducible refine modCore_within ?_ (sub_trans ?_ hp) | with_reducible refine Within.foldl ?_ (fun _ _ _ => ?_) | with_reducible refine Within.foldl_fst ?_ (fun _ _ _ => ?_) | with_reducible refine Within.ite ?_ ?_ | (extract_lets +onlyGivenNames x; refine (fun (_ : Within P s0 x) => ?_) ?_; rotate_left; subst x; rotate_left; clear_value x) | (extract_lets +onlyGivenNames x; clear_value x) | split)

theorem undoHeld_within {P s0 s a1} (h : Within P s0 s) (hp : sub 12 P) : Within P s0 (undoHeld s a1) := by
  unfold undoHeld
  extract_lets c
  split
  · exact h
  · extract_lets
    exact Within.upd_memq (s := setCore _ _ _) (setCore_within h (sub_trans (sub_of rfl) hp)) (sub_trans (sub_of rfl) hp)

theorem faultGang_within {P s0 s a1} (h : Within P s0 s) (hp : sub 131149 P) : Within P s0 (faultGang s a1) := by
  unfold faultGang
  repeat' (first | with_reducible assumption | exact sub_of rfl | with_reducible refine faultCtx_within ?_ (sub_trans ?_ hp) | with_reducible refine undoHeld_within ?_ (sub_trans ?_ hp) | with_reducible refine Within.foldl ?_ (fun _ _ _ => ?_) | with_reducible refine Within.foldl_fst ?_ (fun _ _ _ => ?_) | split)

theorem gangOff_within {P s0 s a1 a2} (h : Within P s0 s) (hp : sub 8 P) : Within P s0 (gangOff s a1 a2) := by
  unfold gangOff
  repeat' (first | with_reducible assumption | exact sub_of rfl | with_reducible refine modCore_within ?_ (sub_trans ?_ hp) | with_reducible refine Within.foldl ?_ (fun _ _ _ => ?_) | with_reducible refine Within.foldl_fst ?_ (fun _ _ _ => ?_) | with_reducible refine Within.ite ?_ ?_ | (extract_lets +onlyGivenNames x; refine (fun (_ : Within P s0 x) => ?_) ?_; rotate_left; subst x; rotate_left; clear_value x) | (extract_lets +onlyGivenNames x; refine (fun (_ : Within P s0 x.1) => ?_) ?_; rotate_left; subst x; rotate_left; clear_value x) | (extract_lets +onlyGivenNames x; clear_value x) | split)

end Sys2Proof.Machine
end

