-- ==== Sys2Proof/Laws/WithinCoreIssue.lean ====
section
/-! SUPPORT. What each operation of Machine/CoreIssue.lean may change (see Within.lean). -/

namespace Sys2Proof.Machine

theorem queueSig_within {P s0 s a1 a2 a3 a4 a5} (h : Within P s0 s) (hp : sub 8 P) : Within P s0 (queueSig s a1 a2 a3 a4 a5) := by
  unfold queueSig
  repeat' (first | with_reducible assumption | exact sub_of rfl | with_reducible refine modCore_within ?_ (sub_trans ?_ hp) | with_reducible refine Within.ite ?_ ?_ | (extract_lets +onlyGivenNames x; refine (fun (_ : Within P s0 x) => ?_) ?_; rotate_left; subst x; rotate_left; clear_value x) | (extract_lets +onlyGivenNames x; clear_value x) | split)

theorem issueArray_within {P s0 s a1 a2 a3 a4 a5 a6} (h : Within P s0 s) (hp : sub 8 P) : Within P s0 (issueArray s a1 a2 a3 a4 a5 a6).1 := by
  unfold issueArray
  repeat' (first | with_reducible assumption | exact sub_of rfl | with_reducible refine gangOff_within ?_ (sub_trans ?_ hp) | with_reducible refine setCore_within ?_ (sub_trans ?_ hp) | with_reducible refine Within.ite ?_ ?_ | (extract_lets +onlyGivenNames x; refine (fun (_ : Within P s0 x) => ?_) ?_; rotate_left; subst x; rotate_left; clear_value x) | (extract_lets +onlyGivenNames x; clear_value x) | split)
theorem issueArray_within' {P s0 s t r a1 a2 a3 a4 a5 a6} (he : issueArray s a1 a2 a3 a4 a5 a6 = (t, r)) (h : Within P s0 s) (hp : sub 8 P) : Within P s0 t := by
  have k : Within P s0 (issueArray s a1 a2 a3 a4 a5 a6).1 := issueArray_within h hp
  rw [he] at k; exact k

theorem issueLdOther_within {P s0 s a1 a2 a3 a4 a5} (h : Within P s0 s) (hp : sub 77 P) : Within P s0 (issueLdOther s a1 a2 a3 a4 a5).1 := by
  unfold issueLdOther
  repeat' (first | with_reducible assumption | exact sub_of rfl | with_reducible refine startStream_within ?_ (sub_trans ?_ hp) | with_reducible refine cancelStream_within ?_ (sub_trans ?_ hp) | with_reducible refine modCore_within ?_ (sub_trans ?_ hp) | with_reducible refine Within.ite ?_ ?_ | (extract_lets +onlyGivenNames x; refine (fun (_ : Within P s0 x) => ?_) ?_; rotate_left; subst x; rotate_left; clear_value x) | (extract_lets +onlyGivenNames x; clear_value x) | split)
theorem issueLdOther_within' {P s0 s t r a1 a2 a3 a4 a5} (he : issueLdOther s a1 a2 a3 a4 a5 = (t, r)) (h : Within P s0 s) (hp : sub 77 P) : Within P s0 t := by
  have k : Within P s0 (issueLdOther s a1 a2 a3 a4 a5).1 := issueLdOther_within h hp
  rw [he] at k; exact k

theorem countDominated_within {P s0 s a1 a2} (h : Within P s0 s) (hp : sub 1 P) : Within P s0 (countDominated s a1 a2) := by
  unfold countDominated
  repeat' (first | with_reducible assumption | exact sub_of rfl | with_reducible refine bumpN_within ?_ (sub_trans ?_ hp))

theorem issueBundle_within {P s0 s a1 a2 a3 a4} (h : Within P s0 s) (hp : sub 131149 P) : Within P s0 (issueBundle s a1 a2 a3 a4) := by
  unfold issueBundle
  repeat' (first | with_reducible assumption | exact sub_of rfl | with_reducible refine countDominated_within ?_ (sub_trans ?_ hp) | with_reducible refine queueSig_within ?_ (sub_trans ?_ hp) | with_reducible refine issueLdOther_within ?_ (sub_trans ?_ hp) | with_reducible refine issueLdOther_within' ‹_› ?_ (sub_trans ?_ hp) | with_reducible refine bump_within ?_ (sub_trans ?_ hp) | with_reducible refine issueArray_within ?_ (sub_trans ?_ hp) | with_reducible refine issueArray_within' ‹_› ?_ (sub_trans ?_ hp) | with_reducible refine faultCtx_within ?_ (sub_trans ?_ hp) | with_reducible refine issueLoad_within ?_ (sub_trans ?_ hp) | with_reducible refine issueLoad_within' ‹_› ?_ (sub_trans ?_ hp) | with_reducible refine tryGang_within ?_ (sub_trans ?_ hp) | with_reducible refine issueStore_within ?_ (sub_trans ?_ hp) | with_reducible refine issueStore_within' ‹_› ?_ (sub_trans ?_ hp) | with_reducible refine modCore_within ?_ (sub_trans ?_ hp) | with_reducible refine Within.ite ?_ ?_ | (extract_lets +onlyGivenNames x; refine (fun (_ : Within P s0 x) => ?_) ?_; rotate_left; subst x; rotate_left; clear_value x) | (extract_lets +onlyGivenNames x; refine (fun (_ : Within P s0 x.1) => ?_) ?_; rotate_left; subst x; rotate_left; clear_value x) | (extract_lets +onlyGivenNames x; clear_value x) | split)

theorem trackWaits_within {P s0 s a1} (h : Within P s0 s) (hp : sub 8 P) : Within P s0 (trackWaits s a1) := by
  unfold trackWaits
  repeat' (first | with_reducible assumption | exact sub_of rfl | with_reducible refine modCore_within ?_ (sub_trans ?_ hp) | with_reducible refine Within.foldl ?_ (fun _ _ _ => ?_) | with_reducible refine Within.foldl_fst ?_ (fun _ _ _ => ?_) | with_reducible refine Within.ite ?_ ?_ | (extract_lets +onlyGivenNames x; refine (fun (_ : Within P s0 x) => ?_) ?_; rotate_left; subst x; rotate_left; clear_value x) | (extract_lets +onlyGivenNames x; clear_value x) | split)

theorem settleGang_within {P s0 s a1 a2 a3} (h : Within P s0 s) (hp : sub 2273323 P) : Within P s0 (settleGang s a1 a2 a3) := by
  unfold settleGang
  repeat' (first | with_reducible assumption | exact sub_of rfl | with_reducible refine settle_within ?_ (sub_trans ?_ hp) | with_reducible refine Within.foldl ?_ (fun _ _ _ => ?_) | with_reducible refine Within.foldl_fst ?_ (fun _ _ _ => ?_) | with_reducible refine Within.ite ?_ ?_ | (extract_lets +onlyGivenNames x; refine (fun (_ : Within P s0 x) => ?_) ?_; rotate_left; subst x; rotate_left; clear_value x) | (extract_lets +onlyGivenNames x; clear_value x) | split)

theorem issueCycle_within {P s0 s a1 a2} (h : Within P s0 s) (hp : sub 2273391 P) : Within P s0 (issueCycle s a1 a2) := by
  unfold issueCycle
  repeat' (first | with_reducible assumption | exact sub_of rfl | with_reducible refine bump_within ?_ (sub_trans ?_ hp) | with_reducible refine faultCtx_within ?_ (sub_trans ?_ hp) | with_reducible refine issueBundle_within ?_ (sub_trans ?_ hp) | with_reducible refine faultGang_within ?_ (sub_trans ?_ hp) | with_reducible refine settleGang_within ?_ (sub_trans ?_ hp) | with_reducible refine modCore_within ?_ (sub_trans ?_ hp) | with_reducible refine Within.ite ?_ ?_ | (extract_lets +onlyGivenNames x; refine (fun (_ : Within P s0 x) => ?_) ?_; rotate_left; subst x; rotate_left; clear_value x) | (extract_lets +onlyGivenNames x; clear_value x) | split)

theorem bundleIssueAt_within {P s0 s a0 a1} (h : Within P s0 s) (hp : sub 2273391 P) : Within P s0 (bundleIssueAt a0 a1 s) := by
  unfold bundleIssueAt
  repeat' (first | with_reducible assumption | exact sub_of rfl | with_reducible refine settle_within ?_ (sub_trans ?_ hp) | with_reducible refine settleArrivals_within ?_ (sub_trans ?_ hp) | with_reducible refine closeCycle_within ?_ (sub_trans ?_ hp) | with_reducible refine trackWaits_within ?_ (sub_trans ?_ hp) | with_reducible refine issueCycle_within ?_ (sub_trans ?_ hp) | with_reducible refine Within.ite ?_ ?_ | (extract_lets +onlyGivenNames x; refine (fun (_ : Within P s0 x) => ?_) ?_; rotate_left; subst x; rotate_left; clear_value x) | (extract_lets +onlyGivenNames x; clear_value x) | split)

theorem waitTimeoutAt_within {P s0 s a0 a1 a2} (h : Within P s0 s) (hp : sub 2273387 P) : Within P s0 (waitTimeoutAt a0 a1 a2 s) := by
  unfold waitTimeoutAt
  repeat' (first | with_reducible assumption | exact sub_of rfl | with_reducible refine settle_within ?_ (sub_trans ?_ hp) | with_reducible refine settleArrivals_within ?_ (sub_trans ?_ hp) | with_reducible refine faultCtx_within ?_ (sub_trans ?_ hp) | with_reducible refine trackWaits_within ?_ (sub_trans ?_ hp) | with_reducible refine Within.ite ?_ ?_ | (extract_lets +onlyGivenNames x; refine (fun (_ : Within P s0 x) => ?_) ?_; rotate_left; subst x; rotate_left; clear_value x) | (extract_lets +onlyGivenNames x; clear_value x) | split)

end Sys2Proof.Machine
end

