-- ==== Sys2Proof/Laws/WithinCoreRows.lean ====
section
/-! SUPPORT. What each operation of Machine/CoreRows.lean may change (see Within.lean). -/

namespace Sys2Proof.Machine

theorem execBundleIssue_within {P s0 s t a0 a1} (h : Within P s0 s) (hp : sub 2273391 P) (he : execBundleIssue a0 a1 s = .next t) : Within P s0 t := by
  unfold execBundleIssue at he; injection he with he; subst he
  repeat' (first | with_reducible assumption | exact sub_of rfl | with_reducible refine bundleIssueAt_within ?_ (sub_trans ?_ hp))

theorem execWaitTimeout_within {P s0 s t a0 a1 a2} (h : Within P s0 s) (hp : sub 2273387 P) (he : execWaitTimeout a0 a1 a2 s = .next t) : Within P s0 t := by
  unfold execWaitTimeout at he; injection he with he; subst he
  repeat' (first | with_reducible assumption | exact sub_of rfl | with_reducible refine waitTimeoutAt_within ?_ (sub_trans ?_ hp))

theorem execArrayResultReady_within {P s0 s t a0 a1} (h : Within P s0 s) (hp : sub 2273323 P) (he : execArrayResultReady a0 a1 s = .next t) : Within P s0 t := by
  unfold execArrayResultReady at he; injection he with he; subst he
  repeat' (first | with_reducible assumption | exact sub_of rfl | with_reducible refine arrayResultAt_within ?_ (sub_trans ?_ hp))

theorem execTransformAssistResult_within {P s0 s t a0 a1} (h : Within P s0 s) (hp : sub 2273323 P) (he : execTransformAssistResult a0 a1 s = .next t) : Within P s0 t := by
  unfold execTransformAssistResult at he; injection he with he; subst he
  repeat' (first | with_reducible assumption | exact sub_of rfl | with_reducible refine taResultAt_within ?_ (sub_trans ?_ hp))

theorem execElementResultWrite_within {P s0 s t a0 a1} (h : Within P s0 s) (hp : sub 2273323 P) (he : execElementResultWrite a0 a1 s = .next t) : Within P s0 t := by
  unfold execElementResultWrite at he; injection he with he; subst he
  repeat' (first | with_reducible assumption | exact sub_of rfl | with_reducible refine elementWriteAt_within ?_ (sub_trans ?_ hp))

theorem execCoreStoreLoadService_within {P s0 s t a0 a1 a2} (h : Within P s0 s) (hp : sub 2338943 P) (he : execCoreStoreLoadService a0 a1 a2 s = .next t) : Within P s0 t := by
  unfold execCoreStoreLoadService at he; injection he with he; subst he
  repeat' (first | with_reducible assumption | exact sub_of rfl | with_reducible refine memErr_within ?_ (sub_trans ?_ hp) | with_reducible refine loadServiceAt_within ?_ (sub_trans ?_ hp) | with_reducible refine Within.ite ?_ ?_ | (extract_lets +onlyGivenNames x; refine (fun (_ : Within P s0 x) => ?_) ?_; rotate_left; subst x; rotate_left; clear_value x) | (extract_lets +onlyGivenNames x; clear_value x) | split)

theorem execCoreStoreStoreService_within {P s0 s t a0 a1} (h : Within P s0 s) (hp : sub 2273323 P) (he : execCoreStoreStoreService a0 a1 s = .next t) : Within P s0 t := by
  unfold execCoreStoreStoreService at he; injection he with he; subst he
  repeat' (first | with_reducible assumption | exact sub_of rfl | with_reducible refine storeServiceAt_within ?_ (sub_trans ?_ hp))

theorem execLoadDataReturn_within {P s0 s t a0 a1 a2} (h : Within P s0 s) (hp : sub 2273387 P) (he : execLoadDataReturn a0 a1 a2 s = .next t) : Within P s0 t := by
  unfold execLoadDataReturn at he; injection he with he; subst he
  repeat' (first | with_reducible assumption | exact sub_of rfl | with_reducible refine loadReturnAt_within ?_ (sub_trans ?_ hp))

theorem execSegldComplete_within {P s0 s t a0 a1} (h : Within P s0 s) (hp : sub 2273323 P) (he : execSegldComplete a0 a1 s = .next t) : Within P s0 t := by
  unfold execSegldComplete at he; injection he with he; subst he
  repeat' (first | with_reducible assumption | exact sub_of rfl | with_reducible refine segldEndAt_within ?_ (sub_trans ?_ hp))

theorem execSignalAction_within {P s0 s t a0 a1} (h : Within P s0 s) (hp : sub 2273323 P) (he : execSignalAction a0 a1 s = .next t) : Within P s0 t := by
  unfold execSignalAction at he; injection he with he; subst he
  repeat' (first | with_reducible assumption | exact sub_of rfl | with_reducible refine signalAt_within ?_ (sub_trans ?_ hp))

theorem execBarrierComplete_within {P s0 s t a0 a1 a2} (h : Within P s0 s) (hp : sub 2273323 P) (he : execBarrierComplete a0 a1 a2 s = .next t) : Within P s0 t := by
  unfold execBarrierComplete at he; injection he with he; subst he
  repeat' (first | with_reducible assumption | exact sub_of rfl | with_reducible refine barrierAt_within ?_ (sub_trans ?_ hp))

end Sys2Proof.Machine
end

