-- ==== Sys2Proof/Laws/WithinEicRows.lean ====
section
/-! SUPPORT. What each operation of Machine/EicRows.lean may change (see Within.lean). -/

namespace Sys2Proof.Machine

theorem execEicClaim_within {P s0 s t a0 a1 a2} (h : Within P s0 s) (hp : sub 2113537 P) (he : execEicClaim a0 a1 a2 s = .next t) : Within P s0 t := by
  unfold execEicClaim at he; try dsimp only at he
  repeat' split at he
  all_goals (injection he with he; subst he; try dsimp only)
  all_goals repeat' (first | with_reducible assumption | exact sub_of rfl | with_reducible refine setEicStack_within ?_ (sub_trans ?_ hp) | with_reducible refine emit_within ?_ (sub_trans ?_ hp) | with_reducible refine setPendingBit_within ?_ (sub_trans ?_ hp))

theorem stackFault_within {P s0 s a1 a2 a3} (h : Within P s0 s) (hp : sub 151553 P) : Within P s0 (stackFault s a1 a2 a3) := by
  unfold stackFault
  repeat' (first | with_reducible assumption | exact sub_of rfl | with_reducible refine bump_within ?_ (sub_trans ?_ hp) | with_reducible refine dayEvent_within ?_ (sub_trans ?_ hp) | with_reducible refine regSet_within ?_ (sub_trans ?_ hp) | with_reducible refine raiseSrc_within ?_ (sub_trans ?_ hp) | with_reducible refine setEicStack_within ?_ (sub_trans ?_ hp) | with_reducible refine setPendingBit_within ?_ (sub_trans ?_ hp) | with_reducible refine Within.foldl ?_ (fun _ _ _ => ?_) | with_reducible refine Within.foldl_fst ?_ (fun _ _ _ => ?_) | (extract_lets +onlyGivenNames x; refine (fun (_ : Within P s0 x) => ?_) ?_; rotate_left; subst x; rotate_left; clear_value x) | (extract_lets +onlyGivenNames x; refine (fun (_ : Within P s0 x.1) => ?_) ?_; rotate_left; subst x; rotate_left; clear_value x) | (extract_lets +onlyGivenNames x; clear_value x) | split)

theorem execEicComplete_within {P s0 s t a0 a1 a2} (h : Within P s0 s) (hp : sub 151553 P) (he : execEicComplete a0 a1 a2 s = .next t) : Within P s0 t := by
  unfold execEicComplete at he; try dsimp only at he
  repeat' split at he
  all_goals (injection he with he; subst he; try dsimp only)
  all_goals repeat' (first | with_reducible assumption | exact sub_of rfl | with_reducible refine setEicStack_within ?_ (sub_trans ?_ hp) | with_reducible refine stackFault_within ?_ (sub_trans ?_ hp))

theorem execEicSwset_within {P s0 s t a0 a1 a2} (h : Within P s0 s) (hp : sub 131073 P) (he : execEicSwset a0 a1 a2 s = .next t) : Within P s0 t := by
  unfold execEicSwset at he; injection he with he; subst he
  repeat' (first | with_reducible assumption | exact sub_of rfl | with_reducible refine raiseSrc_within ?_ (sub_trans ?_ hp) | with_reducible refine Within.ite ?_ ?_ | split)

theorem execEicLock_within {P s0 s t a0 a1} (h : Within P s0 s) (hp : sub 1 P) (he : execEicLock a0 a1 s = .next t) : Within P s0 t := by
  unfold execEicLock at he; injection he with he; subst he
  repeat' (first | with_reducible assumption | exact sub_of rfl | with_reducible refine regSetFld_within ?_ (sub_trans ?_ hp) | with_reducible refine Within.ite ?_ ?_ | split)

theorem writeSrcCfg_within {P s0 s a1 a2 a3} (h : Within P s0 s) (hp : sub 1 P) : Within P s0 (writeSrcCfg s a1 a2 a3) := by
  unfold writeSrcCfg
  repeat' (first | with_reducible assumption | exact sub_of rfl | with_reducible refine regSet_within ?_ (sub_trans ?_ hp) | with_reducible refine Within.ite ?_ ?_ | split)

theorem execHubWake_within {P s0 s t a0} (h : Within P s0 s) (hp : sub 131072 P) (he : execHubWake a0 s = .next t) : Within P s0 t := by
  unfold execHubWake at he; injection he with he; subst he
  repeat' (first | with_reducible assumption | exact sub_of rfl | with_reducible refine Within.ite ?_ ?_ | with_reducible refine Within.upd_sched ?_ (sub_trans ?_ hp) | split)

end Sys2Proof.Machine
end

