-- ==== Sys2Proof/Laws/WithinFabric.lean ====
section
/-! SUPPORT. What each operation of Machine/Fabric.lean may change (see Within.lean). -/

namespace Sys2Proof.Machine

theorem execPortLockLoss_within {P s0 s t a0} (h : Within P s0 s) (hp : sub 131073 P) (he : execPortLockLoss a0 s = .next t) : Within P s0 t := by
  unfold execPortLockLoss at he; injection he with he; subst he
  repeat' (first | with_reducible assumption | exact sub_of rfl | with_reducible refine setPortState_within ?_ (sub_trans ?_ hp) | with_reducible refine bump_within ?_ (sub_trans ?_ hp) | with_reducible refine Within.ite ?_ ?_ | split)

theorem execPortTrainingEnd_within {P s0 s t a0 a1 a2} (h : Within P s0 s) (hp : sub 655361 P) (he : execPortTrainingEnd a0 a1 a2 s = .next t) : Within P s0 t := by
  unfold execPortTrainingEnd at he; injection he with he; subst he
  repeat' (first | with_reducible assumption | exact sub_of rfl | with_reducible refine modPort_within ?_ (sub_trans ?_ hp) | with_reducible refine portUp_within ?_ (sub_trans ?_ hp) | with_reducible refine portDown_within ?_ (sub_trans ?_ hp) | with_reducible refine Within.ite ?_ ?_ | split)

theorem execFlitTransmit_within {P s0 s t a0} (h : Within P s0 s) (hp : sub 2621440 P) (he : execFlitTransmit a0 s = .next t) : Within P s0 t := by
  unfold execFlitTransmit at he; injection he with he; subst he
  repeat' (first | with_reducible assumption | exact sub_of rfl | with_reducible refine transmit_within ?_ (sub_trans ?_ hp) | with_reducible refine Within.ite ?_ ?_ | split)

theorem execReplayTimeout_within {P s0 s t a0} (h : Within P s0 s) (hp : sub 655361 P) (he : execReplayTimeout a0 s = .next t) : Within P s0 t := by
  unfold execReplayTimeout at he; injection he with he; subst he
  repeat' (first | with_reducible assumption | exact sub_of rfl | with_reducible refine beginReplay_within ?_ (sub_trans ?_ hp) | with_reducible refine Within.ite ?_ ?_ | split)

theorem receiveAs_within {P s0 s a0 a2 a3 a4} (h : Within P s0 s) (hp : sub 524289 P) : Within P s0 (receiveAs a0 s a2 a3 a4).1 := by
  unfold receiveAs
  repeat' (first | with_reducible assumption | exact sub_of rfl | with_reducible refine receive_within ?_ (sub_trans ?_ hp) | with_reducible refine receive_within' ‹_› ?_ (sub_trans ?_ hp) | with_reducible refine Within.ite ?_ ?_ | split)
theorem receiveAs_within' {P s0 s t r a0 a2 a3 a4} (he : receiveAs a0 s a2 a3 a4 = (t, r)) (h : Within P s0 s) (hp : sub 524289 P) : Within P s0 t := by
  have k : Within P s0 (receiveAs a0 s a2 a3 a4).1 := receiveAs_within h hp
  rw [he] at k; exact k

theorem execIdle_within {P s0 s t a0 a1 a2} (h : Within P s0 s) (hp : sub 524289 P) (he : execIdle a0 a1 a2 s = .next t) : Within P s0 t := by
  unfold execIdle at he; injection he with he; subst he
  repeat' (first | with_reducible assumption | exact sub_of rfl | with_reducible refine receiveAs_within ?_ (sub_trans ?_ hp) | with_reducible refine receiveAs_within' ‹_› ?_ (sub_trans ?_ hp))

theorem execLnak_within {P s0 s t a0 a1 a2} (h : Within P s0 s) (hp : sub 655361 P) (he : execLnak a0 a1 a2 s = .next t) : Within P s0 t := by
  unfold execLnak at he; injection he with he; subst he
  repeat' (first | with_reducible assumption | exact sub_of rfl | with_reducible refine receiveAs_within ?_ (sub_trans ?_ hp) | with_reducible refine receiveAs_within' ‹_› ?_ (sub_trans ?_ hp) | with_reducible refine beginReplay_within ?_ (sub_trans ?_ hp) | with_reducible refine Within.ite ?_ ?_ | (extract_lets +onlyGivenNames x; refine (fun (_ : Within P s0 x) => ?_) ?_; rotate_left; subst x; rotate_left; clear_value x) | (extract_lets +onlyGivenNames x; refine (fun (_ : Within P s0 x.1) => ?_) ?_; rotate_left; subst x; rotate_left; clear_value x) | (extract_lets +onlyGivenNames x; clear_value x) | split)

theorem execTick_within {P s0 s t a0 a1 a2 a3} (h : Within P s0 s) (hp : sub 3871325 P) (he : execTick a0 a1 a2 a3 s = .next t) : Within P s0 t := by
  unfold execTick at he; injection he with he; subst he
  repeat' (first | with_reducible assumption | exact sub_of rfl | with_reducible refine receiveAs_within ?_ (sub_trans ?_ hp) | with_reducible refine receiveAs_within' ‹_› ?_ (sub_trans ?_ hp) | with_reducible refine acceptFlitTick_within ?_ (sub_trans ?_ hp) | with_reducible refine Within.ite ?_ ?_ | (extract_lets +onlyGivenNames x; refine (fun (_ : Within P s0 x) => ?_) ?_; rotate_left; subst x; rotate_left; clear_value x) | (extract_lets +onlyGivenNames x; refine (fun (_ : Within P s0 x.1) => ?_) ?_; rotate_left; subst x; rotate_left; clear_value x) | (extract_lets +onlyGivenNames x; clear_value x) | split)

theorem arriveFlit_within {P s0 s a1 a2} (h : Within P s0 s) (hp : sub 524289 P) : Within P s0 (arriveFlit s a1 a2).1 := by
  unfold arriveFlit
  repeat' (first | with_reducible assumption | exact sub_of rfl | with_reducible refine bump_within ?_ (sub_trans ?_ hp) | with_reducible refine forward_within ?_ (sub_trans ?_ hp) | with_reducible refine oweCredit_within ?_ (sub_trans ?_ hp) | with_reducible refine Within.ite ?_ ?_ | (extract_lets +onlyGivenNames x; refine (fun (_ : Within P s0 x) => ?_) ?_; rotate_left; subst x; rotate_left; clear_value x) | (extract_lets +onlyGivenNames x; clear_value x) | split)
theorem arriveFlit_within' {P s0 s t r a1 a2} (he : arriveFlit s a1 a2 = (t, r)) (h : Within P s0 s) (hp : sub 524289 P) : Within P s0 t := by
  have k : Within P s0 (arriveFlit s a1 a2).1 := arriveFlit_within h hp
  rw [he] at k; exact k

theorem wakeReceivers_within {P s0 s a1 a2} (h : Within P s0 s) (hp : sub 2798159 P) : Within P s0 (wakeReceivers s a1 a2) := by
  unfold wakeReceivers
  repeat' (first | with_reducible assumption | exact sub_of rfl | with_reducible refine claimMsg_within ?_ (sub_trans ?_ hp) | with_reducible refine Within.foldl ?_ (fun _ _ _ => ?_) | with_reducible refine Within.foldl_fst ?_ (fun _ _ _ => ?_))

theorem landMessage_within {P s0 s a1 a2 a3 a4} (h : Within P s0 s) (hp : sub 2798159 P) : Within P s0 (landMessage s a1 a2 a3 a4) := by
  unfold landMessage
  repeat' (first | with_reducible assumption | exact sub_of rfl | with_reducible refine bump_within ?_ (sub_trans ?_ hp) | with_reducible refine sendXctrl_within ?_ (sub_trans ?_ hp) | with_reducible refine pairSend_within ?_ (sub_trans ?_ hp) | with_reducible refine engineAccess_within ?_ (sub_trans ?_ hp) | with_reducible refine setPool_within ?_ (sub_trans ?_ hp) | with_reducible refine writeT_within ?_ (sub_trans ?_ hp) | with_reducible refine wakeReceivers_within ?_ (sub_trans ?_ hp) | with_reducible refine Within.ite ?_ ?_ | (extract_lets +onlyGivenNames x; refine (fun (_ : Within P s0 x) => ?_) ?_; rotate_left; subst x; rotate_left; clear_value x) | (extract_lets +onlyGivenNames x; clear_value x) | split)

theorem dropLanding_within {P s0 s a1 a2} (h : Within P s0 s) (hp : sub 2798159 P) : Within P s0 (dropLanding s a1 a2) := by
  unfold dropLanding
  repeat' (first | with_reducible assumption | exact sub_of rfl | with_reducible refine bump_within ?_ (sub_trans ?_ hp) | with_reducible refine setPool_within ?_ (sub_trans ?_ hp) | with_reducible refine failOp_within ?_ (sub_trans ?_ hp) | with_reducible refine Within.foldl ?_ (fun _ _ _ => ?_) | with_reducible refine Within.foldl_fst ?_ (fun _ _ _ => ?_) | with_reducible refine Within.upd_fab ?_ (sub_trans ?_ hp) | (extract_lets +onlyGivenNames x; refine (fun (_ : Within P s0 x) => ?_) ?_; rotate_left; subst x; rotate_left; clear_value x) | (extract_lets +onlyGivenNames x; clear_value x))

theorem landBytesAt_within {P s0 s a1 a2 a3 a4 a5} (h : Within P s0 s) (hp : sub 2798159 P) : Within P s0 (landBytesAt s a1 a2 a3 a4 a5) := by
  unfold landBytesAt
  repeat' (first | with_reducible assumption | exact sub_of rfl | with_reducible refine landMessage_within ?_ (sub_trans ?_ hp) | with_reducible refine setPool_within ?_ (sub_trans ?_ hp) | with_reducible refine dropLanding_within ?_ (sub_trans ?_ hp) | with_reducible refine Within.ite ?_ ?_ | split)

theorem ingress_within {P s0 s a1 a2} (h : Within P s0 s) (hp : sub 2798159 P) : Within P s0 (ingress s a1 a2) := by
  unfold ingress
  repeat' (first | with_reducible assumption | exact sub_of rfl | with_reducible refine bump_within ?_ (sub_trans ?_ hp) | with_reducible refine sendXctrl_within ?_ (sub_trans ?_ hp) | with_reducible refine landBytesAt_within ?_ (sub_trans ?_ hp) | with_reducible refine Within.ite ?_ ?_ | (extract_lets +onlyGivenNames x; refine (fun (_ : Within P s0 x) => ?_) ?_; rotate_left; subst x; rotate_left; clear_value x) | (extract_lets +onlyGivenNames x; clear_value x) | split)

theorem execData_within {P s0 s t a0 a1 a2} (h : Within P s0 s) (hp : sub 2798159 P) (he : execData a0 a1 a2 s = .next t) : Within P s0 t := by
  unfold execData at he; injection he with he; subst he
  repeat' (first | with_reducible assumption | exact sub_of rfl | with_reducible refine arriveFlit_within ?_ (sub_trans ?_ hp) | with_reducible refine arriveFlit_within' ‹_› ?_ (sub_trans ?_ hp) | with_reducible refine receiveAs_within ?_ (sub_trans ?_ hp) | with_reducible refine receiveAs_within' ‹_› ?_ (sub_trans ?_ hp) | with_reducible refine ingress_within ?_ (sub_trans ?_ hp) | with_reducible refine Within.ite ?_ ?_ | (extract_lets +onlyGivenNames x; refine (fun (_ : Within P s0 x) => ?_) ?_; rotate_left; subst x; rotate_left; clear_value x) | (extract_lets +onlyGivenNames x; refine (fun (_ : Within P s0 x.1) => ?_) ?_; rotate_left; subst x; rotate_left; clear_value x) | (extract_lets +onlyGivenNames x; clear_value x) | split)

theorem execMessageInputTimeout_within {P s0 s t a0 a1} (h : Within P s0 s) (hp : sub 2798159 P) (he : execMessageInputTimeout a0 a1 s = .next t) : Within P s0 t := by
  unfold execMessageInputTimeout at he; injection he with he; subst he
  repeat' (first | with_reducible assumption | exact sub_of rfl | with_reducible refine dropLanding_within ?_ (sub_trans ?_ hp) | split)

theorem receiveXctrl_within {P s0 s a0 a2 a3 a4} (h : Within P s0 s) (hp : sub 524289 P) : Within P s0 (receiveXctrl a0 s a2 a3 a4).1 := by
  unfold receiveXctrl
  repeat' (first | with_reducible assumption | exact sub_of rfl | with_reducible refine arriveFlit_within ?_ (sub_trans ?_ hp) | with_reducible refine arriveFlit_within' ‹_› ?_ (sub_trans ?_ hp) | with_reducible refine receiveAs_within ?_ (sub_trans ?_ hp) | with_reducible refine receiveAs_within' ‹_› ?_ (sub_trans ?_ hp) | with_reducible refine Within.ite ?_ ?_ | (extract_lets +onlyGivenNames x; refine (fun (_ : Within P s0 x) => ?_) ?_; rotate_left; subst x; rotate_left; clear_value x) | (extract_lets +onlyGivenNames x; refine (fun (_ : Within P s0 x.1) => ?_) ?_; rotate_left; subst x; rotate_left; clear_value x) | (extract_lets +onlyGivenNames x; clear_value x) | split)
theorem receiveXctrl_within' {P s0 s t r a0 a2 a3 a4} (he : receiveXctrl a0 s a2 a3 a4 = (t, r)) (h : Within P s0 s) (hp : sub 524289 P) : Within P s0 t := by
  have k : Within P s0 (receiveXctrl a0 s a2 a3 a4).1 := receiveXctrl_within h hp
  rw [he] at k; exact k

theorem execAck_within {P s0 s t a0 a1 a2} (h : Within P s0 s) (hp : sub 655945 P) (he : execAck a0 a1 a2 s = .next t) : Within P s0 t := by
  unfold execAck at he; injection he with he; subst he
  repeat' (first | with_reducible assumption | exact sub_of rfl | with_reducible refine receiveXctrl_within ?_ (sub_trans ?_ hp) | with_reducible refine receiveXctrl_within' ‹_› ?_ (sub_trans ?_ hp) | with_reducible refine sendAcked_within ?_ (sub_trans ?_ hp) | with_reducible refine Within.ite ?_ ?_ | (extract_lets +onlyGivenNames x; refine (fun (_ : Within P s0 x) => ?_) ?_; rotate_left; subst x; rotate_left; clear_value x) | (extract_lets +onlyGivenNames x; refine (fun (_ : Within P s0 x.1) => ?_) ?_; rotate_left; subst x; rotate_left; clear_value x) | (extract_lets +onlyGivenNames x; clear_value x) | split)

theorem setSend_within {P s0 s a1 a2} (h : Within P s0 s) (hp : sub 524288 P) : Within P s0 (setSend s a1 a2) := by
  unfold setSend
  repeat' (first | with_reducible assumption | exact sub_of rfl | with_reducible refine Within.ite ?_ ?_ | with_reducible refine Within.upd_fab ?_ (sub_trans ?_ hp) | split)

theorem nacked_within {P s0 s a1 a2} (h : Within P s0 s) (hp : sub 2798159 P) : Within P s0 (nacked s a1 a2) := by
  unfold nacked
  repeat' (first | with_reducible assumption | exact sub_of rfl | with_reducible refine setSend_within ?_ (sub_trans ?_ hp) | with_reducible refine resendMsg_within ?_ (sub_trans ?_ hp) | with_reducible refine sendFailed_within ?_ (sub_trans ?_ hp) | with_reducible refine Within.ite ?_ ?_ | split)

theorem execNack_within {P s0 s t a0 a1 a2} (h : Within P s0 s) (hp : sub 2798159 P) (he : execNack a0 a1 a2 s = .next t) : Within P s0 t := by
  unfold execNack at he; injection he with he; subst he
  repeat' (first | with_reducible assumption | exact sub_of rfl | with_reducible refine receiveXctrl_within ?_ (sub_trans ?_ hp) | with_reducible refine receiveXctrl_within' ‹_› ?_ (sub_trans ?_ hp) | with_reducible refine nacked_within ?_ (sub_trans ?_ hp) | with_reducible refine Within.ite ?_ ?_ | (extract_lets +onlyGivenNames x; refine (fun (_ : Within P s0 x) => ?_) ?_; rotate_left; subst x; rotate_left; clear_value x) | (extract_lets +onlyGivenNames x; refine (fun (_ : Within P s0 x.1) => ?_) ?_; rotate_left; subst x; rotate_left; clear_value x) | (extract_lets +onlyGivenNames x; clear_value x) | split)

theorem execAckTimeout_within {P s0 s t a0} (h : Within P s0 s) (hp : sub 2798159 P) (he : execAckTimeout a0 s = .next t) : Within P s0 t := by
  unfold execAckTimeout at he; injection he with he; subst he
  repeat' (first | with_reducible assumption | exact sub_of rfl | with_reducible refine sendFailed_within ?_ (sub_trans ?_ hp) | with_reducible refine Within.ite ?_ ?_ | split)

theorem execResendWaitExpiry_within {P s0 s t a0} (h : Within P s0 s) (hp : sub 2798159 P) (he : execResendWaitExpiry a0 s = .next t) : Within P s0 t := by
  unfold execResendWaitExpiry at he; injection he with he; subst he
  repeat' (first | with_reducible assumption | exact sub_of rfl | with_reducible refine resendMsg_within ?_ (sub_trans ?_ hp) | with_reducible refine sendFailed_within ?_ (sub_trans ?_ hp) | with_reducible refine Within.ite ?_ ?_ | split)

theorem execBusyRetryExpiry_within {P s0 s t a0} (h : Within P s0 s) (hp : sub 2798159 P) (he : execBusyRetryExpiry a0 s = .next t) : Within P s0 t := by
  unfold execBusyRetryExpiry at he; injection he with he; subst he
  repeat' (first | with_reducible assumption | exact sub_of rfl | with_reducible refine resendMsg_within ?_ (sub_trans ?_ hp) | with_reducible refine sendFailed_within ?_ (sub_trans ?_ hp) | with_reducible refine Within.ite ?_ ?_ | split)

theorem putRole_within {P s0 s a1 a2} (h : Within P s0 s) (hp : sub 2798159 P) : Within P s0 (putRole s a1 a2) := by
  unfold putRole
  repeat' (first | with_reducible assumption | exact sub_of rfl | with_reducible refine resendMsg_within ?_ (sub_trans ?_ hp) | with_reducible refine Within.foldl ?_ (fun _ _ _ => ?_) | with_reducible refine Within.foldl_fst ?_ (fun _ _ _ => ?_) | with_reducible refine Within.ite ?_ ?_ | with_reducible refine Within.upd_fab ?_ (sub_trans ?_ hp) | (extract_lets +onlyGivenNames x; refine (fun (_ : Within P s0 x) => ?_) ?_; rotate_left; subst x; rotate_left; clear_value x) | (extract_lets +onlyGivenNames x; refine (fun (_ : Within P s0 x.1) => ?_) ?_; rotate_left; subst x; rotate_left; clear_value x) | (extract_lets +onlyGivenNames x; clear_value x) | split)

theorem roleCommit_within {P s0 s} (h : Within P s0 s) (hp : sub 2798159 P) : Within P s0 (roleCommit s) := by
  unfold roleCommit
  repeat' (first | with_reducible assumption | exact sub_of rfl | with_reducible refine putRole_within ?_ (sub_trans ?_ hp) | with_reducible refine countOutcome_within ?_ (sub_trans ?_ hp) | with_reducible refine regSetFld_within ?_ (sub_trans ?_ hp) | with_reducible refine pairSend_within ?_ (sub_trans ?_ hp) | with_reducible refine Within.ite ?_ ?_ | (extract_lets +onlyGivenNames x; refine (fun (_ : Within P s0 x) => ?_) ?_; rotate_left; subst x; rotate_left; clear_value x) | (extract_lets +onlyGivenNames x; clear_value x) | split)

theorem roleRead_within {P s0 s} (h : Within P s0 s) (hp : sub 1 P) : Within P s0 (roleRead s) := by
  unfold roleRead
  repeat' (first | with_reducible assumption | exact sub_of rfl | with_reducible refine regSet_within ?_ (sub_trans ?_ hp) | (extract_lets +onlyGivenNames x; refine (fun (_ : Within P s0 x) => ?_) ?_; rotate_left; subst x; rotate_left; clear_value x) | (extract_lets +onlyGivenNames x; clear_value x))

end Sys2Proof.Machine
end

