-- ==== Sys2Proof/Laws/WithinKse.lean ====
section
/-! SUPPORT. What each operation of Machine/Kse.lean may change (see Within.lean). -/

namespace Sys2Proof.Machine

theorem modPass_within {P s0 s a1 a2} (h : Within P s0 s) (hp : sub 512 P) : Within P s0 (modPass s a1 a2) := by
  unfold modPass
  repeat' (first | with_reducible assumption | exact sub_of rfl | with_reducible refine Within.ite ?_ ?_ | with_reducible refine Within.upd_passes ?_ (sub_trans ?_ hp) | split)

theorem endStrides_within {P s0 s a1 a2} (h : Within P s0 s) (hp : sub 72 P) : Within P s0 (endStrides s a1 a2) := by
  unfold endStrides
  repeat' (first | with_reducible assumption | exact sub_of rfl | with_reducible refine modJob_within ?_ (sub_trans ?_ hp) | with_reducible refine modCore_within ?_ (sub_trans ?_ hp) | with_reducible refine Within.foldl ?_ (fun _ _ _ => ?_) | with_reducible refine Within.foldl_fst ?_ (fun _ _ _ => ?_) | (extract_lets +onlyGivenNames x; refine (fun (_ : Within P s0 x) => ?_) ?_; rotate_left; subst x; rotate_left; clear_value x) | (extract_lets +onlyGivenNames x; clear_value x) | split)

theorem failPass_within {P s0 s a1} (h : Within P s0 s) (hp : sub 2798159 P) : Within P s0 (failPass s a1) := by
  unfold failPass
  extract_lets mine t inserted
  have k : Within P s0 t := Within.upd_passes h (sub_trans (sub_of rfl) hp)
  clear_value t
  split
  · exact k
  · extract_lets m ops s1 s2 s3
    have k1 : Within P s0 s1 := endStrides_within k (sub_trans (sub_of rfl) hp)
    clear_value s1
    have k2 : Within P s0 s2 := modJob_within k1 (sub_trans (sub_of rfl) hp)
    clear_value s2
    have k3 : Within P s0 s3 := Within.ite (modJob_within k2 (sub_trans (sub_of rfl) hp)) k2
    clear_value s3
    exact Within.foldl k3 fun u n hu => failOp_within hu (sub_trans (sub_of rfl) hp)

theorem execKeyPassActivate_within {P s0 s t a0} (h : Within P s0 s) (hp : sub 2798175 P) (he : execKeyPassActivate a0 s = .next t) : Within P s0 t := by
  unfold execKeyPassActivate at he
  injection he with he
  subst he
  split
  · exact h
  · extract_lets room q xs dead s1 s2
    have k1 : Within P s0 s1 := modPass_within h (sub_trans (sub_of rfl) hp)
    clear_value s1
    have k2 : Within P s0 s2 := Within.ite (markKeyEntry_within k1 (sub_trans (sub_of rfl) hp)) k1
    clear_value s2
    split
    · exact h
    · split
      · exact requestNext_within (failPass_within h (sub_trans (sub_of rfl) hp)) (sub_trans (sub_of rfl) hp)
      · exact requestNext_within (Within.foldl k2 fun u n hu => updateHub_within hu (sub_trans (sub_of rfl) hp))
          (sub_trans (sub_of rfl) hp)

theorem sendSlice_within {P s0 s a1 a2} (h : Within P s0 s) (hp : sub 517 P) : Within P s0 (sendSlice s a1 a2) := by
  unfold sendSlice
  repeat' (first | with_reducible assumption | exact sub_of rfl | with_reducible refine pushReq_within ?_ (sub_trans ?_ hp) | with_reducible refine modPass_within ?_ (sub_trans ?_ hp) | with_reducible refine Within.foldl ?_ (fun _ _ _ => ?_) | with_reducible refine Within.foldl_fst ?_ (fun _ _ _ => ?_) | with_reducible refine Within.ite ?_ ?_ | (extract_lets +onlyGivenNames x; refine (fun (_ : Within P s0 x) => ?_) ?_; rotate_left; subst x; rotate_left; clear_value x) | (extract_lets +onlyGivenNames x; clear_value x) | split)

theorem serveBurst_within {P s0 s a1 a2 a3 a4 a5} (h : Within P s0 s) (hp : sub 2339423 P) : Within P s0 (serveBurst s a1 a2 a3 a4 a5) := by
  unfold serveBurst
  split
  extract_lets s1 s2 s3 s4 o s5
  have k1 : Within P s0 s1 := by
    subst s1
    split
    · exact engineAccess_within h (sub_trans (sub_of rfl) hp)
    · exact h
  clear_value s1
  have k2 : Within P s0 s2 := by
    subst s2
    split
    · refine Within.ite (markKeyEntry_within ?_ (sub_trans (sub_of rfl) hp)) ?_ <;>
        exact memErr_within k1 (sub_trans (sub_of rfl) hp)
    · exact k1
  clear_value s2
  have k3 : Within P s0 s3 := modPass_within k2 (sub_trans (sub_of rfl) hp)
  clear_value s3
  have k4 : Within P s0 s4 := Within.upd_kseTurn k3 (sub_trans (sub_of rfl) hp)
  clear_value s4
  have k5 : Within P s0 s5 := regSetPair_within k4 (sub_trans (sub_of rfl) hp)
  clear_value s5
  exact Within.ite (sendSlice_within k5 (sub_trans (sub_of rfl) hp)) k5

theorem execKeyBurst_within {P s0 s t a0} (h : Within P s0 s) (hp : sub 2339423 P) (he : execKeyBurst a0 s = .next t) : Within P s0 t := by
  unfold execKeyBurst at he; injection he with he; subst he
  repeat' (first | with_reducible assumption | exact sub_of rfl | with_reducible refine serveBurst_within ?_ (sub_trans ?_ hp) | with_reducible refine Within.ite ?_ ?_ | split)

theorem execKeySliceLanded_within {P s0 s t a0 a1} (h : Within P s0 s) (hp : sub 520 P) (he : execKeySliceLanded a0 a1 s = .next t) : Within P s0 t := by
  unfold execKeySliceLanded at he; injection he with he; subst he
  repeat' (first | with_reducible assumption | exact sub_of rfl | with_reducible refine engineInc_within ?_ (sub_trans ?_ hp) | with_reducible refine modPass_within ?_ (sub_trans ?_ hp) | with_reducible refine Within.ite ?_ ?_ | (extract_lets +onlyGivenNames x; refine (fun (_ : Within P s0 x) => ?_) ?_; rotate_left; subst x; rotate_left; clear_value x) | (extract_lets +onlyGivenNames x; clear_value x) | split)

theorem engineAdd_within {P s0 s a1 a2 a3} (h : Within P s0 s) (hp : sub 8 P) : Within P s0 (engineAdd s a1 a2 a3) := by
  unfold engineAdd
  repeat' (first | with_reducible assumption | exact sub_of rfl | with_reducible refine engineInc_within ?_ (sub_trans ?_ hp) | with_reducible refine Within.foldl ?_ (fun _ _ _ => ?_) | with_reducible refine Within.foldl_fst ?_ (fun _ _ _ => ?_))

theorem builtinPassEnd_within {P s0 s a1} (h : Within P s0 s) (hp : sub 72 P) : Within P s0 (builtinPassEnd s a1) := by
  unfold builtinPassEnd
  repeat' (first | with_reducible assumption | exact sub_of rfl | with_reducible refine modJob_within ?_ (sub_trans ?_ hp) | with_reducible refine engineAdd_within ?_ (sub_trans ?_ hp) | with_reducible refine Within.foldl ?_ (fun _ _ _ => ?_) | with_reducible refine Within.foldl_fst ?_ (fun _ _ _ => ?_) | with_reducible refine Within.ite ?_ ?_ | (extract_lets +onlyGivenNames x; refine (fun (_ : Within P s0 x) => ?_) ?_; rotate_left; subst x; rotate_left; clear_value x) | (extract_lets +onlyGivenNames x; clear_value x) | split)

theorem execKeyPassEnd_within {P s0 s t a0} (h : Within P s0 s) (hp : sub 131657 P) (he : execKeyPassEnd a0 s = .next t) : Within P s0 t := by
  have hu {x} : Within P s0 x → Within P s0 ((List.range nDies).foldl updateHub x) := fun k =>
    Within.foldl k fun u n hu => updateHub_within hu (sub_trans (sub_of rfl) hp)
  unfold execKeyPassEnd at he
  injection he with he
  subst he
  split
  · exact h
  · extract_lets s1 s2 s3 s4
    have k1 : Within P s0 s1 := Within.upd_passes h (sub_trans (sub_of rfl) hp)
    clear_value s1
    have k2 : Within P s0 s2 := bump_within k1 (sub_trans (sub_of rfl) hp)
    clear_value s2
    have k3 : Within P s0 s3 := modJob_within k2 (sub_trans (sub_of rfl) hp)
    clear_value s3
    have k4 : Within P s0 s4 := Within.ite (builtinPassEnd_within k3 (sub_trans (sub_of rfl) hp)) k3
    clear_value s4
    split
    · exact hu k1
    · split
      · exact h
      · exact advanceAll_within (requestNext_within (hu k4) (sub_trans (sub_of rfl) hp)) (sub_trans (sub_of rfl) hp)

end Sys2Proof.Machine
end

