-- ==== Sys2Proof/Laws/WithinMaint.lean ====
section
/-! SUPPORT. What each operation of Machine/Maint.lean may change (see Within.lean). -/

namespace Sys2Proof.Machine

theorem execMaintenanceActivityBegin_within {P s0 s t a0} (h : Within P s0 s) (hp : sub 720897 P) (he : execMaintenanceActivityBegin a0 s = .next t) : Within P s0 t := by
  unfold execMaintenanceActivityBegin at he; injection he with he; subst he; try dsimp only
  repeat' (first | with_reducible assumption | exact sub_of rfl | with_reducible refine portDown_within ?_ (sub_trans ?_ hp) | with_reducible refine bump_within ?_ (sub_trans ?_ hp) | split | with_reducible refine Within.upd_maint ?_ (sub_trans ?_ hp))

theorem retestEnd_within {P s0 s a1 a2} (h : Within P s0 s) (hp : sub 3062783 P) : Within P s0 (retestEnd s a1 a2) := by
  unfold retestEnd
  repeat' (first | with_reducible assumption | exact sub_of rfl | with_reducible refine fenceCore_within ?_ (sub_trans ?_ hp) | with_reducible refine fenceTile_within ?_ (sub_trans ?_ hp) | with_reducible refine Within.foldl ?_ (fun _ _ _ => ?_) | with_reducible refine Within.foldl_fst ?_ (fun _ _ _ => ?_) | with_reducible refine Within.ite ?_ ?_ | split)

theorem remapRow_within {P s0 s a0 a2} (h : Within P s0 s) (hp : sub 3062783 P) : Within P s0 (remapRow a0 s a2) := by
  unfold remapRow
  repeat' (first | with_reducible assumption | exact sub_of rfl | with_reducible refine spareReg_within ?_ (sub_trans ?_ hp) | with_reducible refine bump_within ?_ (sub_trans ?_ hp) | with_reducible refine writeField_within ?_ (sub_trans ?_ hp) | with_reducible refine fenceRow_within ?_ (sub_trans ?_ hp) | with_reducible refine Within.ite ?_ ?_ | (extract_lets +onlyGivenNames x; refine (fun (_ : Within P s0 x) => ?_) ?_; rotate_left; subst x; rotate_left; clear_value x) | (extract_lets +onlyGivenNames x; clear_value x) | split)

theorem remapEnd_within {P s0 s a1 a2} (h : Within P s0 s) (hp : sub 3062783 P) : Within P s0 (remapEnd s a1 a2) := by
  unfold remapEnd; try dsimp only
  repeat' (first | with_reducible assumption | exact sub_of rfl | with_reducible refine remapRow_within ?_ (sub_trans ?_ hp) | with_reducible refine bump_within ?_ (sub_trans ?_ hp) | with_reducible refine Within.foldl ?_ (fun _ _ _ => ?_) | split | with_reducible refine Within.upd_start ?_ (sub_trans ?_ hp) ?_ | exact id)

theorem activityEnd_within {P s0 s a1 a2} (h : Within P s0 s) (hp : sub 3128319 P) : Within P s0 (activityEnd s a1 a2).1 := by
  unfold activityEnd
  repeat' (first | with_reducible assumption | exact sub_of rfl | with_reducible refine portUp_within ?_ (sub_trans ?_ hp) | with_reducible refine markRetrain_within ?_ (sub_trans ?_ hp) | with_reducible refine retestEnd_within ?_ (sub_trans ?_ hp) | with_reducible refine remapEnd_within ?_ (sub_trans ?_ hp) | with_reducible refine Within.foldl ?_ (fun _ _ _ => ?_) | with_reducible refine Within.foldl_fst ?_ (fun _ _ _ => ?_) | with_reducible refine Within.elim ?_ (fun _ => ?_) | with_reducible refine Within.ite ?_ ?_ | (extract_lets +onlyGivenNames x; refine (fun (_ : Within P s0 x) => ?_) ?_; rotate_left; subst x; rotate_left; clear_value x) | (extract_lets +onlyGivenNames x; clear_value x) | split)
theorem activityEnd_within' {P s0 s t r a1 a2} (he : activityEnd s a1 a2 = (t, r)) (h : Within P s0 s) (hp : sub 3128319 P) : Within P s0 t := by
  have k : Within P s0 (activityEnd s a1 a2).1 := activityEnd_within h hp
  rw [he] at k; exact k

theorem execMaintenanceActivityEnd_within {P s0 s t a0 a1} (h : Within P s0 s) (hp : sub 3128319 P) (he : execMaintenanceActivityEnd a0 a1 s = .next t) : Within P s0 t := by
  unfold execMaintenanceActivityEnd at he; injection he with he; subst he
  repeat' (first | with_reducible assumption | exact sub_of rfl | with_reducible refine mntFinish_within ?_ (sub_trans ?_ hp) | with_reducible refine activityEnd_within ?_ (sub_trans ?_ hp) | with_reducible refine activityEnd_within' ‹_› ?_ (sub_trans ?_ hp) | with_reducible refine Within.ite ?_ ?_ | (extract_lets +onlyGivenNames x; refine (fun (_ : Within P s0 x) => ?_) ?_; rotate_left; subst x; rotate_left; clear_value x) | (extract_lets +onlyGivenNames x; refine (fun (_ : Within P s0 x.1) => ?_) ?_; rotate_left; subst x; rotate_left; clear_value x) | (extract_lets +onlyGivenNames x; clear_value x) | split)

theorem execMntIdleTimeout_within {P s0 s t a0} (h : Within P s0 s) (hp : sub 2822161 P) (he : execMntIdleTimeout a0 s = .next t) : Within P s0 t := by
  unfold execMntIdleTimeout at he; injection he with he; subst he
  repeat' (first | with_reducible assumption | exact sub_of rfl | with_reducible refine mntFinish_within ?_ (sub_trans ?_ hp) | with_reducible refine Within.ite ?_ ?_ | split)

theorem scrubStore_within {P s0 s a1 a2 a3 a4} (h : Within P s0 s) (hp : sub 2338911 P) : Within P s0 (scrubStore s a1 a2 a3 a4) := by
  unfold scrubStore
  repeat' (first | with_reducible assumption | exact sub_of rfl | with_reducible refine memErr_within ?_ (sub_trans ?_ hp) | with_reducible refine modCore_within ?_ (sub_trans ?_ hp) | with_reducible refine Within.ite ?_ ?_ | split)

theorem scrubBank_within {P s0 s a1 a2 a3 a4} (h : Within P s0 s) (hp : sub 2338903 P) : Within P s0 (scrubBank s a1 a2 a3 a4) := by
  unfold scrubBank
  repeat' (first | with_reducible assumption | exact sub_of rfl | with_reducible refine memErr_within ?_ (sub_trans ?_ hp) | with_reducible refine Within.ite ?_ ?_ | with_reducible refine Within.upd_bankScrub ?_ (sub_trans ?_ hp) | split)

theorem scrubDram_within {P s0 s a1 a2} (h : Within P s0 s) (hp : sub 2338903 P) : Within P s0 (scrubDram s a1 a2) := by
  unfold scrubDram
  repeat' (first | with_reducible assumption | exact sub_of rfl | with_reducible refine pushReq_within ?_ (sub_trans ?_ hp) | with_reducible refine memErr_within ?_ (sub_trans ?_ hp) | with_reducible refine Within.ite ?_ ?_ | with_reducible refine Within.upd_dramScrub ?_ (sub_trans ?_ hp) | (extract_lets +onlyGivenNames x; refine (fun (_ : Within P s0 x) => ?_) ?_; rotate_left; subst x; rotate_left; clear_value x) | (extract_lets +onlyGivenNames x; clear_value x) | split)

theorem execPatrolScrub_within {P s0 s t a0 a1} (h : Within P s0 s) (hp : sub 2338911 P) (he : execPatrolScrub a0 a1 s = .next t) : Within P s0 t := by
  unfold execPatrolScrub at he; injection he with he; subst he
  repeat' (first | with_reducible assumption | exact sub_of rfl | with_reducible refine scrubBank_within ?_ (sub_trans ?_ hp) | with_reducible refine scrubDram_within ?_ (sub_trans ?_ hp) | with_reducible refine scrubStore_within ?_ (sub_trans ?_ hp) | with_reducible refine Within.ite ?_ ?_ | (extract_lets +onlyGivenNames x; refine (fun (_ : Within P s0 x) => ?_) ?_; rotate_left; subst x; rotate_left; clear_value x) | (extract_lets +onlyGivenNames x; clear_value x) | split)

theorem execDramRefresh_within {P s0 s t a0} (h : Within P s0 s)  (he : execDramRefresh a0 s = .next t) : Within P s0 t := by
  unfold execDramRefresh at he; injection he with he; subst he
  repeat' (first | with_reducible assumption | exact sub_of rfl)

end Sys2Proof.Machine
end

