-- ==== Sys2Proof/Laws/WithinPair.lean ====
section
/-! SUPPORT. What each operation of Machine/Pair.lean may change (see Within.lean). -/

namespace Sys2Proof.Machine

theorem startSync_within {P s0 s} (h : Within P s0 s) (hp : sub 524289 P) : Within P s0 (startSync s) := by
  unfold startSync
  repeat' (first | with_reducible assumption | exact sub_of rfl | with_reducible refine setPairState_within ?_ (sub_trans ?_ hp) | with_reducible refine pairSend_within ?_ (sub_trans ?_ hp) | with_reducible refine Within.foldl ?_ (fun _ _ _ => ?_) | with_reducible refine Within.foldl_fst ?_ (fun _ _ _ => ?_) | with_reducible refine Within.upd_fab ?_ (sub_trans ?_ hp) | (extract_lets +onlyGivenNames x; refine (fun (_ : Within P s0 x) => ?_) ?_; rotate_left; subst x; rotate_left; clear_value x) | (extract_lets +onlyGivenNames x; refine (fun (_ : Within P s0 x.1) => ?_) ?_; rotate_left; subst x; rotate_left; clear_value x) | (extract_lets +onlyGivenNames x; clear_value x))

theorem settlePairPorts_within {P s0 s} (h : Within P s0 s) (hp : sub 131073 P) : Within P s0 (settlePairPorts s) := by
  unfold settlePairPorts
  repeat' (first | with_reducible assumption | exact sub_of rfl | with_reducible refine setPortState_within ?_ (sub_trans ?_ hp) | with_reducible refine Within.foldl ?_ (fun _ _ _ => ?_) | with_reducible refine Within.foldl_fst ?_ (fun _ _ _ => ?_) | with_reducible refine Within.ite ?_ ?_ | split)

theorem pairActivate_within {P s0 s} (h : Within P s0 s) (hp : sub 655361 P) : Within P s0 (pairActivate s) := by
  unfold pairActivate
  repeat' (first | with_reducible assumption | exact sub_of rfl | with_reducible refine setPairState_within ?_ (sub_trans ?_ hp) | with_reducible refine startSync_within ?_ (sub_trans ?_ hp) | with_reducible refine setJournal_within ?_ (sub_trans ?_ hp) | with_reducible refine settlePairPorts_within ?_ (sub_trans ?_ hp) | with_reducible refine Within.ite ?_ ?_ | with_reducible refine Within.upd_fab ?_ (sub_trans ?_ hp) | (extract_lets +onlyGivenNames x; refine (fun (_ : Within P s0 x) => ?_) ?_; rotate_left; subst x; rotate_left; clear_value x) | (extract_lets +onlyGivenNames x; clear_value x) | split)

theorem pairDeactivate_within {P s0 s} (h : Within P s0 s) (hp : sub 655361 P) : Within P s0 (pairDeactivate s) := by
  unfold pairDeactivate
  repeat' (first | with_reducible assumption | exact sub_of rfl | with_reducible refine setPairState_within ?_ (sub_trans ?_ hp) | with_reducible refine setJournal_within ?_ (sub_trans ?_ hp) | with_reducible refine settlePairPorts_within ?_ (sub_trans ?_ hp) | with_reducible refine Within.upd_fab ?_ (sub_trans ?_ hp))

theorem pairResync_within {P s0 s} (h : Within P s0 s) (hp : sub 524289 P) : Within P s0 (pairResync s) := by
  unfold pairResync
  repeat' (first | with_reducible assumption | exact sub_of rfl | with_reducible refine startSync_within ?_ (sub_trans ?_ hp) | with_reducible refine Within.ite ?_ ?_ | split)

theorem execPairResync_within {P s0 s t} (h : Within P s0 s) (hp : sub 524289 P) (he : execPairResync s = .next t) : Within P s0 t := by
  unfold execPairResync at he; injection he with he; subst he
  repeat' (first | with_reducible assumption | exact sub_of rfl | with_reducible refine pairResync_within ?_ (sub_trans ?_ hp))

theorem execPairMirrorDone_within {P s0 s t} (h : Within P s0 s) (hp : sub 1 P) (he : execPairMirrorDone s = .next t) : Within P s0 t := by
  unfold execPairMirrorDone at he; injection he with he; subst he
  repeat' (first | with_reducible assumption | exact sub_of rfl | with_reducible refine setPairState_within ?_ (sub_trans ?_ hp) | with_reducible refine Within.ite ?_ ?_ | (extract_lets +onlyGivenNames x; refine (fun (_ : Within P s0 x) => ?_) ?_; rotate_left; subst x; rotate_left; clear_value x) | (extract_lets +onlyGivenNames x; clear_value x) | split)

theorem rerunEntry_within {P s0 s a1} (h : Within P s0 s) (hp : sub 16 P) : Within P s0 (rerunEntry s a1) := by
  unfold rerunEntry
  repeat' (first | with_reducible assumption | exact sub_of rfl | with_reducible refine modFn_within ?_ (sub_trans ?_ hp) | (extract_lets +onlyGivenNames x; refine (fun (_ : Within P s0 x) => ?_) ?_; rotate_left; subst x; rotate_left; clear_value x) | (extract_lets +onlyGivenNames x; clear_value x))

theorem takeOver_within {P s0 s a1} (h : Within P s0 s) (hp : sub 2629649 P) : Within P s0 (takeOver s a1) := by
  unfold takeOver
  repeat' (first | with_reducible assumption | exact sub_of rfl | with_reducible refine rerunEntry_within ?_ (sub_trans ?_ hp) | with_reducible refine sendXctrl_within ?_ (sub_trans ?_ hp) | with_reducible refine takeoverOn_within ?_ (sub_trans ?_ hp) | with_reducible refine sbAlert_within ?_ (sub_trans ?_ hp) | with_reducible refine setJournal_within ?_ (sub_trans ?_ hp) | with_reducible refine Within.foldl ?_ (fun _ _ _ => ?_) | with_reducible refine Within.foldl_fst ?_ (fun _ _ _ => ?_) | with_reducible refine Within.ite ?_ ?_ | with_reducible refine Within.upd_fab ?_ (sub_trans ?_ hp) | (extract_lets +onlyGivenNames x; refine (fun (_ : Within P s0 x) => ?_) ?_; rotate_left; subst x; rotate_left; clear_value x) | (extract_lets +onlyGivenNames x; clear_value x) | split)

theorem pairTakeover_within {P s0 s} (h : Within P s0 s) (hp : sub 2629649 P) : Within P s0 (pairTakeover s) := by
  unfold pairTakeover
  repeat' (first | with_reducible assumption | exact sub_of rfl | with_reducible refine takeOver_within ?_ (sub_trans ?_ hp))

theorem execPairTakeoverWrite_within {P s0 s t} (h : Within P s0 s) (hp : sub 2629649 P) (he : execPairTakeoverWrite s = .next t) : Within P s0 t := by
  unfold execPairTakeoverWrite at he; injection he with he; subst he
  repeat' (first | with_reducible assumption | exact sub_of rfl | with_reducible refine pairTakeover_within ?_ (sub_trans ?_ hp))

theorem pairHandover_within {P s0 s} (h : Within P s0 s) (hp : sub 524289 P) : Within P s0 (pairHandover s) := by
  unfold pairHandover
  repeat' (first | with_reducible assumption | exact sub_of rfl | with_reducible refine handoverStep_within ?_ (sub_trans ?_ hp) | with_reducible refine Within.ite ?_ ?_ | with_reducible refine Within.upd_fab ?_ (sub_trans ?_ hp) | split)

theorem execPairHandover_within {P s0 s t} (h : Within P s0 s) (hp : sub 524289 P) (he : execPairHandover s = .next t) : Within P s0 t := by
  unfold execPairHandover at he; injection he with he; subst he
  repeat' (first | with_reducible assumption | exact sub_of rfl | with_reducible refine pairHandover_within ?_ (sub_trans ?_ hp))

theorem execHeartbeatMiss_within {P s0 s t} (h : Within P s0 s) (hp : sub 524289 P) (he : execHeartbeatMiss s = .next t) : Within P s0 t := by
  unfold execHeartbeatMiss at he; injection he with he; subst he
  repeat' (first | with_reducible assumption | exact sub_of rfl | with_reducible refine sendXctrl_within ?_ (sub_trans ?_ hp) | with_reducible refine Within.ite ?_ ?_ | with_reducible refine Within.upd_fab ?_ (sub_trans ?_ hp) | (extract_lets +onlyGivenNames x; refine (fun (_ : Within P s0 x) => ?_) ?_; rotate_left; subst x; rotate_left; clear_value x) | (extract_lets +onlyGivenNames x; clear_value x) | split)

theorem execProbeTimeout_within {P s0 s t} (h : Within P s0 s) (hp : sub 2629649 P) (he : execProbeTimeout s = .next t) : Within P s0 t := by
  unfold execProbeTimeout at he; injection he with he; subst he
  repeat' (first | with_reducible assumption | exact sub_of rfl | with_reducible refine takeOver_within ?_ (sub_trans ?_ hp) | with_reducible refine Within.ite ?_ ?_ | split)

theorem execProbe_within {P s0 s t a0 a1 a2} (h : Within P s0 s) (hp : sub 524289 P) (he : execProbe a0 a1 a2 s = .next t) : Within P s0 t := by
  unfold execProbe at he; injection he with he; subst he
  repeat' (first | with_reducible assumption | exact sub_of rfl | with_reducible refine receiveXctrl_within ?_ (sub_trans ?_ hp) | with_reducible refine receiveXctrl_within' ‹_› ?_ (sub_trans ?_ hp) | with_reducible refine setPairState_within ?_ (sub_trans ?_ hp) | with_reducible refine sendXctrl_within ?_ (sub_trans ?_ hp) | with_reducible refine Within.ite ?_ ?_ | (extract_lets +onlyGivenNames x; refine (fun (_ : Within P s0 x) => ?_) ?_; rotate_left; subst x; rotate_left; clear_value x) | (extract_lets +onlyGivenNames x; refine (fun (_ : Within P s0 x.1) => ?_) ?_; rotate_left; subst x; rotate_left; clear_value x) | (extract_lets +onlyGivenNames x; clear_value x) | split)

theorem execProbeAck_within {P s0 s t a0 a1 a2} (h : Within P s0 s) (hp : sub 524289 P) (he : execProbeAck a0 a1 a2 s = .next t) : Within P s0 t := by
  unfold execProbeAck at he; injection he with he; subst he
  repeat' (first | with_reducible assumption | exact sub_of rfl | with_reducible refine receiveXctrl_within ?_ (sub_trans ?_ hp) | with_reducible refine receiveXctrl_within' ‹_› ?_ (sub_trans ?_ hp) | with_reducible refine Within.ite ?_ ?_ | with_reducible refine Within.upd_fab ?_ (sub_trans ?_ hp) | (extract_lets +onlyGivenNames x; refine (fun (_ : Within P s0 x) => ?_) ?_; rotate_left; subst x; rotate_left; clear_value x) | (extract_lets +onlyGivenNames x; refine (fun (_ : Within P s0 x.1) => ?_) ?_; rotate_left; subst x; rotate_left; clear_value x) | (extract_lets +onlyGivenNames x; clear_value x) | split)

theorem fenceJob_within {P s0 s a1} (h : Within P s0 s) (hp : sub 3062783 P) : Within P s0 (fenceJob s a1) := by
  unfold fenceJob
  repeat' (first | with_reducible assumption | exact sub_of rfl | with_reducible refine finishJob_within ?_ (sub_trans ?_ hp) | with_reducible refine voidOutputs_within ?_ (sub_trans ?_ hp) | with_reducible refine addFail_within ?_ (sub_trans ?_ hp) | with_reducible refine pkeCancel_within ?_ (sub_trans ?_ hp) | (extract_lets +onlyGivenNames x; refine (fun (_ : Within P s0 x) => ?_) ?_; rotate_left; subst x; rotate_left; clear_value x) | (extract_lets +onlyGivenNames x; clear_value x))

theorem fenceFront_within {P s0 s} (h : Within P s0 s) (hp : sub 3062783 P) : Within P s0 (fenceFront s) := by
  unfold fenceFront
  repeat' (first | with_reducible assumption | exact sub_of rfl | with_reducible refine setPairState_within ?_ (sub_trans ?_ hp) | with_reducible refine portDown_within ?_ (sub_trans ?_ hp) | with_reducible refine fenceJob_within ?_ (sub_trans ?_ hp) | with_reducible refine Within.foldl ?_ (fun _ _ _ => ?_) | with_reducible refine Within.foldl_fst ?_ (fun _ _ _ => ?_) | (extract_lets +onlyGivenNames x; refine (fun (_ : Within P s0 x) => ?_) ?_; rotate_left; subst x; rotate_left; clear_value x) | (extract_lets +onlyGivenNames x; refine (fun (_ : Within P s0 x.1) => ?_) ?_; rotate_left; subst x; rotate_left; clear_value x) | (extract_lets +onlyGivenNames x; clear_value x))

theorem becomeFront_within {P s0 s} (h : Within P s0 s) (hp : sub 524289 P) : Within P s0 (becomeFront s) := by
  unfold becomeFront
  repeat' (first | with_reducible assumption | exact sub_of rfl | with_reducible refine regSetFld_within ?_ (sub_trans ?_ hp) | with_reducible refine setJournal_within ?_ (sub_trans ?_ hp) | with_reducible refine Within.upd_fab ?_ (sub_trans ?_ hp) | (extract_lets +onlyGivenNames x; refine (fun (_ : Within P s0 x) => ?_) ?_; rotate_left; subst x; rotate_left; clear_value x) | (extract_lets +onlyGivenNames x; clear_value x))

theorem execTakeover_within {P s0 s t a0 a1 a2} (h : Within P s0 s) (hp : sub 3062783 P) (he : execTakeover a0 a1 a2 s = .next t) : Within P s0 t := by
  unfold execTakeover at he; injection he with he; subst he
  repeat' (first | with_reducible assumption | exact sub_of rfl | with_reducible refine receiveXctrl_within ?_ (sub_trans ?_ hp) | with_reducible refine receiveXctrl_within' ‹_› ?_ (sub_trans ?_ hp) | with_reducible refine receiveAs_within ?_ (sub_trans ?_ hp) | with_reducible refine receiveAs_within' ‹_› ?_ (sub_trans ?_ hp) | with_reducible refine fenceFront_within ?_ (sub_trans ?_ hp) | with_reducible refine oweCredit_within ?_ (sub_trans ?_ hp) | with_reducible refine becomeFront_within ?_ (sub_trans ?_ hp) | with_reducible refine Within.ite ?_ ?_ | (extract_lets +onlyGivenNames x; refine (fun (_ : Within P s0 x) => ?_) ?_; rotate_left; subst x; rotate_left; clear_value x) | (extract_lets +onlyGivenNames x; refine (fun (_ : Within P s0 x.1) => ?_) ?_; rotate_left; subst x; rotate_left; clear_value x) | (extract_lets +onlyGivenNames x; clear_value x) | split)

theorem receivePair_within {P s0 s a0 a2 a3 a4} (h : Within P s0 s) (hp : sub 524289 P) : Within P s0 (receivePair a0 s a2 a3 a4).1 := by
  unfold receivePair; try dsimp only
  repeat' (first | with_reducible assumption | exact sub_of rfl | with_reducible refine oweCredit_within ?_ (sub_trans ?_ hp) | with_reducible refine receiveAs_within ?_ (sub_trans ?_ hp) | with_reducible refine receiveAs_within' (by assumption) ?_ (sub_trans ?_ hp) | split | with_reducible refine Within.upd_fab ?_ (sub_trans ?_ hp))
theorem receivePair_within' {P s0 s t r a0 a2 a3 a4} (he : receivePair a0 s a2 a3 a4 = (t, r)) (h : Within P s0 s) (hp : sub 524289 P) : Within P s0 t := by
  have := receivePair_within (a0 := a0) (a2 := a2) (a3 := a3) (a4 := a4) h hp; rw [he] at this; exact this

theorem pairRow_within {P s0 s t kind act p f good} (ha : ∀ s b, Within P s0 s → Within P s0 (act s b))
    (h : Within P s0 s) (hp : sub 524289 P) (he : pairRow kind act p f good s = .next t) : Within P s0 t := by
  unfold pairRow at he; injection he with he; subst he; dsimp only
  split
  · exact ha _ _ (receivePair_within h hp)
  · exact receivePair_within h hp

theorem notReady_within {P s0 s} (h : Within P s0 s) (hp : sub 1 P) : Within P s0 (notReady s) := by
  unfold notReady
  repeat' (first | with_reducible assumption | exact sub_of rfl | with_reducible refine setPairState_within ?_ (sub_trans ?_ hp))

theorem takeHeartbeat_within {P s0 s a1} (h : Within P s0 s) (hp : sub 524289 P) : Within P s0 (takeHeartbeat s a1) := by
  unfold takeHeartbeat
  repeat' (first | with_reducible assumption | exact sub_of rfl | with_reducible refine setPairState_within ?_ (sub_trans ?_ hp) | with_reducible refine setJournal_within ?_ (sub_trans ?_ hp) | with_reducible refine Within.ite ?_ ?_ | with_reducible refine Within.upd_fab ?_ (sub_trans ?_ hp) | (extract_lets +onlyGivenNames x; refine (fun (_ : Within P s0 x) => ?_) ?_; rotate_left; subst x; rotate_left; clear_value x) | (extract_lets +onlyGivenNames x; clear_value x) | split)

theorem execHeartbeat_within {P s0 s t a0 a1 a2} (h : Within P s0 s) (hp : sub 524289 P) (he : execHeartbeat a0 a1 a2 s = .next t) : Within P s0 t := by
  unfold execHeartbeat at he; refine pairRow_within (fun _ _ _ => ?_) h (sub_trans (sub_of rfl) hp) he
  repeat' (first | with_reducible assumption | exact sub_of rfl | with_reducible refine takeHeartbeat_within ?_ (sub_trans ?_ hp))

theorem applyRow_within {P s0 s t a0 a1 a2 a3} (h : Within P s0 s) (hp : sub 3063551 P) (he : applyRow a0 a1 a2 a3 s = .next t) : Within P s0 t := by
  unfold applyRow at he
  repeat' split at he
  all_goals first
    | exact execLoadParams_within h (sub_trans (sub_of rfl) hp) he
    | exact execLoadKeys_within h (sub_trans (sub_of rfl) hp) he
    | exact execLoadModel_within h (sub_trans (sub_of rfl) hp) he
    | exact execFreeBuffer_within h (sub_trans (sub_of rfl) hp) he
    | exact execFreeSlot_within h (sub_trans (sub_of rfl) hp) he
    | exact execAlloc_within h (sub_trans (sub_of rfl) hp) he
    | exact execSectorForm_within h (sub_trans (sub_of rfl) hp) he
    | exact execSectorRelease_within h (sub_trans (sub_of rfl) hp) he
    | exact execSetQuota_within h (sub_trans (sub_of rfl) hp) he
    | exact execSetExpert_within h (sub_trans (sub_of rfl) hp) he
    | (injection he with he; subst he; exact h)

theorem applyDesc_within {P s0 s a1} (h : Within P s0 s) (hp : sub 3063551 P) : Within P s0 (applyDesc s a1) := by
  unfold applyDesc; try dsimp only
  repeat' (first | with_reducible assumption | exact sub_of rfl | with_reducible refine modFn_within ?_ (sub_trans ?_ hp) | with_reducible refine applyRow_within ?_ (sub_trans ?_ hp) (by assumption) | split | with_reducible refine Within.upd_xfers_xferSeq ?_ (sub_trans ?_ hp))

theorem applyBuf_within {P s0 s a1} (h : Within P s0 s) (hp : sub 2273299 P) : Within P s0 (applyBuf s a1) := by
  unfold applyBuf
  repeat' (first | with_reducible assumption | exact sub_of rfl | with_reducible refine modFn_within ?_ (sub_trans ?_ hp) | with_reducible refine memRegs_within ?_ (sub_trans ?_ hp) | with_reducible refine writeT_within ?_ (sub_trans ?_ hp) | with_reducible refine Within.ite ?_ ?_ | (extract_lets +onlyGivenNames x; refine (fun (_ : Within P s0 x) => ?_) ?_; rotate_left; subst x; rotate_left; clear_value x) | (extract_lets +onlyGivenNames x; clear_value x) | split)

theorem applyParam_within {P s0 s a1} (h : Within P s0 s) (hp : sub 133307 P) : Within P s0 (applyParam s a1) := by
  unfold applyParam
  repeat' (first | with_reducible assumption | exact sub_of rfl | with_reducible refine hbmRegs_within ?_ (sub_trans ?_ hp) | with_reducible refine notReady_within ?_ (sub_trans ?_ hp) | with_reducible refine setParam_within ?_ (sub_trans ?_ hp) | with_reducible refine emptySlot_within ?_ (sub_trans ?_ hp) | with_reducible refine paramRegs_within ?_ (sub_trans ?_ hp) | with_reducible refine takeHbm_within ‹_› ?_ (sub_trans ?_ hp) | with_reducible refine setBytes_within ?_ (sub_trans ?_ hp) | with_reducible refine Within.foldl ?_ (fun _ _ _ => ?_) | with_reducible refine Within.foldl_fst ?_ (fun _ _ _ => ?_) | with_reducible refine Within.ite ?_ ?_ | (extract_lets +onlyGivenNames x; refine (fun (_ : Within P s0 x) => ?_) ?_; rotate_left; subst x; rotate_left; clear_value x) | (extract_lets +onlyGivenNames x; clear_value x) | split)

theorem applySector_within {P s0 s a1} (h : Within P s0 s) (hp : sub 131113 P) : Within P s0 (applySector s a1) := by
  unfold applySector
  repeat' (first | with_reducible assumption | exact sub_of rfl | with_reducible refine notReady_within ?_ (sub_trans ?_ hp) | with_reducible refine bindCores_within ?_ (sub_trans ?_ hp) | with_reducible refine resetSectorPwr_within ?_ (sub_trans ?_ hp) | with_reducible refine updateSector_within ?_ (sub_trans ?_ hp) | with_reducible refine setSector_within ?_ (sub_trans ?_ hp) | with_reducible refine Within.ite ?_ ?_ | (extract_lets +onlyGivenNames x; refine (fun (_ : Within P s0 x) => ?_) ?_; rotate_left; subst x; rotate_left; clear_value x) | (extract_lets +onlyGivenNames x; clear_value x) | split)

theorem applyRole_within {P s0 s a1} (h : Within P s0 s) (hp : sub 2798159 P) : Within P s0 (applyRole s a1) := by
  unfold applyRole
  repeat' (first | with_reducible assumption | exact sub_of rfl | with_reducible refine putRole_within ?_ (sub_trans ?_ hp) | with_reducible refine notReady_within ?_ (sub_trans ?_ hp) | with_reducible refine Within.ite ?_ ?_ | (extract_lets +onlyGivenNames x; refine (fun (_ : Within P s0 x) => ?_) ?_; rotate_left; subst x; rotate_left; clear_value x) | (extract_lets +onlyGivenNames x; clear_value x) | split)

theorem takeState_within {P s0 s a1} (h : Within P s0 s) (hp : sub 3063551 P) : Within P s0 (takeState s a1) := by
  unfold takeState
  repeat' (first | with_reducible assumption | exact sub_of rfl | with_reducible refine applyDesc_within ?_ (sub_trans ?_ hp) | with_reducible refine applyRole_within ?_ (sub_trans ?_ hp) | with_reducible refine applySector_within ?_ (sub_trans ?_ hp) | with_reducible refine applyParam_within ?_ (sub_trans ?_ hp) | with_reducible refine applyBuf_within ?_ (sub_trans ?_ hp) | split)

theorem execState_within {P s0 s t a0 a1 a2} (h : Within P s0 s) (hp : sub 3063551 P) (he : execState a0 a1 a2 s = .next t) : Within P s0 t := by
  unfold execState at he; refine pairRow_within (fun _ _ _ => ?_) h (sub_trans (sub_of rfl) hp) he
  repeat' (first | with_reducible assumption | exact sub_of rfl | with_reducible refine takeState_within ?_ (sub_trans ?_ hp))

theorem execJournal_within {P s0 s t a0 a1 a2} (h : Within P s0 s) (hp : sub 524289 P) (he : execJournal a0 a1 a2 s = .next t) : Within P s0 t := by
  unfold execJournal at he; refine pairRow_within (fun _ _ _ => ?_) h (sub_trans (sub_of rfl) hp) he
  repeat' (first | with_reducible assumption | exact sub_of rfl | with_reducible refine setJournal_within ?_ (sub_trans ?_ hp) | with_reducible refine notReady_within ?_ (sub_trans ?_ hp) | with_reducible refine Within.ite ?_ ?_)

theorem execMirror_within {P s0 s t a0 a1 a2} (h : Within P s0 s) (hp : sub 2797571 P) (he : execMirror a0 a1 a2 s = .next t) : Within P s0 t := by
  unfold execMirror at he; refine pairRow_within (fun _ _ _ => ?_) h (sub_trans (sub_of rfl) hp) he
  dsimp only
  repeat' (first | with_reducible assumption | exact sub_of rfl | with_reducible refine writeT_within ?_ (sub_trans ?_ hp) | with_reducible refine notReady_within ?_ (sub_trans ?_ hp) | with_reducible refine Within.ite ?_ ?_)

theorem execCommit_within {P s0 s t a0 a1 a2} (h : Within P s0 s) (hp : sub 524289 P) (he : execCommit a0 a1 a2 s = .next t) : Within P s0 t := by
  unfold execCommit at he; refine pairRow_within (fun _ _ _ => ?_) h (sub_trans (sub_of rfl) hp) he
  dsimp only
  repeat' (first | with_reducible assumption | exact sub_of rfl | with_reducible refine setJournal_within ?_ (sub_trans ?_ hp) | with_reducible refine Within.upd_fab ?_ (sub_trans ?_ hp))

theorem execDigest_within {P s0 s t a0 a1 a2} (h : Within P s0 s) (hp : sub 2633729 P) (he : execDigest a0 a1 a2 s = .next t) : Within P s0 t := by
  unfold execDigest at he; refine pairRow_within (fun _ _ _ => ?_) h (sub_trans (sub_of rfl) hp) he
  dsimp only
  repeat' (first | with_reducible assumption | exact sub_of rfl | with_reducible refine dayEvent_within ?_ (sub_trans ?_ hp) | with_reducible refine notReady_within ?_ (sub_trans ?_ hp) | with_reducible refine sbAlert_within ?_ (sub_trans ?_ hp) | with_reducible refine bump_within ?_ (sub_trans ?_ hp) | with_reducible refine Within.ite ?_ ?_ | with_reducible refine Within.upd_fab ?_ (sub_trans ?_ hp))

end Sys2Proof.Machine
end

