-- ==== Sys2Proof/Laws/WithinRegAccess.lean ====
section
/-! SUPPORT. What each operation of Machine/RegAccess.lean may change (see Within.lean). -/

namespace Sys2Proof.Machine

theorem readReg_within {P s0 s a1 a2 a3} (h : Within P s0 s) (hp : sub 1 P) : Within P s0 (readReg s a1 a2 a3).2 := by
  unfold readReg; try dsimp only
  repeat' (first | with_reducible assumption | exact sub_of rfl | with_reducible refine bumpN_within ?_ (sub_trans ?_ hp) | with_reducible refine regSet_within ?_ (sub_trans ?_ hp) | split | with_reducible refine Within.upd_shadows ?_ (sub_trans ?_ hp))
theorem readReg_within' {P s0 s t r a1 a2 a3} (he : readReg s a1 a2 a3 = (r, t)) (h : Within P s0 s) (hp : sub 1 P) : Within P s0 t := by
  have := readReg_within (a1 := a1) (a2 := a2) (a3 := a3) h hp; rw [he] at this; exact this

theorem writeFields_within {P s0 s a1 a2 a3} (h : Within P s0 s) (hp : sub 1 P) : Within P s0 (writeFields s a1 a2 a3) := by
  unfold writeFields; try dsimp only
  repeat' (first | with_reducible assumption | exact sub_of rfl | with_reducible refine regSet_within ?_ (sub_trans ?_ hp) | split | with_reducible refine Within.upd_holds ?_ (sub_trans ?_ hp))

theorem badAccess_within {P s0 s a1} (h : Within P s0 s) (hp : sub 1 P) : Within P s0 (badAccess s a1) := by
  unfold badAccess
  repeat' (first | with_reducible assumption | exact sub_of rfl | with_reducible refine regSetFld_within ?_ (sub_trans ?_ hp) | with_reducible refine Within.ite ?_ ?_ | split)

end Sys2Proof.Machine
end

