-- ==== Sys2Proof/Laws/WithinSecRows.lean ====
section
/-! SUPPORT. What each operation of Machine/SecRows.lean may change (see Within.lean). -/

namespace Sys2Proof.Machine

theorem pkeDrop_within {P s0 s a1} (h : Within P s0 s) (hp : sub 262144 P) : Within P s0 (pkeDrop s a1) := by
  unfold pkeDrop
  repeat' (first | with_reducible assumption | exact sub_of rfl | with_reducible refine Within.upd_pke ?_ (sub_trans ?_ hp))

theorem pkeEnded_within {P s0 s a1} (h : Within P s0 s) (hp : sub 393217 P) : Within P s0 (pkeEnded s a1) := by
  unfold pkeEnded
  repeat' (first | with_reducible assumption | exact sub_of rfl | with_reducible refine bump_within ?_ (sub_trans ?_ hp) | with_reducible refine raiseSrc_within ?_ (sub_trans ?_ hp) | with_reducible refine pkeDrop_within ?_ (sub_trans ?_ hp))

theorem execPkeYield_within {P s0 s t a0} (h : Within P s0 s) (hp : sub 393217 P) (he : execPkeYield a0 s = .next t) : Within P s0 t := by
  unfold execPkeYield at he
  injection he with he
  subst he
  split
  · exact h
  · split
    · exact h
    · extract_lets j1 _ s1
      have k1 : Within P s0 s1 := Within.upd_pke h (sub_trans (sub_of rfl) hp)
      clear_value s1
      split
      · exact pkeNext_within (pkeEnded_within h (sub_trans (sub_of rfl) hp)) (sub_trans (sub_of rfl) hp)
      · split
        · split
          · refine pkeNext_within (pkeRun_within (bump_within k1 ?_) ?_) ?_ <;> exact sub_trans (sub_of rfl) hp
          · exact k1
        · exact k1

theorem execPkeJobEnd_within {P s0 s t a0 a1} (h : Within P s0 s) (hp : sub 397393 P) (he : execPkeJobEnd a0 a1 s = .next t) : Within P s0 t := by
  unfold execPkeJobEnd at he
  injection he with he
  subst he
  split
  · exact h
  · split
    · exact h
    · extract_lets _ signs fails s1 s2
      have k1 : Within P s0 s1 := pkeEnded_within h (sub_trans (sub_of rfl) hp)
      clear_value s1
      have k2 : Within P s0 s2 :=
        Within.ite (dayEvent_within (bump_within k1 (sub_trans (sub_of rfl) hp)) (sub_trans (sub_of rfl) hp)) k1
      clear_value s2
      split
      · exact bump_within (Within.upd_pke h (sub_trans (sub_of rfl) hp)) (sub_trans (sub_of rfl) hp)
      · exact pkeNext_within (secDone_within k2 (sub_trans (sub_of rfl) hp)) (sub_trans (sub_of rfl) hp)

theorem execDrbgHealthFail_within {P s0 s t a0} (h : Within P s0 s) (hp : sub 266321 P) (he : execDrbgHealthFail a0 s = .next t) : Within P s0 t := by
  unfold execDrbgHealthFail at he; injection he with he; subst he
  repeat' (first | with_reducible assumption | exact sub_of rfl | with_reducible refine regSetFld_within ?_ (sub_trans ?_ hp) | with_reducible refine dayEvent_within ?_ (sub_trans ?_ hp) | with_reducible refine secDone_within ?_ (sub_trans ?_ hp) | with_reducible refine Within.foldl ?_ (fun _ _ _ => ?_) | with_reducible refine Within.foldl_fst ?_ (fun _ _ _ => ?_) | with_reducible refine Within.upd_pke ?_ (sub_trans ?_ hp) | (extract_lets +onlyGivenNames x; refine (fun (_ : Within P s0 x) => ?_) ?_; rotate_left; subst x; rotate_left; clear_value x) | (extract_lets +onlyGivenNames x; clear_value x))

theorem execHashLaneDigestDone_within {P s0 s t a0} (h : Within P s0 s) (hp : sub 262225 P) (he : execHashLaneDigestDone a0 s = .next t) : Within P s0 t := by
  unfold execHashLaneDigestDone at he; injection he with he; subst he; try dsimp only
  repeat' (first | with_reducible assumption | exact sub_of rfl | with_reducible refine secDone_within ?_ (sub_trans ?_ hp) | with_reducible refine hashAssign_within ?_ (sub_trans ?_ hp) | split | with_reducible refine Within.upd_pke ?_ (sub_trans ?_ hp))

theorem curveResult_within {P s0 s a1} (h : Within P s0 s) (hp : sub 1 P) : Within P s0 (curveResult s a1) := by
  unfold curveResult
  repeat' (first | with_reducible assumption | exact sub_of rfl | with_reducible refine regSetFld_within ?_ (sub_trans ?_ hp))

theorem curveLoad_within {P s0 s a1} (h : Within P s0 s) (hp : sub 262225 P) : Within P s0 (curveLoad s a1) := by
  unfold curveLoad
  repeat' (first | with_reducible assumption | exact sub_of rfl | with_reducible refine pkeSubmit_within ?_ (sub_trans ?_ hp) | with_reducible refine regSetFld_within ?_ (sub_trans ?_ hp) | with_reducible refine curveResult_within ?_ (sub_trans ?_ hp) | with_reducible refine Within.ite ?_ ?_ | with_reducible refine Within.upd_pke ?_ (sub_trans ?_ hp) | (extract_lets +onlyGivenNames x; refine (fun (_ : Within P s0 x) => ?_) ?_; rotate_left; subst x; rotate_left; clear_value x) | (extract_lets +onlyGivenNames x; clear_value x) | split)

theorem curveClear_within {P s0 s a1} (h : Within P s0 s) (hp : sub 262145 P) : Within P s0 (curveClear s a1) := by
  unfold curveClear
  repeat' (first | with_reducible assumption | exact sub_of rfl | with_reducible refine regSetFld_within ?_ (sub_trans ?_ hp) | with_reducible refine curveResult_within ?_ (sub_trans ?_ hp) | with_reducible refine Within.ite ?_ ?_ | with_reducible refine Within.upd_pke ?_ (sub_trans ?_ hp) | split)

theorem curveRead_within {P s0 s a1} (h : Within P s0 s) (hp : sub 1 P) : Within P s0 (curveRead s a1) := by
  unfold curveRead
  repeat' (first | with_reducible assumption | exact sub_of rfl | with_reducible refine regSet_within ?_ (sub_trans ?_ hp) | with_reducible refine Within.foldl ?_ (fun _ _ _ => ?_) | with_reducible refine Within.foldl_fst ?_ (fun _ _ _ => ?_) | with_reducible refine Within.ite ?_ ?_ | split)

theorem execCurveLoad_within {P s0 s t a0} (h : Within P s0 s) (hp : sub 262225 P) (he : execCurveLoad a0 s = .next t) : Within P s0 t := by
  unfold execCurveLoad at he; injection he with he; subst he
  repeat' (first | with_reducible assumption | exact sub_of rfl | with_reducible refine curveLoad_within ?_ (sub_trans ?_ hp))

theorem execCurveClear_within {P s0 s t a0} (h : Within P s0 s) (hp : sub 262145 P) (he : execCurveClear a0 s = .next t) : Within P s0 t := by
  unfold execCurveClear at he; injection he with he; subst he
  repeat' (first | with_reducible assumption | exact sub_of rfl | with_reducible refine curveClear_within ?_ (sub_trans ?_ hp))

theorem execCurveRead_within {P s0 s t a0} (h : Within P s0 s) (hp : sub 1 P) (he : execCurveRead a0 s = .next t) : Within P s0 t := by
  unfold execCurveRead at he; injection he with he; subst he
  repeat' (first | with_reducible assumption | exact sub_of rfl | with_reducible refine curveRead_within ?_ (sub_trans ?_ hp))

theorem execCurveCheckEnd_within {P s0 s t} (h : Within P s0 s) (hp : sub 262145 P) (he : execCurveCheckEnd s = .next t) : Within P s0 t := by
  unfold execCurveCheckEnd at he; injection he with he; subst he; try dsimp only
  repeat' (first | with_reducible assumption | exact sub_of rfl | with_reducible refine curveResult_within ?_ (sub_trans ?_ hp) | with_reducible refine regSetFld_within ?_ (sub_trans ?_ hp) | split | with_reducible refine Within.upd_pke ?_ (sub_trans ?_ hp))

theorem setSigner_within {P s0 s a1 a2 a3} (h : Within P s0 s) (hp : sub 17 P) : Within P s0 (setSigner s a1 a2 a3) := by
  unfold setSigner
  repeat' (first | with_reducible assumption | exact sub_of rfl | with_reducible refine modFn_within ?_ (sub_trans ?_ hp) | with_reducible refine regSetFld_within ?_ (sub_trans ?_ hp) | with_reducible refine Within.ite ?_ ?_ | (extract_lets +onlyGivenNames x; refine (fun (_ : Within P s0 x) => ?_) ?_; rotate_left; subst x; rotate_left; clear_value x) | (extract_lets +onlyGivenNames x; clear_value x) | split)

theorem signerWrite_within {P s0 s a1 a2} (h : Within P s0 s) (hp : sub 17 P) : Within P s0 (signerWrite s a1 a2) := by
  unfold signerWrite
  repeat' (first | with_reducible assumption | exact sub_of rfl | with_reducible refine regSetFld_within ?_ (sub_trans ?_ hp) | with_reducible refine setSigner_within ?_ (sub_trans ?_ hp) | with_reducible refine Within.ite ?_ ?_ | (extract_lets +onlyGivenNames x; refine (fun (_ : Within P s0 x) => ?_) ?_; rotate_left; subst x; rotate_left; clear_value x) | (extract_lets +onlyGivenNames x; clear_value x) | split)

theorem signerClear_within {P s0 s a1 a2} (h : Within P s0 s) (hp : sub 17 P) : Within P s0 (signerClear s a1 a2) := by
  unfold signerClear
  repeat' (first | with_reducible assumption | exact sub_of rfl | with_reducible refine regSetFld_within ?_ (sub_trans ?_ hp) | with_reducible refine setSigner_within ?_ (sub_trans ?_ hp) | with_reducible refine Within.ite ?_ ?_ | split)

theorem signerRead_within {P s0 s a1 a2} (h : Within P s0 s) (hp : sub 1 P) : Within P s0 (signerRead s a1 a2) := by
  unfold signerRead
  repeat' (first | with_reducible assumption | exact sub_of rfl | with_reducible refine regSetFld_within ?_ (sub_trans ?_ hp) | with_reducible refine regSet_within ?_ (sub_trans ?_ hp) | with_reducible refine Within.foldl ?_ (fun _ _ _ => ?_) | with_reducible refine Within.foldl_fst ?_ (fun _ _ _ => ?_) | with_reducible refine Within.ite ?_ ?_ | (extract_lets +onlyGivenNames x; refine (fun (_ : Within P s0 x) => ?_) ?_; rotate_left; subst x; rotate_left; clear_value x) | (extract_lets +onlyGivenNames x; clear_value x) | split)

theorem execSignerWrite_within {P s0 s t a0 a1} (h : Within P s0 s) (hp : sub 17 P) (he : execSignerWrite a0 a1 s = .next t) : Within P s0 t := by
  unfold execSignerWrite at he; injection he with he; subst he
  repeat' (first | with_reducible assumption | exact sub_of rfl | with_reducible refine signerWrite_within ?_ (sub_trans ?_ hp))

theorem execSignerClear_within {P s0 s t a0 a1} (h : Within P s0 s) (hp : sub 17 P) (he : execSignerClear a0 a1 s = .next t) : Within P s0 t := by
  unfold execSignerClear at he; injection he with he; subst he
  repeat' (first | with_reducible assumption | exact sub_of rfl | with_reducible refine signerClear_within ?_ (sub_trans ?_ hp))

theorem execSignerRead_within {P s0 s t a0 a1} (h : Within P s0 s) (hp : sub 1 P) (he : execSignerRead a0 a1 s = .next t) : Within P s0 t := by
  unfold execSignerRead at he; injection he with he; subst he
  repeat' (first | with_reducible assumption | exact sub_of rfl | with_reducible refine signerRead_within ?_ (sub_trans ?_ hp))

end Sys2Proof.Machine
end

