-- ==== Sys2Proof/Laws/WithinRegHooks.lean ====
section
/-! SUPPORT. What each operation of Machine/RegHooks.lean may change (see Within.lean). -/

namespace Sys2Proof.Machine

theorem after_within {P s0 o s} (h : Within P s0 s) (ho : ∀ t, o = .next t → Within P s0 t) : Within P s0 (after o s) := by
  unfold after
  split
  · exact ho _ rfl
  · exact h

theorem policyWrite_within {P s0 s a1 a2} (h : Within P s0 s) (hp : sub 1 P) : Within P s0 (policyWrite s a1 a2) := by
  unfold policyWrite
  repeat' (first | with_reducible assumption | exact sub_of rfl | with_reducible refine regSet_within ?_ (sub_trans ?_ hp) | with_reducible refine Within.ite ?_ ?_ | (extract_lets +onlyGivenNames x; refine (fun (_ : Within P s0 x) => ?_) ?_; rotate_left; subst x; rotate_left; clear_value x) | (extract_lets +onlyGivenNames x; clear_value x) | split)

theorem msixCtrl_within {P s0 s a1 a2 a3} (h : Within P s0 s) (hp : sub 2097153 P) : Within P s0 (msixCtrl s a1 a2 a3) := by
  unfold msixCtrl
  repeat' (first | with_reducible assumption | exact sub_of rfl | with_reducible refine regSetFld_within ?_ (sub_trans ?_ hp) | with_reducible refine regSet_within ?_ (sub_trans ?_ hp) | with_reducible refine emit_within ?_ (sub_trans ?_ hp) | with_reducible refine Within.ite ?_ ?_ | (extract_lets +onlyGivenNames x; refine (fun (_ : Within P s0 x) => ?_) ?_; rotate_left; subst x; rotate_left; clear_value x) | (extract_lets +onlyGivenNames x; clear_value x) | split)

theorem fnWrite_within {P s0 s a1 a2 a3 a4} (h : Within P s0 s) (hp : sub 3129343 P) : Within P s0 (fnWrite s a1 a2 a3 a4) := by
  unfold fnWrite
  repeat' (first | with_reducible assumption | exact sub_of rfl | with_reducible refine policyWrite_within ?_ (sub_trans ?_ hp) | with_reducible refine msixCtrl_within ?_ (sub_trans ?_ hp) | with_reducible refine writeRingCfg_within ?_ (sub_trans ?_ hp) | with_reducible refine writeFields_within ?_ (sub_trans ?_ hp) | with_reducible refine resetFn_within ?_ (sub_trans ?_ hp) | with_reducible refine Within.ite ?_ ?_ | (extract_lets +onlyGivenNames x; refine (fun (_ : Within P s0 x) => ?_) ?_; rotate_left; subst x; rotate_left; clear_value x) | (extract_lets +onlyGivenNames x; clear_value x) | split)

theorem portCtrl_within {P s0 s a1 a2 a3} (h : Within P s0 s) (hp : sub 655361 P) : Within P s0 (portCtrl s a1 a2 a3) := by
  unfold portCtrl
  repeat' (first | with_reducible assumption | exact sub_of rfl | with_reducible refine setPortState_within ?_ (sub_trans ?_ hp) | with_reducible refine portDown_within ?_ (sub_trans ?_ hp) | with_reducible refine writeFields_within ?_ (sub_trans ?_ hp) | with_reducible refine Within.ite ?_ ?_ | (extract_lets +onlyGivenNames x; refine (fun (_ : Within P s0 x) => ?_) ?_; rotate_left; subst x; rotate_left; clear_value x) | (extract_lets +onlyGivenNames x; clear_value x) | split)

theorem pairCtrl_within {P s0 s a1 a2} (h : Within P s0 s) (hp : sub 2760721 P) : Within P s0 (pairCtrl s a1 a2) := by
  unfold pairCtrl
  repeat' (first | with_reducible assumption | exact sub_of rfl | with_reducible refine pairResync_within ?_ (sub_trans ?_ hp) | with_reducible refine pairDeactivate_within ?_ (sub_trans ?_ hp) | with_reducible refine pairHandover_within ?_ (sub_trans ?_ hp) | with_reducible refine pairActivate_within ?_ (sub_trans ?_ hp) | with_reducible refine pairTakeover_within ?_ (sub_trans ?_ hp) | with_reducible refine writeFields_within ?_ (sub_trans ?_ hp) | with_reducible refine settlePairPorts_within ?_ (sub_trans ?_ hp) | with_reducible refine Within.ite ?_ ?_ | (extract_lets +onlyGivenNames x; refine (fun (_ : Within P s0 x) => ?_) ?_; rotate_left; subst x; rotate_left; clear_value x) | (extract_lets +onlyGivenNames x; clear_value x) | split)

theorem roleCmd_within {P s0 s a1} (h : Within P s0 s) (hp : sub 2798159 P) : Within P s0 (roleCmd s a1) := by
  unfold roleCmd
  repeat' (first | with_reducible assumption | exact sub_of rfl | with_reducible refine roleCommit_within ?_ (sub_trans ?_ hp) | with_reducible refine roleRead_within ?_ (sub_trans ?_ hp) | with_reducible refine Within.ite ?_ ?_ | (extract_lets +onlyGivenNames x; refine (fun (_ : Within P s0 x) => ?_) ?_; rotate_left; subst x; rotate_left; clear_value x) | (extract_lets +onlyGivenNames x; clear_value x) | split)

theorem freeFlash_within {P s0 s} (h : Within P s0 s)  : Within P s0 (freeFlash s).2 := by
  unfold freeFlash
  repeat' (first | with_reducible assumption | exact sub_of rfl | with_reducible refine drawFree_within ?_ | with_reducible refine drawFree_within' ‹_› ?_ | (extract_lets +onlyGivenNames x; refine (fun (_ : Within P s0 x) => ?_) ?_; rotate_left; subst x; rotate_left; clear_value x) | (extract_lets +onlyGivenNames x; refine (fun (_ : Within P s0 x.2) => ?_) ?_; rotate_left; subst x; rotate_left; clear_value x) | (extract_lets +onlyGivenNames x; clear_value x))
theorem freeFlash_within' {P s0 s t r} (he : freeFlash s = (r, t)) (h : Within P s0 s)  : Within P s0 t := by
  have k : Within P s0 (freeFlash s).2 := freeFlash_within h
  rw [he] at k; exact k

theorem dayCmd_within {P s0 s a1} (h : Within P s0 s) (hp : sub 2109457 P) : Within P s0 (dayCmd s a1) := by
  unfold dayCmd
  extract_lets on retry
  have hon : ∀ k f z, (∀ u t, Within P s0 u → f u = .next t → Within P s0 t) → Within P s0 z → Within P s0 (on k f z) := by
    intro k f z hf hz
    dsimp only [on]
    split
    · exact after_within hz (fun t ht => hf z t hz ht)
    · exact hz
  have hretry : ∀ u t, Within P s0 u → retry u = .next t → Within P s0 t := by
    intro u t hu he
    dsimp only [retry] at he
    exact execDayCmdRetry_within (freeFlash_within hu) (sub_trans (sub_of rfl) hp) he
  clear_value on retry
  refine hon _ _ _ (fun u t hu he => execDayCmdNext_within hu (sub_trans (sub_of rfl) hp) he) ?_
  refine hon _ _ _ (fun u t hu he => execDayCmdClearLatch_within hu (sub_trans (sub_of rfl) hp) he) ?_
  refine hon _ _ _ hretry ?_
  refine hon _ _ _ (fun u t hu he => execDayCmdThaw_within hu (sub_trans (sub_of rfl) hp) he) ?_
  refine hon _ _ _ (fun u t hu he => execDayCmdFreeze_within hu (sub_trans (sub_of rfl) hp) he) ?_
  exact hon _ _ _ (fun u t hu he => execDayCmdLoad_within hu (sub_trans (sub_of rfl) hp) he) h

theorem curveCmd_within {P s0 s a1} (h : Within P s0 s) (hp : sub 262225 P) : Within P s0 (curveCmd s a1) := by
  unfold curveCmd
  repeat' (first | with_reducible assumption | exact sub_of rfl | with_reducible refine curveRead_within ?_ (sub_trans ?_ hp) | with_reducible refine curveClear_within ?_ (sub_trans ?_ hp) | with_reducible refine curveLoad_within ?_ (sub_trans ?_ hp) | with_reducible refine Within.ite ?_ ?_ | (extract_lets +onlyGivenNames x; refine (fun (_ : Within P s0 x) => ?_) ?_; rotate_left; subst x; rotate_left; clear_value x) | (extract_lets +onlyGivenNames x; clear_value x) | split)

theorem signerCmd_within {P s0 s a1} (h : Within P s0 s) (hp : sub 17 P) : Within P s0 (signerCmd s a1) := by
  unfold signerCmd
  repeat' (first | with_reducible assumption | exact sub_of rfl | with_reducible refine signerWrite_within ?_ (sub_trans ?_ hp) | with_reducible refine signerRead_within ?_ (sub_trans ?_ hp) | with_reducible refine signerClear_within ?_ (sub_trans ?_ hp) | with_reducible refine Within.ite ?_ ?_ | (extract_lets +onlyGivenNames x; refine (fun (_ : Within P s0 x) => ?_) ?_; rotate_left; subst x; rotate_left; clear_value x) | (extract_lets +onlyGivenNames x; clear_value x) | split)

theorem fenCmd_within {P s0 s a1} (h : Within P s0 s) (hp : sub 3062783 P) : Within P s0 (fenCmd s a1) := by
  unfold fenCmd; try dsimp only
  repeat' (first | with_reducible assumption | exact sub_of rfl | refine after_within ?_ (fun _ _ => ?_) | with_reducible refine execFenCmdRead_within ?_ (sub_trans ?_ hp) (by assumption) | with_reducible refine execFenCmdUnfence_within ?_ (sub_trans ?_ hp) (by assumption) | with_reducible refine execFenCmdFence_within ?_ (sub_trans ?_ hp) (by assumption) | with_reducible refine Within.ite ?_ ?_)

theorem eicWrite_within {P s0 s a1 a2 a3 a4} (h : Within P s0 s) (hp : sub 151553 P) : Within P s0 (eicWrite s a1 a2 a3 a4) := by
  unfold eicWrite; try dsimp only
  repeat' (first | with_reducible assumption | exact sub_of rfl | refine after_within ?_ (fun _ _ => ?_) | with_reducible refine writeSrcCfg_within ?_ (sub_trans ?_ hp) | with_reducible refine execEicLock_within ?_ (sub_trans ?_ hp) (by assumption) | with_reducible refine execEicComplete_within ?_ (sub_trans ?_ hp) (by assumption) | with_reducible refine execEicSwset_within ?_ (sub_trans ?_ hp) (by assumption) | split)

theorem sbOwnWrite_within {P s0 s a1 a2} (h : Within P s0 s) (hp : sub 135169 P) : Within P s0 (sbOwnWrite s a1 a2) := by
  unfold sbOwnWrite
  repeat' (first | with_reducible assumption | exact sub_of rfl | with_reducible refine setCeilings_within ?_ (sub_trans ?_ hp) | with_reducible refine regSet_within ?_ (sub_trans ?_ hp) | with_reducible refine Within.ite ?_ ?_ | split)

theorem regWrite_within {P s0 s a1 a2 a3} (h : Within P s0 s) (hp : sub 3129343 P) : Within P s0 (regWrite s a1 a2 a3) := by
  unfold regWrite; try dsimp only
  repeat' (first | with_reducible assumption | exact sub_of rfl | with_reducible refine portCtrl_within ?_ (sub_trans ?_ hp) | with_reducible refine roleCmd_within ?_ (sub_trans ?_ hp) | with_reducible refine curveCmd_within ?_ (sub_trans ?_ hp) | with_reducible refine sbOwnWrite_within ?_ (sub_trans ?_ hp) | with_reducible refine regSetFld_within ?_ (sub_trans ?_ hp) | with_reducible refine fnWrite_within ?_ (sub_trans ?_ hp) | with_reducible refine dayCmd_within ?_ (sub_trans ?_ hp) | with_reducible refine pairCtrl_within ?_ (sub_trans ?_ hp) | with_reducible refine mntOffer_within ?_ (sub_trans ?_ hp) | with_reducible refine eicWrite_within ?_ (sub_trans ?_ hp) | with_reducible refine writeFields_within ?_ (sub_trans ?_ hp) | with_reducible refine signerCmd_within ?_ (sub_trans ?_ hp) | with_reducible refine fenCmd_within ?_ (sub_trans ?_ hp) | with_reducible refine Within.ite ?_ ?_ | split | with_reducible refine Within.upd_fab ?_ (sub_trans ?_ hp))

theorem masterWrite_within {P s0 s a1 a2 a3} (h : Within P s0 s) (hp : sub 3145727 P) : Within P s0 (masterWrite s a1 a2 a3) := by
  unfold masterWrite
  repeat' (first | with_reducible assumption | exact sub_of rfl | with_reducible refine bump_within ?_ (sub_trans ?_ hp) | with_reducible refine regWrite_within ?_ (sub_trans ?_ hp) | with_reducible refine eicWrite_within ?_ (sub_trans ?_ hp) | with_reducible refine Within.ite ?_ ?_ | split)

theorem execRegisterWrite_within {P s0 s t a0 a1 a2 a3} (h : Within P s0 s) (hp : sub 3145727 P) (he : execRegisterWrite a0 a1 a2 a3 s = .next t) : Within P s0 t := by
  unfold execRegisterWrite at he; injection he with he; subst he
  repeat' (first | with_reducible assumption | exact sub_of rfl | with_reducible refine masterWrite_within ?_ (sub_trans ?_ hp) | with_reducible refine badAccess_within ?_ (sub_trans ?_ hp) | with_reducible refine Within.ite ?_ ?_ | (extract_lets +onlyGivenNames x; refine (fun (_ : Within P s0 x) => ?_) ?_; rotate_left; subst x; rotate_left; clear_value x) | (extract_lets +onlyGivenNames x; clear_value x) | split)

theorem masterRead_within {P s0 s a1 a2 a3 a4} (h : Within P s0 s) (hp : sub 1 P) : Within P s0 (masterRead s a1 a2 a3 a4).2 := by
  unfold masterRead
  repeat' (first | with_reducible assumption | exact sub_of rfl | with_reducible refine readReg_within ?_ (sub_trans ?_ hp) | with_reducible refine readReg_within' ‹_› ?_ (sub_trans ?_ hp) | with_reducible refine Within.ite ?_ ?_ | split)
theorem masterRead_within' {P s0 s t r a1 a2 a3 a4} (he : masterRead s a1 a2 a3 a4 = (r, t)) (h : Within P s0 s) (hp : sub 1 P) : Within P s0 t := by
  have k : Within P s0 (masterRead s a1 a2 a3 a4).2 := masterRead_within h hp
  rw [he] at k; exact k

theorem execRcRead_within {P s0 s t a0 a1 a2} (h : Within P s0 s) (hp : sub 2113537 P) (he : execRcRead a0 a1 a2 s = .next t) : Within P s0 t := by
  unfold execRcRead at he
  extract_lets o r at he
  split at he
  · exact execEicClaim_within h (sub_trans (sub_of rfl) hp) he
  · injection he with he
    subst he
    exact emit_within (masterRead_within h (sub_trans (sub_of rfl) hp)) (sub_trans (sub_of rfl) hp)

theorem execPairLoRead_within {P s0 s t a0 a1} (h : Within P s0 s) (hp : sub 2097153 P) (he : execPairLoRead a0 a1 s = .next t) : Within P s0 t := by
  unfold execPairLoRead at he
  extract_lets o r at he
  split at he <;> injection he with he <;> subst he
  · exact emit_within (masterRead_within h (sub_trans (sub_of rfl) hp)) (sub_trans (sub_of rfl) hp)
  · exact h

theorem execPairHiWrite_within {P s0 s t a0 a1 a2} (h : Within P s0 s) (hp : sub 3145727 P) (he : execPairHiWrite a0 a1 a2 s = .next t) : Within P s0 t := by
  unfold execPairHiWrite at he; injection he with he; subst he
  repeat' (first | with_reducible assumption | exact sub_of rfl | with_reducible refine masterWrite_within ?_ (sub_trans ?_ hp) | with_reducible refine Within.ite ?_ ?_ | split)

theorem execPairLoWrite_within {P s0 s t a0 a1 a2} (h : Within P s0 s) (hp : sub 3145727 P) (he : execPairLoWrite a0 a1 a2 s = .next t) : Within P s0 t := by
  unfold execPairLoWrite at he; injection he with he; subst he
  repeat' (first | with_reducible assumption | exact sub_of rfl | with_reducible refine masterWrite_within ?_ (sub_trans ?_ hp) | with_reducible refine Within.ite ?_ ?_ | split)

theorem execJobObjPolicyWrite_within {P s0 s t a0 a1} (h : Within P s0 s) (hp : sub 3145727 P) (he : execJobObjPolicyWrite a0 a1 s = .next t) : Within P s0 t := by
  unfold execJobObjPolicyWrite at he; injection he with he; subst he
  repeat' (first | with_reducible assumption | exact sub_of rfl | with_reducible refine masterWrite_within ?_ (sub_trans ?_ hp) | with_reducible refine Within.ite ?_ ?_ | split)

theorem execRoleCommit_within {P s0 s t a0 a1} (h : Within P s0 s) (hp : sub 3145727 P) (he : execRoleCommit a0 a1 s = .next t) : Within P s0 t := by
  unfold execRoleCommit at he; injection he with he; subst he
  repeat' (first | with_reducible assumption | exact sub_of rfl | with_reducible refine masterWrite_within ?_ (sub_trans ?_ hp))

theorem execRoleRead_within {P s0 s t a0 a1} (h : Within P s0 s) (hp : sub 3145727 P) (he : execRoleRead a0 a1 s = .next t) : Within P s0 t := by
  unfold execRoleRead at he; injection he with he; subst he
  repeat' (first | with_reducible assumption | exact sub_of rfl | with_reducible refine masterWrite_within ?_ (sub_trans ?_ hp))

end Sys2Proof.Machine
end

