-- ==== Sys2Proof/Laws/WithinSideband.lean ====
section
/-! SUPPORT. What each operation of Machine/Sideband.lean may change (see Within.lean). -/

namespace Sys2Proof.Machine

theorem sbRow_within {P s0 s t act} (ha : ∀ s, Within P s0 s → Within P s0 (act s)) (h : Within P s0 s)
    (he : sbRow act s = .next t) : Within P s0 t := by
  unfold sbRow at he; injection he with he; subst he
  split
  · exact ha _ h
  · exact h

theorem sbFree_within {P s0 s a1} (h : Within P s0 s) (hp : sub 2097152 P) : Within P s0 (sbFree s a1) := by
  unfold sbFree
  repeat' (first | with_reducible assumption | exact sub_of rfl | with_reducible refine freeList_within ?_ | with_reducible refine freeList_within' ‹_› ?_ | with_reducible refine sbAnswer_within ?_ (sub_trans ?_ hp) | (extract_lets +onlyGivenNames x; refine (fun (_ : Within P s0 x) => ?_) ?_; rotate_left; subst x; rotate_left; clear_value x) | (extract_lets +onlyGivenNames x; refine (fun (_ : Within P s0 x.2) => ?_) ?_; rotate_left; subst x; rotate_left; clear_value x) | (extract_lets +onlyGivenNames x; clear_value x) | split)

theorem execSmbusArp_within {P s0 s t a0} (h : Within P s0 s) (hp : sub 2097152 P) (he : execSmbusArp a0 s = .next t) : Within P s0 t := by
  unfold execSmbusArp at he; injection he with he; subst he; try dsimp only
  repeat' (first | with_reducible assumption | exact sub_of rfl | with_reducible refine sbFree_within ?_ (sub_trans ?_ hp) | with_reducible refine Within.ite ?_ ?_)

theorem execMctpControl_within {P s0 s t a0 a1 a2} (h : Within P s0 s) (hp : sub 2097153 P) (he : execMctpControl a0 a1 a2 s = .next t) : Within P s0 t := by
  unfold execMctpControl at he; injection he with he; subst he
  repeat' (first | with_reducible assumption | exact sub_of rfl | with_reducible refine sbFree_within ?_ (sub_trans ?_ hp) | with_reducible refine bump_within ?_ (sub_trans ?_ hp) | with_reducible refine sbAnswer_within ?_ (sub_trans ?_ hp) | with_reducible refine Within.ite ?_ ?_ | split)

theorem execPldmSetEventReceiver_within {P s0 s t a0} (h : Within P s0 s) (hp : sub 2105344 P) (he : execPldmSetEventReceiver a0 s = .next t) : Within P s0 t := by
  unfold execPldmSetEventReceiver at he; injection he with he; subst he; try dsimp only
  repeat' (first | with_reducible assumption | exact sub_of rfl | with_reducible refine sbAnswer_within ?_ (sub_trans ?_ hp) | with_reducible refine Within.ite ?_ ?_ | with_reducible refine Within.upd_keeper ?_ (sub_trans ?_ hp))

theorem execPldmEventAck_within {P s0 s t} (h : Within P s0 s) (hp : sub 2105344 P) (he : execPldmEventAck s = .next t) : Within P s0 t := by
  unfold execPldmEventAck at he; injection he with he; subst he
  repeat' (first | with_reducible assumption | exact sub_of rfl | with_reducible refine emit_within ?_ (sub_trans ?_ hp) | with_reducible refine Within.ite ?_ ?_ | with_reducible refine Within.upd_keeper ?_ (sub_trans ?_ hp) | split)

theorem moduleState_within {P s0 s} (h : Within P s0 s)  : Within P s0 (moduleState s).2 := by
  unfold moduleState
  repeat' (first | with_reducible assumption | exact sub_of rfl | with_reducible refine drawFree_within ?_ | with_reducible refine drawFree_within' ‹_› ?_ | split)
theorem moduleState_within' {P s0 s t r} (he : moduleState s = (r, t)) (h : Within P s0 s)  : Within P s0 t := by
  have k : Within P s0 (moduleState s).2 := moduleState_within h
  rw [he] at k; exact k

theorem sensorReading_within {P s0 s t r a1} (he : sensorReading s a1 = some (r, t)) (h : Within P s0 s) : Within P s0 t := by
  unfold sensorReading at he
  repeat' split at he
  all_goals first
    | (simp only [Option.some.injEq, Prod.mk.injEq] at he; obtain ⟨-, rfl⟩ := he; exact h)
    | cases he; done
    | (simp only [Option.some.injEq] at he; exact moduleState_within' he h)

theorem execPldmGetSensorReading_within {P s0 s t a0} (h : Within P s0 s) (hp : sub 2097152 P) (he : execPldmGetSensorReading a0 s = .next t) : Within P s0 t := by
  unfold execPldmGetSensorReading at he; injection he with he; subst he; try dsimp only
  repeat' (first | with_reducible assumption | exact sub_of rfl | with_reducible refine sbAnswer_within ?_ (sub_trans ?_ hp) | with_reducible refine sensorReading_within (by assumption) ?_ | split)

theorem execPldmFruRead_within {P s0 s t a0 a1} (h : Within P s0 s) (hp : sub 2097152 P) (he : execPldmFruRead a0 a1 s = .next t) : Within P s0 t := by
  unfold execPldmFruRead at he; injection he with he; subst he; try dsimp only
  repeat' (first | with_reducible assumption | exact sub_of rfl | with_reducible refine sbAnswer_within ?_ (sub_trans ?_ hp) | with_reducible refine Within.ite ?_ ?_)

theorem execPldmPowerOn_within {P s0 s t} (h : Within P s0 s) (hp : sub 2142209 P) (he : execPldmPowerOn s = .next t) : Within P s0 t := by
  unfold execPldmPowerOn at he; injection he with he; subst he; try dsimp only
  repeat' (first | with_reducible assumption | exact sub_of rfl | with_reducible refine sbAnswer_within ?_ (sub_trans ?_ hp) | with_reducible refine dayEvent_within ?_ (sub_trans ?_ hp) | with_reducible refine beginStart_within ?_ (by first | decide | (split <;> decide)) (sub_trans ?_ hp) | with_reducible refine Within.ite ?_ ?_)

theorem powerAction_within {P s0 s a0 a1 a2} (h : Within P s0 s) (hp : sub 4194303 P) : Within P s0 (powerAction a0 a1 a2 s) := by
  unfold powerAction
  repeat' (first | with_reducible assumption | exact sub_of rfl | with_reducible refine dayEvent_within ?_ (sub_trans ?_ hp) | with_reducible refine requestReset_within ?_ (sub_trans ?_ hp) | with_reducible refine sbAnswer_within ?_ (sub_trans ?_ hp) | with_reducible refine Within.ite ?_ ?_ | split)

theorem execPldmPowerOff_within {P s0 s t} (h : Within P s0 s) (hp : sub 4194303 P) (he : execPldmPowerOff s = .next t) : Within P s0 t := by
  unfold execPldmPowerOff at he; injection he with he; subst he; try dsimp only
  repeat' (first | with_reducible assumption | exact sub_of rfl | with_reducible refine powerAction_within ?_ (sub_trans ?_ hp) | with_reducible refine Within.ite ?_ ?_)

theorem execPldmWarmReset_within {P s0 s t} (h : Within P s0 s) (hp : sub 4194303 P) (he : execPldmWarmReset s = .next t) : Within P s0 t := by
  unfold execPldmWarmReset at he; injection he with he; subst he; try dsimp only
  repeat' (first | with_reducible assumption | exact sub_of rfl | with_reducible refine powerAction_within ?_ (sub_trans ?_ hp) | with_reducible refine Within.ite ?_ ?_)

theorem execPldmColdReset_within {P s0 s t} (h : Within P s0 s) (hp : sub 4194303 P) (he : execPldmColdReset s = .next t) : Within P s0 t := by
  unfold execPldmColdReset at he; injection he with he; subst he; try dsimp only
  repeat' (first | with_reducible assumption | exact sub_of rfl | with_reducible refine powerAction_within ?_ (sub_trans ?_ hp) | with_reducible refine Within.ite ?_ ?_)

theorem execPldmSetCapWatts_within {P s0 s t a0 a1} (h : Within P s0 s) (hp : sub 2097153 P) (he : execPldmSetCapWatts a0 a1 s = .next t) : Within P s0 t := by
  unfold execPldmSetCapWatts at he; injection he with he; subst he
  repeat' (first | with_reducible assumption | exact sub_of rfl | with_reducible refine regSetFld_within ?_ (sub_trans ?_ hp) | with_reducible refine sbAnswer_within ?_ (sub_trans ?_ hp) | with_reducible refine Within.ite ?_ ?_ | split)

theorem execPldmSetCapPace_within {P s0 s t a0 a1} (h : Within P s0 s) (hp : sub 2232321 P) (he : execPldmSetCapPace a0 a1 s = .next t) : Within P s0 t := by
  unfold execPldmSetCapPace at he; injection he with he; subst he
  repeat' (first | with_reducible assumption | exact sub_of rfl | with_reducible refine regSetFld_within ?_ (sub_trans ?_ hp) | with_reducible refine setCeilings_within ?_ (sub_trans ?_ hp) | with_reducible refine sbAnswer_within ?_ (sub_trans ?_ hp) | with_reducible refine Within.ite ?_ ?_ | split)

theorem sbRead_within {P s0 a0 a1} (h : Within P s0 a0.1) (hp : sub 1 P) : Within P s0 (sbRead a0 a1).1 := by
  unfold sbRead
  repeat' (first | with_reducible assumption | exact sub_of rfl | with_reducible refine masterRead_within ?_ (sub_trans ?_ hp) | with_reducible refine masterRead_within' ‹_› ?_ (sub_trans ?_ hp) | (extract_lets +onlyGivenNames x; refine (fun (_ : Within P s0 x) => ?_) ?_; rotate_left; subst x; rotate_left; clear_value x) | (extract_lets +onlyGivenNames x; refine (fun (_ : Within P s0 x.2) => ?_) ?_; rotate_left; subst x; rotate_left; clear_value x) | (extract_lets +onlyGivenNames x; clear_value x))
theorem sbRead_within' {P s0 t r a0 a1} (he : sbRead a0 a1 = (t, r)) (h : Within P s0 a0.1) (hp : sub 1 P) : Within P s0 t := by
  have k : Within P s0 (sbRead a0 a1).1 := sbRead_within h hp
  rw [he] at k; exact k

theorem execRegRead_within {P s0 s t a0 a1} (h : Within P s0 s) (hp : sub 2097153 P) (he : execRegRead a0 a1 s = .next t) : Within P s0 t := by
  unfold execRegRead at he; injection he with he; subst he
  repeat' (first | with_reducible assumption | exact sub_of rfl | with_reducible refine sbRead_within ?_ (sub_trans ?_ hp) | with_reducible refine sbRead_within' ‹_› ?_ (sub_trans ?_ hp) | with_reducible refine sbAnswer_within ?_ (sub_trans ?_ hp) | with_reducible refine Within.foldl ?_ (fun _ _ _ => ?_) | with_reducible refine Within.foldl_fst ?_ (fun _ _ _ => ?_) | with_reducible refine Within.ite ?_ ?_ | (extract_lets +onlyGivenNames x; refine (fun (_ : Within P s0 x) => ?_) ?_; rotate_left; subst x; rotate_left; clear_value x) | (extract_lets +onlyGivenNames x; refine (fun (_ : Within P s0 x.1) => ?_) ?_; rotate_left; subst x; rotate_left; clear_value x) | (extract_lets +onlyGivenNames x; clear_value x) | split)

theorem execRegWrite_within {P s0 s t a0 a1} (h : Within P s0 s) (hp : sub 3145727 P) (he : execRegWrite a0 a1 s = .next t) : Within P s0 t := by
  unfold execRegWrite at he; injection he with he; subst he
  repeat' (first | with_reducible assumption | exact sub_of rfl | with_reducible refine bump_within ?_ (sub_trans ?_ hp) | with_reducible refine masterWrite_within ?_ (sub_trans ?_ hp) | with_reducible refine sbAnswer_within ?_ (sub_trans ?_ hp) | with_reducible refine Within.foldl ?_ (fun _ _ _ => ?_) | with_reducible refine Within.foldl_fst ?_ (fun _ _ _ => ?_) | with_reducible refine Within.ite ?_ ?_ | (extract_lets +onlyGivenNames x; refine (fun (_ : Within P s0 x) => ?_) ?_; rotate_left; subst x; rotate_left; clear_value x) | (extract_lets +onlyGivenNames x; refine (fun (_ : Within P s0 x.1) => ?_) ?_; rotate_left; subst x; rotate_left; clear_value x) | (extract_lets +onlyGivenNames x; clear_value x) | split)

end Sys2Proof.Machine
end

