-- ==== Sys2Proof/Laws/WithinExec.lean ====
section
/-! SUPPORT. What each command may change: exec stays within the parts that `partsOf` names. -/

namespace Sys2Proof.Machine

/-- The number of a part: its place among the fields of `Within`. -/
def Part.no : Part → Nat
  | .regs => 0
  | .mem => 1
  | .memq => 2
  | .cores => 3
  | .fns => 4
  | .sectors => 5
  | .jobs => 6
  | .alloc => 7
  | .encQ => 8
  | .passes => 9
  | .xfers => 10
  | .zeroing => 11
  | .day => 12
  | .keeper => 13
  | .eic => 14
  | .start => 15
  | .maint => 16
  | .sched => 17
  | .pke => 18
  | .fab => 19
  | .ftime => 20
  | .outputs => 21

/-- The parts of a list as one number. -/
def partsMask : List Part → Nat
  | [] => 0
  | p :: l => 2 ^ p.no ||| partsMask l

theorem Part.no_inj {p q : Part} (h : p.no = q.no) : p = q := by
  cases p <;> cases q <;> first | rfl | cases h

theorem partsMask_testBit {p : Part} {l : List Part} (h : p ∉ l) : (partsMask l).testBit p.no = false := by
  induction l with
  | nil => exact Nat.zero_testBit _
  | cons q l ih =>
    simp only [List.mem_cons, not_or] at h
    have hne : q.no ≠ p.no := fun e => h.1 (Part.no_inj e.symm)
    simp only [partsMask, Nat.testBit_or, Nat.testBit_two_pow_of_ne hne, ih h.2, Bool.or_self]

/-- What a command does to the state stays within its parts. -/
theorem exec_within {c : Instr} {s t : State} (h : exec c s = .next t) : Within (partsMask (partsOf c)) s t := by
  cases c with
  | powerApplied _ _ => exact execPowerApplied_within (Within.refl _ _) (sub_of (by simp only [partsOf]; decide)) h
  | startPhaseEnd _ => exact execStartPhaseEnd_within (Within.refl _ _) (sub_of (by simp only [partsOf]; decide)) h
  | phaseTimeout => exact execPhaseTimeout_within (Within.refl _ _) (sub_of (by simp only [partsOf]; decide)) h
  | perstDeassert => exact execPerstDeassert_within (Within.refl _ _) (sub_of (by simp only [partsOf]; decide)) h
  | perstAssert => exact execPerstAssert_within (Within.refl _ _) (sub_of (by simp only [partsOf]; decide)) h
  | wakeRelease => exact execWakeRelease_within (Within.refl _ _) (sub_of (by simp only [partsOf]; decide)) h
  | configRequest _ _ _ v => exact execConfigRequest_within (a3 := v) (Within.refl _ _) (sub_of (by simp only [partsOf]; decide)) h
  | moduleWithdrawal _ => exact execModuleWithdrawal_within (Within.refl _ _) (sub_of (by simp only [partsOf]; decide)) h
  | powerFail _ => exact execPowerFail_within (Within.refl _ _) (sub_of (by simp only [partsOf]; decide)) h
  | hwThermalTrip _ => exact execHwThermalTrip_within (Within.refl _ _) (sub_of (by simp only [partsOf]; decide)) h
  | keeperWatchdog _ => exact execKeeperWatchdog_within (Within.refl _ _) (sub_of (by simp only [partsOf]; decide)) h
  | keeperSample _ => exact execKeeperSample_within (Within.refl _ _) (sub_of (by simp only [partsOf]; decide)) h
  | opSecondsSave => exact execOpSecondsSave_within (Within.refl _ _) (sub_of (by simp only [partsOf]; decide)) h
  | pllUnlock _ _ => exact execPllUnlock_within (Within.refl _ _) (sub_of (by simp only [partsOf]; decide)) h
  | pllRelock _ _ _ => exact execPllRelock_within (Within.refl _ _) (sub_of (by simp only [partsOf]; decide)) h
  | smbusArp a => exact execSmbusArp_within (a0 := a) (Within.refl _ _) (sub_of (by simp only [partsOf]; decide)) h
  | mctpControl _ _ _ => exact execMctpControl_within (Within.refl _ _) (sub_of (by simp only [partsOf]; decide)) h
  | pldmSetEventReceiver _ => exact execPldmSetEventReceiver_within (Within.refl _ _) (sub_of (by simp only [partsOf]; decide)) h
  | pldmEventAck => exact execPldmEventAck_within (Within.refl _ _) (sub_of (by simp only [partsOf]; decide)) h
  | pldmGetSensorReading _ => exact execPldmGetSensorReading_within (Within.refl _ _) (sub_of (by simp only [partsOf]; decide)) h
  | pldmFruRead _ _ => exact execPldmFruRead_within (Within.refl _ _) (sub_of (by simp only [partsOf]; decide)) h
  | pldmPowerOn => exact execPldmPowerOn_within (Within.refl _ _) (sub_of (by simp only [partsOf]; decide)) h
  | pldmPowerOff => exact execPldmPowerOff_within (Within.refl _ _) (sub_of (by simp only [partsOf]; decide)) h
  | pldmWarmReset => exact execPldmWarmReset_within (Within.refl _ _) (sub_of (by simp only [partsOf]; decide)) h
  | pldmColdReset => exact execPldmColdReset_within (Within.refl _ _) (sub_of (by simp only [partsOf]; decide)) h
  | resetGraceExpiry => exact execResetGraceExpiry_within (Within.refl _ _) (sub_of (by simp only [partsOf]; decide)) h
  | pldmSetCapWatts _ _ => exact execPldmSetCapWatts_within (Within.refl _ _) (sub_of (by simp only [partsOf]; decide)) h
  | pldmSetCapPace _ _ => exact execPldmSetCapPace_within (Within.refl _ _) (sub_of (by simp only [partsOf]; decide)) h
  | regRead _ _ => exact execRegRead_within (Within.refl _ _) (sub_of (by simp only [partsOf]; decide)) h
  | regWrite _ _ => exact execRegWrite_within (Within.refl _ _) (sub_of (by simp only [partsOf]; decide)) h
  | dayLoad _ => exact execDayLoad_within (Within.refl _ _) (sub_of (by simp only [partsOf]; decide)) h
  | dayHoldFreeze => exact execDayHoldFreeze_within (Within.refl _ _) (sub_of (by simp only [partsOf]; decide)) h
  | dayHoldThaw => exact execDayHoldThaw_within (Within.refl _ _) (sub_of (by simp only [partsOf]; decide)) h
  | latchRead => exact execLatchRead_within (Within.refl _ _) (sub_of (by simp only [partsOf]; decide)) h
  | daymarkProgram _ => exact execDaymarkProgram_within (Within.refl _ _) (sub_of (by simp only [partsOf]; decide)) h
  | freezeLimitExpiry _ => exact execFreezeLimitExpiry_within (Within.refl _ _) (sub_of (by simp only [partsOf]; decide)) h
  | dayCmdLoad => exact execDayCmdLoad_within (Within.refl _ _) (sub_of (by simp only [partsOf]; decide)) h
  | dayCmdNext => exact execDayCmdNext_within (Within.refl _ _) (sub_of (by simp only [partsOf]; decide)) h
  | dayCmdFreeze => exact execDayCmdFreeze_within (Within.refl _ _) (sub_of (by simp only [partsOf]; decide)) h
  | dayCmdThaw => exact execDayCmdThaw_within (Within.refl _ _) (sub_of (by simp only [partsOf]; decide)) h
  | dayCmdRetry _ => exact execDayCmdRetry_within (Within.refl _ _) (sub_of (by simp only [partsOf]; decide)) h
  | dayCmdClearLatch => exact execDayCmdClearLatch_within (Within.refl _ _) (sub_of (by simp only [partsOf]; decide)) h
  | eicClaim a b c => exact execEicClaim_within (a0 := a) (a1 := b) (a2 := c) (Within.refl _ _) (sub_of (by simp only [partsOf]; decide)) h
  | eicComplete _ _ _ => exact execEicComplete_within (Within.refl _ _) (sub_of (by simp only [partsOf]; decide)) h
  | eicSwset _ _ _ => exact execEicSwset_within (Within.refl _ _) (sub_of (by simp only [partsOf]; decide)) h
  | eicLock _ _ => exact execEicLock_within (Within.refl _ _) (sub_of (by simp only [partsOf]; decide)) h
  | hubWake _ => exact execHubWake_within (Within.refl _ _) (sub_of (by simp only [partsOf]; decide)) h
  | registerWrite _ _ _ _ => exact execRegisterWrite_within (Within.refl _ _) (sub_of (by simp only [partsOf]; decide)) h
  | rcRead _ _ _ => exact execRcRead_within (Within.refl _ _) (sub_of (by simp only [partsOf]; decide)) h
  | pairLoRead _ _ => exact execPairLoRead_within (Within.refl _ _) (sub_of (by simp only [partsOf]; decide)) h
  | pairHiWrite _ _ _ => exact execPairHiWrite_within (Within.refl _ _) (sub_of (by simp only [partsOf]; decide)) h
  | pairLoWrite _ _ _ => exact execPairLoWrite_within (Within.refl _ _) (sub_of (by simp only [partsOf]; decide)) h
  | jobObjPolicyWrite _ _ => exact execJobObjPolicyWrite_within (Within.refl _ _) (sub_of (by simp only [partsOf]; decide)) h
  | hifFnResetGo _ => exact execHifFnResetGo_within (Within.refl _ _) (sub_of (by simp only [partsOf]; decide)) h
  | functionLevelReset _ => exact execFunctionLevelReset_within (Within.refl _ _) (sub_of (by simp only [partsOf]; decide)) h
  | vfEnableClear => exact execVfEnableClear_within (Within.refl _ _) (sub_of (by simp only [partsOf]; decide)) h
  | ringEnable _ _ _ => exact execRingEnable_within (Within.refl _ _) (sub_of (by simp only [partsOf]; decide)) h
  | ringDisable _ _ _ => exact execRingDisable_within (Within.refl _ _) (sub_of (by simp only [partsOf]; decide)) h
  | bar2Access _ _ _ _ => exact execBar2Access_within (Within.refl _ _) (sub_of (by simp only [partsOf]; decide)) h
  | bellPoll _ _ _ => exact execBellPoll_within (Within.refl _ _) (sub_of (by simp only [partsOf]; decide)) h
  | inputSegmentArrival _ _ _ _ _ _ _ => exact execInputSegmentArrival_within (Within.refl _ _) (sub_of (by simp only [partsOf]; decide)) h
  | segmentTimeout _ => exact execSegmentTimeout_within (Within.refl _ _) (sub_of (by simp only [partsOf]; decide)) h
  | readCompletionTimeout _ _ _ => exact execReadCompletionTimeout_within (Within.refl _ _) (sub_of (by simp only [partsOf]; decide)) h
  | loadParams _ _ _ => exact execLoadParams_within (Within.refl _ _) (sub_of (by simp only [partsOf]; decide)) h
  | loadKeys _ _ _ => exact execLoadKeys_within (Within.refl _ _) (sub_of (by simp only [partsOf]; decide)) h
  | loadModel _ _ _ => exact execLoadModel_within (Within.refl _ _) (sub_of (by simp only [partsOf]; decide)) h
  | submitCircuit _ _ _ => exact execSubmitCircuit_within (Within.refl _ _) (sub_of (by simp only [partsOf]; decide)) h
  | directOp _ _ _ => exact execDirectOp_within (Within.refl _ _) (sub_of (by simp only [partsOf]; decide)) h
  | rawSector _ _ _ => exact execRawSector_within (Within.refl _ _) (sub_of (by simp only [partsOf]; decide)) h
  | copy _ _ _ => exact execCopy_within (Within.refl _ _) (sub_of (by simp only [partsOf]; decide)) h
  | fence _ _ _ => exact execFence_within (Within.refl _ _) (sub_of (by simp only [partsOf]; decide)) h
  | freeBuffer _ _ _ => exact execFreeBuffer_within (Within.refl _ _) (sub_of (by simp only [partsOf]; decide)) h
  | freeSlot _ _ _ => exact execFreeSlot_within (Within.refl _ _) (sub_of (by simp only [partsOf]; decide)) h
  | queryDevice _ _ _ => exact execQueryDevice_within (Within.refl _ _) (sub_of (by simp only [partsOf]; decide)) h
  | queryFunction _ _ _ => exact execQueryFunction_within (Within.refl _ _) (sub_of (by simp only [partsOf]; decide)) h
  | querySector _ _ _ => exact execQuerySector_within (Within.refl _ _) (sub_of (by simp only [partsOf]; decide)) h
  | queryModel _ _ _ => exact execQueryModel_within (Within.refl _ _) (sub_of (by simp only [partsOf]; decide)) h
  | queryBuiltin _ _ _ => exact execQueryBuiltin_within (Within.refl _ _) (sub_of (by simp only [partsOf]; decide)) h
  | queryAttest _ _ _ => exact execQueryAttest_within (Within.refl _ _) (sub_of (by simp only [partsOf]; decide)) h
  | queryIdentity _ _ _ => exact execQueryIdentity_within (Within.refl _ _) (sub_of (by simp only [partsOf]; decide)) h
  | cancel _ _ _ => exact execCancel_within (Within.refl _ _) (sub_of (by simp only [partsOf]; decide)) h
  | schedule _ _ _ => exact execSchedule_within (Within.refl _ _) (sub_of (by simp only [partsOf]; decide)) h
  | alloc _ _ _ => exact execAlloc_within (Within.refl _ _) (sub_of (by simp only [partsOf]; decide)) h
  | sectorForm _ _ _ => exact execSectorForm_within (Within.refl _ _) (sub_of (by simp only [partsOf]; decide)) h
  | sectorRelease _ _ _ => exact execSectorRelease_within (Within.refl _ _) (sub_of (by simp only [partsOf]; decide)) h
  | setQuota _ _ _ => exact execSetQuota_within (Within.refl _ _) (sub_of (by simp only [partsOf]; decide)) h
  | setExpert _ _ _ => exact execSetExpert_within (Within.refl _ _) (sub_of (by simp only [partsOf]; decide)) h
  | directOpBatchWindow _ _ => exact execDirectOpBatchWindow_within (Within.refl _ _) (sub_of (by simp only [partsOf]; decide)) h
  | programLoad _ => exact execProgramLoad_within (Within.refl _ _) (sub_of (by simp only [partsOf]; decide)) h
  | operationIssue _ => exact execOperationIssue_within (Within.refl _ _) (sub_of (by simp only [partsOf]; decide)) h
  | recvTimeout _ _ => exact execRecvTimeout_within (Within.refl _ _) (sub_of (by simp only [partsOf]; decide)) h
  | admissionWalk => exact execAdmissionWalk_within (Within.refl _ _) (sub_of (by simp only [partsOf]; decide)) h
  | strideEnd _ _ => exact execStrideEnd_within (Within.refl _ _) (sub_of (by simp only [partsOf]; decide)) h
  | jobComplete _ => exact execJobComplete_within (Within.refl _ _) (sub_of (by simp only [partsOf]; decide)) h
  | denseFloorExpiry _ => exact execDenseFloorExpiry_within (Within.refl _ _) (sub_of (by simp only [partsOf]; decide)) h
  | sectorZeroingEnd _ => exact execSectorZeroingEnd_within (Within.refl _ _) (sub_of (by simp only [partsOf]; decide)) h
  | swapIn _ => exact execSwapIn_within (Within.refl _ _) (sub_of (by simp only [partsOf]; decide)) h
  | stageGroup _ _ => exact execStageGroup_within (Within.refl _ _) (sub_of (by simp only [partsOf]; decide)) h
  | weightReload _ => exact execWeightReload_within (Within.refl _ _) (sub_of (by simp only [partsOf]; decide)) h
  | refreshTableCopy _ => exact execRefreshTableCopy_within (Within.refl _ _) (sub_of (by simp only [partsOf]; decide)) h
  | encodeRequestStart _ => exact execEncodeRequestStart_within (Within.refl _ _) (sub_of (by simp only [partsOf]; decide)) h
  | encodeRequestDone _ => exact execEncodeRequestDone_within (Within.refl _ _) (sub_of (by simp only [partsOf]; decide)) h
  | keyPassActivate _ => exact execKeyPassActivate_within (Within.refl _ _) (sub_of (by simp only [partsOf]; decide)) h
  | keyBurst _ => exact execKeyBurst_within (Within.refl _ _) (sub_of (by simp only [partsOf]; decide)) h
  | keySliceLanded _ _ => exact execKeySliceLanded_within (Within.refl _ _) (sub_of (by simp only [partsOf]; decide)) h
  | keyPassEnd _ => exact execKeyPassEnd_within (Within.refl _ _) (sub_of (by simp only [partsOf]; decide)) h
  | quantumExpiry _ => exact execQuantumExpiry_within (Within.refl _ _) (sub_of (by simp only [partsOf]; decide)) h
  | sliceSuspend _ => exact execSliceSuspend_within (Within.refl _ _) (sub_of (by simp only [partsOf]; decide)) h
  | restDelayExpiry _ => exact execRestDelayExpiry_within (Within.refl _ _) (sub_of (by simp only [partsOf]; decide)) h
  | startSlot => exact execStartSlot_within (Within.refl _ _) (sub_of (by simp only [partsOf]; decide)) h
  | paceChangeEnd _ => exact execPaceChangeEnd_within (Within.refl _ _) (sub_of (by simp only [partsOf]; decide)) h
  | syncInEdge _ => exact execSyncInEdge_within (Within.refl _ _) (sub_of (by simp only [partsOf]; decide)) h
  | localTick _ => exact execLocalTick_within (Within.refl _ _) (sub_of (by simp only [partsOf]; decide)) h
  | tickWatchdogExpiry _ => exact execTickWatchdogExpiry_within (Within.refl _ _) (sub_of (by simp only [partsOf]; decide)) h
  | ringHold _ => exact execRingHold_within (Within.refl _ _) (sub_of (by simp only [partsOf]; decide)) h
  | ringRelease _ => exact execRingRelease_within (Within.refl _ _) (sub_of (by simp only [partsOf]; decide)) h
  | capture _ => exact execCapture_within (Within.refl _ _) (sub_of (by simp only [partsOf]; decide)) h
  | captureGatherEnd _ => exact execCaptureGatherEnd_within (Within.refl _ _) (sub_of (by simp only [partsOf]; decide)) h
  | pace _ => exact execPace_within (Within.refl _ _) (sub_of (by simp only [partsOf]; decide)) h
  | checkpoint _ => exact execCheckpoint_within (Within.refl _ _) (sub_of (by simp only [partsOf]; decide)) h
  | maintenance _ => exact execMaintenance_within (Within.refl _ _) (sub_of (by simp only [partsOf]; decide)) h
  | mark _ => exact execMark_within (Within.refl _ _) (sub_of (by simp only [partsOf]; decide)) h
  | maintenanceActivityBegin _ => exact execMaintenanceActivityBegin_within (Within.refl _ _) (sub_of (by simp only [partsOf]; decide)) h
  | maintenanceActivityEnd _ _ => exact execMaintenanceActivityEnd_within (Within.refl _ _) (sub_of (by simp only [partsOf]; decide)) h
  | mntIdleTimeout _ => exact execMntIdleTimeout_within (Within.refl _ _) (sub_of (by simp only [partsOf]; decide)) h
  | patrolScrub _ _ => exact execPatrolScrub_within (Within.refl _ _) (sub_of (by simp only [partsOf]; decide)) h
  | dramRefresh c => exact execDramRefresh_within (a0 := c) (Within.refl _ _) h
  | deviceMemoryResponse _ _ => exact execDeviceMemoryResponse_within (Within.refl _ _) (sub_of (by simp only [partsOf]; decide)) h
  | memoryRequestTimeout _ => exact execMemoryRequestTimeout_within (Within.refl _ _) (sub_of (by simp only [partsOf]; decide)) h
  | hardwareCheck _ _ => exact execHardwareCheck_within (Within.refl _ _) (sub_of (by simp only [partsOf]; decide)) h
  | sectorReform _ => exact execSectorReform_within (Within.refl _ _) (sub_of (by simp only [partsOf]; decide)) h
  | modelTileReplace _ _ _ => exact execModelTileReplace_within (Within.refl _ _) (sub_of (by simp only [partsOf]; decide)) h
  | fenCmdFence => exact execFenCmdFence_within (Within.refl _ _) (sub_of (by simp only [partsOf]; decide)) h
  | fenCmdUnfence => exact execFenCmdUnfence_within (Within.refl _ _) (sub_of (by simp only [partsOf]; decide)) h
  | fenCmdRead => exact execFenCmdRead_within (Within.refl _ _) (sub_of (by simp only [partsOf]; decide)) h
  | pkeYield _ => exact execPkeYield_within (Within.refl _ _) (sub_of (by simp only [partsOf]; decide)) h
  | pkeJobEnd _ _ => exact execPkeJobEnd_within (Within.refl _ _) (sub_of (by simp only [partsOf]; decide)) h
  | drbgHealthFail _ => exact execDrbgHealthFail_within (Within.refl _ _) (sub_of (by simp only [partsOf]; decide)) h
  | curveLoad _ => exact execCurveLoad_within (Within.refl _ _) (sub_of (by simp only [partsOf]; decide)) h
  | curveCheckEnd => exact execCurveCheckEnd_within (Within.refl _ _) (sub_of (by simp only [partsOf]; decide)) h
  | curveClear _ => exact execCurveClear_within (Within.refl _ _) (sub_of (by simp only [partsOf]; decide)) h
  | curveRead _ => exact execCurveRead_within (Within.refl _ _) (sub_of (by simp only [partsOf]; decide)) h
  | signerWrite _ _ => exact execSignerWrite_within (Within.refl _ _) (sub_of (by simp only [partsOf]; decide)) h
  | signerClear _ _ => exact execSignerClear_within (Within.refl _ _) (sub_of (by simp only [partsOf]; decide)) h
  | signerRead _ _ => exact execSignerRead_within (Within.refl _ _) (sub_of (by simp only [partsOf]; decide)) h
  | roleCommit _ _ => exact execRoleCommit_within (Within.refl _ _) (sub_of (by simp only [partsOf]; decide)) h
  | roleRead _ _ => exact execRoleRead_within (Within.refl _ _) (sub_of (by simp only [partsOf]; decide)) h
  | pairResync => exact execPairResync_within (Within.refl _ _) (sub_of (by simp only [partsOf]; decide)) h
  | pairHandover => exact execPairHandover_within (Within.refl _ _) (sub_of (by simp only [partsOf]; decide)) h
  | pairTakeoverWrite => exact execPairTakeoverWrite_within (Within.refl _ _) (sub_of (by simp only [partsOf]; decide)) h
  | portLockLoss _ => exact execPortLockLoss_within (Within.refl _ _) (sub_of (by simp only [partsOf]; decide)) h
  | portTrainingEnd _ _ _ => exact execPortTrainingEnd_within (Within.refl _ _) (sub_of (by simp only [partsOf]; decide)) h
  | flitTransmit _ => exact execFlitTransmit_within (Within.refl _ _) (sub_of (by simp only [partsOf]; decide)) h
  | replayTimeout _ => exact execReplayTimeout_within (Within.refl _ _) (sub_of (by simp only [partsOf]; decide)) h
  | idle _ _ _ => exact execIdle_within (Within.refl _ _) (sub_of (by simp only [partsOf]; decide)) h
  | lnak _ _ _ => exact execLnak_within (Within.refl _ _) (sub_of (by simp only [partsOf]; decide)) h
  | data _ _ _ => exact execData_within (Within.refl _ _) (sub_of (by simp only [partsOf]; decide)) h
  | messageInputTimeout _ _ => exact execMessageInputTimeout_within (Within.refl _ _) (sub_of (by simp only [partsOf]; decide)) h
  | ack _ _ _ => exact execAck_within (Within.refl _ _) (sub_of (by simp only [partsOf]; decide)) h
  | nack _ _ _ => exact execNack_within (Within.refl _ _) (sub_of (by simp only [partsOf]; decide)) h
  | ackTimeout _ => exact execAckTimeout_within (Within.refl _ _) (sub_of (by simp only [partsOf]; decide)) h
  | resendWaitExpiry _ => exact execResendWaitExpiry_within (Within.refl _ _) (sub_of (by simp only [partsOf]; decide)) h
  | busyRetryExpiry _ => exact execBusyRetryExpiry_within (Within.refl _ _) (sub_of (by simp only [partsOf]; decide)) h
  | probe _ _ _ => exact execProbe_within (Within.refl _ _) (sub_of (by simp only [partsOf]; decide)) h
  | probeAck _ _ _ => exact execProbeAck_within (Within.refl _ _) (sub_of (by simp only [partsOf]; decide)) h
  | takeover _ _ _ => exact execTakeover_within (Within.refl _ _) (sub_of (by simp only [partsOf]; decide)) h
  | heartbeatMiss => exact execHeartbeatMiss_within (Within.refl _ _) (sub_of (by simp only [partsOf]; decide)) h
  | probeTimeout => exact execProbeTimeout_within (Within.refl _ _) (sub_of (by simp only [partsOf]; decide)) h
  | tick _ _ _ _ => exact execTick_within (Within.refl _ _) (sub_of (by simp only [partsOf]; decide)) h
  | heartbeat _ _ _ => exact execHeartbeat_within (Within.refl _ _) (sub_of (by simp only [partsOf]; decide)) h
  | state _ _ _ => exact execState_within (Within.refl _ _) (sub_of (by simp only [partsOf]; decide)) h
  | journal _ _ _ => exact execJournal_within (Within.refl _ _) (sub_of (by simp only [partsOf]; decide)) h
  | mirror _ _ _ => exact execMirror_within (Within.refl _ _) (sub_of (by simp only [partsOf]; decide)) h
  | commit _ _ _ => exact execCommit_within (Within.refl _ _) (sub_of (by simp only [partsOf]; decide)) h
  | digest _ _ _ => exact execDigest_within (Within.refl _ _) (sub_of (by simp only [partsOf]; decide)) h
  | bundleIssue _ _ => exact execBundleIssue_within (Within.refl _ _) (sub_of (by simp only [partsOf]; decide)) h
  | programFault _ => exact execProgramFault_within (Within.refl _ _) (sub_of (by simp only [partsOf]; decide)) h
  | waitTimeout _ _ _ => exact execWaitTimeout_within (Within.refl _ _) (sub_of (by simp only [partsOf]; decide)) h
  | signalAction _ _ => exact execSignalAction_within (Within.refl _ _) (sub_of (by simp only [partsOf]; decide)) h
  | barrierComplete _ _ _ => exact execBarrierComplete_within (Within.refl _ _) (sub_of (by simp only [partsOf]; decide)) h
  | arrayResultReady _ _ => exact execArrayResultReady_within (Within.refl _ _) (sub_of (by simp only [partsOf]; decide)) h
  | coreStoreLoadService _ _ _ => exact execCoreStoreLoadService_within (Within.refl _ _) (sub_of (by simp only [partsOf]; decide)) h
  | coreStoreStoreService _ _ => exact execCoreStoreStoreService_within (Within.refl _ _) (sub_of (by simp only [partsOf]; decide)) h
  | loadDataReturn _ _ _ => exact execLoadDataReturn_within (Within.refl _ _) (sub_of (by simp only [partsOf]; decide)) h
  | segldComplete _ _ => exact execSegldComplete_within (Within.refl _ _) (sub_of (by simp only [partsOf]; decide)) h
  | streamPortService _ _ _ => exact execStreamPortService_within (Within.refl _ _) (sub_of (by simp only [partsOf]; decide)) h
  | tileBankService _ _ _ => exact execTileBankService_within (Within.refl _ _) (sub_of (by simp only [partsOf]; decide)) h
  | creditGrant _ => exact execCreditGrant_within (Within.refl _ _) (sub_of (by simp only [partsOf]; decide)) h
  | streamRequestIssue _ => exact execStreamRequestIssue_within (Within.refl _ _) (sub_of (by simp only [partsOf]; decide)) h
  | chunkLanded _ _ => exact execChunkLanded_within (Within.refl _ _) (sub_of (by simp only [partsOf]; decide)) h
  | outChunkAck _ _ => exact execOutChunkAck_within (Within.refl _ _) (sub_of (by simp only [partsOf]; decide)) h
  | streamEnd _ _ => exact execStreamEnd_within (Within.refl _ _) (sub_of (by simp only [partsOf]; decide)) h
  | pairMirrorDone => exact execPairMirrorDone_within (Within.refl _ _) (sub_of (by simp only [partsOf]; decide)) h
  | inputProtectionTrip => exact execInputProtectionTrip_within (Within.refl _ _) (sub_of (by simp only [partsOf]; decide)) h
  | elementResultWrite _ _ => exact execElementResultWrite_within (Within.refl _ _) (sub_of (by simp only [partsOf]; decide)) h
  | transformAssistResult _ _ => exact execTransformAssistResult_within (Within.refl _ _) (sub_of (by simp only [partsOf]; decide)) h
  | hashLaneDigestDone _ => exact execHashLaneDigestDone_within (Within.refl _ _) (sub_of (by simp only [partsOf]; decide)) h
  | warmResetZeroingEnd => exact execWarmResetZeroingEnd_within (Within.refl _ _) (sub_of (by simp only [partsOf]; decide)) h

end Sys2Proof.Machine
end

