-- ==== Sys2Proof/WellFormed.lean ====
section
/-! DEFINITION. Well-formed commands: every number lies in the range that the spec gives it (functions 0 to 63, rings 0 to
16 with the admin ring, and ring 31 of mirrored descriptors, log entry 16; compute dies 0 to 11, I/O dies 12 and 13, tiles, cores, ports with 32 for the loop, and the widths of
flit fields of Table 13.2). A meaning does not rely on it: an ill-formed command leaves what it names nowhere alone. -/

namespace Sys2Proof

/-- A processor of the module (R534, R545). -/
def procOk : Proc → Bool
  | .dieSeq d => decide (d < 12)
  | .ioSeq i => decide (i < 2)
  | .keeper i => decide (i < 2)
  | .host => true
  | .sideband => true
/-- A master of register accesses (R393). -/
def masterOk : Master → Bool
  | .bar0 f => decide (f < 64)
  | .proc p => procOk p
/-- Fields of a flit (Table 13.2). -/
def flitOk (f : Flit) : Bool :=
  decide (f.typ < 16 ∧ f.vc < 4 ∧ f.seq < 4096 ∧ f.ack < 4096 ∧ f.crVc < 4 ∧ f.crCount < 64 ∧ f.dst < 2 ^ 20 ∧ f.ttl < 64 ∧
    f.gen < 4 ∧ f.src < 2 ^ 20 ∧ f.msgId < 2 ^ 32 ∧ f.payload.length ≤ 236)
/-- A boot's findings: self-test steps 0 to 3, images A, B or neither, map copies (R508, R582). -/
def bootOk (r : BootReport) : Bool :=
  decide (r.fail0 ≤ 3 ∧ r.image0 ≤ 2 ∧ r.fail1 ≤ 3 ∧ r.image1 ≤ 2 ∧ r.copyA ≤ 2 ∧ r.copyB ≤ 2)
/-- A remap record (Table 17.5). -/
def remapOk (r : Remap) : Bool :=
  decide (r.row < 512) && (if r.kind = 1 then decide (r.unit < 26112 ∧ r.bank < 8) else r.kind == 2 && decide (r.unit < 408 ∧ r.bank < 16))
/-- A phase's findings (Tables 17.1 and 17.2). -/
def phaseOk (r : PhaseReport) : Bool :=
  decide (r.ms < 65536) && (r.badCtls.all fun c => decide (c < 272)) && (r.badCores.all fun g => decide (g < 26112)) &&
    (r.badTiles.all fun t => decide (t < 408)) && r.remaps.all remapOk
/-- An activity's findings (R594 to R599). -/
def mntOk (r : MntReport) : Bool := decide (r.lanes < 16) && (r.badCores.all fun g => decide (g < 26112)) && r.remaps.all remapOk
/-- A sample holds every sensor and rail (R512). -/
def sampleOk (s : Sample) : Bool := decide (s.temps.length = 128 ∧ s.volts.length = 64 ∧ s.amps.length = 64)

/-- Well-formed commands. -/
def wellFormed : Instr → Bool
  | .powerApplied vin rep => decide (vin < 65536) && bootOk rep
  | .startPhaseEnd rep => phaseOk rep
  | .phaseTimeout => true
  | .perstDeassert => true
  | .perstAssert => true
  | .wakeRelease => true
  | .configRequest f off _ _ => decide (f < 64) && decide (off < 4096)
  | .moduleWithdrawal vin => decide (vin < 65536)
  | .powerFail vin => decide (vin < 65536)
  | .hwThermalTrip sensor => decide (sensor < 128)
  | .keeperWatchdog rep => bootOk rep
  | .keeperSample smp => sampleOk smp
  | .opSecondsSave => true
  | .pllUnlock die dom => decide (die < 14) && decide (dom < 5)
  | .pllRelock die dom _ => decide (die < 14) && decide (dom < 5)
  | .smbusArp cmd => decide (cmd < 256)
  | .mctpControl _ cmd _ => decide (cmd < 256)
  | .pldmSetEventReceiver eid => decide (eid < 256)
  | .pldmEventAck => true
  | .pldmGetSensorReading id => decide (id < 65536)
  | .pldmFruRead _ _ => true
  | .pldmPowerOn => true
  | .pldmPowerOff => true
  | .pldmWarmReset => true
  | .pldmColdReset => true
  | .resetGraceExpiry => true
  | .pldmSetCapWatts d w => decide (d < 12) && decide (w < 256)
  | .pldmSetCapPace d p => decide (d < 12) && decide (p < 8)
  | .regRead _ _ => true
  | .regWrite _ _ => true
  | .dayLoad seq => decide (seq < 4294967296)
  | .dayHoldFreeze => true
  | .dayHoldThaw => true
  | .latchRead => true
  | .daymarkProgram _ => true
  | .freezeLimitExpiry m => decide (m < 2)
  | .dayCmdLoad => true
  | .dayCmdNext => true
  | .dayCmdFreeze => true
  | .dayCmdThaw => true
  | .dayCmdRetry _ => true
  | .dayCmdClearLatch => true
  | .eicClaim e t who => decide (e < 14) && decide (t < 4) && procOk who
  | .eicComplete e t src => decide (e < 14) && decide (t < 4) && decide (src < 512)
  | .eicSwset e src who => decide (e < 14) && decide (src < 512) && procOk who
  | .eicLock e _ => decide (e < 14)
  | .hubWake d => decide (d < 12)
  | .registerWrite m _ _ _ => masterOk m
  | .rcRead m _ _ => masterOk m
  | .pairLoRead m _ => masterOk m
  | .pairHiWrite m _ _ => masterOk m
  | .pairLoWrite m _ _ => masterOk m
  | .jobObjPolicyWrite f _ => decide (f < 64)
  | .hifFnResetGo f => decide (f < 64)
  | .functionLevelReset f => decide (f < 64)
  | .vfEnableClear => true
  | .ringEnable f r _ => decide (f < 64) && decide (r < 32)
  | .ringDisable f r _ => decide (f < 64) && decide (r < 32)
  | .bar2Access off _ _ _ => decide (off < 68719476736)
  | .bellPoll f bell fetched => decide (f < 64) && decide (bell.length = 0 ∨ bell.length = 64) && (fetched.all fun b => b.length == 64)
  | .inputSegmentArrival f _ _ _ _ _ _ => decide (f < 64)
  | .segmentTimeout _ => true
  | .readCompletionTimeout _ _ _ => true
  | .loadParams f r _ => decide (f < 64) && decide (r < 32)
  | .loadKeys f r _ => decide (f < 64) && decide (r < 32)
  | .loadModel f r _ => decide (f < 64) && decide (r < 32)
  | .submitCircuit f r _ => decide (f < 64) && decide (r < 32)
  | .directOp f r _ => decide (f < 64) && decide (r < 32)
  | .rawSector f r _ => decide (f < 64) && decide (r < 32)
  | .copy f r _ => decide (f < 64) && decide (r < 32)
  | .fence f r _ => decide (f < 64) && decide (r < 32)
  | .freeBuffer f r _ => decide (f < 64) && decide (r < 32)
  | .freeSlot f r _ => decide (f < 64) && decide (r < 32)
  | .queryDevice f r _ => decide (f < 64) && decide (r < 32)
  | .queryFunction f r _ => decide (f < 64) && decide (r < 32)
  | .querySector f r _ => decide (f < 64) && decide (r < 32)
  | .queryModel f r _ => decide (f < 64) && decide (r < 32)
  | .queryBuiltin f r _ => decide (f < 64) && decide (r < 32)
  | .queryAttest f r _ => decide (f < 64) && decide (r < 32)
  | .queryIdentity f r _ => decide (f < 64) && decide (r < 32)
  | .cancel f r _ => decide (f < 64) && decide (r < 32)
  | .schedule f r _ => decide (f < 64) && decide (r < 32)
  | .alloc f r _ => decide (f < 64) && decide (r < 32)
  | .sectorForm f r _ => decide (f < 64) && decide (r < 32)
  | .sectorRelease f r _ => decide (f < 64) && decide (r < 32)
  | .setQuota f r _ => decide (f < 64) && decide (r < 32)
  | .setExpert f r _ => decide (f < 64) && decide (r < 32)
  | .directOpBatchWindow f r => decide (f < 64) && decide (r < 32)
  | .programLoad sec => decide (sec < 64)
  | .operationIssue sec => decide (sec < 64)
  | .recvTimeout sec _ => decide (sec < 64)
  | .admissionWalk => true
  | .strideEnd sec k => decide (sec < 64) && decide (k < 4)
  | .jobComplete sec => decide (sec < 64)
  | .denseFloorExpiry sec => decide (sec < 64)
  | .sectorZeroingEnd t => decide (t < 408)
  | .swapIn sec => decide (sec < 64)
  | .stageGroup sec grp => decide (sec < 64) && decide (grp < 65536)
  | .weightReload sec => decide (sec < 64)
  | .refreshTableCopy sec => decide (sec < 64)
  | .encodeRequestStart fe => decide (fe < 2)
  | .encodeRequestDone fe => decide (fe < 2)
  | .keyPassActivate iod => decide (iod < 2)
  | .keyBurst b => decide (b.iod < 2)
  | .keySliceLanded _ _ => true
  | .keyPassEnd _ => true
  | .quantumExpiry sec => decide (sec < 64)
  | .sliceSuspend sec => decide (sec < 64)
  | .restDelayExpiry sec => decide (sec < 64)
  | .startSlot => true
  | .paceChangeEnd t => decide (t < 408)
  | .syncInEdge _ => true
  | .localTick _ => true
  | .tickWatchdogExpiry _ => true
  | .ringHold n => decide (n < 64)
  | .ringRelease n => decide (n < 64)
  | .capture n => decide (n < 64)
  | .captureGatherEnd n => decide (n < 64)
  | .pace n => decide (n < 64)
  | .checkpoint n => decide (n < 64)
  | .maintenance n => decide (n < 64)
  | .mark n => decide (n < 64)
  | .maintenanceActivityBegin _ => true
  | .maintenanceActivityEnd _ rep => mntOk rep
  | .mntIdleTimeout _ => true
  | .patrolScrub p _ => decide (p.addr < 4503599627370496)
  | .dramRefresh ctl => decide (ctl < 272)
  | .deviceMemoryResponse ctl _ => decide (ctl < 272)
  | .memoryRequestTimeout ctl => decide (ctl < 272)
  | .hardwareCheck g unit => decide (g < 26112) && decide (unit < 2)
  | .sectorReform sec => decide (sec < 64)
  | .modelTileReplace f slot _ => decide (f < 64) && decide (slot < 8)
  | .fenCmdFence => true
  | .fenCmdUnfence => true
  | .fenCmdRead => true
  | .pkeYield _ => true
  | .pkeJobEnd _ _ => true
  | .drbgHealthFail test => decide (test < 256)
  | .curveLoad slot => decide (slot < 8)
  | .curveCheckEnd => true
  | .curveClear slot => decide (slot < 8)
  | .curveRead slot => decide (slot < 8)
  | .signerWrite f slot => decide (f < 64) && decide (slot < 4)
  | .signerClear f slot => decide (f < 64) && decide (slot < 4)
  | .signerRead f slot => decide (f < 64) && decide (slot < 4)
  | .roleCommit m _ => masterOk m
  | .roleRead m _ => masterOk m
  | .pairResync => true
  | .pairHandover => true
  | .pairTakeoverWrite => true
  | .portLockLoss p => decide (p < 32)
  | .portTrainingEnd p _ lanes => decide (p < 32) && decide (lanes < 16)
  | .flitTransmit p => decide (p ≤ 32)
  | .replayTimeout p => decide (p < 32)
  | .idle p fl _ => decide (p ≤ 32) && flitOk fl
  | .lnak p fl _ => decide (p ≤ 32) && flitOk fl
  | .data p fl _ => decide (p ≤ 32) && flitOk fl
  | .messageInputTimeout slot pool => decide (slot < 4096) && decide (pool < 65536)
  | .ack p fl _ => decide (p ≤ 32) && flitOk fl
  | .nack p fl _ => decide (p ≤ 32) && flitOk fl
  | .ackTimeout _ => true
  | .resendWaitExpiry _ => true
  | .busyRetryExpiry _ => true
  | .probe p fl _ => decide (p ≤ 32) && flitOk fl
  | .probeAck p fl _ => decide (p ≤ 32) && flitOk fl
  | .takeover p fl _ => decide (p ≤ 32) && flitOk fl
  | .heartbeatMiss => true
  | .probeTimeout => true
  | .tick p fl _ _ => decide (p ≤ 32) && flitOk fl
  | .heartbeat p fl _ => decide (p ≤ 32) && flitOk fl
  | .state p fl _ => decide (p ≤ 32) && flitOk fl
  | .journal p fl _ => decide (p ≤ 32) && flitOk fl
  | .mirror p fl _ => decide (p ≤ 32) && flitOk fl
  | .commit p fl _ => decide (p ≤ 32) && flitOk fl
  | .digest p fl _ => decide (p ≤ 32) && flitOk fl
  | .bundleIssue g _ => decide (g < 26112)
  | .programFault sec => decide (sec < 64)
  | .waitTimeout g k _ => decide (g < 26112) && decide (k < 4)
  | .signalAction g _ => decide (g < 26112)
  | .barrierComplete sec ch _ => decide (sec < 64) && decide (ch < 4)
  | .arrayResultReady g _ => decide (g < 26112)
  | .coreStoreLoadService g _ _ => decide (g < 26112)
  | .coreStoreStoreService g _ => decide (g < 26112)
  | .loadDataReturn g k _ => decide (g < 26112) && decide (k < 4)
  | .segldComplete g _ => decide (g < 26112)
  | .streamPortService g _ _ => decide (g < 26112)
  | .tileBankService t _ _ => decide (t < 408)
  | .creditGrant g => decide (g < 26112)
  | .streamRequestIssue g => decide (g < 26112)
  | .chunkLanded g k => decide (g < 26112) && decide (k < 8)
  | .outChunkAck g k => decide (g < 26112) && decide (k < 8)
  | .streamEnd g k => decide (g < 26112) && decide (k < 8)
  | .pairMirrorDone => true
  | .inputProtectionTrip => true
  | .elementResultWrite g _ => decide (g < 26112)
  | .transformAssistResult g _ => decide (g < 26112)
  | .hashLaneDigestDone lane => decide (lane < 16)
  | .warmResetZeroingEnd => true

end Sys2Proof
end

