-- ==== Sys2Proof/Tests/Slice0.lean ====
section
/-! SUPPORT. Tests: commands that are not well formed, for each check of WellFormed; worked examples of the spec; and for every
statement with hypotheses a state and operands that meet them (one theorem for each of its clauses). -/

namespace Sys2Proof.Tests

set_option Elab.async false

open Sys2Proof Sys2Proof.Machine

/-! ### Small states -/

/-- The invariant, as one truth value. -/
def invB (s : State) : Bool :=
  Memory.wf s.mem && twf false s.sramPoison && kwf regReset s.regs && twf Core.fresh s.cores && twf Fn.fresh s.fns &&
    twf none s.sectors && twf none s.jobs && decide (s.start.phase ≤ 8)

theorem inv_of {s : State} (h : invB s = true) : s.Inv := by
  simp only [invB, Bool.and_eq_true, decide_eq_true_eq] at h
  exact ⟨h.1.1.1.1.1.1.1, h.1.1.1.1.1.1.2, h.1.1.1.1.1.2, h.1.1.1.1.2, h.1.1.1.2, h.1.1.2, h.1.2, h.2⟩

/-- A bounded claim, with its bounds in either order. -/
theorem below {n : Nat} {p : Nat → Prop} (h : ∀ m, m < n → 1 ≤ m → p m) : ∀ m, 1 ≤ m → m < n → p m :=
  fun m a b => h m b a

/-- Device ready, the Keeper of IOD0 active, PERST# deasserted. -/
def up : State :=
  { State.reset with
    start := { Startup.init with phase := 8, rails := true, perst := false, vin := 480 }
    keeper := { Keeper.init with state := .ready, active := 1 } }

/-- A register holds a value. -/
def put (o v : Nat) (s : State) : State := regSet s o (BitVec.ofNat 32 v)

/-- A descriptor of a type whose words from word 2 on are given. -/
def desc (f r i ty : Nat) (ws : List Nat) (ph : DescPhase) : Desc :=
  ⟨f, r, i, ([ty * 2 ^ 24, 0] ++ ws ++ List.replicate (14 - ws.length) 0).flatMap (leBytes 4), 0, 0, ph, 0⟩

/-- Device ready with one descriptor fetched. -/
def withDesc (d : Desc) (s : State) : State := modFn s d.fn fun x => { x with descs := x.descs ++ [d] }

theorem witness_EmptyQueueIdles_1 : ∃ (s : State),
    s.pending = [] :=
  ⟨up, by decide +kernel⟩

theorem witness_EveryStepKeepsTheInvariant_1 : ∃ (s t : State),
    s.Inv ∧
    step s = .next t :=
  ⟨up, up, inv_of (by decide +kernel), rfl⟩

theorem witness_RegisterWriteCompletes_1 : ∃ (m : Master) (off v : Nat) (s : State) (fs : List Fld),
    0x40000 ≤ off ∧
    off < 0x60000 ∧
    off % 4 = 0 ∧
    masterUp s m off = true ∧
    mayReach m off = true ∧
    (m = .proc .sideband → sbDenied s = false) ∧
    regAt off = some (fs, .no) :=
  ⟨(.bar0 0), 0x50004, 1, up, (((regAt 0x50004).map (·.1)).getD []), by decide +kernel, by decide +kernel, by decide +kernel, by decide +kernel, by decide +kernel, nofun, by decide +kernel⟩

theorem witness_RegisterWriteCompletes_2 : ∃ (m : Master) (off v : Nat) (s : State),
    0x40000 ≤ off ∧
    off < 0x60000 ∧
    off % 4 = 0 ∧
    masterUp s m off = true ∧
    mayReach m off = true ∧
    (m = .proc .sideband → sbDenied s = false) ∧
    regAt off = none :=
  ⟨(.bar0 0), 0x4FFFC, 1, up, by decide +kernel, by decide +kernel, by decide +kernel, by decide +kernel, by decide +kernel, nofun, by decide +kernel⟩

theorem witness_RegisterWriteCompletes_3 : ∃ (off v : Nat) (s : State),
    0x40000 ≤ off ∧
    off < 0x60000 ∧
    off % 4 = 0 ∧
    masterUp s (.proc .sideband) off = true ∧
    sbDenied s = true :=
  ⟨0x5FFFC, 1, (put 0x04000000 1 up), by decide +kernel, by decide +kernel, by decide +kernel, by decide +kernel, by decide +kernel⟩

theorem witness_BadRegisterWriteIsDiscardedAndFlagged_1 : ∃ (f off width v : Nat) (s : State),
    s.start.phase = 8 ∧
    mayReach (.bar0 f) (regOff off) = true ∧
    (width ≠ 4 ∨ regOff off % 4 ≠ 0) ∧
    (getFn s f).resetting = false :=
  ⟨63, 0x04FC0001, 4, 0, up, by decide +kernel, by decide +kernel, by decide +kernel, by decide +kernel⟩

theorem witness_RcReadLosesNoEvent_1 : ∃ (m : Master) (off n : Nat) (s : State) (fs : List Fld),
    masterUp s m (regOff off) = true ∧
    mayReach m (regOff off) = true ∧
    regOff off % 4 = 0 ∧
    mirrorClaim (regOff off) = false ∧
    eicAt (regOff off) = none ∧
    (∀ f, fnOfOff (regOff off) = some f → (getFn s f).resetting = false) ∧
    regAt (regOff off) = some (fs, .no) ∧
    maskOfAcc fs (· == .rc) ≠ 0 :=
  ⟨(.bar0 0), 0x03FC2030, 1, up, (((regAt 0x04002030).map (·.1)).getD []), by decide +kernel, by decide +kernel, by decide +kernel, by decide +kernel, by decide +kernel, fun _ _ => rfl, by decide +kernel, by decide +kernel⟩

theorem witness_RcReadLosesNoEvent_2 : ∃ (m : Master) (off w n : Nat) (s : State),
    (w ≠ 4 ∨ regOff off % 4 ≠ 0) :=
  ⟨(.bar0 0), 0x50008, 8, 1, up, by decide +kernel⟩

theorem witness_PairLoReadCapturesTheShadow_1 : ∃ (m : Master) (off : Nat) (s t : State) (fs : List Fld),
    masterUp s m (regOff off) = true ∧
    mayReach m (regOff off) = true ∧
    regOff off % 4 = 0 ∧
    mirrorClaim (regOff off) = false ∧
    eicAt (regOff off) = none ∧
    regAt (regOff off) = some (fs, .lo) ∧
    t = { s with shadows := tset (regReset (regOff off + 4)) s.shadows (pairKey (masterNo m) (regOff off + 4)) (wordAt s (regOff off + 4)) } :=
  ⟨(.bar0 0), 0x30008, up, _, (((regAt 0x30008).map (·.1)).getD []), by decide +kernel, by decide +kernel, by decide +kernel, by decide +kernel, by decide +kernel, by decide +kernel, rfl⟩

theorem witness_PairWritesTakeEffectAtTheLowHalf_1 : ∃ (m : Master) (v : Word) (s : State),
    masterUp s m 0x30014 = true ∧
    mayReach m 0x30014 = true ∧
    (m = .proc .sideband → sbDenied s = false) :=
  ⟨(.bar0 0), 5, up, by decide +kernel, by decide +kernel, nofun⟩

theorem witness_PairWritesTakeEffectAtTheLowHalf_2 : ∃ (m : Master) (v : Word) (s : State),
    s.Inv ∧
    masterUp s m 0x30010 = true ∧
    mayReach m 0x30010 = true ∧
    (m = .proc .sideband → sbDenied s = false) :=
  ⟨(.bar0 0), 5, up, inv_of (by decide +kernel), by decide +kernel, by decide +kernel, nofun⟩

theorem witness_JobObjPolicyLocks_1 : ∃ (f : Nat) (v : Word) (s : State),
    f < 64 ∧
    s.start.phase = 8 ∧
    (getFn s f).resetting = false ∧
    bit (regGet s (fnBase f + 0x2000)).toNat 4 = false :=
  ⟨63, 1, up, by decide +kernel, by decide +kernel, by decide +kernel, by decide +kernel⟩

theorem witness_JobObjPolicyLocks_2 : ∃ (f : Nat) (v : Word) (s : State),
    f < 64 ∧
    s.start.phase = 8 ∧
    (getFn s f).resetting = false ∧
    bit (regGet s (fnBase f + 0x2000)).toNat 4 = true :=
  ⟨63, 1, (put (fnBase 63 + 0x2000) 0x10 up), by decide +kernel, by decide +kernel, by decide +kernel, by decide +kernel⟩

theorem witness_JobObjPolicyLocks_3 : ∃ (w : Word),
    bit w.toNat 4 = true :=
  ⟨0x10, by decide +kernel⟩

theorem witness_RoleCommandsComplete_1 : ∃ (m : Master) (v : Word) (s : State) (slot : Nat) (r : Role),
    masterUp s m 0x20024 = true ∧
    mayReach m 0x20024 = true ∧
    (m = .proc .sideband → sbDenied s = false) ∧
    bit v.toNat 1 = false ∧
    slot = regFld s 0x20010 11 0 ∧
    r = roleMask ⟨regGet s 0x20014, regGet s 0x20018, regGet s 0x2001C, regGet s 0x20020⟩ ∧
    roleStatus s slot r ≠ 0 :=
  ⟨(.bar0 0), 1, (put 0x20014 0xC0000000 up), _, _, by decide +kernel, by decide +kernel, nofun, by decide +kernel, rfl, rfl, by decide +kernel⟩

theorem witness_RoleCommandsComplete_2 : ∃ (m : Master) (v : Word) (s : State) (slot : Nat) (r : Role),
    masterUp s m 0x20024 = true ∧
    mayReach m 0x20024 = true ∧
    (m = .proc .sideband → sbDenied s = false) ∧
    bit v.toNat 1 = false ∧
    slot = regFld s 0x20010 11 0 ∧
    r = roleMask ⟨regGet s 0x20014, regGet s 0x20018, regGet s 0x2001C, regGet s 0x20020⟩ ∧
    roleStatus s slot r = 0 ∧
    mirroring (putRole (regSetFld (countOutcome s (slot / 64) 0) 0x20028 31 16 0) slot r) = false :=
  ⟨(.bar0 0), 1, up, _, _, by decide +kernel, by decide +kernel, nofun, by decide +kernel, rfl, rfl, by decide +kernel, by decide +kernel⟩

theorem witness_RoleCommandsComplete_3 : ∃ (m : Master) (v : Word) (s : State) (r : Role),
    masterUp s m 0x20024 = true ∧
    mayReach m 0x20024 = true ∧
    (m = .proc .sideband → sbDenied s = false) ∧
    bit v.toNat 0 = false ∧
    r = roleAt s (regFld s 0x20010 11 0) :=
  ⟨(.bar0 0), 2, up, _, by decide +kernel, by decide +kernel, nofun, by decide +kernel, rfl⟩

theorem witness_ClaimTakesTheBestEligibleSource_1 : ∃ (e t n : Nat) (who : Proc) (s : State),
    e < 14 ∧
    t < 4 ∧
    (12 ≤ e → t ≠ 0) ∧
    procOf s e t = some who ∧
    1 ≤ n ∧
    n < 512 ∧
    eicEligible s e t n = true ∧
    (∀ m, 1 ≤ m → m < 512 → eicEligible s e t m = true → eicPriority s e m < eicPriority s e n ∨ (eicPriority s e m = eicPriority s e n ∧ m ≤ n)) :=
  ⟨0, 0, 300, (.dieSeq 0), (setPendingBit (put 0x804B0 0x80010000 up) 0 300 true), by decide +kernel, by decide +kernel, by decide +kernel, by decide +kernel, by decide +kernel, by decide +kernel, by decide +kernel, below (by decide +kernel)⟩

theorem witness_ClaimTakesTheBestEligibleSource_2 : ∃ (e t : Nat) (who : Proc) (s : State),
    (∀ m, 1 ≤ m → m < 512 → eicEligible s e t m = false) :=
  ⟨13, 3, (.keeper 0), up, below (by decide +kernel)⟩

theorem witness_ClaimTakesTheBestEligibleSource_3 : ∃ (e t : Nat) (who : Proc) (s : State),
    procOf s e t ≠ some who :=
  ⟨0, 0, .host, up, by decide +kernel⟩

theorem witness_CompletePopsOrFaults_1 : ∃ (e t src p : Nat) (l : List (Nat × Nat)) (s : State),
    e < 14 ∧
    t < 4 ∧
    (12 ≤ e → t ≠ 0) ∧
    src < 512 ∧
    eicStack s e t = (src, p) :: l :=
  ⟨13, 3, 300, 1, [], (setEicStack up 13 3 [(300, 1)]), by decide +kernel, by decide +kernel, by decide +kernel, by decide +kernel, by decide +kernel⟩

theorem witness_CompletePopsOrFaults_2 : ∃ (e t src : Nat) (s : State),
    e < 14 ∧
    t < 4 ∧
    (12 ≤ e → t ≠ 0) ∧
    src < 512 ∧
    eicStack s e t = [] :=
  ⟨13, 3, 511, up, by decide +kernel, by decide +kernel, by decide +kernel, by decide +kernel, by decide +kernel⟩

theorem witness_CompletePopsOrFaults_3 : ∃ (e t src n p : Nat) (l : List (Nat × Nat)) (s u : State),
    e < 14 ∧
    t < 4 ∧
    (12 ≤ e → t ≠ 0) ∧
    src < 512 ∧
    twf [] s.eicStack = true ∧
    eicStack s e t = (n, p) :: l ∧
    n ≠ src ∧
    u = ((n, p) :: l).foldl (fun a x => setPendingBit a e x.1 true) s :=
  ⟨13, 3, 0, 300, 1, [], (setEicStack up 13 3 [(300, 1)]), _, by decide +kernel, by decide +kernel, by decide +kernel, by decide +kernel, by decide +kernel, by decide +kernel, by decide +kernel, rfl⟩

theorem witness_SoftwareSourcesLockAndWake_1 : ∃ (e src : Nat) (who : Proc) (s : State),
    e < 14 ∧
    256 ≤ src ∧
    src < 512 ∧
    who ≠ .host ∧
    who ≠ .sideband ∧
    s.Inv ∧
    e ∉ s.sched.slateHubs :=
  ⟨13, 511, (.keeper 0), up, by decide +kernel, by decide +kernel, by decide +kernel, by decide +kernel, by decide +kernel, inv_of (by decide +kernel), by decide +kernel⟩

theorem witness_SoftwareSourcesLockAndWake_2 : ∃ (e src : Nat) (who : Proc) (s : State),
    (src < 256 ∨ 512 ≤ src ∨ who = .host ∨ who = .sideband) :=
  ⟨0, 255, (.keeper 0), up, by decide +kernel⟩

theorem witness_SoftwareSourcesLockAndWake_3 : ∃ (e : Nat) (v : Word) (s : State),
    e < 14 ∧
    bit v.toNat 0 = true ∧
    s.Inv :=
  ⟨13, 1, up, by decide +kernel, by decide +kernel, inv_of (by decide +kernel)⟩

theorem witness_SoftwareSourcesLockAndWake_4 : ∃ (e : Nat) (v : Word) (s : State),
    bit v.toNat 0 = false :=
  ⟨0, 2, up, by decide +kernel⟩

theorem witness_SoftwareSourcesLockAndWake_5 : ∃ (d : Nat) (s : State),
    d ∈ s.sched.hubWakes :=
  ⟨11, ({ up with sched := { up.sched with hubWakes := [11], slateHubs := [11] } }), by decide +kernel⟩


/-- A Daymark record, and a state in which it is the one of two that are staged. -/
def rec_ : DayRec := ⟨0, 0x0801, 0xFF, 0, 0, 0, 0, 1, 0, [0, 0, 0, 0, 0, 0], 0⟩
def staged : State :=
  { up with day := { up.day with staged := [rec_, { rec_ with seq := 1 }], next := 2 } }
/-- A master holds a freeze. -/
def frozen (m : Nat) : State := { up with day := { up.day with freezes := [(m, some 0)] } }
/-- A start in a phase. -/
def phase (n : Nat) : State := { up with start := { up.start with phase := n } }
/-- What a start phase and a boot find when all is well. -/
def good : PhaseReport := ⟨1, false, [], [], [], [], false, false⟩
def boot : BootReport := ⟨0, 0, 0, 0, .ok, 0, 0⟩

theorem witness_DaymarkWindowShowsTheRecord_1 : ∃ (s : State),
    s.keeper.active ≠ 0 ∧
    s.Inv :=
  ⟨staged, by decide +kernel, inv_of (by decide +kernel)⟩

theorem witness_DaymarkWindowShowsTheRecord_2 : ∃ (s : State),
    s.keeper.active ≠ 0 ∧
    s.Inv :=
  ⟨staged, by decide +kernel, inv_of (by decide +kernel)⟩

theorem witness_DaymarkWindowShowsTheRecord_3 : ∃ (s : State) (r : DayRec),
    r ∈ dayRecords s ∧
    (∀ q ∈ dayRecords s, q.seq = r.seq → q = r) :=
  ⟨staged, rec_, by decide +kernel, by decide +kernel⟩

theorem witness_DaymarkWindowShowsTheRecord_4 : ∃ (s : State) (n : Nat),
    (∀ q ∈ dayRecords s, q.seq ≠ n) :=
  ⟨staged, 2, by decide +kernel⟩

theorem witness_FreezesAreHeldByEachMaster_1 : ∃ (s : State),
    s.keeper.active ≠ 0 ∧
    twf none s.day.freezes = true ∧
    tget none s.day.freezes 0 = none :=
  ⟨up, by decide +kernel, by decide +kernel, by decide +kernel⟩

theorem witness_FreezesAreHeldByEachMaster_2 : ∃ (s : State),
    tget none s.day.freezes 0 ≠ none :=
  ⟨(frozen 0), by decide +kernel⟩

theorem witness_FreezesAreHeldByEachMaster_3 : ∃ (s : State),
    tget none s.day.freezes 0 = none :=
  ⟨up, by decide +kernel⟩

theorem witness_FreezesAreHeldByEachMaster_4 : ∃ (s : State),
    s.keeper.active ≠ 0 ∧
    tget none s.day.freezes 0 ≠ none ∧
    tget none s.day.freezes 1 = none ∧
    twf none s.day.freezes = true :=
  ⟨(frozen 0), by decide +kernel, by decide +kernel, by decide +kernel, by decide +kernel⟩

theorem witness_FreezesAreHeldByEachMaster_5 : ∃ (s : State),
    s.keeper.active ≠ 0 ∧
    tget none s.day.freezes 1 = none :=
  ⟨up, by decide +kernel, by decide +kernel⟩

theorem witness_FreezesAreHeldByEachMaster_6 : ∃ (s : State),
    s.keeper.active ≠ 0 ∧
    tget none s.day.freezes 1 ≠ none :=
  ⟨(frozen 1), by decide +kernel, by decide +kernel⟩

theorem witness_FreezesAreHeldByEachMaster_7 : ∃ (m b : Nat) (s : State),
    m < 2 ∧
    tget none s.day.freezes m = some b ∧
    b + Nat.max 1 (regFld s 0x70000 15 0) ≤ opSeconds s :=
  ⟨1, 0, (put 0x60080 30 (frozen 1)), by decide +kernel, by decide +kernel, by decide +kernel⟩

theorem witness_DaymarkCommandsComplete_1 : ∃ (r : DayRec) (s : State),
    dayDue s = some r ∧
    s.day.dropped = 0 :=
  ⟨rec_, staged, by decide +kernel, by decide +kernel⟩

theorem witness_DaymarkCommandsComplete_2 : ∃ (r : DayRec) (s : State),
    dayDue s = some r ∧
    s.day.retried = false :=
  ⟨rec_, staged, by decide +kernel, by decide +kernel⟩

theorem witness_DaymarkCommandsComplete_3 : ∃ (res : FlashResult) (s : State),
    s.keeper.active ≠ 0 ∧
    dayDegraded s = false :=
  ⟨.erase, up, by decide +kernel, by decide +kernel⟩

theorem witness_DaymarkCommandsComplete_4 : ∃ (s : State),
    s.keeper.active ≠ 0 ∧
    dayDegraded s = true :=
  ⟨(put 0x70004 4 staged), by decide +kernel, by decide +kernel⟩

theorem witness_DaymarkCommandsComplete_5 : ∃ (s u v w : State),
    s.keeper.active ≠ 0 ∧
    dayDegraded s = true ∧
    u = dayFlush (regSetFld (dayErase s (retrySector s)) 0x70004 2 2 0) ∧
    v = dayEvent u 0x0803 0xFF 0 [(u.day.next + 2 ^ 32 - u.day.ramFrom) % 2 ^ 32] ∧
    (w = (if (∀ k, k < 4 → regFld u (0x70080 + 4 * k) 30 28 = 0) then v else dayEvent v 0x0802 0xFF 0 ((List.range 4).map (fun k => (regGet u (0x70080 + 4 * k)).toNat) ++ [regFld v 0x70090 15 0]))) :=
  ⟨(put 0x70004 4 staged), _, _, _, by decide +kernel, by decide +kernel, rfl, rfl, rfl⟩

theorem witness_DaymarkCommandsComplete_6 : ∃ (s : State),
    s.keeper.active ≠ 0 ∧
    s.Inv :=
  ⟨up, by decide +kernel, inv_of (by decide +kernel)⟩

theorem witness_DaymarkCommandsComplete_7 : ∃ (n : Nat) (s : State),
    s.keeper.active ≠ 0 ∧
    n < 2 ^ 32 :=
  ⟨0xFFFFFFFF, up, by decide +kernel, by decide +kernel⟩

theorem witness_DaymarkCommandsComplete_8 : ∃ (s : State),
    s.keeper.active ≠ 0 :=
  ⟨up, by decide +kernel⟩

theorem witness_StartPhasesFollowInOrder_1 : ∃ (vin : Nat) (rep : BootReport) (s : State),
    400 ≤ vin ∧
    keeperRuns rep.fail0 rep.image0 = true :=
  ⟨400, boot, State.reset, by decide +kernel, by decide +kernel⟩

theorem witness_StartPhasesFollowInOrder_2 : ∃ (rep : PhaseReport) (s : State),
    s.start.phase = 1 ∧
    s.start.warm = false ∧
    s.start.pendingReset = none :=
  ⟨good, (phase 1), by decide +kernel, by decide +kernel, by decide +kernel⟩

theorem witness_StartPhasesFollowInOrder_3 : ∃ (rep : PhaseReport) (s : State),
    s.start.phase = 2 ∧
    s.start.warm = false ∧
    s.start.pendingReset = none ∧
    rep.railBad = false :=
  ⟨good, (phase 2), by decide +kernel, by decide +kernel, by decide +kernel, by decide +kernel⟩

theorem witness_StartPhasesFollowInOrder_4 : ∃ (rep : PhaseReport) (s : State),
    s.start.phase = 2 ∧
    s.start.warm = false ∧
    rep.railBad = true ∧
    s.start.railRetry = true :=
  ⟨({ good with railBad := true }), ({ up with start := { up.start with phase := 2, railRetry := true } }), by decide +kernel, by decide +kernel, by decide +kernel, by decide +kernel⟩

theorem witness_StartPhasesFollowInOrder_5 : ∃ (rep : PhaseReport) (s : State),
    s.start.phase = 7 ∧
    s.start.warm = false ∧
    s.start.perst = false ∧
    s.start.pendingReset = none :=
  ⟨good, (phase 7), by decide +kernel, by decide +kernel, by decide +kernel, by decide +kernel⟩

theorem witness_StartPhasesFollowInOrder_6 : ∃ (s : State),
    s.start.phase ≠ 0 ∧
    s.start.phase < 8 ∧
    s.start.warm = false ∧
    (s.start.phase = 7 → s.start.perst = false) :=
  ⟨(phase 7), by decide +kernel, by decide +kernel, by decide +kernel, by decide +kernel⟩

theorem witness_PinsResetsAndConfigurationComplete_2 : ∃ (s : State),
    s.start.perst = false ∧
    s.start.phase ≠ 8 ∧
    s.start.wake = false :=
  ⟨(phase 7), by decide +kernel, by decide +kernel, by decide +kernel⟩

theorem witness_PinsResetsAndConfigurationComplete_3 : ∃ (s : State),
    s.start.perst = false ∧
    s.start.phase = 8 ∧
    s.start.pendingReset = none :=
  ⟨up, by decide +kernel, by decide +kernel, by decide +kernel⟩

theorem witness_PinsResetsAndConfigurationComplete_4 : ∃ (s : State),
    s.start.wake = true :=
  ⟨({ up with start := { up.start with wake := true } }), by decide +kernel⟩

theorem witness_PinsResetsAndConfigurationComplete_5 : ∃ (s : State),
    s.start.warm = true :=
  ⟨({ up with start := { up.start with warm := true } }), by decide +kernel⟩

theorem witness_PinsResetsAndConfigurationComplete_6 : ∃ (f off : Nat) (w : Bool) (v : Word) (s : State),
    s.start.perst = false ∧
    s.start.rails = true ∧
    f < 64 ∧
    s.start.phase ≠ 8 :=
  ⟨63, 0, true, 0, (phase 7), by decide +kernel, by decide +kernel, by decide +kernel, by decide +kernel⟩

theorem witness_PinsResetsAndConfigurationComplete_7 : ∃ (off : Nat) (v : Word) (s : State),
    s.start.perst = false ∧
    s.start.rails = true ∧
    s.start.phase = 8 ∧
    off < 4 :=
  ⟨3, 0, up, by decide +kernel, by decide +kernel, by decide +kernel, by decide +kernel⟩

theorem witness_PinsResetsAndConfigurationComplete_8 : ∃ (f off : Nat) (v : Word) (s : State),
    s.start.perst = false ∧
    s.start.rails = true ∧
    s.start.phase = 8 ∧
    1 ≤ f ∧
    f < 64 ∧
    off < 4 :=
  ⟨1, 3, 0, up, by decide +kernel, by decide +kernel, by decide +kernel, by decide +kernel, by decide +kernel, by decide +kernel⟩

theorem witness_PinsResetsAndConfigurationComplete_9 : ∃ (f off : Nat) (v : Word) (s : State),
    s.start.perst = false ∧
    s.start.rails = true ∧
    s.start.phase = 8 ∧
    f < 64 ∧
    off / 4 = 2 :=
  ⟨63, 11, 0, up, by decide +kernel, by decide +kernel, by decide +kernel, by decide +kernel, by decide +kernel⟩

theorem witness_PinsResetsAndConfigurationComplete_10 : ∃ (f off : Nat) (v : Word) (s : State),
    s.start.perst = false ∧
    s.start.rails = true ∧
    s.start.phase = 8 ∧
    f < 64 :=
  ⟨0, 0, 0, up, by decide +kernel, by decide +kernel, by decide +kernel, by decide +kernel⟩

theorem witness_ModuleProtectionTakesTheRailsDown_1 : ∃ (vin : Nat) (s : State),
    s.keeper.state ≠ .off ∧
    s.start.withdrawn = false ∧
    380 < vin :=
  ⟨381, up, by decide +kernel, by decide +kernel, by decide +kernel⟩

theorem witness_ModuleProtectionTakesTheRailsDown_2 : ∃ (s : State),
    s.keeper.state ≠ .off ∧
    s.start.tripped = false :=
  ⟨up, by decide +kernel, by decide +kernel⟩

theorem witness_ModuleProtectionTakesTheRailsDown_3 : ∃ (sensor : Nat) (s : State),
    sensor < 108 ∧
    s.start.rails = true ∧
    s.keeper.active ≠ 0 :=
  ⟨107, up, by decide +kernel, by decide +kernel, by decide +kernel⟩

theorem witness_ModuleProtectionTakesTheRailsDown_4 : ∃ (vin : Nat) (s : State),
    vin < 380 ∧
    s.keeper.state ≠ .off ∧
    s.keeper.active ≠ 0 ∧
    dayDegraded s = false :=
  ⟨379, up, by decide +kernel, by decide +kernel, by decide +kernel, by decide +kernel⟩

theorem witness_KeeperAndPllCommandsComplete_1 : ∃ (rep : BootReport) (s : State),
    s.keeper.active = 2 ∧
    keeperRuns rep.fail1 rep.image1 = true :=
  ⟨boot, ({ up with keeper := { up.keeper with active := 2 } }), by decide +kernel, by decide +kernel⟩

theorem witness_KeeperAndPllCommandsComplete_2 : ∃ (rep : BootReport) (s : State),
    s.keeper.active = 1 ∧
    keeperRuns rep.fail0 rep.image0 = true ∧
    (s.keeper.restarts.filter fun t => decide (opSeconds s < t + 3600)).length < 2 :=
  ⟨boot, ({ up with keeper := { up.keeper with restarts := [0] } }), by decide +kernel, by decide +kernel, by decide +kernel⟩

theorem witness_KeeperAndPllCommandsComplete_3 : ∃ (rep : BootReport) (s : State),
    s.keeper.active = 1 ∧
    keeperRuns rep.fail1 rep.image1 = true ∧
    2 ≤ (s.keeper.restarts.filter fun t => decide (opSeconds s < t + 3600)).length :=
  ⟨boot, ({ up with keeper := { up.keeper with restarts := [0, 0] } }), by decide +kernel, by decide +kernel, by decide +kernel⟩

theorem witness_KeeperAndPllCommandsComplete_4 : ∃ (s : State),
    s.start.grace = true ∧
    s.start.pendingReset = some 2 :=
  ⟨({ up with start := { up.start with grace := true, pendingReset := some 2 } }), by decide +kernel, by decide +kernel⟩

theorem witness_KeeperAndPllCommandsComplete_5 : ∃ (s : State),
    s.start.grace = true ∧
    s.start.pendingReset = some 3 :=
  ⟨({ up with start := { up.start with grace := true, pendingReset := some 3 } }), by decide +kernel, by decide +kernel⟩

theorem witness_KeeperAndPllCommandsComplete_6 : ∃ (s : State),
    s.keeper.active ≠ 0 :=
  ⟨up, by decide +kernel⟩

theorem witness_KeeperAndPllCommandsComplete_7 : ∃ (smp : Sample) (s u : State),
    s.keeper.active ≠ 0 ∧
    u = runConds (rampReg (filterAll (countSecond { s with keeper := { s.keeper with restarting := false } }) smp)) ∧
    (u.start.phase = 0 ∨ shutCause u = none) :=
  ⟨⟨[], [], []⟩, ({ up with start := Startup.init }), _, by decide +kernel, rfl, Or.inl (by decide +kernel)⟩

theorem witness_KeeperAndPllCommandsComplete_8 : ∃ (die : Nat) (s : State),
    (die = 12 ∨ die = 13) ∧
    s.start.rails = true ∧
    pllTries s die 4 = 0 ∧
    s.Inv :=
  ⟨13, up, by decide +kernel, by decide +kernel, by decide +kernel, inv_of (by decide +kernel)⟩

theorem witness_KeeperAndPllCommandsComplete_9 : ∃ (die dom : Nat) (s u : State),
    die < 12 ∧
    dom < 4 ∧
    s.start.rails = true ∧
    pllTries s die dom = 0 ∧
    u = raiseSrc (loseExpanders (bump (setPll s die dom 1) 0x50008)) die 70 :=
  ⟨11, 3, up, _, by decide +kernel, by decide +kernel, by decide +kernel, by decide +kernel, rfl⟩

theorem witness_KeeperAndPllCommandsComplete_10 : ∃ (die dom n : Nat) (s : State),
    pllTries s die dom = n ∧
    1 ≤ n ∧
    n < 4 :=
  ⟨0, 0, 3, (setPll up 0 0 3), by decide +kernel, by decide +kernel, by decide +kernel⟩

theorem witness_KeeperAndPllCommandsComplete_11 : ∃ (die dom n : Nat) (s : State),
    pllTries s die dom = n ∧
    1 ≤ n ∧
    n < 3 :=
  ⟨0, 0, 2, (setPll up 0 0 2), by decide +kernel, by decide +kernel, by decide +kernel⟩

theorem witness_KeeperAndPllCommandsComplete_12 : ∃ (die dom : Nat) (s u : State),
    pllTries s die dom = 3 ∧
    die < 12 ∧
    s.start.phase = 8 ∧
    u = dayEvent (setPll s die dom 4) 0x0202 die dom [3, 1] :=
  ⟨11, 0, (setPll up 11 0 3), _, by decide +kernel, by decide +kernel, by decide +kernel, rfl⟩

theorem witness_FunctionResetsComplete_1 : ∃ (f : Nat) (s : State),
    (64 ≤ f ∨ (getFn s f).resetting = true ∨ s.start.phase ≠ 8) :=
  ⟨64, up, by decide +kernel⟩

theorem witness_FunctionResetsComplete_2 : ∃ (f : Nat) (s : State),
    f < 64 ∧
    (getFn s f).resetting = false ∧
    s.start.phase = 8 ∧
    s.zeroing = [] ∧
    sectorsOf s f = [] ∧
    s.Inv :=
  ⟨63, up, by decide +kernel, by decide +kernel, by decide +kernel, by decide +kernel, by decide +kernel, inv_of (by decide +kernel)⟩

theorem witness_FunctionResetsComplete_3 : ∃ (f : Nat) (s : State),
    f ≠ 0 :=
  ⟨1, up, by decide +kernel⟩

theorem witness_FunctionResetsComplete_6 : ∃ (t : Nat) (s : State),
    t ∈ s.zeroing :=
  ⟨407, ({ up with zeroing := [407] }), by decide +kernel⟩


/-- A maintenance activity that was granted at tick 0. -/
def act (cls target : Nat) (begun : Bool) : MntRun := ⟨7, ⟨cls, target, none, false⟩, 0, begun⟩
def running (a : MntRun) : State := { up with maint := { up.maint with running := [a] }, ftime := 20000 }
/-- 1 GiB of HBM on IOD0 and of GDDR7 on one device, with patrol of every memory enabled. -/
def memUp : State := put 0x10000 1024 (put 0x10008 1024 (put 0x10010 1 (put 0x10014 0xE0000000 { up with ftime := 20000 })))
/-- A request that waits at a port, for n bytes from an address. -/
def req (p : Port) (write : Bool) (a n : Nat) (o : Origin) : MemReq :=
  ⟨3, 3, a, n, 0, p, write, a, n, if write then List.replicate n ⟨1, false⟩ else [], [], [], [], o⟩
def waiting (r : MemReq) (s : State) : State := { s with memq := [r] }
/-- A schedule entry of function 0 that is due. -/
def due (action arg : Nat) : SchedEnt := ⟨0, 0, 0, action, arg, 1, false, 0, false, true, false, 0⟩
def dueAt (n : Nat) (e : SchedEnt) (s : State) : State := setSched s n (some e)
/-- A sector of function 0 with one tile and its cores. -/
def secA : Sector := { freshSector up 0 [0] none false with lambda := 180 }
/-- A sector of function 0 holds tile 0, and one core of it. -/
def oneSector (x : Sector) (s : State) : State :=
  modCore (setSector s 5 (some x)) 0 fun c => { c with sector := some 5 }
/-- A key pass of that sector: one slice for one core. -/
def pass0 : Pass := ⟨1, 0, 5, 0, 0, 0, 0, 12, 1, 1, 0, 2, 1, 0, 1, [], true, [(0, 0)], [], false, [0], [], [], false, false⟩
def withPass (p : Pass) (s : State) : State := { s with passes := [p] }
/-- An idle flit. -/
def flit (typ : Nat) (l : List Byte) : Flit := ⟨typ, 0, 0, 0xFFF, 0, 0, 0, 0, true, true, 0, 0, 0, l⟩
/-- A buffer of 4 KiB of function 0. -/
def buf0 : Buf := ⟨1, true, gddrBase, 4096⟩
def withBuf (s : State) : State := modFn s 0 fun x => { x with bufs := tset Buf.free x.bufs 2 buf0 }

theorem witness_SidebandReadsComplete_1 : ∃ (cmd : Nat) (s : State),
    s.keeper.active ≠ 0 :=
  ⟨0, up, by decide +kernel⟩

theorem witness_SidebandReadsComplete_2 : ∃ (cmd : Nat) (s : State),
    s.keeper.active = 0 :=
  ⟨0, State.reset, by decide +kernel⟩

theorem witness_SidebandReadsComplete_3 : ∃ (cmd : Nat) (data : List Byte) (s : State),
    s.keeper.active ≠ 0 :=
  ⟨0, [], up, by decide +kernel⟩

theorem witness_SidebandReadsComplete_4 : ∃ (data : List Byte) (s : State),
    s.keeper.active ≠ 0 :=
  ⟨[], up, by decide +kernel⟩

theorem witness_SidebandReadsComplete_5 : ∃ (eid : Nat) (s : State),
    s.keeper.active ≠ 0 :=
  ⟨8, up, by decide +kernel⟩

theorem witness_SidebandReadsComplete_6 : ∃ (s : State),
    s.keeper.active ≠ 0 ∧
    s.keeper.smbalert = true :=
  ⟨({ up with keeper := { up.keeper with smbalert := true } }), by decide +kernel, by decide +kernel⟩

theorem witness_SidebandReadsComplete_7 : ∃ (n : Nat) (s : State),
    s.keeper.active ≠ 0 ∧
    n < 128 :=
  ⟨127, up, by decide +kernel, by decide +kernel⟩

theorem witness_SidebandReadsComplete_8 : ∃ (n : Nat) (s : State),
    s.keeper.active ≠ 0 ∧
    n < 64 :=
  ⟨63, up, by decide +kernel, by decide +kernel⟩

theorem witness_SidebandReadsComplete_9 : ∃ (d : Nat) (s : State),
    s.keeper.active ≠ 0 ∧
    d < 12 :=
  ⟨11, up, by decide +kernel, by decide +kernel⟩

theorem witness_SidebandReadsComplete_10 : ∃ (s : State),
    s.keeper.active ≠ 0 ∧
    s.keeper.state = .ready :=
  ⟨up, by decide +kernel, by decide +kernel⟩

theorem witness_SidebandReadsComplete_11 : ∃ (off n : Nat) (s : State),
    s.keeper.active ≠ 0 :=
  ⟨0, 0, up, by decide +kernel⟩

theorem witness_PldmPowerCommandsComplete_1 : ∃ (s : State),
    s.keeper.active ≠ 0 ∧
    s.start.phase = 0 ∧
    s.start.warm = false ∧
    s.keeper.state = .shutdown ∧
    tooWarm s = true :=
  ⟨({ up with start := { Startup.init with vin := 480 }, keeper := { up.keeper with state := .shutdown, q := [(127, ⟨[], 100000⟩)] } }), by decide +kernel, by decide +kernel, by decide +kernel, by decide +kernel, by decide +kernel⟩

theorem witness_PldmPowerCommandsComplete_2 : ∃ (s : State),
    s.keeper.active ≠ 0 ∧
    s.start.phase = 0 ∧
    s.start.warm = false ∧
    (s.keeper.state = .standby ∨ s.keeper.state = .shutdown ∨ s.keeper.state = .failed) ∧
    tooWarm s = false ∧
    s.start.tripped = false ∧
    s.start.withdrawn = false :=
  ⟨({ up with start := { Startup.init with vin := 480 }, keeper := { up.keeper with state := .shutdown } }), by decide +kernel, by decide +kernel, by decide +kernel, by decide +kernel, by decide +kernel, by decide +kernel, by decide +kernel⟩

theorem witness_PldmPowerCommandsComplete_3 : ∃ (s u : State),
    s.keeper.active ≠ 0 ∧
    s.start.phase = 8 ∧
    s.start.warm = false ∧
    s.start.grace = false ∧
    u = raiseSrc (emit (dayEvent s 0x0105 0xFF 0 [2, 1]) (.sideband 0 [])) 12 39 ∧
    graceMs u = 0 :=
  ⟨up, _, by decide +kernel, by decide +kernel, by decide +kernel, by decide +kernel, rfl, by decide +kernel⟩

theorem witness_PldmPowerCommandsComplete_4 : ∃ (s u : State),
    s.keeper.active ≠ 0 ∧
    s.start.phase = 8 ∧
    s.start.warm = false ∧
    s.start.grace = false ∧
    u = raiseSrc (emit (dayEvent s 0x0105 0xFF 0 [3, 1]) (.sideband 0 [])) 12 39 ∧
    graceMs u = 0 :=
  ⟨up, _, by decide +kernel, by decide +kernel, by decide +kernel, by decide +kernel, rfl, by decide +kernel⟩

theorem witness_PldmPowerCommandsComplete_5 : ∃ (s u : State),
    s.keeper.active ≠ 0 ∧
    s.start.phase = 8 ∧
    s.start.warm = false ∧
    s.start.grace = false ∧
    u = raiseSrc (emit (dayEvent s 0x0105 0xFF 0 [3, 1]) (.sideband 0 [])) 12 39 ∧
    graceMs u = 0 :=
  ⟨up, _, by decide +kernel, by decide +kernel, by decide +kernel, by decide +kernel, rfl, by decide +kernel⟩

theorem witness_SidebandCapsAndRegistersComplete_1 : ∃ (d w : Nat) (s : State),
    s.keeper.active ≠ 0 ∧
    d < 12 :=
  ⟨11, 0, up, by decide +kernel, by decide +kernel⟩

theorem witness_SidebandCapsAndRegistersComplete_2 : ∃ (d p : Nat) (s : State),
    s.keeper.active ≠ 0 ∧
    d < 12 :=
  ⟨11, 7, up, by decide +kernel, by decide +kernel⟩

theorem witness_SidebandCapsAndRegistersComplete_3 : ∃ (off n : Nat) (s : State),
    s.keeper.active ≠ 0 ∧
    (off % 4 ≠ 0 ∨ n = 0 ∨ 16 < n) :=
  ⟨0, 17, up, by decide +kernel, by decide +kernel⟩

theorem witness_SidebandCapsAndRegistersComplete_4 : ∃ (off : Nat) (s : State),
    s.keeper.active ≠ 0 ∧
    off % 4 = 0 ∧
    off + 4 ≤ 0x03FC0000 ∧
    s.start.rails = false ∧
    standbyOff off = false :=
  ⟨0x5FFFC, ({ up with start := Startup.init }), by decide +kernel, by decide +kernel, by decide +kernel, by decide +kernel, by decide +kernel⟩

theorem witness_SidebandCapsAndRegistersComplete_5 : ∃ (off : Nat) (s : State) (r : Word × State),
    s.keeper.active ≠ 0 ∧
    off % 4 = 0 ∧
    off + 4 ≤ 0x03FC0000 ∧
    (s.start.rails = true ∨ standbyOff off = true) ∧
    r = masterRead s (.proc .sideband) off 4 0 :=
  ⟨0x60000, ({ up with start := Startup.init }), _, by decide +kernel, by decide +kernel, by decide +kernel, by decide +kernel, rfl⟩

theorem witness_SidebandCapsAndRegistersComplete_6 : ∃ (off : Nat) (v : Word) (s : State),
    s.keeper.active ≠ 0 ∧
    off % 4 = 0 ∧
    off + 4 ≤ 0x03FC0000 ∧
    (s.start.rails = true ∨ standbyOff off = true) ∧
    sbDenied s = true ∧
    sbOwn off = false :=
  ⟨0x6001C, 0, (put 0x04000000 1 up), by decide +kernel, by decide +kernel, by decide +kernel, by decide +kernel, by decide +kernel, by decide +kernel⟩

theorem witness_SidebandCapsAndRegistersComplete_7 : ∃ (off : Nat) (v : Word) (s : State),
    s.keeper.active ≠ 0 ∧
    off % 4 = 0 ∧
    off + 4 ≤ 0x03FC0000 ∧
    (s.start.rails = true ∨ standbyOff off = true) ∧
    (sbDenied s = false ∨ sbOwn off = true) :=
  ⟨0x60018, 0, (put 0x04000000 1 up), by decide +kernel, by decide +kernel, by decide +kernel, by decide +kernel, by decide +kernel⟩

theorem witness_MaintenanceAndPaceComplete_1 : ∃ (a : Nat) (s : State) (r : MntRun),
    mntFind s a = some r ∧
    r.begun = false ∧
    r.req.cls ≠ 5 ∧
    (needsIdle r.req.cls && (targetTile r.req.target).any (tileRunsJob s)) = false :=
  ⟨7, (running (act 4 0x300000 false)), (act 4 0x300000 false), by decide +kernel, by decide +kernel, by decide +kernel, by decide +kernel⟩

theorem witness_MaintenanceAndPaceComplete_2 : ∃ (a : Nat) (s : State) (r : MntRun),
    mntFind s a = some r ∧
    (r.begun = true ∨ (needsIdle r.req.cls && (targetTile r.req.target).any (tileRunsJob s)) = true) :=
  ⟨7, (running (act 4 0x300000 true)), (act 4 0x300000 true), by decide +kernel, by decide +kernel⟩

theorem witness_MaintenanceAndPaceComplete_3 : ∃ (a : Nat) (rep : MntReport) (s : State) (r : MntRun),
    mntFind s a = some r ∧
    r.begun = true :=
  ⟨7, ⟨true, [], false, [], 16⟩, (running (act 4 0x300000 true)), (act 4 0x300000 true), by decide +kernel, by decide +kernel⟩

theorem witness_MaintenanceAndPaceComplete_4 : ∃ (a : Nat) (s : State) (r : MntRun),
    mntFind s a = some r ∧
    r.begun = false ∧
    r.granted + Nat.max 1 (regFld s 0xB0000 31 16) ≤ s.ftime.toNat :=
  ⟨7, (running (act 2 0x100000 false)), (act 2 0x100000 false), by decide +kernel, by decide +kernel, by decide +kernel⟩

theorem witness_MaintenanceAndPaceComplete_5 : ∃ (g x addr n : Nat) (err : MemErr) (s : State),
    s.start.phase = 8 ∧
    patrolUnit s addr = some 32 ∧
    regionOf s addr = .cs g x ∧
    n % 4 = 3 ∧
    (getCore s g).scrubFrom ≤ n ∧
    (∀ k, k < 4 → portPending s g k = false) ∧
    tileOfCore g ∉ s.zeroing :=
  ⟨26111, 0x7FFF, (0x100000000000 + 26111 * 2 ^ 16 + 0x7FFF), 3, (.ue 0), memUp, by decide +kernel, by decide +kernel, by decide +kernel, by decide +kernel, by decide +kernel, by decide +kernel, by decide +kernel⟩

theorem witness_MaintenanceAndPaceComplete_6 : ∃ (t x addr n : Nat) (err : MemErr) (s : State),
    s.start.phase = 8 ∧
    patrolUnit s addr = some 1024 ∧
    regionOf s addr = .tb t x ∧
    n % 8 = 7 ∧
    tget 0 s.bankScrub t ≤ n ∧
    t ∉ s.zeroing :=
  ⟨407, 0x2FFFFF, (0x200000000000 + 407 * 2 ^ 22 + 0x2FFFFF), 7, .none, memUp, by decide +kernel, by decide +kernel, by decide +kernel, by decide +kernel, by decide +kernel, by decide +kernel⟩

theorem witness_MaintenanceAndPaceComplete_7 : ∃ (addr n c : Nat) (err : MemErr) (s : State),
    s.start.phase = 8 ∧
    patrolUnit s addr = some 2048 ∧
    (regionOf s addr = .hbm ∨ regionOf s addr = .gddr) ∧
    c = controllerOf s (addr / 2048 * 2048) ∧
    ctlHeld s c = false ∧
    oldest s (.dram c) = none ∧
    tget 0 s.dramScrub c + Nat.max 1 (regFld s 0x10014 7 0) ≤ s.ftime.toNat :=
  ⟨(2 ^ 30 - 1), 0, _, .none, memUp, by decide +kernel, by decide +kernel, by decide +kernel, rfl, by decide +kernel, by decide +kernel, by decide +kernel⟩

theorem witness_MaintenanceAndPaceComplete_8 : ∃ (addr n c : Nat) (r : MemReq) (err : MemErr) (s : State),
    s.start.phase = 8 ∧
    patrolUnit s addr = some 2048 ∧
    (regionOf s addr = .hbm ∨ regionOf s addr = .gddr) ∧
    c = controllerOf s (addr / 2048 * 2048) ∧
    ctlHeld s c = false ∧
    oldest s (.dram c) = some r ∧
    tget 0 s.dramScrub c + 2 * Nat.max 1 (regFld s 0x10014 7 0) ≤ s.ftime.toNat :=
  ⟨gddrBase, 0, _, (req (.dram 256) true gddrBase 32 .host), .none, (waiting (req (.dram 256) true gddrBase 32 .host) memUp), by decide +kernel, by decide +kernel, by decide +kernel, rfl, by decide +kernel, by decide +kernel, by decide +kernel⟩

theorem witness_MaintenanceAndPaceComplete_9 : ∃ (p : ScrubSlot) (err : MemErr) (s : State),
    (s.start.phase ≠ 8 ∨ patrolUnit s p.addr = none) :=
  ⟨⟨0x7FFFFFFFFF, 0⟩, .none, memUp, by decide +kernel⟩

theorem witness_MaintenanceAndPaceComplete_11 : ∃ (s : State),
    s.sched.startQ = [] :=
  ⟨up, by decide +kernel⟩

theorem witness_MaintenanceAndPaceComplete_12 : ∃ (t : Nat) (q : List Nat) (m : PaceMove) (s : State),
    s.sched.startQ = t :: q ∧
    tget none s.sched.moves t = some m :=
  ⟨3, [4], ⟨2, true⟩, ({ up with sched := { up.sched with startQ := [3, 4], moves := [(3, some ⟨2, true⟩)] } }), by decide +kernel, by decide +kernel⟩

theorem witness_MaintenanceAndPaceComplete_13 : ∃ (t : Nat) (q : List Nat) (s : State),
    s.sched.startQ = t :: q ∧
    tget none s.sched.moves t = none :=
  ⟨3, [4], ({ up with sched := { up.sched with startQ := [3, 4] } }), by decide +kernel, by decide +kernel⟩

theorem witness_MaintenanceAndPaceComplete_14 : ∃ (t : Nat) (s : State),
    tget none s.sched.moves t = none :=
  ⟨407, up, by decide +kernel⟩

theorem witness_AcceptedTicksAdvanceFabricTime_1 : ∃ (dt : Nat) (s : State),
    timeRuns s = true ∧
    tickSource s = 0 ∧
    dt < 25 :=
  ⟨24, (put 0x30000 0 up), by decide +kernel, by decide +kernel, by decide +kernel⟩

theorem witness_AcceptedTicksAdvanceFabricTime_2 : ∃ (dt : Nat) (s : State),
    timeRuns s = true ∧
    tickSource s = 0 ∧
    25 ≤ dt ∧
    s.Inv ∧
    bit (regGet s 0x30004).toNat 5 = false :=
  ⟨25, (put 0x30000 0 up), by decide +kernel, by decide +kernel, by decide +kernel, inv_of (by decide +kernel), by decide +kernel⟩

theorem witness_AcceptedTicksAdvanceFabricTime_3 : ∃ (dt : Nat) (s : State),
    timeRuns s = true ∧
    tickSource s = 0 ∧
    25 ≤ dt ∧
    s.Inv ∧
    bit (regGet s 0x30004).toNat 5 = true :=
  ⟨25, (put 0x30004 0x20 (put 0x30000 0 up)), by decide +kernel, by decide +kernel, by decide +kernel, inv_of (by decide +kernel), by decide +kernel⟩

theorem witness_AcceptedTicksAdvanceFabricTime_4 : ∃ (dt : Nat) (s : State),
    timeRuns s = true ∧
    localRuns s = true ∧
    s.sched.localInt ≤ dt ∧
    25 ≤ dt ∧
    tickSource s ≠ 1 ∧
    s.Inv ∧
    bit (regGet s 0x30004).toNat 5 = false :=
  ⟨100, up, by decide +kernel, by decide +kernel, by decide +kernel, by decide +kernel, by decide +kernel, inv_of (by decide +kernel), by decide +kernel⟩

theorem witness_AcceptedTicksAdvanceFabricTime_5 : ∃ (p dt : Nat) (fl : Flit) (good : Bool) (s u : State),
    receiveAs 4 s p fl good = (u, true) ∧
    isPairPort u p = false ∧
    timeRuns u = true ∧
    tickSource u = 1 ∧
    p = regFld u 0x30000 12 8 ∧
    25 ≤ dt ∧
    u.ftime.toNat < fieldAt fl.payload 0 8 :=
  ⟨1, 25, (flit 4 (leBytes 8 5)), true, (put 0x30000 0x101 (put 0x2010C 2 up)), ((receiveAs 4 (put 0x30000 0x101 (put 0x2010C 2 up)) 1 (flit 4 (leBytes 8 5)) true).1), by decide +kernel, by decide +kernel, by decide +kernel, by decide +kernel, by decide +kernel, by decide +kernel, by decide +kernel⟩

theorem witness_AcceptedTicksAdvanceFabricTime_6 : ∃ (dt : Nat) (s u : State),
    timeRuns s = true ∧
    tickSource s ≠ 2 ∧
    100 * watchdogLimit s ≤ dt ∧
    u = raiseSrc (sbAlert (dayEvent (regSetFld s 0x30004 0 0 1) 0x0203 12 0 [tickSource s])) 12 34 ∧
    bit (regGet u 0x30000).toNat 16 = false :=
  ⟨200000, (put 0x30000 0 up), _, by decide +kernel, by decide +kernel, by decide +kernel, rfl, by decide +kernel⟩

theorem witness_DueEntriesFireAndGather_1 : ∃ (n : Nat) (e : SchedEnt) (s : State),
    nextFiring s = some n ∧
    getSched s n = some e :=
  ⟨63, (due 1 15), (dueAt 63 (due 1 15) (up)), by decide +kernel, by decide +kernel⟩

theorem witness_DueEntriesFireAndGather_2 : ∃ (n r : Nat) (e x : SchedEnt) (s : State),
    nextFiring s = some n ∧
    getSched s n = some e ∧
    e.action = 1 ∧
    e.late = false ∧
    bits e.arg 4 0 = r ∧
    r < 16 ∧
    s.sched.holds.contains (e.fn * 16 + r) = false ∧
    x = { e with due := false, fired := true, firedAt := s.ftime.toNat } :=
  ⟨63, 15, (due 1 15), _, (dueAt 63 (due 1 15) (up)), by decide +kernel, by decide +kernel, by decide +kernel, by decide +kernel, by decide +kernel, by decide +kernel, by decide +kernel, rfl⟩

theorem witness_DueEntriesFireAndGather_3 : ∃ (n r : Nat) (e x : SchedEnt) (s : State),
    nextFiring s = some n ∧
    getSched s n = some e ∧
    e.action = 2 ∧
    e.late = false ∧
    bits e.arg 4 0 = r ∧
    r < 16 ∧
    x = { e with due := false, fired := true, firedAt := s.ftime.toNat } :=
  ⟨63, 15, (due 2 15), _, (dueAt 63 (due 2 15) (up)), by decide +kernel, by decide +kernel, by decide +kernel, by decide +kernel, by decide +kernel, by decide +kernel, rfl⟩

theorem witness_DueEntriesFireAndGather_4 : ∃ (n : Nat) (e x : SchedEnt) (y : Sector) (s : State),
    nextFiring s = some n ∧
    getSched s n = some e ∧
    e.action = 4 ∧
    e.late = false ∧
    getSector s (bits e.arg 5 0) = some y ∧
    y.owner = e.fn ∧
    x = { e with due := false, fired := true, firedAt := s.ftime.toNat } :=
  ⟨63, (due 4 5), _, secA, (dueAt 63 (due 4 5) (oneSector secA up)), by decide +kernel, by decide +kernel, by decide +kernel, by decide +kernel, by decide +kernel, by decide +kernel, rfl⟩

theorem witness_DueEntriesFireAndGather_5 : ∃ (n : Nat) (e x : SchedEnt) (s : State),
    nextFiring s = some n ∧
    getSched s n = some e ∧
    e.action = 7 ∧
    e.late = false ∧
    x = { e with due := false, fired := true, firedAt := s.ftime.toNat } :=
  ⟨63, (due 7 0), _, (dueAt 63 (due 7 0) (up)), by decide +kernel, by decide +kernel, by decide +kernel, by decide +kernel, rfl⟩

theorem witness_DueEntriesFireAndGather_6 : ∃ (n : Nat) (x : CapBank) (e : SchedEnt) (b : Buf) (bs : List Byte) (s : State),
    tget none s.sched.banks 0 = some x ∧
    x.users = [n] ∧
    getSched s n = some e ∧
    resolve s e.fn e.arg = (0, b) ∧
    bs = captureBytes s e.fn (tget [] x.tiles n) x :=
  ⟨63, ⟨0, [], [63], [(63, [0])]⟩, ({ due 3 (handleOf 0 1 2) with due := false, fired := true }), buf0, _, (dueAt 63 { due 3 (handleOf 0 1 2) with due := false, fired := true } (withBuf { up with sched := { up.sched with banks := [(0, some ⟨0, [], [63], [(63, [0])]⟩)] } })), by decide +kernel, by decide +kernel, by decide +kernel, by decide +kernel, rfl⟩

theorem witness_DueEntriesFireAndGather_7 : ∃ (s : State),
    nextFiring s ≠ none :=
  ⟨(dueAt 63 (due 1 15) (up)), by decide +kernel⟩

theorem witness_DueEntriesFireAndGather_8 : ∃ (s : State),
    nextFiring s = none ∧
    s.sched.walkDue = false :=
  ⟨up, by decide +kernel, by decide +kernel⟩

theorem witness_DueEntriesFireAndGather_9 : ∃ (s : State),
    nextFiring s = none ∧
    s.sched.walkDue = true :=
  ⟨({ up with sched := { up.sched with walkDue := true } }), by decide +kernel, by decide +kernel⟩

theorem witness_MemoryCommandsComplete_1 : ∃ (ctl : Nat) (err : MemErr) (s : State),
    oldest s (.dram ctl) = none :=
  ⟨256, .none, up, by decide +kernel⟩

theorem witness_MemoryCommandsComplete_2 : ∃ (ctl : Nat) (err : MemErr) (r : MemReq) (s : State),
    oldest s (.dram ctl) = some r ∧
    ctlHeld s ctl = false ∧
    r.write = true ∧
    (err ≠ .linkCrc ∨ controllerOf s r.addr < 256) :=
  ⟨256, .none, (req (.dram 256) true (gddrBase) 32 (.host)), (waiting (req (.dram 256) true (gddrBase) 32 (.host)) (memUp)), by decide +kernel, by decide +kernel, by decide +kernel, by decide +kernel⟩

theorem witness_MemoryCommandsComplete_3 : ∃ (ctl : Nat) (r : MemReq) (s : State),
    oldest s (.dram ctl) = some r ∧
    ctlHeld s ctl = false ∧
    r.write = true ∧
    256 ≤ controllerOf s r.addr :=
  ⟨256, (req (.dram 256) true (gddrBase) 32 (.host)), (waiting (req (.dram 256) true (gddrBase) 32 (.host)) (memUp)), by decide +kernel, by decide +kernel, by decide +kernel, by decide +kernel⟩

theorem witness_MemoryCommandsComplete_4 : ∃ (ctl : Nat) (err : MemErr) (r : MemReq) (s u : State),
    oldest s (.dram ctl) = some r ∧
    ctlHeld s ctl = false ∧
    r.write = false ∧
    u = popReq (memErr s r.addr r.len err (r.origin == .scrub)) r.id :=
  ⟨256, (.ue 0), (req (.dram 256) false (gddrBase) 32 (.host)), (waiting (req (.dram 256) false (gddrBase) 32 (.host)) (memUp)), _, by decide +kernel, by decide +kernel, by decide +kernel, rfl⟩

theorem witness_MemoryCommandsComplete_5 : ∃ (r : MemReq) (bs : List TByte) (s : State),
    (∀ q ∈ s.memq, q.acc ≠ r.acc) ∧
    r.base = r.addr ∧
    r.total = bs.length ∧
    r.got = [] ∧
    r.write = false :=
  ⟨(req (.dram 256) false gddrBase 1 .host), [⟨1, false⟩], memUp, by decide +kernel, by decide +kernel, by decide +kernel, by decide +kernel, by decide +kernel⟩

theorem witness_MemoryCommandsComplete_6 : ∃ (ctl : Nat) (r : MemReq) (s : State),
    oldest s (.dram ctl) = some r ∧
    r.write = false :=
  ⟨256, (req (.dram 256) false (gddrBase) 32 (.host)), (waiting (req (.dram 256) false (gddrBase) 32 (.host)) (memUp)), by decide +kernel, by decide +kernel⟩

theorem witness_MemoryCommandsComplete_7 : ∃ (ctl : Nat) (r : MemReq) (s : State),
    oldest s (.dram ctl) = some r ∧
    r.write = true :=
  ⟨256, (req (.dram 256) true (gddrBase) 32 (.host)), (waiting (req (.dram 256) true (gddrBase) 32 (.host)) (memUp)), by decide +kernel, by decide +kernel⟩

theorem witness_MemoryCommandsComplete_8 : ∃ (t n : Nat) (err : MemErr) (s : State),
    t ∈ s.zeroing :=
  ⟨407, 2, .none, ({ memUp with zeroing := [407] }), by decide +kernel⟩

theorem witness_MemoryCommandsComplete_9 : ∃ (t n cls : Nat) (s : State),
    t ∉ s.zeroing ∧
    t < 408 ∧
    wheelClass s t n = some cls ∧
    (∀ r ∈ s.memq, r.merged = []) :=
  ⟨407, 2, 1, memUp, by decide +kernel, by decide +kernel, by decide +kernel, by decide +kernel⟩

theorem witness_MemoryCommandsComplete_10 : ∃ (g n : Nat) (err : MemErr) (s : State),
    n % 4 ≠ 3 :=
  ⟨0, 2, .none, up, by decide +kernel⟩

theorem witness_MemoryCommandsComplete_11 : ∃ (g n : Nat) (err : MemErr) (s : State),
    tileOfCore g ∈ s.zeroing :=
  ⟨64, 3, .none, ({ up with zeroing := [1] }), by decide +kernel⟩

theorem witness_MemoryCommandsComplete_12 : ∃ (g n : Nat) (err : MemErr) (s u : State),
    n % 4 = 3 ∧
    g < 26112 ∧
    tileOfCore g ∉ s.zeroing ∧
    u = settle s g n ∧
    portClass u g n = some 3 :=
  ⟨26111, 3, .none, (withPass pass0 (waiting (req (.stream 26111 3) true (csBase 26111) 32 (.keySlice 1 0 0)) up)), _, by decide +kernel, by decide +kernel, by decide +kernel, rfl, by decide +kernel⟩

theorem witness_MemoryCommandsComplete_13 : ∃ (g n : Nat) (err : MemErr) (s u : State),
    n % 4 = 3 ∧
    g < 26112 ∧
    tileOfCore g ∉ s.zeroing ∧
    u = settle s g n ∧
    portClass u g n = some 0 :=
  ⟨26111, 3, .none, (waiting (req (.stream 26111 0) true (csBase 26111) 32 .host) up), _, by decide +kernel, by decide +kernel, by decide +kernel, rfl, by decide +kernel⟩

theorem witness_MemoryCommandsComplete_14 : ∃ (g n cls : Nat) (err : MemErr) (s u : State),
    n % 4 = 3 ∧
    g < 26112 ∧
    tileOfCore g ∉ s.zeroing ∧
    u = settle s g n ∧
    portClass u g n = some cls ∧
    (cls = 1 ∨ cls = 2) :=
  ⟨26111, 3, 1, .none, (waiting (req (.stream 26111 1) false (csBase 26111) 32 .host) up), _, by decide +kernel, by decide +kernel, by decide +kernel, rfl, by decide +kernel, by decide +kernel⟩

theorem witness_MemoryCommandsComplete_15 : ∃ (g : Nat) (r : MemReq) (s : State),
    oldest s (.credit g) = some r ∧
    (getCore s g).credits < lines32 r.addr r.len :=
  ⟨0, (req (.credit 0) true (csBase 0) 32 .host), (waiting (req (.credit 0) true (csBase 0) 32 .host) (modCore up 0 fun c => { c with credits := 0 })), by decide +kernel, by decide +kernel⟩

theorem witness_MemoryCommandsComplete_16 : ∃ (g fe id h : Nat) (r : MemReq) (s : State),
    oldest s (.credit g) = some r ∧
    lines32 r.addr r.len ≤ (getCore s g).credits ∧
    r.origin = .land fe id h :=
  ⟨0, 1, 2, 0, (req (.credit 0) true (csBase 0) 32 (.land 1 2 0)), (waiting (req (.credit 0) true (csBase 0) 32 (.land 1 2 0)) up), by decide +kernel, by decide +kernel, by decide +kernel⟩

theorem witness_MemoryCommandsComplete_17 : ∃ (g : Nat) (r : MemReq) (s : State),
    oldest s (.credit g) = some r ∧
    lines32 r.addr r.len ≤ (getCore s g).credits ∧
    twf Core.fresh s.cores = true ∧
    (∀ h id, r.origin ≠ .store h id) ∧
    (∀ fe id h, r.origin ≠ .land fe id h) :=
  ⟨0, (req (.credit 0) true (csBase 0) 32 (.moveWrite 1)), (waiting (req (.credit 0) true (csBase 0) 32 (.moveWrite 1)) up), by decide +kernel, by decide +kernel, by decide +kernel, by intro _ _ h; simp [req] at h, by intro _ _ _ h; simp [req] at h⟩


/-- A stream of two chunks of 256 bytes, its first chunk landed. -/
def sdesc (out : Bool) : StrDesc := ⟨out, 1, 256, 0, 1, 0, 2, false, 0, 256, 0, gddrBase, [512, 1, 1, 1], [1, 0, 0, 0], 0⟩
def chunk0 : Chunk := ⟨0, csBase 0, true, false, false, false⟩
def stream (out : Bool) : Stream := ⟨sdesc out, 0, 0, 0, 512, [], [chunk0], 0, 0, 1, 0, 0, 0, 0⟩
def streams (st : Stream) : State := modCore up 0 fun c => { c with streams := tset none c.streams 7 (some st) }
/-- An image of one stride in one operation, for one core, without bundles. -/
def img : Image := ⟨0, 1, 0, 0, 5, 0, 0, [], [⟨0, 0, 0, 10⟩], [⟨0, 0, 1, 0, 0, 0xFFFF, 0, 0xFFFF, 0⟩], [], [], [], [], none⟩
def secI : Sector := { secA with image := some img, chans := [⟨1, 0, 0, 0, 0, 0⟩] }
/-- Core 0 runs a context that has waited since tick 0. -/
def waits : State :=
  { oneSector secI up with
    ftime := 100
    cores := [(0, { (getCore (oneSector secI up) 0) with ctx := [(3, { Ctx.fresh with run := .running, waitSince := some 0, pc := 0 })], istore := [(0, 0x6001000000000000000000000000000000000000000000000000000000000000)] })] }
/-- Port 31 is up, in training, or has flits to replay. -/
def port (st : Nat) (x : LinkPort) : State := setPort (put 0x201FC st up) 31 x
def lp : LinkPort := LinkPort.init
/-- A SEND that waits. -/
def send (ph : SendPhase) : SendMsg := ⟨0, 0, 0, 0, 9, 1, 0, false, ph, 0, 0, []⟩
def sending (ph : SendPhase) (s : State) : State := { s with fab := { s.fab with sends := [send ph] } }
/-- This device is number 0, and port 31 is up. -/
def link : State := put 0x20000 0 (port 2 lp)
def xflit (kind w : Nat) (rest : List Byte) : Flit := flit 2 (leBytes 4 (kind * 2 ^ 28 + w) ++ rest)
/-- A member of a range pair on port 31: front or rear, in a state. -/
def pair (rear : Bool) (st : Nat) : State := put 0x20040 st (put 0x20034 (2 ^ 31 + (if rear then 2 ^ 30 else 0) + 31 * 2 ^ 24 + 31 * 2 ^ 16) link)
def pflit (kind : Nat) (bs : List Byte) : Flit := flit 5 (BitVec.ofNat 8 kind :: leBytes 4 bs.length ++ bs)
/-- A host object of four bytes on its way in. -/
def xf : Xfer := ⟨4, 1, 0, 0, 0, 4, []⟩
def xfers : State := { up with xfers := [xf] }


/-- Aperture 0 of the PF opens on a buffer, under the expert right. -/
def aper : State := put 0x04003000 1 (put 0x04003004 (handleOf 0 1 2) (put 0x04000000 0x100 (withBuf memUp)))
theorem witness_StreamCommandsComplete_1 : ∃ (g : Nat) (s : State),
    coreRuns s g = true :=
  ⟨0, (oneSector secA up), by decide +kernel⟩

theorem witness_StreamCommandsComplete_2 : ∃ (g : Nat) (s : State),
    coreRuns s g = false :=
  ⟨0, up, by decide +kernel⟩

theorem witness_StreamCommandsComplete_3 : ∃ (g k : Nat) (st : Stream) (c : Chunk) (s : State),
    getStr s g k = some st ∧
    st.chunks.find? (fun c => c.n == st.sigma) = some c ∧
    st.desc.out = false ∧
    c.landed = true ∧
    c.counted = false ∧
    chunkLate s st.desc.ringCore st.desc.sigCnt = false :=
  ⟨0, 7, (stream false), chunk0, (streams (stream false)), by decide +kernel, by decide +kernel, by decide +kernel, by decide +kernel, by decide +kernel, by decide +kernel⟩

theorem witness_StreamCommandsComplete_4 : ∃ (g k : Nat) (st : Stream) (c : Chunk) (s : State),
    getStr s g k = some st ∧
    st.chunks.find? (fun c => c.n == st.sigma) = some c ∧
    st.desc.out = true ∧
    c.landed = true ∧
    c.counted = false :=
  ⟨0, 7, (stream true), chunk0, (streams (stream true)), by decide +kernel, by decide +kernel, by decide +kernel, by decide +kernel, by decide +kernel⟩

theorem witness_StreamCommandsComplete_5 : ∃ (g k : Nat) (st x : Stream) (s : State),
    getStr s g k = some st ∧
    x = releaseChunks s st ∧
    isStager x = false ∧
    strTotal x.desc ≠ 0 ∧
    x.nextOff = strTotal x.desc ∧
    x.reqs = [] ∧
    x.sigma = strChunks x.desc ∧
    (∀ c ∈ x.chunks, c.released = true) :=
  ⟨0, 7, ({ stream true with sigma := 2, chunks := [] }), _, (streams { stream true with sigma := 2, chunks := [] }), by decide +kernel, rfl, by decide +kernel, by decide +kernel, by decide +kernel, by decide +kernel, by decide +kernel, by decide +kernel⟩

theorem witness_CoreCommandsComplete_1 : ∃ (g n : Nat) (s u : State),
    coreRuns s g = true ∧
    (getCore s g).cyc ≤ n ∧
    u = trackWaits (settle (settleArrivals s g n) g n) g :=
  ⟨0, 0, (oneSector secA up), _, by decide +kernel, by decide +kernel, rfl⟩

theorem witness_CoreCommandsComplete_2 : ∃ (g n : Nat) (s : State),
    coreRuns s g = true ∧
    n < (getCore s g).cyc :=
  ⟨0, 0, (modCore (oneSector secA up) 0 fun c => { c with cyc := 1 }), by decide +kernel, by decide +kernel⟩

theorem witness_CoreCommandsComplete_3 : ∃ (g k n sn : Nat) (sec : Sector) (t0 : Nat) (s u : State),
    coreRuns s g = true ∧
    (getCore s g).cyc ≤ n ∧
    u = trackWaits (settle (settleArrivals s g n) g n) g ∧
    coreSector u g = some (sn, sec) ∧
    (getCtx (getCore u g) k).waitSince = some t0 ∧
    0 < waitLimit u sec ∧
    waitLimit u sec < u.ftime.toNat - t0 ∧
    (getCtx (getCore u g) k).run = .running :=
  ⟨0, 3, 0, 5, secI, 0, waits, _, by decide +kernel, by decide +kernel, rfl, by decide +kernel, by decide +kernel, by decide +kernel, by decide +kernel, by decide +kernel⟩

theorem witness_CoreCommandsComplete_4 : ∃ (g n : Nat) (s : State),
    coreAt s g n = true :=
  ⟨0, 0, (oneSector secA up), by decide +kernel⟩

theorem witness_CoreCommandsComplete_5 : ∃ (g n : Nat) (s : State),
    coreAt s g n = true :=
  ⟨0, 0, (oneSector secA up), by decide +kernel⟩

theorem witness_CoreCommandsComplete_6 : ∃ (g n : Nat) (s : State),
    coreAt s g n = true :=
  ⟨0, 0, (oneSector secA up), by decide +kernel⟩

theorem witness_CoreCommandsComplete_7 : ∃ (sn ch n g : Nat) (x : Sector) (e : ImgChan) (s : State),
    getSector s sn = some x ∧
    chanEntry x ch = some e ∧
    (x.lcores.drop e.first).take (e.last + 1 - e.first) = [g] ∧
    coreAt s g n = true :=
  ⟨5, 1, 0, 0, secI, ⟨1, 0, 0, 0, 0, 0⟩, (oneSector secI up), by decide +kernel, by decide +kernel, by decide +kernel, by decide +kernel⟩

theorem witness_CoreCommandsComplete_8 : ∃ (g n : Nat) (s : State),
    coreAt s g n = true :=
  ⟨0, 0, (oneSector secA up), by decide +kernel⟩

theorem witness_CoreCommandsComplete_9 : ∃ (g k n : Nat) (s : State),
    coreAt s g n = true :=
  ⟨0, 7, 0, (oneSector secA up), by decide +kernel⟩

theorem witness_CoreCommandsComplete_10 : ∃ (g k n : Nat) (s : State),
    coreAt s g n = false :=
  ⟨0, 0, 0, up, by decide +kernel⟩

theorem witness_LinkCommandsComplete_1 : ∃ (p : Nat) (s : State),
    p < 32 ∧
    2 ≤ portState s p :=
  ⟨31, (port 2 lp), by decide +kernel, by decide +kernel⟩

theorem witness_LinkCommandsComplete_2 : ∃ (p : Nat) (s : State),
    portState s p < 2 :=
  ⟨31, (port 1 lp), by decide +kernel⟩

theorem witness_LinkCommandsComplete_3 : ∃ (p lanes : Nat) (s : State),
    p < 32 ∧
    portState s p = 1 :=
  ⟨31, 16, (port 1 lp), by decide +kernel, by decide +kernel⟩

theorem witness_LinkCommandsComplete_4 : ∃ (p lanes : Nat) (s : State),
    p < 32 ∧
    portState s p = 1 ∧
    (getPort s p).trainFails < 2 :=
  ⟨31, 0, (port 1 lp), by decide +kernel, by decide +kernel, by decide +kernel⟩

theorem witness_LinkCommandsComplete_5 : ∃ (p lanes : Nat) (s : State),
    p < 32 ∧
    portState s p = 1 ∧
    2 ≤ (getPort s p).trainFails :=
  ⟨31, 0, (port 1 { lp with trainFails := 2 }), by decide +kernel, by decide +kernel, by decide +kernel⟩

theorem witness_LinkCommandsComplete_6 : ∃ (p : Nat) (s : State),
    p ≤ 32 ∧
    2 ≤ portState s p :=
  ⟨32, up, by decide +kernel, by decide +kernel⟩

theorem witness_LinkCommandsComplete_7 : ∃ (p : Nat) (s : State),
    p < 32 ∧
    2 ≤ portState s p ∧
    (getPort s p).replay ≠ [] ∧
    (getPort s p).stuck < 15 :=
  ⟨31, (port 2 { lp with replay := [flit 1 []], stuck := 14 }), by decide +kernel, by decide +kernel, by decide +kernel, by decide +kernel⟩

theorem witness_LinkCommandsComplete_8 : ∃ (p : Nat) (s : State),
    p < 32 ∧
    2 ≤ portState s p ∧
    (getPort s p).replay ≠ [] ∧
    15 ≤ (getPort s p).stuck :=
  ⟨31, (port 2 { lp with replay := [flit 1 []], stuck := 15 }), by decide +kernel, by decide +kernel, by decide +kernel, by decide +kernel⟩

theorem witness_LinkCommandsComplete_9 : ∃ (p : Nat) (fl : Flit) (s : State),
    p < 32 ∧
    2 ≤ portState s p :=
  ⟨31, (flit 1 []), (port 2 lp), by decide +kernel, by decide +kernel⟩

theorem witness_LinkCommandsComplete_10 : ∃ (p : Nat) (fl : Flit) (s : State),
    p < 32 ∧
    2 ≤ portState s p ∧
    fl.typ = 0 :=
  ⟨31, (flit 0 []), (port 2 lp), by decide +kernel, by decide +kernel, by decide +kernel⟩

theorem witness_LinkCommandsComplete_11 : ∃ (p : Nat) (fl : Flit) (s : State),
    p < 32 ∧
    2 ≤ portState s p ∧
    fl.typ = 3 :=
  ⟨31, (flit 3 []), (port 2 lp), by decide +kernel, by decide +kernel, by decide +kernel⟩

theorem witness_LinkCommandsComplete_12 : ∃ (p : Nat) (fl : Flit) (s u : State),
    p < 32 ∧
    2 ≤ portState s p ∧
    fl.typ = 1 ∧
    fl.seq ≠ (getPort s p).rxExp ∧
    u = setPort s p (takeAck (getPort s p) fl) :=
  ⟨31, ({ flit 1 [] with seq := 1 }), (port 2 lp), _, by decide +kernel, by decide +kernel, by decide +kernel, by decide +kernel, rfl⟩

theorem witness_LinkCommandsComplete_13 : ∃ (p : Nat) (fl : Flit) (s u : State),
    p < 32 ∧
    receiveAs 1 s p fl true = (u, true) ∧
    devId u ≠ 0xFFFFF ∧
    isPairPort u p = false ∧
    deliveredHere u fl.dst = true :=
  ⟨31, (flit 1 []), link, ((receiveAs 1 link 31 (flit 1 []) true).1), by decide +kernel, by decide +kernel, by decide +kernel, by decide +kernel, by decide +kernel⟩

theorem witness_LinkCommandsComplete_14 : ∃ (p : Nat) (fl : Flit) (s u : State),
    p < 32 ∧
    receiveAs 1 s p fl true = (u, true) ∧
    devId u ≠ 0xFFFFF ∧
    isPairPort u p = false ∧
    deliveredHere u fl.dst = false :=
  ⟨31, ({ flit 1 [] with dst := 1 }), link, ((receiveAs 1 link 31 { flit 1 [] with dst := 1 } true).1), by decide +kernel, by decide +kernel, by decide +kernel, by decide +kernel, by decide +kernel⟩

theorem witness_MessageAnswersAndTimeoutsComplete_1 : ∃ (p : Nat) (fl : Flit) (good : Bool) (m : SendMsg) (s u : State),
    receiveXctrl 1 s p fl good = (u, true) ∧
    answered u fl = some m :=
  ⟨31, (xflit 1 (2 ^ 22) (leBytes 4 9)), true, (send .waitAck), (sending .waitAck link), ((receiveXctrl 1 (sending .waitAck link) 31 (xflit 1 (2 ^ 22) (leBytes 4 9)) true).1), by decide +kernel, by decide +kernel⟩

theorem witness_MessageAnswersAndTimeoutsComplete_2 : ∃ (p reason : Nat) (fl : Flit) (good : Bool) (m : SendMsg) (s u : State),
    receiveXctrl 2 s p fl good = (u, true) ∧
    answered u fl = some m ∧
    reason = bits (fieldAt fl.payload 0 4) 27 24 ∧
    m.resent = false :=
  ⟨31, _, (xflit 2 (2 ^ 22 + 5 * 2 ^ 24) (leBytes 4 9)), true, (send .waitAck), (sending .waitAck link), ((receiveXctrl 2 (sending .waitAck link) 31 (xflit 2 (2 ^ 22 + 5 * 2 ^ 24) (leBytes 4 9)) true).1), by decide +kernel, by decide +kernel, rfl, by decide +kernel⟩

theorem witness_MessageAnswersAndTimeoutsComplete_3 : ∃ (slot pool src id gen port len t : Nat) (bs : List Byte) (s : State),
    poolAt s slot pool = .landing src id gen port len t bs :=
  ⟨4095, 0, 1, 9, 1, 31, 0, 0, [], ({ up with fab := { up.fab with pools := [(poolKey 4095 0, .landing 1 9 1 31 0 0 [])] } }), by decide +kernel⟩

theorem witness_MessageAnswersAndTimeoutsComplete_4 : ∃ (i : Nat) (m : SendMsg) (s : State),
    s.fab.sends[i]? = some m ∧
    m.phase = .waitAck ∧
    m.lastTx + ackTimeout s ≤ s.ftime.toNat :=
  ⟨0, (send .waitAck), (sending .waitAck { up with ftime := 65536 }), by decide +kernel, by decide +kernel, by decide +kernel⟩

theorem witness_MessageAnswersAndTimeoutsComplete_5 : ∃ (i : Nat) (m : SendMsg) (s : State),
    s.fab.sends[i]? = some m ∧
    m.phase = .waitEpoch ∧
    newEpoch s m = false ∧
    m.lastTx + resendWait s ≤ s.ftime.toNat :=
  ⟨0, (send .waitEpoch), (sending .waitEpoch { up with ftime := 65536 }), by decide +kernel, by decide +kernel, by decide +kernel, by decide +kernel⟩

theorem witness_MessageAnswersAndTimeoutsComplete_6 : ∃ (i : Nat) (m : SendMsg) (s : State),
    s.fab.sends[i]? = some m ∧
    m.phase = .waitBusy ∧
    m.lastTx + busyRetry s ≤ s.ftime.toNat :=
  ⟨0, (send .waitBusy), (sending .waitBusy { up with ftime := 65536 }), by decide +kernel, by decide +kernel, by decide +kernel⟩

theorem witness_PairRolesComplete_1 : ∃ (s : State),
    pairOn s = true ∧
    isRear s = false :=
  ⟨(pair false 1), by decide +kernel, by decide +kernel⟩

theorem witness_PairRolesComplete_2 : ∃ (s : State),
    (pairOn s = false ∨ isRear s = true) :=
  ⟨(pair true 1), by decide +kernel⟩

theorem witness_PairRolesComplete_3 : ∃ (s : State),
    pairOn s = true ∧
    isRear s = false ∧
    pairState s = 1 ∧
    s.Inv ∧
    (∀ p ∈ pairPorts s, ∀ q ∈ (getPort s p).pair, q.flit.payload.headD 0 = 1) :=
  ⟨(pair false 1), by decide +kernel, by decide +kernel, by decide +kernel, inv_of (by decide +kernel), by decide +kernel⟩

theorem witness_PairRolesComplete_4 : ∃ (s : State),
    pairOn s = true ∧
    isRear s = false ∧
    pairState s = 2 ∧
    (∃ x ∈ s.jobs, x.2.isSome = true) :=
  ⟨({ pair false 2 with jobs := [(0, some (blankJob up (desc 0 0 0 4 [] .fetched) .circuit))] }), by decide +kernel, by decide +kernel, by decide +kernel, ⟨_, List.mem_singleton.2 rfl, rfl⟩⟩

theorem witness_PairRolesComplete_5 : ∃ (s : State),
    (pairOn s = false ∨ isRear s = false ∨ pairState s ≠ 2) :=
  ⟨(pair false 1), by decide +kernel⟩

theorem witness_PairRolesComplete_6 : ∃ (s : State),
    pairOn s = true ∧
    isRear s = true ∧
    pairState s = 2 ∧
    s.fab.serving = false ∧
    s.fab.journal = [] :=
  ⟨(pair true 2), by decide +kernel, by decide +kernel, by decide +kernel, by decide +kernel, by decide +kernel⟩

theorem witness_PairRolesComplete_7 : ∃ (s : State) (n : Nat),
    pairOn s = true ∧
    isRear s = true ∧
    pairState s = 2 ∧
    s.fab.serving = false ∧
    s.fab.journal = [] ∧
    s.fab.probe = some n ∧
    n + probeTicks s ≤ s.ftime.toNat :=
  ⟨({ pair true 2 with ftime := 1000, fab := { (pair true 2).fab with probe := some 0 } }), 0, by decide +kernel, by decide +kernel, by decide +kernel, by decide +kernel, by decide +kernel, by decide +kernel, by decide +kernel⟩

theorem witness_PairRolesComplete_8 : ∃ (s : State),
    pairOn s = true ∧
    isRear s = true ∧
    pairState s = 2 ∧
    s.fab.serving = false ∧
    s.fab.probe = none ∧
    s.fab.heard + missTicks s ≤ s.ftime.toNat :=
  ⟨({ pair true 2 with ftime := 1000 }), by decide +kernel, by decide +kernel, by decide +kernel, by decide +kernel, by decide +kernel, by decide +kernel⟩

theorem witness_PairItemsComplete_1 : ∃ (p : Nat) (fl : Flit) (good : Bool) (s u : State),
    receiveXctrl 3 s p fl good = (u, true) ∧
    pairOn (sendXctrl u fl.src 4 0 0 0 0 0) = false :=
  ⟨31, (xflit 3 (0) ([])), true, link, ((receiveXctrl 3 (link) 31 (xflit 3 (0) ([])) true).1), by decide +kernel, by decide +kernel⟩

theorem witness_PairItemsComplete_2 : ∃ (p : Nat) (fl : Flit) (good : Bool) (s u v : State),
    receiveXctrl 3 s p fl good = (u, true) ∧
    v = sendXctrl u fl.src 4 0 0 0 0 0 ∧
    pairOn v = true ∧
    isRear v = false ∧
    pairState v = 2 :=
  ⟨30, (xflit 3 (0) ([])), true, (put 0x201F4 2 (pair false 2)), ((receiveXctrl 3 (put 0x201F4 2 (pair false 2)) 30 (xflit 3 (0) ([])) true).1), _, by decide +kernel, rfl, by decide +kernel, by decide +kernel, by decide +kernel⟩

theorem witness_PairItemsComplete_3 : ∃ (p : Nat) (fl : Flit) (good : Bool) (s u : State),
    receiveXctrl 4 s p fl good = (u, true) ∧
    pairOn u = true ∧
    isRear u = true :=
  ⟨30, (xflit 4 (0) ([])), true, (put 0x201F4 2 (pair true 2)), ((receiveXctrl 4 (put 0x201F4 2 (pair true 2)) 30 (xflit 4 (0) ([])) true).1), by decide +kernel, by decide +kernel, by decide +kernel⟩

theorem witness_PairItemsComplete_4 : ∃ (p : Nat) (fl : Flit) (good : Bool) (s u : State),
    (32 ≤ p ∨ isPairPort s p = false) ∧
    receiveXctrl 5 s p fl good = (u, true) ∧
    pairOn u = true :=
  ⟨30, (xflit 5 (0) ([])), true, (put 0x201F4 2 (pair true 2)), ((receiveXctrl 5 (put 0x201F4 2 (pair true 2)) 30 (xflit 5 (0) ([])) true).1), by decide +kernel, by decide +kernel, by decide +kernel⟩

theorem witness_PairItemsComplete_5 : ∃ (p : Nat) (fl : Flit) (good : Bool) (b : List Byte) (s u : State),
    receivePair 1 s p fl good = (u, some b) :=
  ⟨31, (pflit 1 ([0])), true, [0], (pair true 2), ((receivePair 1 (pair true 2) 31 (pflit 1 ([0])) true).1), by decide +kernel⟩

theorem witness_PairItemsComplete_6 : ∃ (p : Nat) (fl : Flit) (good : Bool) (b : List Byte) (s u : State),
    receivePair 2 s p fl good = (u, some b) :=
  ⟨31, (pflit 2 (leBytes 12 0)), true, (leBytes 12 0), (pair true 2), ((receivePair 2 (pair true 2) 31 (pflit 2 (leBytes 12 0)) true).1), by decide +kernel⟩

theorem witness_PairItemsComplete_7 : ∃ (p : Nat) (fl : Flit) (good : Bool) (b : List Byte) (s u : State),
    receivePair 3 s p fl good = (u, some b) :=
  ⟨31, (pflit 3 (leBytes 8 0)), true, (leBytes 8 0), (pair true 2), ((receivePair 3 (pair true 2) 31 (pflit 3 (leBytes 8 0)) true).1), by decide +kernel⟩

theorem witness_PairItemsComplete_8 : ∃ (p : Nat) (fl : Flit) (good : Bool) (b : List Byte) (x : Buf) (s u : State),
    receivePair 4 s p fl good = (u, some b) ∧
    resolve u (hFn (fieldAt b 0 4)) (fieldAt b 0 4) = (0, x) ∧
    fieldAt b 4 4 + (b.drop 8).length ≤ x.size :=
  ⟨31, (pflit 4 (leBytes 4 (handleOf 0 1 2) ++ leBytes 4 4095 ++ [7])), true, (leBytes 4 (handleOf 0 1 2) ++ leBytes 4 4095 ++ [7]), buf0, (withBuf (pair true 2)), ((receivePair 4 (withBuf (pair true 2)) 31 (pflit 4 (leBytes 4 (handleOf 0 1 2) ++ leBytes 4 4095 ++ [7])) true).1), by decide +kernel, by decide +kernel, by decide +kernel⟩

theorem witness_PairItemsComplete_9 : ∃ (p : Nat) (fl : Flit) (good : Bool) (b : List Byte) (s u v : State),
    receivePair 5 s p fl good = (u, some b) ∧
    v = setJournal u (u.fab.journal.filter fun j => !(j.fn == fieldAt b 0 1 && j.ring == fieldAt b 1 1 && j.index == fieldAt b 2 2)) :=
  ⟨31, (pflit 5 (leBytes 8 0)), true, (leBytes 8 0), (pair true 2), ((receivePair 5 (pair true 2) 31 (pflit 5 (leBytes 8 0)) true).1), _, by decide +kernel, rfl⟩

theorem witness_PairItemsComplete_10 : ∃ (p : Nat) (fl : Flit) (good : Bool) (b : List Byte) (s u v : State),
    receivePair 6 s p fl good = (u, some b) ∧
    v = { u with fab := { u.fab with commitLog := [] } } :=
  ⟨31, (pflit 6 (leBytes 8 0)), true, (leBytes 8 0), (pair true 2), ((receivePair 6 (pair true 2) 31 (pflit 6 (leBytes 8 0)) true).1), _, by decide +kernel, rfl⟩

theorem witness_RingsAndTransfersComplete_1 : ∃ (f r : Nat) (v : Word) (s : State),
    f < 64 ∧
    r < 17 :=
  ⟨63, 16, 0, up, by decide +kernel, by decide +kernel⟩

theorem witness_RingsAndTransfersComplete_3 : ∃ (f x gen off : Nat) (data : List Byte) (poison bad : Bool) (s : State),
    findXfer s x = none :=
  ⟨0, 4, 1, 0, [1], false, false, up, by decide +kernel⟩

theorem witness_RingsAndTransfersComplete_4 : ∃ (f x gen off : Nat) (data : List Byte) (poison bad : Bool) (y : Xfer) (s : State),
    findXfer s x = some y ∧
    (y.gen ≠ gen ∨ y.fn ≠ f ∨ y.length < off + data.length) :=
  ⟨0, 4, 2, 0, [1], false, false, xf, xfers, by decide +kernel, by decide +kernel⟩

theorem witness_RingsAndTransfersComplete_5 : ∃ (x off : Nat) (data : List Byte) (poison : Bool) (y : Xfer) (s : State),
    findXfer s x = some y ∧
    off + data.length ≤ y.length :=
  ⟨4, 0, [1, 2, 3, 4], false, xf, xfers, by decide +kernel, by decide +kernel⟩

theorem witness_RingsAndTransfersComplete_6 : ∃ (x off : Nat) (data : List Byte) (poison : Bool) (y : Xfer) (s u : State) (got : Tbl (Option TByte)),
    findXfer s x = some y ∧
    off + data.length ≤ y.length ∧
    got = tsetRun none y.got off (data.map fun b => some ⟨b, poison⟩) ∧
    u = { s with xfers := s.xfers.map fun z => if z.id = x then { z with got := got } else z } :=
  ⟨4, 3, [1], false, xf, xfers, _, _, by decide +kernel, by decide +kernel, rfl, rfl⟩

theorem witness_RingsAndTransfersComplete_7 : ∃ (x : Nat) (y : Xfer) (s : State),
    findXfer s x = some y ∧
    y.got.length ≠ y.length :=
  ⟨4, xf, xfers, by decide +kernel, by decide +kernel⟩

theorem witness_RingsAndTransfersComplete_8 : ∃ (x off n : Nat) (y : Xfer) (d : Desc) (s : State),
    findXfer s x = some y ∧
    findDesc s y.fn y.ring y.index = some d :=
  ⟨4, 0, 1, xf, (desc 0 0 0 1 [] (.reading 4)), (withDesc (desc 0 0 0 1 [] (.reading 4)) xfers), by decide +kernel, by decide +kernel⟩

theorem witness_RingsAndTransfersComplete_9 : ∃ (off n a : Nat) (s : State),
    0 < n ∧
    (∀ i, i < n → aperByte s (off + i) = some (a + i) ∧ accessOk s ⟨0, none, none⟩ (a + i) 1 false = true) :=
  ⟨4092, 4, (gddrBase + 4092), aper, by decide +kernel, by decide +kernel⟩

theorem witness_RingsAndTransfersComplete_10 : ∃ (mv : Nat) (bs : List TByte) (s : State),
    bs ≠ [] ∧
    s.moves = [⟨mv, .bar2, none, 1, [], bs.length, false⟩] :=
  ⟨0, [⟨1, false⟩], ({ up with moves := [⟨0, .bar2, none, 1, [], 1, false⟩] }), by decide +kernel, by decide +kernel⟩

theorem witness_RingsAndTransfersComplete_11 : ∃ (off n a : Nat) (data : List Byte) (s : State),
    data ≠ [] ∧
    (∀ i, i < data.length → aperByte s (off + i) = some (a + i) ∧ accessOk s ⟨0, none, none⟩ (a + i) 1 true = true) :=
  ⟨4095, 0, (gddrBase + 4095), [1], aper, by decide +kernel, by decide +kernel⟩

theorem witness_RingsAndTransfersComplete_12 : ∃ (off n : Nat) (s : State),
    0 < n ∧
    (∀ i, i < n → aperByte s (off + i) = none) ∧
    (∀ m ∈ s.moves, m.id < s.moveSeq) :=
  ⟨0, 1, up, by decide +kernel, by decide +kernel, by decide +kernel⟩


/-- An object of n bytes, zero but for the words given by offset. -/
def obj (n : Nat) (l : List (Nat × Nat)) : List Byte :=
  (List.range (n / 4)).flatMap fun i => leBytes 4 (((l.find? fun p => p.1 == 4 * i).map (·.2)).getD 0)
theorem obj_length (n : Nat) (l : List (Nat × Nat)) : (obj n l).length = n / 4 * 4 := by
  simp [obj, List.length_flatMap, leBytes, List.map_const', Nat.mul_comm]
/-- A descriptor of function 0, ring 0, and the host object that has been read for it. -/
def arrived (o : List Byte) : Xfer := ⟨4, 1, 0, 0, 0, o.length, o.zipIdx.map fun p => (p.2, some ⟨p.1, false⟩)⟩
theorem arrived_bytes (o : List Byte) : (xferBytes (arrived o)).map (·.b) = o := by
  have h (l : List (Byte × Nat)) :
      ((l.map fun p => (p.2, some (TByte.mk p.1 false))).filterMap (·.2)).map (·.b) = l.map (·.1) := by
    induction l with
    | nil => rfl
    | cons a l ih => simpa using ih
  simpa [xferBytes, arrived] using h o.zipIdx
def withXfer (x : Xfer) (s : State) : State := { s with xfers := [x] }
theorem xferOf_with {d : Desc} {x : Xfer} {s : State} (h : xferIs d x = true) : xferOf (withDesc d (withXfer x s)) d = some x := by
  simp [xferOf, withDesc, modFn, withXfer, h]

/-- A parameter set, a key set for it or for an empty one, and a model of one tile. -/
def parObj : List Byte := obj 1024 [(0x0, 0x59505331), (0x4, 0x10400), (0x8, 0xc010110), (0x80, 0x106001), (0x84, 0xd4344), (0x88, 0x10c001), (0x8c, 0xa94dd), (0x3fc, 0x20debadc)]
def keyObj : List Byte := obj 192 [(0x0, 0x59504b31), (0x4, 0x10001), (0x18, 0xc0), (0x7c, 0x589a24), (0x80, 0x10000000)]
def modObj : List Byte := obj 4096 [(0x0, 0x594d4431), (0x4, 0x10080), (0x8, 0x2), (0xc, 0x10001), (0x2c, 0x1), (0x7c, 0x91990327), (0x800, 0x20000000)]
/-- HBM on both I/O dies. -/
def hbmUp : State := put 0x10004 1024 memUp
/-- Room in GDDR7. -/
def gddrUp : State := put 0x1000C 1024 memUp
/-- A parameter slot that is loaded, of a set of no primes. -/
def withSet (s : State) : State := modFn s 0 fun x => { x with params := [(0, ⟨0, true, [0], true, []⟩)] }

theorem modObj_length : modObj.length = 4096 := obj_length _ _
/-- A descriptor of function 0, at index 0 of ring 0. -/
def row (ty : Nat) (ws : List Nat) (ph : DescPhase) : Desc := desc 0 0 0 ty ws ph
/-- A host object of one byte has arrived for a descriptor. -/
def come (d : Desc) (s : State) : State := withDesc d (withXfer (arrived [1]) s)
/-- A move with nothing left of it. -/
def moved (dst : Option Nat) : Move := ⟨0, .copy 0 0 0, dst, 0, [], 0, false⟩
def withMove (m : Move) (s : State) : State := { s with moves := [m] }
/-- A handle of the buffer of function 0. -/
def bh : Nat := handleOf 0 1 2
/-- A batch of ring 0, which closes at tick 5. -/
def batch : Batch := ⟨0, 0, [], 5⟩

/-- A descriptor of a parameter set, and of a key set, whose object has arrived; both go to IOD0. -/
def parRow : Desc := { row 1 [] (.arrived 4) with placement := 1 }
def keyRow : Desc := { row 2 [] (.arrived 4) with placement := 1 }
def parState : State := withDesc (parRow) (withXfer (arrived parObj) hbmUp)
def keyState : State := withDesc (keyRow) (withXfer (arrived keyObj) (withSet hbmUp))
def allocRow : Desc := row 0x20 [1] .fetched
def allocState : State := withDesc allocRow (withBuf gddrUp)

theorem par_room : (takeHbm true ((placementDies (parRow).placement).map fun p => (p, convBytes parObj)) (parState)).isSome = true := by decide +kernel
theorem key_room : (takeHbm false ([0, 1].map fun die => (die, pieceSize (keyPieces [0] keyObj (keyRow).placement die))) (keyState)).isSome = true := by decide +kernel
theorem alloc_room : (allocBuf allocState 0 (ow allocRow.bytes 8 + ow allocRow.bytes 0xC * 2 ^ 32)).isSome = true := by decide +kernel

theorem some_of {α β : Type} {o : Option (α × β)} {a : α} {b : β} (h : o.isSome = true) : o = some ((o.map (·.1)).getD a, (o.map (·.2)).getD b) := by
  cases o with
  | none => simp at h
  | some x => rfl
/-- A job row, and its job where its checks all pass. -/
theorem job_of {x : Nat × Job} {n : Nat} (h : x.1 = n) : x = (n, x.2) := by cases x; cases h; rfl

theorem witness_LoadsAndCopyComplete_15a : ∃ (f r i : Nat) (d : Desc) (m : Move) (s : State),
    rowDesc s f r i 5 = some d ∧ d.phase = .working ∧ copyMove s d = some m ∧ m.left = 0 ∧ m.dst = none :=
  ⟨0, 0, 0, row 5 [] .working, moved none, withDesc (row 5 [] .working) (withMove (moved none) up), by decide +kernel, by decide +kernel,
    by decide +kernel, rfl, rfl⟩
theorem witness_LoadsAndCopyComplete_15b : ∃ (f r i a : Nat) (d : Desc) (m : Move) (s : State),
    rowDesc s f r i 5 = some d ∧ d.phase = .working ∧ copyMove s d = some m ∧ m.left = 0 ∧ m.dst = some a ∧ (refAt d.bytes 0x14).kind ≠ 1 :=
  ⟨0, 0, 0, gddrBase, row 5 [] .working, moved (some gddrBase), withDesc (row 5 [] .working) (withMove (moved (some gddrBase)) up),
    by decide +kernel, by decide +kernel, by decide +kernel, rfl, rfl, by decide +kernel⟩
theorem witness_LoadsAndCopyComplete_1 : ∃ (f r i x : Nat) (d : Desc) (y : Xfer) (s : State),
    rowDesc s f r i 1 = some d ∧
    d.phase = .arrived x ∧
    xferOf s d = some y :=
  ⟨0, 0, 0, 4, (row 1 [] (.arrived 4)), (arrived [1]), (come (row 1 [] (.arrived 4)) (up)), by decide +kernel, by decide +kernel, by decide +kernel⟩

theorem witness_LoadsAndCopyComplete_2 : ∃ (f r i x : Nat) (d : Desc) (y : Xfer) (s : State),
    rowDesc s f r i 2 = some d ∧
    d.phase = .arrived x ∧
    xferOf s d = some y :=
  ⟨0, 0, 0, 4, (row 2 [] (.arrived 4)), (arrived [1]), (come (row 2 [] (.arrived 4)) (up)), by decide +kernel, by decide +kernel, by decide +kernel⟩

theorem witness_LoadsAndCopyComplete_3 : ∃ (f r i x : Nat) (d : Desc) (y : Xfer) (s : State),
    rowDesc s f r i 3 = some d ∧
    d.phase = .arrived x ∧
    xferOf s d = some y :=
  ⟨0, 0, 0, 4, (row 3 [] (.arrived 4)), (arrived [1]), (come (row 3 [] (.arrived 4)) (up)), by decide +kernel, by decide +kernel, by decide +kernel⟩

theorem witness_LoadsAndCopyComplete_4 : ∃ (f r i bad : Nat) (d : Desc) (y : Xfer) (s : State),
    rowDesc s f r i 3 = some d ∧
    d.phase = .security 0 bad ∧
    xferOf s d = some y :=
  ⟨0, 0, 0, 0, (row 3 [] (.security 0 0)), (arrived [1]), (come (row 3 [] (.security 0 0)) (up)), by decide +kernel, by decide +kernel, by decide +kernel⟩

theorem witness_LoadsAndCopyComplete_5 : ∃ (f r i bad : Nat) (d : Desc) (y : Xfer) (s : State),
    rowDesc s f r i 2 = some d ∧
    d.phase = .security 0 bad ∧
    xferOf s d = some y :=
  ⟨0, 0, 0, 0, (row 2 [] (.security 0 0)), (arrived [1]), (come (row 2 [] (.security 0 0)) (up)), by decide +kernel, by decide +kernel, by decide +kernel⟩

set_option maxRecDepth 100000 in
theorem witness_LoadsAndCopyComplete_6 : ∃ (f r i x n gen : Nat) (d : Desc) (y : Xfer) (o : List Byte) (conv : List (Nat × Extent)) (s u v : State),
    rowDesc s f r i 1 = some d ∧
    d.fn = f ∧
    d.phase = .arrived x ∧
    xferOf s d = some y ∧
    o = (xferBytes y).map (·.b) ∧
    n = bits (ow d.bytes 0x14) 3 0 ∧
    paramChecks (bit (regGet s (fnBase f + 0x2000)).toNat 5) o = 0 ∧
    takeHbm true ((placementDies d.placement).map fun p => (p, convBytes o)) s = some (conv, u) ∧
    paramInUse s f n = false ∧
    pMeetsFloor o = true ∧
    gen = (if (getParam u f n).lastGen = 0xFFFF then 1 else (getParam u f n).lastGen + 1) ∧
    v = conv.foldl (fun st e => setBytes st e.2.base (convBlock o)) (dropHbm u (getParam u f n).conv) := by
  obtain ⟨⟨conv, u⟩, e⟩ := Option.isSome_iff_exists.1 par_room
  exact ⟨0, 0, 0, 4, _, _, parRow, (arrived parObj), parObj, conv, parState, u, _, by decide +kernel, by decide +kernel, by decide +kernel, xferOf_with (by decide +kernel), (arrived_bytes _).symm, rfl, by decide +kernel, e, by decide +kernel, by decide +kernel, rfl, rfl⟩

theorem witness_LoadsAndCopyComplete_7 : ∃ (f r i x k n : Nat) (d : Desc) (y : Xfer) (p o : List Byte) (ext : List (Nat × Extent)) (s u v : State),
    rowDesc s f r i 2 = some d ∧
    d.fn = f ∧
    d.phase = .arrived x ∧
    xferOf s d = some y ∧
    o = (xferBytes y).map (·.b) ∧
    n = bits (ow d.bytes 0x14) 3 0 ∧
    k = bits (ow d.bytes 0x14) 21 16 ∧
    p = (getParam s f n).obj ∧
    ow o 0 ≠ 0x59544231 ∧
    keyChecks p o = 0 ∧
    kSigned o = false ∧
    bits (regGet s (fnBase f + 0x2000)).toNat 4 3 = 0 ∧
    isRepair s f k o = false ∧
    keyInUse s f k = false ∧
    takeHbm false ([0, 1].map fun die => (die, pieceSize (keyPieces p o d.placement die))) s = some (ext, u) ∧
    v = putShares (dropHbm u (getKeys s f k).extents) (xferBytes y) (keyPieces p o d.placement) ext := by
  obtain ⟨⟨ext, u⟩, e⟩ := Option.isSome_iff_exists.1 key_room
  exact ⟨0, 0, 0, 4, _, _, keyRow, (arrived keyObj), [0], keyObj, ext, keyState, u, _, by decide +kernel, by decide +kernel, by decide +kernel, xferOf_with (by decide +kernel), (arrived_bytes _).symm, rfl, rfl, by decide +kernel, by decide +kernel, by decide +kernel, by decide +kernel, by decide +kernel, by decide +kernel, by decide +kernel, e, rfl⟩

theorem witness_LoadsAndCopyComplete_8 : ∃ (f r i x m : Nat) (d : Desc) (y : Xfer) (raw : List Byte) (ts : List Nat) (s : State),
    rowDesc s f r i 3 = some d ∧
    d.fn = f ∧
    d.phase = .arrived x ∧
    xferOf s d = some y ∧
    raw = (xferBytes y).map (·.b) ∧
    m = bits (ow d.bytes 0x14) 2 0 ∧
    (takeGddr s f raw.length).isSome = true ∧
    ow raw 0 ≠ 0x59454E31 ∧
    blobStatus raw false = 0 ∧
    ow d.bytes 0x20 = 0 ∧
    chooseFor s f (placementOf s f) false (blobT raw) none = .tiles ts ∧
    modelInUse s f m = false ∧
    (∀ t ∈ ts, t ∉ s.zeroing) :=
  ⟨0, 0, 0, 4, _, (row 3 [] (.arrived 4)), (arrived modObj), modObj, [0], (withDesc (row 3 [] (.arrived 4)) (withXfer (arrived modObj) gddrUp)), by decide +kernel, by decide +kernel, by decide +kernel, xferOf_with (by decide +kernel), (arrived_bytes _).symm, rfl, by rw [modObj_length]; decide +kernel, by decide +kernel, by rw [blobStatus, modObj_length]; decide +kernel, by decide +kernel, by decide +kernel, by decide +kernel, by decide +kernel⟩

theorem witness_LoadsAndCopyComplete_9 : ∃ (f m n : Nat) (raw : List TByte) (clear : List Byte) (ts : List Nat) (e : Extent) (s u v : State) (q : ModelSlot),
    takeGddr s f raw.length = some (e, u) ∧
    formSector (writeT u e.base raw) f ts (some m) false = (n, v) ∧
    (getModel s f m).loaded = false ∧
    q = ⟨true, false, clear, raw.length, e, digestBytes (sha384 clear), n, ((getSector v n).map (·.tiles)).getD [], [], false, [], []⟩ :=
  ⟨0, 0, _, [], [], [0], (((takeGddr gddrUp 0 0).map (·.1)).getD ⟨0, 0⟩), gddrUp, (((takeGddr gddrUp 0 0).map (·.2)).getD up), _, _, some_of (by decide +kernel), rfl, by decide +kernel, rfl⟩

theorem witness_LoadsAndCopyComplete_10 : ∃ (f r i : Nat) (d : Desc) (s : State),
    rowDesc s f r i 5 = some d ∧
    d.phase = .fetched ∧
    copyStatus s d ≠ 0 :=
  ⟨0, 0, 0, (row 5 [] (.fetched)), (withDesc (row 5 [] (.fetched)) (up)), by decide +kernel, by decide +kernel, by decide +kernel⟩

theorem witness_LoadsAndCopyComplete_11 : ∃ (f r i : Nat) (d : Desc) (s : State),
    rowDesc s f r i 5 = some d ∧
    d.phase = .fetched ∧
    copyStatus s d = 0 ∧
    journalRoom s = true :=
  ⟨0, 0, 0, (row 5 [0, 0, 0, 0, 0, 0, 1] (.fetched)), (withDesc (row 5 [0, 0, 0, 0, 0, 0, 1] (.fetched)) (up)), by decide +kernel, by decide +kernel, by decide +kernel, by decide +kernel⟩

theorem witness_LoadsAndCopyComplete_12 : ∃ (f r i x : Nat) (d : Desc) (y : Xfer) (s : State),
    rowDesc s f r i 5 = some d ∧
    d.phase = .arrived x ∧
    xferOf s d = some y :=
  ⟨0, 0, 0, 4, (row 5 [] (.arrived 4)), (arrived [1]), (come (row 5 [] (.arrived 4)) (up)), by decide +kernel, by decide +kernel, by decide +kernel⟩

theorem witness_LoadsAndCopyComplete_13 : ∃ (a b n : Nat) (d : Desc) (s : State),
    (refAt d.bytes 8).kind ≠ 0 ∧
    (refAt d.bytes 0x14).kind ≠ 0 ∧
    n = ow d.bytes 0x20 ∧
    refAddr s d.fn (refAt d.bytes 0x14) n true = (0, b) ∧
    refAddr s d.fn (refAt d.bytes 8) n false = (0, a) :=
  ⟨gddrBase, (gddrBase + 64), 4, (row 5 [bh, 0, 1, bh, 64, 1, 4] .fetched), (withDesc (row 5 [bh, 0, 1, bh, 64, 1, 4] .fetched) (withBuf memUp)), by decide +kernel, by decide +kernel, by decide +kernel, by decide +kernel, by decide +kernel⟩

theorem witness_LoadsAndCopyComplete_14 : ∃ (mv off a : Nat) (bs : List TByte) (m : Move) (s u : State),
    findMove s mv = some m ∧
    m.dst = some a ∧
    u = modMove s mv (fun m => { m with poisoned := m.poisoned || bs.any (·.tag) }) :=
  ⟨0, 0, gddrBase, [⟨1, false⟩], (moved (some gddrBase)), (withMove (moved (some gddrBase)) memUp), _, by decide +kernel, by decide +kernel, rfl⟩

theorem witness_JobsStart_1 : ∃ (f r i st : Nat) (d : Desc) (j : Job) (s : State),
    rowDesc s f r i 4 = some d ∧
    d.phase = .fetched ∧
    circuitJob s d = (st, j) ∧
    st ≠ 0 :=
  ⟨0, 0, 0, ((circuitJob (withDesc (row 4 [] (.fetched)) (up)) (row 4 [] (.fetched))).1), (row 4 [] (.fetched)), _, (withDesc (row 4 [] (.fetched)) (up)), by decide +kernel, by decide +kernel, rfl, by decide +kernel⟩

theorem witness_JobsStart_2 : ∃ (f r i : Nat) (d : Desc) (j : Job) (s u : State),
    rowDesc s f r i 4 = some d ∧
    d.phase = .fetched ∧
    circuitJob s d = (0, j) ∧
    journalRoom s = true ∧
    u = readHdrs s j ((List.range j.bindings.length).filter fun v => ((j.bindings[v]?).map fun b => !b.output).getD false) :=
  ⟨0, 0, 0, (row 4 [bh, bh, 0, 0x2220, 0, 0] (.fetched)), _, (withDesc (row 4 [bh, bh, 0, 0x2220, 0, 0] (.fetched)) (withSet (withBuf memUp))), _, by decide +kernel, by decide +kernel, job_of (by decide +kernel), by decide +kernel, rfl⟩

theorem witness_JobsStart_3 : ∃ (f r i st : Nat) (d : Desc) (j : Job) (s : State),
    rowDesc s f r i 0x10 = some d ∧
    d.phase = .fetched ∧
    directJob s d = (st, j) ∧
    st ≠ 0 :=
  ⟨0, 0, 0, ((directJob (withDesc (row 16 [] (.fetched)) (up)) (row 16 [] (.fetched))).1), (row 16 [] (.fetched)), _, (withDesc (row 16 [] (.fetched)) (up)), by decide +kernel, by decide +kernel, rfl, by decide +kernel⟩

theorem witness_JobsStart_4 : ∃ (f r i : Nat) (d : Desc) (j : Job) (s u : State),
    rowDesc s f r i 0x10 = some d ∧
    d.phase = .fetched ∧
    directJob s d = (0, j) ∧
    journalRoom s = true ∧
    u = readHdrs s j ((List.range j.bindings.length).filter fun v => ((j.bindings[v]?).map fun b => !b.output).getD false) :=
  ⟨0, 0, 0, (row 16 [0x08000006, bh, 0, bh, 64, 0, 0, 0, 0, 0] (.fetched)), _, (withDesc (row 16 [0x08000006, bh, 0, bh, 64, 0, 0, 0, 0, 0] (.fetched)) (withSet (withBuf memUp))), _, by decide +kernel, by decide +kernel, job_of (by decide +kernel), by decide +kernel, rfl⟩

theorem witness_JobsStart_5 : ∃ (f r i st : Nat) (d : Desc) (j : Job) (s : State),
    rowDesc s f r i 0x11 = some d ∧
    d.phase = .fetched ∧
    rawJob s d = (st, j) ∧
    st ≠ 0 :=
  ⟨0, 0, 0, ((rawJob (withDesc (row 17 [] (.fetched)) (up)) (row 17 [] (.fetched))).1), (row 17 [] (.fetched)), _, (withDesc (row 17 [] (.fetched)) (up)), by decide +kernel, by decide +kernel, rfl, by decide +kernel⟩

theorem witness_JobsStart_6 : ∃ (f r i : Nat) (d : Desc) (j : Job) (s u : State),
    rowDesc s f r i 0x11 = some d ∧
    d.phase = .fetched ∧
    rawJob s d = (0, j) ∧
    journalRoom s = true ∧
    u = readHdrs s j ((List.range j.bindings.length).filter fun v => ((j.bindings[v]?).map fun b => !b.output).getD false) :=
  ⟨0, 0, 0, (row 17 [bh, bh, 0, 0, 0, 0] (.fetched)), _, (withDesc (row 17 [bh, bh, 0, 0, 0, 0] (.fetched)) (withSet (withBuf memUp))), _, by decide +kernel, by decide +kernel, job_of (by decide +kernel), by decide +kernel, rfl⟩

theorem witness_JobsStart_7 : ∃ (f r : Nat) (b : Batch) (s : State),
    (s.batches.find? fun b => b.fn == f && b.ring == r) = some b ∧
    b.closes ≤ s.ftime.toNat :=
  ⟨0, 0, batch, ({ up with batches := [batch], ftime := 5 }), by decide +kernel, by decide +kernel⟩

theorem witness_JobsStart_8 : ∃ (f r : Nat) (b : Batch) (s : State),
    (s.batches.find? fun b => b.fn == f && b.ring == r) = some b ∧
    s.ftime.toNat < b.closes :=
  ⟨0, 0, batch, ({ up with batches := [batch] }), by decide +kernel, by decide +kernel⟩

theorem witness_CancelComplete_1 : ∃ (f r i : Nat) (d : Desc) (s : State),
    rowDesc s f r i 9 = some d ∧
    findDesc s f (bits (ow d.bytes 8) 4 0) (bits (ow d.bytes 0xC) 15 0) = none :=
  ⟨0, 0, 0, (row 9 [1] (.fetched)), (withDesc (row 9 [1] (.fetched)) (up)), by decide +kernel, by decide +kernel⟩

theorem witness_CancelComplete_2 : ∃ (f r i : Nat) (d e : Desc) (s : State),
    rowDesc s f r i 9 = some d ∧
    findDesc s f (bits (ow d.bytes 8) 4 0) (bits (ow d.bytes 0xC) 15 0) = some e :=
  ⟨0, 0, 0, (row 9 [0] (.fetched)), (row 9 [0] .fetched), (withDesc (row 9 [0] (.fetched)) (up)), by decide +kernel, by decide +kernel⟩

theorem witness_FenceAndMemoryRowsComplete_1 : ∃ (f r i : Nat) (d : Desc) (s : State),
    rowDesc s f r i 6 = some d ∧
    (∀ e ∈ (getFn s f).descs, e.order < d.order → bit (ow d.bytes 8) 0 = false ∧ e.ring ≠ r) :=
  ⟨0, 0, 1, ({ row 6 [0] .fetched with index := 1, order := 1 }), (withDesc ({ row 6 [0] .fetched with index := 1, order := 1 }) (withDesc ({ row 6 [] .fetched with ring := 1 }) up)), by decide +kernel, by decide +kernel⟩

theorem witness_FenceAndMemoryRowsComplete_2 : ∃ (f r i : Nat) (d e : Desc) (s : State),
    rowDesc s f r i 6 = some d ∧
    e ∈ (getFn s f).descs ∧
    e.order < d.order ∧
    (bit (ow d.bytes 8) 0 = true ∨ e.ring = r) :=
  ⟨0, 0, 1, ({ row 6 [1] .fetched with index := 1, order := 1 }), (row 4 [] .working), (withDesc ({ row 6 [1] .fetched with index := 1, order := 1 }) (withDesc (row 4 [] .working) up)), by decide +kernel, by decide +kernel, by decide +kernel, by decide +kernel⟩

theorem witness_FenceAndMemoryRowsComplete_3 : ∃ (f r i : Nat) (d : Desc) (s : State),
    rowDesc s f r i 0x20 = some d ∧
    ow d.bytes 8 = 0 ∧
    ow d.bytes 0xC = 0 :=
  ⟨0, 0, 0, (row 32 [] (.fetched)), (withDesc (row 32 [] (.fetched)) (up)), by decide +kernel, by decide +kernel, by decide +kernel⟩

theorem witness_FenceAndMemoryRowsComplete_4 : ∃ (f r i h : Nat) (d : Desc) (s u : State),
    rowDesc s f r i 0x20 = some d ∧
    ow d.bytes 8 + ow d.bytes 0xC * 2 ^ 32 ≠ 0 ∧
    allocBuf s f (ow d.bytes 8 + ow d.bytes 0xC * 2 ^ 32) = some (h, u) := by
  obtain ⟨⟨h, u⟩, e⟩ := Option.isSome_iff_exists.1 alloc_room
  exact ⟨0, 0, 0, h, allocRow, allocState, u, by decide +kernel, by decide +kernel, e⟩

theorem witness_FenceAndMemoryRowsComplete_5 : ∃ (f r i : Nat) (d : Desc) (s : State),
    rowDesc s f r i 0x20 = some d ∧
    ow d.bytes 8 + ow d.bytes 0xC * 2 ^ 32 ≠ 0 ∧
    allocBuf s f (ow d.bytes 8 + ow d.bytes 0xC * 2 ^ 32) = none :=
  ⟨0, 0, 0, (row 32 [1] (.fetched)), (withDesc (row 32 [1] (.fetched)) (up)), by decide +kernel, by decide +kernel, by decide +kernel⟩

theorem witness_FenceAndMemoryRowsComplete_6 : ∃ (f r i h : Nat) (d : Desc) (s : State),
    rowDesc s f r i 7 = some d ∧
    bits (ow d.bytes 0xC) 7 4 = 0 ∧
    h = ow d.bytes 8 ∧
    hFn h = f ∧
    bit (ow d.bytes 0xC) 0 = false ∧
    hGen h ≠ 0 ∧
    (getBuf s f (hIdx h)).live = true ∧
    (getBuf s f (hIdx h)).gen = hGen h :=
  ⟨0, 0, 0, bh, (row 7 [bh] (.fetched)), (withDesc (row 7 [bh] (.fetched)) (withBuf memUp)), by decide +kernel, by decide +kernel, by decide +kernel, by decide +kernel, by decide +kernel, by decide +kernel, by decide +kernel, by decide +kernel⟩

theorem witness_FenceAndMemoryRowsComplete_7 : ∃ (f r i h : Nat) (d : Desc) (s : State),
    rowDesc s f r i 7 = some d ∧
    bits (ow d.bytes 0xC) 7 4 = 0 ∧
    h = ow d.bytes 8 ∧
    hFn h ≠ f ∧
    bit (ow d.bytes 0xC) 0 = false :=
  ⟨0, 0, 0, (handleOf 63 1 2), (row 7 [handleOf 63 1 2] (.fetched)), (withDesc (row 7 [handleOf 63 1 2] (.fetched)) (up)), by decide +kernel, by decide +kernel, by decide +kernel, by decide +kernel, by decide +kernel⟩

theorem witness_FenceAndMemoryRowsComplete_8 : ∃ (f r i kind n : Nat) (d : Desc) (s : State),
    rowDesc s f r i 7 = some d ∧
    kind = bits (ow d.bytes 0xC) 7 4 ∧
    kind ≠ 0 ∧
    n = bits (ow d.bytes 0x10) 5 0 ∧
    n < [16, 64, 8, 8].getD (kind - 1) 0 :=
  ⟨0, 0, 0, 4, 7, (row 7 [0, 0x40, 7] (.fetched)), (withDesc (row 7 [0, 0x40, 7] (.fetched)) (up)), by decide +kernel, by decide +kernel, by decide +kernel, by decide +kernel, by decide +kernel⟩

theorem witness_SectorsQuotasAndScheduleComplete_1 : ∃ (f r i n : Nat) (d : Desc) (l ts : List Nat) (s : State),
    rowDesc s f r i 0x21 = some d ∧
    n = bits (ow d.bytes 0xC) 8 0 ∧
    1 ≤ n ∧
    n ≤ 400 ∧
    tileList s f (ow d.bytes 8) n = (0, l) ∧
    chooseFor s f (placementOf s f) false n (some l) = .tiles ts :=
  ⟨0, 0, 0, _, (row 33 [bh, 1] (.fetched)), [0], [0], (withDesc (row 33 [bh, 1] (.fetched)) (withBuf memUp)), by decide +kernel, rfl, by decide +kernel, by decide +kernel, by decide +kernel, by decide +kernel⟩

theorem witness_SectorsQuotasAndScheduleComplete_2 : ∃ (f r i n : Nat) (d : Desc) (s : State),
    rowDesc s f r i 0x21 = some d ∧
    n = bits (ow d.bytes 0xC) 8 0 ∧
    (n = 0 ∨ 400 < n) :=
  ⟨0, 0, 0, _, (row 33 [0, 401] (.fetched)), (withDesc (row 33 [0, 401] (.fetched)) (up)), by decide +kernel, rfl, by decide +kernel⟩

theorem witness_SectorsQuotasAndScheduleComplete_3 : ∃ (f r i n : Nat) (d : Desc) (x : Sector) (s : State),
    rowDesc s f r i 0x22 = some d ∧
    n = bits (ow d.bytes 8) 5 0 ∧
    getSector s n = some x :=
  ⟨0, 0, 0, 5, (row 34 [5] (.fetched)), secA, (withDesc (row 34 [5] (.fetched)) (oneSector secA up)), by decide +kernel, by decide +kernel, by decide +kernel⟩

theorem witness_SectorsQuotasAndScheduleComplete_4 : ∃ (f r i : Nat) (d : Desc) (s : State),
    rowDesc s f r i 0x23 = some d ∧
    bits (ow d.bytes 8) 7 0 = 1 :=
  ⟨0, 0, 0, (row 35 [1] (.fetched)), (withDesc (row 35 [1] (.fetched)) (up)), by decide +kernel, by decide +kernel⟩

theorem witness_SectorsQuotasAndScheduleComplete_5 : ∃ (f r i : Nat) (d : Desc) (s : State),
    rowDesc s f r i 0x23 = some d ∧
    bits (ow d.bytes 8) 7 0 = 2 :=
  ⟨0, 0, 0, (row 35 [2] (.fetched)), (withDesc (row 35 [2] (.fetched)) (up)), by decide +kernel, by decide +kernel⟩

theorem witness_SectorsQuotasAndScheduleComplete_6 : ∃ (f r i : Nat) (d : Desc) (s : State),
    rowDesc s f r i 0x12 = some d ∧
    d.phase = .fetched ∧
    scheduleStatus s d ≠ 0 :=
  ⟨0, 0, 0, (row 18 [] (.fetched)), (withDesc (row 18 [] (.fetched)) (up)), by decide +kernel, by decide +kernel, by decide +kernel⟩

theorem witness_SectorsQuotasAndScheduleComplete_7 : ∃ (d : Desc) (s : State),
    rowDesc s 0 0 0 0x12 = some d ∧ d.phase = .fetched ∧ scheduleStatus s d = 0 :=
  ⟨row 0x12 [63, 9, 0, 0x101, 15] .fetched, withDesc (row 0x12 [63, 9, 0, 0x101, 15] .fetched) up, by decide +kernel, by decide +kernel,
    by decide +kernel⟩

theorem witness_QueriesComplete_1 : ∃ (f r i : Nat) (d : Desc) (s : State),
    rowDesc s f r i 8 = some d :=
  ⟨0, 0, 0, (row 8 [1] (.fetched)), (withDesc (row 8 [1] (.fetched)) (up)), by decide +kernel⟩

theorem witness_QueriesComplete_2 : ∃ (f r i n : Nat) (d : Desc) (s : State),
    rowDesc s f r i 8 = some d ∧
    bits (ow d.bytes 8) 7 0 = 3 ∧
    n = bits (ow d.bytes 0xC) 15 0 :=
  ⟨0, 0, 0, 5, (row 8 [3, 5] (.fetched)), (withDesc (row 8 [3, 5] (.fetched)) (up)), by decide +kernel, by decide +kernel, by decide +kernel⟩

theorem witness_QueriesComplete_3 : ∃ (f r i n : Nat) (d : Desc) (s : State),
    rowDesc s f r i 8 = some d ∧
    bits (ow d.bytes 8) 7 0 = 4 ∧
    n = bits (ow d.bytes 0xC) 15 0 :=
  ⟨0, 0, 0, 5, (row 8 [4, 5] (.fetched)), (withDesc (row 8 [4, 5] (.fetched)) (up)), by decide +kernel, by decide +kernel, by decide +kernel⟩

theorem witness_QueriesComplete_4 : ∃ (f r i sec k : Nat) (d : Desc) (s : State),
    rowDesc s f r i 8 = some d ∧
    bits (ow d.bytes 8) 7 0 = 5 ∧
    sec = bits (ow d.bytes 0xC) 5 0 ∧
    k = bits (ow d.bytes 0xC) 11 8 ∧
    (getSector s sec).map (·.owner) = some d.fn ∧
    (getParam s d.fn k).loaded = true :=
  ⟨0, 0, 0, 5, 0, (row 8 [5, 5] (.fetched)), (withDesc (row 8 [5, 5] (.fetched)) (withSet (oneSector secA up))), by decide +kernel, by decide +kernel, by decide +kernel, by decide +kernel, by decide +kernel, by decide +kernel⟩

theorem witness_QueriesComplete_5 : ∃ (f r i : Nat) (d : Desc) (s : State),
    rowDesc s f r i 8 = some d ∧
    bits (ow d.bytes 8) 7 0 = 6 ∧
    d.phase = .fetched ∧
    (refAt d.bytes 0x10).kind = 0 :=
  ⟨0, 0, 0, (row 8 [6] (.fetched)), (withDesc (row 8 [6] (.fetched)) (up)), by decide +kernel, by decide +kernel, by decide +kernel, by decide +kernel⟩

theorem witness_QueriesComplete_6 : ∃ (f r i a : Nat) (d : Desc) (s : State),
    rowDesc s f r i 8 = some d ∧
    bits (ow d.bytes 8) 7 0 = 6 ∧
    d.phase = .fetched ∧
    (refAt d.bytes 0x10).kind ≠ 0 ∧
    refAddr s f (refAt d.bytes 0x10) 32 false = (0, a) :=
  ⟨0, 0, 0, gddrBase, (row 8 [6, 0, bh, 0, 1] (.fetched)), (withDesc (row 8 [6, 0, bh, 0, 1] (.fetched)) (withBuf memUp)), by decide +kernel, by decide +kernel, by decide +kernel, by decide +kernel, by decide +kernel⟩

theorem witness_QueriesComplete_7 : ∃ (f r i bad : Nat) (d : Desc) (y : Xfer) (s : State),
    rowDesc s f r i 8 = some d ∧
    bits (ow d.bytes 8) 7 0 = 6 ∧
    d.phase = .security 0 bad ∧
    xferOf s d = some y :=
  ⟨0, 0, 0, 0, (row 8 [6] (.security 0 0)), (arrived [1]), (come (row 8 [6] (.security 0 0)) up), by decide +kernel, by decide +kernel, by decide +kernel, by decide +kernel⟩


/-- The job of descriptor 0 of ring 0, and a state in which a sector runs it. -/
def jobA : Job := { blankJob up (desc 0 0 0 4 [] .working) .circuit with sector := 5, phase := .running, image := some img }
def runs (j : Job) (x : Sector) (s : State) : State := { oneSector { x with running := some 0 } s with jobs := [(0, some j)] }
/-- A context of the job runs a built-in program, or its one stride. -/
def jobS (n : Nat) : Job := { jobA with active := [(0, some n)] }
def recvW : RecvWait := ⟨0, 0, 0, 0, 0⟩
/-- A table set of one table without bytes, and the job's first copy of it. -/
def withTabs (s : State) : State := modFn s 0 fun x => { x with tables := [(0, { TableSlot.empty with loaded := true })] }
def jobT : Job :=
  { jobA with table := some 0, tabBatches := [⟨0, [0], false⟩], stats := { jobA.stats with fillEnd := some 1 } }
/-- A model of one group, with a unit of tile 0 poisoned. -/
def modSlot : ModelSlot := { ModelSlot.empty with loaded := true, blob := obj 0x80 [(0x10, 2 ^ 16)], sector := 5, tiles := [0] }
def withModel (q : ModelSlot) (s : State) : State := modFn s 0 fun x => { x with models := [(0, q)] }
def secM : Sector := { secA with model := some 0, swapDue := true }
def jobM : Job := { jobA with model := some 0 }
/-- Two sectors share tile 0, and sector 5 is to give it up. -/
def secS : Sector := { secI with shared := [5, 6], passDue := true }
def shares (s : State) : State :=
  setSector { runs jobA secS s with ftime := 2 ^ 21 } 6 (some { secI with shared := [5, 6], holder := false, queue := [1] })
theorem saveBytes_plain {s : State} {x : Sector} (h : x.model = none) :
    saveBytes s x = x.lcores.length * 0xC000 + x.tiles.length * 0x300000 := by
  have e : ((List.range 0x300000).filter fun _ => true).length = 0x300000 := by rw [List.filter_eq_self.2 (fun _ _ => rfl), List.length_range]
  simp only [saveBytes, freeOffsets, h, List.any_nil, Bool.not_false, e]
/-- An encode request for core 0, granted or not, in work or not. -/
def encR (granted : List Nat) (started dropped : Bool) : EncReq :=
  ⟨0, 5, 0, 0, 1, false, false, 0, 0, 12, 1, 0, 0, 0, 0, 0, [0], 0, granted, started, dropped⟩
def encs (r : EncReq) (s : State) : State := { s with encQ := [(0, [r])] }
/-- A key set on IOD0 of one entry: LWE key-switch data of 64 bytes, or compressed data. -/
def rawKey : KeySlot := ⟨true, obj 0xC4 [(0x80, 5 * 2 ^ 28), (0x90, 64)], 0, 1, [(0, ⟨2 ^ 30, 2 ^ 21⟩)], []⟩
def packedKey : KeySlot := ⟨true, obj 0xC4 [(0x80, 2 ^ 27)], 0, 0, [], []⟩
def withKey (k : KeySlot) (s : State) : State := modFn s 0 fun x => { x with keys := [(0, k)] }
def passQ : Pass := { pass0 with active := false, landed := [] }
def passR : Pass := { pass0 with landed := [] }
def passE : Pass := { passR with bursts := [(0, 1)], counted := [(0, 1)] }
/-- The unit that the fence registers name. -/
def names (tile : Bool) (n : Nat) (s : State) : State := put 0xC0004 ((if tile then 2 ^ 31 else 0) + n) s
/-- A unit is in the field map. -/
def inField (ts cs : List Nat) (s : State) : State :=
  { s with start := { s.start with field := { s.start.field with tiles := ts, cores := cs } } }
/-- A job of the public-key engine, and one that waits. -/
def pkeJ (i : Nat) (o : SecOwner) (left : Nat) : PkeJob := ⟨i, o, 2, 0, left, true, none⟩
def pkes (l : List PkeJob) : State := { up with pke := { up.pke with jobs := l, current := some 0 } }
/-- Curve slot 4 is named by a job, and a record is under check. -/
def curveUsed : State := { up with pke := { up.pke with jobs := [{ pkeJ 0 (.desc 0 0 0) 9 with curve := some 4 }] } }
def checking : State := { up with pke := { up.pke with checking := some (4, []) } }
def signed : State := modFn up 63 fun x => { x with signers := [(3, some (1, []))] }

theorem witness_JobsLoadAndEnd_1 : ∃ (sec jid : Nat) (l : List Nat) (x y : Sector) (j0 j : Job) (s w u : State),
    getSector s sec = some x ∧
    x.queue = jid :: l ∧
    getJob s jid = some j0 ∧
    stage5Ready s sec x = true ∧
    owesReceipt s j0 = false ∧
    w = engineAccess s j0.imageAt.base j0.imageAt.len ∧
    u = takeSector (modJob w jid (withPolicy w)) sec jid ∧
    getJob u jid = some j ∧
    getSector u sec = some y ∧
    j.kind ≠ .direct :=
  ⟨5, 0, [], ({ secA with queue := [0] }), ({ secA with running := some 0, idleSince := none }), jobA, jobA, ({ oneSector { secA with queue := [0] } memUp with jobs := [(0, some jobA)] }), (engineAccess ({ oneSector { secA with queue := [0] } memUp with jobs := [(0, some jobA)] }) 0 0), (takeSector (modJob (engineAccess ({ oneSector { secA with queue := [0] } memUp with jobs := [(0, some jobA)] }) 0 0) 0 (withPolicy (engineAccess ({ oneSector { secA with queue := [0] } memUp with jobs := [(0, some jobA)] }) 0 0))) 5 0), by decide +kernel, by decide +kernel, by decide +kernel, by decide +kernel, by decide +kernel, rfl, rfl, by decide +kernel, by decide +kernel, by decide +kernel⟩

theorem witness_JobsLoadAndEnd_2 : ∃ (sec : Nat) (x : Sector) (s : State),
    getSector s sec = some x ∧
    x.queue = [] :=
  ⟨5, secA, (oneSector secA up), by decide +kernel, by decide +kernel⟩

theorem witness_JobsLoadAndEnd_3 : ∃ (sec : Nat) (j : Job) (s : State),
    runningJob s sec = some j :=
  ⟨5, jobA, (runs jobA secI memUp), by decide +kernel⟩

theorem witness_JobsLoadAndEnd_4 : ∃ (sec f : Nat) (j : Job) (s : State),
    runningJob s sec = some j ∧
    j.phase = .dense f :=
  ⟨5, 7, ({ jobA with phase := .dense 7 }), (runs { jobA with phase := .dense 7 } secI up), by decide +kernel, by decide +kernel⟩

theorem witness_JobsLoadAndEnd_5 : ∃ (sec : Nat) (j : Job) (s : State),
    runningJob s sec = some j ∧
    j.fault ≠ none ∧
    j.phase = .running :=
  ⟨5, ({ jobA with fault := some ⟨1, 1, 0, 0, 0, 0, 0, 0, 0⟩ }), (runs { jobA with fault := some ⟨1, 1, 0, 0, 0, 0, 0, 0, 0⟩ } secI up), by decide +kernel, by decide +kernel, by decide +kernel⟩

theorem witness_JobsLoadAndEnd_6 : ∃ (sec op : Nat) (j : Job) (w : RecvWait) (s : State),
    runningJob s sec = some j ∧
    (s.fab.recvs.find? fun w => w.job == j.id && w.op == op) = some w ∧
    w.since + recvTimeout s ≤ s.ftime.toNat :=
  ⟨5, 0, jobA, recvW, ({ runs jobA secI up with ftime := 2 ^ 40, fab := { up.fab with recvs := [recvW] } }), by decide +kernel, by decide +kernel, by decide +kernel⟩

theorem witness_OperationsIssueInOrder_1 : ∃ (sec : Nat) (j : Job) (s : State),
    runningJob s sec = some j ∧
    j.refreshing ≠ [] :=
  ⟨5, ({ jobA with refreshing := [(0, 0)] }), (runs { jobA with refreshing := [(0, 0)] } secI up), by decide +kernel, by decide +kernel⟩

theorem witness_OperationsIssueInOrder_2 : ∃ (sec k c tick : Nat) (l : List (Nat × Nat)) (x : Sector) (j : Job) (i : Image) (s : State),
    getSector s sec = some x ∧
    runningJob s sec = some j ∧
    j.image = some i ∧
    tget none j.active k = some builtinStride ∧
    passesOver s j [builtinStride] = true ∧
    batchJobs s j = [] ∧
    j.refreshing = (c, tick) :: l :=
  ⟨5, 0, 0, 0, [], ({ secI with running := some 0 }), ({ jobS builtinStride with refreshing := [(0, 0)] }), img, (runs { jobS builtinStride with refreshing := [(0, 0)] } secI up), by decide +kernel, by decide +kernel, by decide +kernel, by decide +kernel, by decide +kernel, by decide +kernel, by decide +kernel⟩

theorem witness_OperationsIssueInOrder_3 : ∃ (sec idx : Nat) (j : Job) (i : Image) (s : State),
    runningJob s sec = some j ∧
    j.phase = .running ∧
    j.image = some i ∧
    j.refreshing = [] ∧
    ((List.range i.ops.length).find? fun n => decide (j.opNext ≤ n) && !j.skipped.contains n) = some idx :=
  ⟨5, 0, jobA, img, (runs jobA secI memUp), by decide +kernel, by decide +kernel, by decide +kernel, by decide +kernel, by decide +kernel⟩

theorem witness_OperationsIssueInOrder_4 : ∃ (sec : Nat) (j : Job) (i : Image) (s : State),
    runningJob s sec = some j ∧
    j.phase = .running ∧
    j.image = some i ∧
    j.refreshing = [] ∧
    ((List.range i.ops.length).find? fun n => decide (j.opNext ≤ n) && !j.skipped.contains n) = none :=
  ⟨5, ({ jobA with opNext := 1 }), img, (runs { jobA with opNext := 1 } secI up), by decide +kernel, by decide +kernel, by decide +kernel, by decide +kernel, by decide +kernel⟩

theorem witness_OperationsIssueInOrder_5 : ∃ (sec k n : Nat) (x : Sector) (j j1 : Job) (i : Image) (s u : State),
    getSector s sec = some x ∧
    runningJob s sec = some j ∧
    j.image = some i ∧
    tget none j.active k = some n ∧
    n ≠ builtinStride ∧
    (∀ st e, i.strides[n]? = some st → i.ops[st.opIndex]? = some e → isBuiltin j e = false) ∧
    (∀ g ∈ x.lcores.take i.coreCount, coreFenced s g = false ∧ (getCtx (getCore s g) k).run = .halted) ∧
    u = modJob s j.id (fun y => { y with stridesDone := y.stridesDone ++ [n], active := tset none y.active k none }) ∧
    getJob u j.id = some j1 :=
  ⟨5, 0, 0, ({ secI with running := some 0 }), (jobS 0), ({ jobS 0 with stridesDone := [0], active := [] }), img, (runs (jobS 0) secI up), _, by decide +kernel, by decide +kernel, by decide +kernel, by decide +kernel, by decide +kernel, by intro st e h1 h2; cases h1; cases h2; rfl, by decide +kernel, rfl, by decide +kernel⟩

theorem witness_OperationsIssueInOrder_6 : ∃ (sec k n g : Nat) (x : Sector) (j : Job) (i : Image) (s : State),
    getSector s sec = some x ∧
    runningJob s sec = some j ∧
    j.image = some i ∧
    tget none j.active k = some n ∧
    n ≠ builtinStride ∧
    (∀ st e, i.strides[n]? = some st → i.ops[st.opIndex]? = some e → isBuiltin j e = false) ∧
    g ∈ x.lcores.take i.coreCount ∧
    coreFenced s g = false ∧
    (getCtx (getCore s g) k).run = .running ∧
    haltDone (getCore s g) k = false :=
  ⟨5, 0, 0, 0, ({ secI with running := some 0 }), (jobS 0), img, (modCore (runs (jobS 0) secI up) 0 fun c => { c with ctx := [(0, { Ctx.fresh with run := .running })] }), by decide +kernel, by decide +kernel, by decide +kernel, by decide +kernel, by decide +kernel, by intro st e h1 h2; cases h1; cases h2; rfl, by decide +kernel, by decide +kernel, by decide +kernel, by decide +kernel⟩

theorem witness_OperationsIssueInOrder_7 : ∃ (sec b ts : Nat) (x : Sector) (j : Job) (t : TabBatch) (e : TabEnt) (s u v : State),
    getSector s sec = some x ∧
    runningJob s sec = some j ∧
    j.table = some ts ∧
    j.tabBatches = [t] ∧
    t.copied = false ∧
    e = tEnt (getTabs s j.fn ts).obj t.table ∧
    b = 0 ∧
    u = x.tiles.foldl (fun st tl => writeT st (tbBase tl + 0x2FC000) (((((getTabs s j.fn ts).obj.drop e.off).take e.len).map fun y => ⟨y, (getTabs s j.fn ts).poisoned.contains t.table⟩))) s ∧
    v = regSetPair u (fnBase j.fn + 0x2318) ((regPair u (fnBase j.fn + 0x2318) + e.len) % 2 ^ 64) ∧
    j.stats.fillEnd ≠ none ∧
    getJob v j.id = some j :=
  ⟨5, 0, 0, ({ secI with running := some 0 }), jobT, ⟨0, [0], false⟩, (tEnt [] 0), (withTabs (runs jobT secI up)), _, _, by decide +kernel, by decide +kernel, by decide +kernel, by decide +kernel, by decide +kernel, by decide +kernel, by decide +kernel, rfl, rfl, by decide +kernel, by decide +kernel⟩

theorem witness_ModelSectorsAndTimeSlicesComplete_1 : ∃ (sec : Nat) (x : Sector) (s : State),
    getSector s sec = some x ∧
    x.swapDue = true ∧
    x.holder = true ∧
    sectorZeroing s x = false ∧
    (∀ t ∈ x.tiles, tilePace s t ≠ 4) ∧
    x.model = none :=
  ⟨5, ({ secA with swapDue := true }), (oneSector { secA with swapDue := true } up), by decide +kernel, by decide +kernel, by decide +kernel, by decide +kernel, by decide +kernel, by decide +kernel⟩

theorem witness_ModelSectorsAndTimeSlicesComplete_2 : ∃ (sec : Nat) (x : Sector) (s : State),
    getSector s sec = some x ∧
    (x.swapDue = false ∨ x.holder = false ∨ sectorZeroing s x = true) :=
  ⟨5, secA, (oneSector secA up), by decide +kernel, by decide +kernel⟩

theorem witness_ModelSectorsAndTimeSlicesComplete_3 : ∃ (sec m : Nat) (x : Sector) (q : ModelSlot) (s u : State),
    getSector s sec = some x ∧
    x.swapDue = true ∧
    x.holder = true ∧
    sectorZeroing s x = false ∧
    (∀ t ∈ x.tiles, tilePace s t ≠ 4) ∧
    x.model = some m ∧
    x.running = none ∧
    x.queue = [] ∧
    u = modSector (serveDram s) sec (fun y => { y with swapDue := false }) ∧
    q = getModel u x.owner m ∧
    q.confidential = false ∧
    q.refill = [] :=
  ⟨5, 0, secM, modSlot, (withModel modSlot (oneSector secM memUp)), _, by decide +kernel, by decide +kernel, by decide +kernel, by decide +kernel, by decide +kernel, by decide +kernel, by decide +kernel, by decide +kernel, rfl, by decide +kernel, by decide +kernel, by decide +kernel⟩

theorem witness_ModelSectorsAndTimeSlicesComplete_4 : ∃ (sec grp m : Nat) (x : Sector) (j k : Job) (i : Image) (s u : State),
    getSector s sec = some x ∧
    runningJob s sec = some j ∧
    j.model = some m ∧
    grp < blobGroups (getModel s j.fn m).blob ∧
    x.holder = true ∧
    x.swapDue = false ∧
    sectorZeroing s x = false ∧
    j.phase = .running ∧
    stageable s j grp = true ∧
    j.image = some i ∧
    firstCopyDue s j i = false ∧
    u = modJob (stagerFill (stageGroup (serveDram s) (getModel s j.fn m) grp) j (getModel s j.fn m) grp (holdsFor s j grp)) j.id (fun y => setStaged y grp s.ftime.toNat true) ∧
    getJob u j.id = some k :=
  ⟨5, 0, 0, ({ secI with running := some 0 }), jobM, (setStaged jobM 0 20000 true), img, (withModel modSlot (runs jobM secI memUp)), _, by decide +kernel, by decide +kernel, by decide +kernel, by decide +kernel, by decide +kernel, by decide +kernel, by decide +kernel, by decide +kernel, by decide +kernel, by decide +kernel, by decide +kernel, rfl, by decide +kernel⟩

theorem witness_ModelSectorsAndTimeSlicesComplete_5 : ∃ (sec m : Nat) (x : Sector) (q : ModelSlot) (s : State),
    getSector s sec = some x ∧
    x.model = some m ∧
    q = getModel s x.owner m ∧
    x.running = none ∧
    x.holder = true ∧
    sectorZeroing s x = false ∧
    q.poisoned ≠ [] ∧
    (∀ p ∈ q.poisoned, homeClean s q p.1 p.2 = true) :=
  ⟨5, 0, ({ secM with swapDue := false }), ({ modSlot with poisoned := [(0, 0)] }), (withModel { modSlot with poisoned := [(0, 0)] } (oneSector { secM with swapDue := false } memUp)), by decide +kernel, by decide +kernel, by decide +kernel, by decide +kernel, by decide +kernel, by decide +kernel, by decide +kernel, by decide +kernel⟩

theorem witness_ModelSectorsAndTimeSlicesComplete_6 : ∃ (sec : Nat) (x : Sector) (s : State),
    getSector s sec = some x ∧
    x.reform = true ∧
    x.running = none :=
  ⟨5, ({ secA with reform := true }), (oneSector { secA with reform := true } up), by decide +kernel, by decide +kernel, by decide +kernel⟩

theorem witness_ModelSectorsAndTimeSlicesComplete_7 : ∃ (f slot u t : Nat) (q : ModelSlot) (x : Sector) (s v : State),
    q = getModel s f slot ∧
    (freeTiles s).find? (fun t => !s.zeroing.contains t) = some t ∧
    getSector s q.sector = some x ∧
    q.loaded = true ∧
    q.named = false ∧
    u ∈ q.fencedTiles ∧
    x.model = some slot ∧
    x.owner = f ∧
    x.running = none ∧
    v = setSector (modModel s f slot fun y => { y with tiles := y.tiles.set u t, fencedTiles := y.fencedTiles.erase u, refill := u :: y.refill }) q.sector (some { x with tiles := (List.range nTiles).filter fun k => x.tiles.contains k || k == t, swapDue := true }) :=
  ⟨0, 0, 0, 1, ({ modSlot with fencedTiles := [0] }), secM, (withModel { modSlot with fencedTiles := [0] } (oneSector secM memUp)), _, by decide +kernel, by decide +kernel, by decide +kernel, by decide +kernel, by decide +kernel, by decide +kernel, by decide +kernel, by decide +kernel, by decide +kernel, rfl⟩

theorem witness_ModelSectorsAndTimeSlicesComplete_8 : ∃ (sec : Nat) (x : Sector) (s : State),
    getSector s sec = some x ∧
    x.holder = true ∧
    x.running ≠ none ∧
    x.heldSince + quantumOf s x.owner ≤ s.ftime.toNat ∧
    nextHolder s sec x.shared ≠ none :=
  ⟨5, ({ secS with running := some 0 }), (shares memUp), by decide +kernel, by decide +kernel, by decide +kernel, by decide +kernel, by decide +kernel⟩

theorem witness_ModelSectorsAndTimeSlicesComplete_9 : ∃ (sec : Nat) (x : Sector) (s : State),
    getSector s sec = some x ∧
    (x.holder = false ∨ x.running = none ∨ s.ftime.toNat < x.heldSince + quantumOf s x.owner ∨ nextHolder s sec x.shared = none) :=
  ⟨5, secA, (oneSector secA up), by decide +kernel, by decide +kernel⟩

theorem witness_ModelSectorsAndTimeSlicesComplete_10 : ∃ (sec : Nat) (x : Sector) (j : Job) (s : State),
    getSector s sec = some x ∧
    runningJob s sec = some j ∧
    x.passDue = true ∧
    j.phase = .running ∧
    atSuspension s x j = true ∧
    takeGddr s x.owner (saveBytes s x) = none :=
  ⟨5, ({ secS with running := some 0 }), jobA, (shares up), by decide +kernel, by decide +kernel, by decide +kernel, by decide +kernel, by decide +kernel, by rw [saveBytes_plain rfl]; decide +kernel⟩

theorem save_room : (takeGddr (shares gddrUp) 0 (secS.lcores.length * 0xC000 + secS.tiles.length * 0x300000)).isSome = true := by decide +kernel
theorem witness_ModelSectorsAndTimeSlicesComplete_11 : ∃ (k : Nat) (x : Sector) (j : Job) (e : Extent) (s u : State),
    getSector s 5 = some x ∧ runningJob s 5 = some j ∧ x.passDue = true ∧ j.phase = .running ∧ atSuspension s x j = true ∧
    nextHolder s 5 x.shared = some k ∧ takeGddr s x.owner (saveBytes s x) = some (e, u) := by
  obtain ⟨⟨e, u⟩, h⟩ := Option.isSome_iff_exists.1 save_room
  refine ⟨6, { secS with running := some 0 }, jobA, e, shares gddrUp, u, by decide +kernel, by decide +kernel, by decide +kernel,
    by decide +kernel, by decide +kernel, by decide +kernel, ?_⟩
  rw [saveBytes_plain rfl]
  exact h

theorem witness_EncoderAndKeyPassesComplete_1 : ∃ (fe : Nat) (r : EncReq) (l m : List EncReq) (s u : State),
    ioStopped s fe = false ∧
    (tget [] s.encQ fe).filter (fun q => !q.started) = l ++ r :: m ∧
    (∀ q ∈ l, q.sector ≠ r.sector ∧ encGranted s q = false) ∧
    encGranted s r = true ∧
    u = emitEncode s fe r :=
  ⟨0, (encR [0] false false), [], [], (encs (encR [0] false false) up), _, by decide +kernel, by decide +kernel, by decide +kernel, by decide +kernel, rfl⟩

theorem witness_EncoderAndKeyPassesComplete_2 : ∃ (fe : Nat) (s : State),
    ioStopped s fe = true :=
  ⟨0, ({ up with sched := { up.sched with unlocked := [(100, 1)] } }), by decide +kernel⟩

theorem witness_EncoderAndKeyPassesComplete_3 : ∃ (fe : Nat) (s : State),
    (∀ r ∈ tget [] s.encQ fe, r.started = false → encGranted s r = false) :=
  ⟨0, (encs (encR [] false false) up), by decide +kernel⟩

theorem witness_EncoderAndKeyPassesComplete_4 : ∃ (fe : Nat) (r : EncReq) (s : State),
    (tget [] s.encQ fe).find? (·.started) = some r ∧
    (∃ q ∈ s.memq, ofEncode r.id q = true) :=
  ⟨0, (encR [0] true false), (waiting (req (.credit 0) true (csBase 0) 32 (.land 0 0 0)) (encs (encR [0] true false) up)), by decide +kernel, ⟨_, List.mem_singleton.2 rfl, by decide +kernel⟩⟩

theorem witness_EncoderAndKeyPassesComplete_5 : ∃ (fe : Nat) (r : EncReq) (s : State),
    (tget [] s.encQ fe).find? (·.started) = some r ∧
    (∀ q ∈ s.memq, ofEncode r.id q = false) ∧
    r.dropped = true :=
  ⟨0, (encR [0] true true), (encs (encR [0] true true) up), by decide +kernel, by decide +kernel, by decide +kernel⟩

theorem witness_EncoderAndKeyPassesComplete_6 : ∃ (fe : Nat) (r : EncReq) (j : Job) (s u : State),
    (tget [] s.encQ fe).find? (·.started) = some r ∧
    (∀ q ∈ s.memq, ofEncode r.id q = false) ∧
    r.dropped = false ∧
    u = modJob (bump { s with encQ := tset [] s.encQ fe ((tget [] s.encQ fe).erase r) } (fnBase r.fn + 0x210C)) r.job (fun j => { j with encoded := r.opIndex :: j.encoded, stats := { j.stats with steadyEnd := some s.ftime.toNat } }) ∧
    getJob u r.job = some j :=
  ⟨0, (encR [0] true false), ({ jobA with encoded := [0], stats := { jobA.stats with steadyEnd := some 0 } }), (encs (encR [0] true false) (runs jobA secI up)), _, by decide +kernel, by decide +kernel, by decide +kernel, rfl, by decide +kernel⟩

theorem witness_EncoderAndKeyPassesComplete_7 : ∃ (iod : Nat) (p : Pass) (l : List Pass) (s : State),
    queuedPasses s iod = p :: l ∧
    iod < 2 ∧
    ioStopped s iod = false ∧
    (∀ d ∈ [0, 1], passOnDie s p d = true → (activePasses s d).length < 16 ∧ ∃ l, queuedPasses s d = p :: l) ∧
    (passEnt s p).compressed = false ∧
    keyAddr (keyParam s p.fn p.key) (getKeys s p.fn p.key) (0x80 + 64 * p.entry) = none :=
  ⟨1, passQ, [], (withPass passQ (withKey { packedKey with obj := [] } up)), by decide +kernel, by decide +kernel, by decide +kernel, by intro d hd _; simp only [List.mem_cons, List.not_mem_nil, or_false] at hd; rcases hd with rfl | rfl <;> exact ⟨by decide +kernel, [], by decide +kernel⟩, by decide +kernel, by decide +kernel⟩

theorem witness_EncoderAndKeyPassesComplete_8 : ∃ (iod : Nat) (p : Pass) (l : List Pass) (s : State),
    queuedPasses s iod = p :: l ∧
    iod < 2 ∧
    ioStopped s iod = false ∧
    (∀ d ∈ [0, 1], passOnDie s p d = true → (activePasses s d).length < 16 ∧ ∃ l, queuedPasses s d = p :: l) ∧
    (passEnt s p).compressed = true ∧
    (∀ d, d < nDies → expanderFree s d = false) :=
  ⟨1, passQ, [], ({ withPass passQ (withKey packedKey up) with sched := { up.sched with unlocked := (List.range 12).map fun d => (8 * d + 2, 1) } }), by decide +kernel, by decide +kernel, by decide +kernel, by intro d hd _; simp only [List.mem_cons, List.not_mem_nil, or_false] at hd; rcases hd with rfl | rfl <;> exact ⟨by decide +kernel, [], by decide +kernel⟩, by decide +kernel, by decide +kernel⟩

theorem witness_EncoderAndKeyPassesComplete_9 : ∃ (b : BurstRead) (p : Pass) (i r a n : Nat) (s u v w : State),
    ioStopped s b.iod = false ∧
    nextPass s b.iod = some p ∧
    nextBurst s p b.iod = some (i, r) ∧
    burstPlace s p i r = (some a, n) ∧
    u = memErr (engineAccess s a n) a n b.err false ∧
    anyPoison u a n = false ∧
    v = modPass u p.id (fun x => { x with bursts := tset 0 x.bursts b.iod (tget 0 x.bursts b.iod + 1) }) ∧
    w = regSetPair { v with kseTurn := tset 0 v.kseTurn b.iod (p.id + 1) } (fnBase p.fn + 0x2318) ((regPair v (fnBase p.fn + 0x2318) + n) % 2 ^ 64) :=
  ⟨⟨0, .none⟩, passR, 0, 0, (2 ^ 30), 64, (withPass passR (withKey rawKey (modCore (oneSector secA memUp) 0 fun c => { c with cnt := c.cnt }))), _, _, _, by decide +kernel, by decide +kernel, by decide +kernel, by decide +kernel, rfl, by decide +kernel, rfl, rfl⟩

theorem witness_EncoderAndKeyPassesComplete_10 : ∃ (p mem g : Nat) (x : Pass) (s u : State),
    getPass s p = some x ∧
    x.dropped = false ∧
    (∀ y ∈ s.passes, y.job = x.job → y.groups ≠ 0 → y.first < x.first → y.slices ≤ tget 0 y.counted mem) ∧
    (mem, x.first + tget 0 x.counted mem) ∈ x.landed ∧
    u = modPass s p (fun y => { y with landed := y.landed.erase (mem, y.first + tget 0 x.counted mem), counted := tset 0 y.counted mem (tget 0 x.counted mem + 1) }) ∧
    memberCore u x mem = some g :=
  ⟨1, 0, 0, pass0, (withPass pass0 (oneSector secA up)), _, by decide +kernel, by decide +kernel, by decide +kernel, by decide +kernel, rfl, by decide +kernel⟩

theorem witness_EncoderAndKeyPassesComplete_11 : ∃ (p : Nat) (x : Pass) (s : State),
    getPass s p = some x ∧
    x.dropped = false ∧
    x.active = true ∧
    passRead s x = true ∧
    x.builtin = false ∧
    (∀ m ∈ passMembers x, memberCore s x m = none ∨ tget 0 x.counted m = x.slices) :=
  ⟨1, passE, (withPass passE (withKey rawKey (oneSector secA up))), by decide +kernel, by decide +kernel, by decide +kernel, by decide +kernel, by decide +kernel, by decide +kernel⟩

theorem witness_FencingCommandsComplete_1 : ∃ (g : Nat) (s : State),
    s.start.phase = 8 ∧
    g < 26112 ∧
    tileFenced s (g / 64) = false ∧
    coreFenced s g = false ∧
    g ∈ s.start.hwChecked :=
  ⟨26111, ({ up with start := { up.start with hwChecked := [26111] } }), by decide +kernel, by decide +kernel, by decide +kernel, by decide +kernel, by decide +kernel⟩

theorem witness_FencingCommandsComplete_2 : ∃ (t unit : Nat) (s : State),
    s.start.phase = 8 ∧
    t < 408 ∧
    unit ≠ 0 ∧
    tileFenced s t = false :=
  ⟨407, 1, up, by decide +kernel, by decide +kernel, by decide +kernel, by decide +kernel⟩

theorem witness_FencingCommandsComplete_3 : ∃ (g : Nat) (s u : State),
    s.start.phase = 8 ∧
    g < 26112 ∧
    tileFenced s (g / 64) = false ∧
    coreFenced s g = false ∧
    g ∉ s.start.hwChecked ∧
    u = bump (raiseSrc s (dieOfTile (g / 64)) (2 + g / 64 % 34)) 0xC0F04 ∧
    sectorsWith { u with start := { u.start with hwChecked := s.start.hwChecked ++ [g] } } (g / 64) = [] :=
  ⟨0, up, _, by decide +kernel, by decide +kernel, by decide +kernel, by decide +kernel, by decide +kernel, rfl, by decide +kernel⟩

theorem witness_FencingCommandsComplete_4 : ∃ (n : Nat) (s : State),
    s.start.phase = 8 ∧
    fenUnit s = (true, n) :=
  ⟨407, (names true 407 up), by decide +kernel, by decide +kernel⟩

theorem witness_FencingCommandsComplete_5 : ∃ (n : Nat) (s : State),
    s.start.phase = 8 ∧
    fenUnit s = (false, n) :=
  ⟨26111, (names false 26111 up), by decide +kernel, by decide +kernel⟩

theorem witness_FencingCommandsComplete_6 : ∃ (n : Nat) (s : State),
    s.start.phase = 8 ∧
    fenUnit s = (true, n) ∧
    n < 408 ∧
    (fenState s true n = 1 ∨ fenState s true n = 3) :=
  ⟨407, (names true 407 { up with start := { up.start with fuseTiles := [407] } }), by decide +kernel, by decide +kernel, by decide +kernel, by decide +kernel⟩

theorem witness_FencingCommandsComplete_7 : ∃ (n : Nat) (s : State),
    s.start.phase = 8 ∧
    fenUnit s = (true, n) ∧
    n < 408 ∧
    fenState s true n = 2 ∧
    n ∈ s.start.field.tiles :=
  ⟨407, (names true 407 (inField [407] [] up)), by decide +kernel, by decide +kernel, by decide +kernel, by decide +kernel, by decide +kernel⟩

theorem witness_FencingCommandsComplete_8 : ∃ (n : Nat) (s : State),
    s.start.phase = 8 ∧
    fenUnit s = (false, n) ∧
    n < 26112 ∧
    fenState s false n = 2 ∧
    n ∈ s.start.field.cores :=
  ⟨26111, (names false 26111 (inField [] [26111] up)), by decide +kernel, by decide +kernel, by decide +kernel, by decide +kernel, by decide +kernel⟩

theorem witness_FencingCommandsComplete_9 : ∃ (tile : Bool) (n : Nat) (s : State),
    s.start.phase = 8 ∧
    fenUnit s = (tile, n) ∧
    n < (if tile then 408 else 26112) ∧
    s.Inv :=
  ⟨true, 407, (names true 407 up), by decide +kernel, by decide +kernel, by decide +kernel, inv_of (by decide +kernel)⟩

theorem witness_SecurityEnginesComplete_1 : ∃ (cyc c : Nat) (j k : PkeJob) (s u : State),
    s.pke.current = some c ∧
    (s.pke.jobs.find? fun j => j.id == c) = some j ∧
    cyc < j.remaining ∧
    j.owner ≠ .nobody ∧
    u = { s with pke := { s.pke with jobs := s.pke.jobs.map fun x => if x.id = j.id then { j with remaining := j.remaining - cyc } else x } } ∧
    pkePick u = some k ∧
    k.remaining < j.remaining - cyc :=
  ⟨1, 0, (pkeJ 0 .curve 9), (pkeJ 1 .curve 7), (pkes [pkeJ 0 .curve 9, pkeJ 1 .curve 7]), _, by decide +kernel, by decide +kernel, by decide +kernel, by decide +kernel, rfl, by decide +kernel, by decide +kernel⟩

theorem witness_SecurityEnginesComplete_2 : ∃ (cyc c : Nat) (j : PkeJob) (s : State),
    s.pke.current = some c ∧
    (s.pke.jobs.find? fun j => j.id == c) = some j ∧
    cyc < j.remaining ∧
    j.owner = .nobody :=
  ⟨1, 0, (pkeJ 0 .nobody 9), (pkes [pkeJ 0 .nobody 9]), by decide +kernel, by decide +kernel, by decide +kernel, by decide +kernel⟩

theorem witness_SecurityEnginesComplete_3 : ∃ (j : Nat) (x : PkeJob) (s : State),
    (s.pke.jobs.find? fun x => x.id == j) = some x ∧
    s.pke.current = some j :=
  ⟨0, (pkeJ 0 .curve 9), (pkes [pkeJ 0 .curve 9]), by decide +kernel, by decide +kernel⟩

theorem witness_SecurityEnginesComplete_4 : ∃ (j : Nat) (x : PkeJob) (s u : State),
    (s.pke.jobs.find? fun x => x.id == j) = some x ∧
    s.pke.current = some j ∧
    (x.op = 2 ∨ x.op = 8) ∧
    u = raiseSrc (bump (pkeDrop s x) 0x90300) 12 31 :=
  ⟨0, (pkeJ 0 .curve 9), (pkes [pkeJ 0 .curve 9]), _, by decide +kernel, by decide +kernel, by decide +kernel, rfl⟩

theorem witness_SecurityEnginesComplete_5 : ∃ (test : Nat) (s : State),
    s.pke.overflow = [] ∧
    s.Inv :=
  ⟨1, up, by decide +kernel, inv_of (by decide +kernel)⟩

theorem witness_SecurityEnginesComplete_6 : ∃ (lane : Nat) (h : HashTask) (s : State),
    tget none s.pke.lanes lane = some h :=
  ⟨0, ⟨.curve, 9⟩, ({ up with pke := { up.pke with lanes := [(0, some ⟨.curve, 9⟩)] } }), by decide +kernel⟩

theorem witness_CurvesAndSignersComplete_1 : ∃ (slot : Nat) (s : State),
    curveBusy s = false ∧
    4 ≤ slot ∧
    slot < 8 ∧
    curveInUse s slot = true :=
  ⟨4, curveUsed, by decide +kernel, by decide +kernel, by decide +kernel, by decide +kernel⟩

theorem witness_CurvesAndSignersComplete_2 : ∃ (slot : Nat) (s : State),
    (slot < 4 ∨ 8 ≤ slot) :=
  ⟨3, up, by decide +kernel⟩

theorem witness_CurvesAndSignersComplete_3 : ∃ (slot : Nat) (s : State),
    curveBusy s = false ∧
    4 ≤ slot ∧
    slot < 8 ∧
    curveInUse s slot = false ∧
    drbgFault s = false :=
  ⟨7, up, by decide +kernel, by decide +kernel, by decide +kernel, by decide +kernel, by decide +kernel⟩

theorem witness_CurvesAndSignersComplete_4 : ∃ (slot : Nat) (s : State),
    curveBusy s = false ∧
    4 ≤ slot ∧
    slot < 8 ∧
    curveInUse s slot = false :=
  ⟨7, up, by decide +kernel, by decide +kernel, by decide +kernel, by decide +kernel⟩

theorem witness_CurvesAndSignersComplete_5 : ∃ (slot k : Nat) (s : State),
    curveBusy s = false ∧
    slot < 8 ∧
    k < 128 ∧
    s.Inv :=
  ⟨7, 127, up, by decide +kernel, by decide +kernel, by decide +kernel, inv_of (by decide +kernel)⟩

theorem witness_CurvesAndSignersComplete_6 : ∃ (slot : Nat) (ws : List Word) (s u : State),
    s.pke.checking = some (slot, ws) ∧
    (∀ j ∈ s.pke.jobs ++ s.pke.overflow, j.owner ≠ .curve) ∧
    u = regSetFld { s with pke := { s.pke with checking := none } } 0x9000C 16 16 0 :=
  ⟨4, [], checking, _, by decide +kernel, by decide +kernel, rfl⟩

theorem witness_CurvesAndSignersComplete_7 : ∃ (f slot : Nat) (s : State),
    signerLocked s f = true :=
  ⟨63, 3, (put (0xA0100 + 4 * 63) 0x100 up), by decide +kernel⟩

theorem witness_CurvesAndSignersComplete_8 : ∃ (f slot : Nat) (s : State),
    signerLocked s f = false ∧
    algOk (regFld s 0xA0014 7 0) = true ∧
    f < 64 ∧
    slot < 4 :=
  ⟨63, 3, (put 0xA0014 7 up), by decide +kernel, by decide +kernel, by decide +kernel, by decide +kernel⟩

theorem witness_CurvesAndSignersComplete_9 : ∃ (f slot : Nat) (s : State),
    signerLocked s f = false ∧
    f < 64 ∧
    slot < 4 :=
  ⟨63, 3, up, by decide +kernel, by decide +kernel, by decide +kernel⟩

theorem witness_CurvesAndSignersComplete_10 : ∃ (f slot a k : Nat) (d : List Byte) (s : State),
    tget none (getFn s f).signers slot = some (a, d) ∧
    k < 12 ∧
    s.Inv :=
  ⟨63, 3, 1, 11, [], signed, by decide +kernel, by decide +kernel, inv_of (by decide +kernel)⟩

theorem witness_MemoryReadsBackWhatIsWritten_1 : ∃ (s : State) (a : Nat) (bs : List Byte),
    s.Inv :=
  ⟨up, gddrBase, [1, 2], inv_of (by decide +kernel)⟩

theorem witness_FreedHandlesAreStale_1 : ∃ (s : State) (f i gen : Nat) (b : Buf),
    f < 64 ∧
    i < 2 ^ 16 ∧
    gen < 2 ^ 10 ∧
    s.Inv ∧
    twf Buf.free (getFn s f).bufs = true ∧
    resolve s f (handleOf f gen i) = (0, b) :=
  ⟨(withBuf up), 0, 2, 1, buf0, by decide +kernel, by decide +kernel, by decide +kernel, inv_of (by decide +kernel), by decide +kernel, by decide +kernel⟩

theorem witness_CountersSaturate_1 : ∃ (s : State) (o p : Nat), s.Inv ∧ p ≠ o :=
  ⟨up, 0x9030C, 0, inv_of (by decide +kernel), by decide +kernel⟩

theorem witness_ClaimStacksStayOrdered_1 : ∃ (s t : State),
    (∀ x ∈ s.eicStack, x.2.Pairwise (fun a b => b.2 < a.2) ∧ ∀ y ∈ x.2, y.2 < 16) ∧
    step s = .next t :=
  ⟨(setEicStack up 13 3 [(300, 1)]), (setEicStack up 13 3 [(300, 1)]), by decide +kernel, rfl⟩


/-! ### Well-formed commands -/

def mntRep : MntReport := ⟨true, [], false, [], 0⟩
def sample : Sample := ⟨List.replicate 128 25, List.replicate 64 800, List.replicate 64 0⟩
def wellFormedOnes0 : List Instr := [
  .powerApplied 0 boot, .startPhaseEnd good, .phaseTimeout, .perstDeassert, .perstAssert,
  .wakeRelease, .configRequest 0 0 false 0, .moduleWithdrawal 0, .powerFail 0, .hwThermalTrip 0,
  .keeperWatchdog boot, .keeperSample sample, .opSecondsSave, .pllUnlock 0 0, .pllRelock 0 0 false,
  .smbusArp 0, .mctpControl false 0 [], .pldmSetEventReceiver 0, .pldmEventAck, .pldmGetSensorReading 0,
  .pldmFruRead 0 0, .pldmPowerOn, .pldmPowerOff, .pldmWarmReset, .pldmColdReset]
def wellFormedOnes1 : List Instr := [
  .resetGraceExpiry, .pldmSetCapWatts 0 0, .pldmSetCapPace 0 0, .regRead 0 0, .regWrite 0 [],
  .dayLoad 0, .dayHoldFreeze, .dayHoldThaw, .latchRead, .daymarkProgram .ok,
  .freezeLimitExpiry 0, .dayCmdLoad, .dayCmdNext, .dayCmdFreeze, .dayCmdThaw,
  .dayCmdRetry .ok, .dayCmdClearLatch, .eicClaim 0 0 .host, .eicComplete 0 0 0, .eicSwset 0 0 .host,
  .eicLock 0 0, .hubWake 0, .registerWrite (.bar0 0) 0 0 0, .rcRead (.bar0 0) ⟨0, 4⟩ 0, .pairLoRead (.bar0 0) ⟨0, 4⟩]
def wellFormedOnes2 : List Instr := [
  .pairHiWrite (.bar0 0) 0 0, .pairLoWrite (.bar0 0) 0 0, .jobObjPolicyWrite 0 0, .hifFnResetGo 0, .functionLevelReset 0,
  .vfEnableClear, .ringEnable 0 0 0, .ringDisable 0 0 0, .bar2Access 0 0 false [], .bellPoll 0 [] [],
  .inputSegmentArrival 0 0 0 0 [] false false, .segmentTimeout 0, .readCompletionTimeout 0 0 0, .loadParams 0 0 0, .loadKeys 0 0 0,
  .loadModel 0 0 0, .submitCircuit 0 0 0, .directOp 0 0 0, .rawSector 0 0 0, .copy 0 0 0,
  .fence 0 0 0, .freeBuffer 0 0 0, .freeSlot 0 0 0, .queryDevice 0 0 0, .queryFunction 0 0 0]
def wellFormedOnes3 : List Instr := [
  .querySector 0 0 0, .queryModel 0 0 0, .queryBuiltin 0 0 0, .queryAttest 0 0 0, .queryIdentity 0 0 0,
  .cancel 0 0 0, .schedule 0 0 0, .alloc 0 0 0, .sectorForm 0 0 0, .sectorRelease 0 0 0,
  .setQuota 0 0 0, .setExpert 0 0 0, .directOpBatchWindow 0 0, .programLoad 0, .operationIssue 0,
  .recvTimeout 0 0, .admissionWalk, .strideEnd 0 0, .jobComplete 0, .denseFloorExpiry 0,
  .sectorZeroingEnd 0, .swapIn 0, .stageGroup 0 0, .weightReload 0, .refreshTableCopy 0]
def wellFormedOnes4 : List Instr := [
  .encodeRequestStart 0, .encodeRequestDone 0, .keyPassActivate 0, .keyBurst ⟨0, .none⟩, .keySliceLanded 0 0,
  .keyPassEnd 0, .quantumExpiry 0, .sliceSuspend 0, .restDelayExpiry 0, .startSlot,
  .paceChangeEnd 0, .syncInEdge 0, .localTick 0, .tickWatchdogExpiry 0, .ringHold 0,
  .ringRelease 0, .capture 0, .captureGatherEnd 0, .pace 0, .checkpoint 0,
  .maintenance 0, .mark 0, .maintenanceActivityBegin 0, .maintenanceActivityEnd 0 mntRep, .mntIdleTimeout 0]
def wellFormedOnes5 : List Instr := [
  .patrolScrub ⟨0, 0⟩ .none, .dramRefresh 0, .deviceMemoryResponse 0 .none, .memoryRequestTimeout 0, .hardwareCheck 0 0,
  .sectorReform 0, .modelTileReplace 0 0 0, .fenCmdFence, .fenCmdUnfence, .fenCmdRead,
  .pkeYield 0, .pkeJobEnd 0 .done, .drbgHealthFail 0, .curveLoad 0, .curveCheckEnd,
  .curveClear 0, .curveRead 0, .signerWrite 0 0, .signerClear 0 0, .signerRead 0 0,
  .roleCommit (.bar0 0) 0, .roleRead (.bar0 0) 0, .pairResync, .pairHandover, .pairTakeoverWrite]
def wellFormedOnes6 : List Instr := [
  .portLockLoss 0, .portTrainingEnd 0 false 0, .flitTransmit 0, .replayTimeout 0, .idle 0 (flit 1 []) false,
  .lnak 0 (flit 1 []) false, .data 0 (flit 1 []) false, .messageInputTimeout 0 0, .ack 0 (flit 1 []) false, .nack 0 (flit 1 []) false,
  .ackTimeout 0, .resendWaitExpiry 0, .busyRetryExpiry 0, .probe 0 (flit 1 []) false, .probeAck 0 (flit 1 []) false,
  .takeover 0 (flit 1 []) false, .heartbeatMiss, .probeTimeout, .tick 0 (flit 1 []) false 0, .heartbeat 0 (flit 1 []) false,
  .state 0 (flit 1 []) false, .journal 0 (flit 1 []) false, .mirror 0 (flit 1 []) false, .commit 0 (flit 1 []) false, .digest 0 (flit 1 []) false]
def wellFormedOnes7 : List Instr := [
  .bundleIssue 0 0, .programFault 0, .waitTimeout 0 0 0, .signalAction 0 0, .barrierComplete 0 0 0,
  .arrayResultReady 0 0, .coreStoreLoadService 0 0 .none, .coreStoreStoreService 0 0, .loadDataReturn 0 0 0, .segldComplete 0 0,
  .streamPortService 0 0 .none, .tileBankService 0 0 .none, .creditGrant 0, .streamRequestIssue 0, .chunkLanded 0 0,
  .outChunkAck 0 0, .streamEnd 0 0, .pairMirrorDone, .inputProtectionTrip, .elementResultWrite 0 0,
  .transformAssistResult 0 0, .hashLaneDigestDone 0, .warmResetZeroingEnd]
/-- One well-formed command of each row. -/
def wellFormedOnes : List Instr := wellFormedOnes0 ++ wellFormedOnes1 ++ wellFormedOnes2 ++ wellFormedOnes3 ++ wellFormedOnes4 ++ wellFormedOnes5 ++ wellFormedOnes6 ++ wellFormedOnes7
def illFormedOnes0 : List Instr := [
  .powerApplied 65536 boot, .powerApplied 0 { boot with copyB := 3 }, .startPhaseEnd { good with ms := 65536 }, .configRequest 64 0 false 0, .configRequest 0 4096 false 0,
  .moduleWithdrawal 65536, .powerFail 65536, .hwThermalTrip 128, .keeperWatchdog { boot with copyB := 3 }, .keeperSample { sample with temps := [] },
  .pllUnlock 14 0, .pllUnlock 0 5, .pllRelock 14 0 false, .pllRelock 0 5 false, .smbusArp 256,
  .mctpControl false 256 [], .pldmSetEventReceiver 256, .pldmGetSensorReading 65536, .pldmSetCapWatts 12 0, .pldmSetCapWatts 0 256,
  .pldmSetCapPace 12 0, .pldmSetCapPace 0 8, .dayLoad 4294967296, .freezeLimitExpiry 2, .eicClaim 14 0 .host]
def illFormedOnes1 : List Instr := [
  .eicClaim 0 4 .host, .eicClaim 0 0 (.dieSeq 12), .eicComplete 14 0 0, .eicComplete 0 4 0, .eicComplete 0 0 512,
  .eicSwset 14 0 .host, .eicSwset 0 512 .host, .eicSwset 0 0 (.dieSeq 12), .eicLock 14 0, .hubWake 12,
  .registerWrite (.proc (.keeper 2)) 0 0 0, .rcRead (.proc (.keeper 2)) ⟨0, 4⟩ 0, .pairLoRead (.proc (.keeper 2)) ⟨0, 4⟩, .pairHiWrite (.proc (.keeper 2)) 0 0, .pairLoWrite (.proc (.keeper 2)) 0 0,
  .jobObjPolicyWrite 64 0, .hifFnResetGo 64, .functionLevelReset 64, .ringEnable 64 0 0, .ringEnable 0 32 0,
  .ringDisable 64 0 0, .ringDisable 0 32 0, .bar2Access 68719476736 0 false [], .bellPoll 64 [] [], .inputSegmentArrival 64 0 0 0 [] false false]
def illFormedOnes2 : List Instr := [
  .loadParams 64 0 0, .loadParams 0 32 0, .loadKeys 64 0 0, .loadKeys 0 32 0, .loadModel 64 0 0,
  .loadModel 0 32 0, .submitCircuit 64 0 0, .submitCircuit 0 32 0, .directOp 64 0 0, .directOp 0 32 0,
  .rawSector 64 0 0, .rawSector 0 32 0, .copy 64 0 0, .copy 0 32 0, .fence 64 0 0,
  .fence 0 32 0, .freeBuffer 64 0 0, .freeBuffer 0 32 0, .freeSlot 64 0 0, .freeSlot 0 32 0,
  .queryDevice 64 0 0, .queryDevice 0 32 0, .queryFunction 64 0 0, .queryFunction 0 32 0, .querySector 64 0 0]
def illFormedOnes3 : List Instr := [
  .querySector 0 32 0, .queryModel 64 0 0, .queryModel 0 32 0, .queryBuiltin 64 0 0, .queryBuiltin 0 32 0,
  .queryAttest 64 0 0, .queryAttest 0 32 0, .queryIdentity 64 0 0, .queryIdentity 0 32 0, .cancel 64 0 0,
  .cancel 0 32 0, .schedule 64 0 0, .schedule 0 32 0, .alloc 64 0 0, .alloc 0 32 0,
  .sectorForm 64 0 0, .sectorForm 0 32 0, .sectorRelease 64 0 0, .sectorRelease 0 32 0, .setQuota 64 0 0,
  .setQuota 0 32 0, .setExpert 64 0 0, .setExpert 0 32 0, .directOpBatchWindow 64 0, .directOpBatchWindow 0 32]
def illFormedOnes4 : List Instr := [
  .programLoad 64, .operationIssue 64, .recvTimeout 64 0, .strideEnd 64 0, .strideEnd 0 4,
  .jobComplete 64, .denseFloorExpiry 64, .sectorZeroingEnd 408, .swapIn 64, .stageGroup 64 0,
  .stageGroup 0 65536, .weightReload 64, .refreshTableCopy 64, .encodeRequestStart 2, .encodeRequestDone 2,
  .keyPassActivate 2, .keyBurst ⟨2, .none⟩, .quantumExpiry 64, .sliceSuspend 64, .restDelayExpiry 64,
  .paceChangeEnd 408, .ringHold 64, .ringRelease 64, .capture 64, .captureGatherEnd 64]
def illFormedOnes5 : List Instr := [
  .pace 64, .checkpoint 64, .maintenance 64, .mark 64, .maintenanceActivityEnd 0 { mntRep with lanes := 16 },
  .patrolScrub ⟨4503599627370496, 0⟩ .none, .dramRefresh 272, .deviceMemoryResponse 272 .none, .memoryRequestTimeout 272, .hardwareCheck 26112 0,
  .hardwareCheck 0 2, .sectorReform 64, .modelTileReplace 64 0 0, .modelTileReplace 0 8 0, .drbgHealthFail 256,
  .curveLoad 8, .curveClear 8, .curveRead 8, .signerWrite 64 0, .signerWrite 0 4,
  .signerClear 64 0, .signerClear 0 4, .signerRead 64 0, .signerRead 0 4, .roleCommit (.proc (.keeper 2)) 0]
def illFormedOnes6 : List Instr := [
  .roleRead (.proc (.keeper 2)) 0, .portLockLoss 32, .portTrainingEnd 32 false 0, .portTrainingEnd 0 false 16, .flitTransmit 33,
  .replayTimeout 32, .idle 33 (flit 1 []) false, .idle 0 { flit 16 [] with vc := 0 } false, .lnak 33 (flit 1 []) false, .lnak 0 { flit 16 [] with vc := 0 } false,
  .data 33 (flit 1 []) false, .data 0 { flit 16 [] with vc := 0 } false, .messageInputTimeout 4096 0, .messageInputTimeout 0 65536, .ack 33 (flit 1 []) false,
  .ack 0 { flit 16 [] with vc := 0 } false, .nack 33 (flit 1 []) false, .nack 0 { flit 16 [] with vc := 0 } false, .probe 33 (flit 1 []) false, .probe 0 { flit 16 [] with vc := 0 } false,
  .probeAck 33 (flit 1 []) false, .probeAck 0 { flit 16 [] with vc := 0 } false, .takeover 33 (flit 1 []) false, .takeover 0 { flit 16 [] with vc := 0 } false, .tick 33 (flit 1 []) false 0]
def illFormedOnes7 : List Instr := [
  .tick 0 { flit 16 [] with vc := 0 } false 0, .heartbeat 33 (flit 1 []) false, .heartbeat 0 { flit 16 [] with vc := 0 } false, .state 33 (flit 1 []) false, .state 0 { flit 16 [] with vc := 0 } false,
  .journal 33 (flit 1 []) false, .journal 0 { flit 16 [] with vc := 0 } false, .mirror 33 (flit 1 []) false, .mirror 0 { flit 16 [] with vc := 0 } false, .commit 33 (flit 1 []) false,
  .commit 0 { flit 16 [] with vc := 0 } false, .digest 33 (flit 1 []) false, .digest 0 { flit 16 [] with vc := 0 } false, .bundleIssue 26112 0, .programFault 64,
  .waitTimeout 26112 0 0, .waitTimeout 0 4 0, .signalAction 26112 0, .barrierComplete 64 0 0, .barrierComplete 0 4 0,
  .arrayResultReady 26112 0, .coreStoreLoadService 26112 0 .none, .coreStoreStoreService 26112 0, .loadDataReturn 26112 0 0, .loadDataReturn 0 4 0]
def illFormedOnes8 : List Instr := [
  .segldComplete 26112 0, .streamPortService 26112 0 .none, .tileBankService 408 0 .none, .creditGrant 26112, .streamRequestIssue 26112,
  .chunkLanded 26112 0, .chunkLanded 0 8, .outChunkAck 26112 0, .outChunkAck 0 8, .streamEnd 26112 0,
  .streamEnd 0 8, .elementResultWrite 26112 0, .transformAssistResult 26112 0, .hashLaneDigestDone 16, .bellPoll 0 [0] [],
  .bellPoll 0 [] [[0]]]
/-- Every bound of WellFormed, broken by one command. -/
def illFormedOnes : List Instr := illFormedOnes0 ++ illFormedOnes1 ++ illFormedOnes2 ++ illFormedOnes3 ++ illFormedOnes4 ++ illFormedOnes5 ++ illFormedOnes6 ++ illFormedOnes7 ++ illFormedOnes8

theorem test_well_formed : wellFormedOnes.all wellFormed = true := by decide +kernel
theorem test_ill_formed : illFormedOnes.all (fun c => !wellFormed c) = true := by decide +kernel
theorem test_ill_formed_reports :
    remapOk ⟨1, 26112, 0, 0, 0⟩ = false ∧ remapOk ⟨1, 0, 8, 0, 0⟩ = false ∧ remapOk ⟨2, 408, 0, 0, 0⟩ = false ∧
    remapOk ⟨2, 0, 16, 0, 0⟩ = false ∧ remapOk ⟨3, 0, 0, 0, 0⟩ = false ∧ remapOk ⟨1, 0, 0, 0, 512⟩ = false ∧
    phaseOk { good with badCtls := [272] } = false ∧ phaseOk { good with badCores := [26112] } = false ∧
    phaseOk { good with badTiles := [408] } = false ∧ phaseOk { good with remaps := [⟨3, 0, 0, 0, 0⟩] } = false ∧
    mntOk { mntRep with badCores := [26112] } = false ∧ mntOk { mntRep with remaps := [⟨0, 0, 0, 0, 0⟩] } = false ∧
    sampleOk { sample with volts := [] } = false ∧ sampleOk { sample with amps := [] } = false ∧
    bootOk { boot with fail0 := 4 } = false ∧ bootOk { boot with image0 := 3 } = false ∧ bootOk { boot with fail1 := 4 } = false ∧
    bootOk { boot with image1 := 3 } = false ∧ bootOk { boot with copyA := 3 } = false ∧ procOk (.ioSeq 2) = false ∧
    masterOk (.bar0 64) = false ∧
    flitOk { flit 1 [] with vc := 4 } = false ∧ flitOk { flit 1 [] with seq := 4096 } = false ∧
    flitOk { flit 1 [] with ack := 4096 } = false ∧ flitOk { flit 1 [] with crVc := 4 } = false ∧
    flitOk { flit 1 [] with crCount := 64 } = false ∧ flitOk { flit 1 [] with dst := 2 ^ 20 } = false ∧
    flitOk { flit 1 [] with ttl := 64 } = false ∧ flitOk { flit 1 [] with gen := 4 } = false ∧
    flitOk { flit 1 [] with src := 2 ^ 20 } = false ∧ flitOk { flit 1 [] with msgId := 2 ^ 32 } = false ∧
    flitOk (flit 1 (List.replicate 237 0)) = false := by decide +kernel

/-! ### Worked examples of the spec -/

/-- The state after a command. -/
def after (c : Instr) (s : State) : State := match exec c s with
  | .next t => t
  | _ => s

/-- 01_architecture.md, a small sector: cores 12 of tile 177 and 3 of tile 178 are fenced. -/
def fenced2 : State := put (0xC0100 + 4 * (11340 / 32)) (2 ^ (11340 % 32)) (put (0xC0100 + 4 * (11395 / 32)) (2 ^ (11395 % 32)) up)
theorem test_logical_cores_of_the_small_sector :
    let l := logicalCores fenced2 [177, 178, 179]
    l.length = 190 ∧ l.getD 12 0 = 11328 + 13 ∧ l.getD 62 0 = 11391 ∧ l.getD 66 0 = 11392 + 4 ∧ l.getD 126 0 = 11456 ∧
      l.getD 189 0 = 11519 := by decide +kernel
/-- 03_cores.md, a product sum reduced lazily and in full. -/
theorem test_lazy_reduction :
    barrettMu 998244353 = 302762999856065 ∧ barrett 3985967145199599616 998244353 302762999856065 false = 998244357 ∧
      barrett 3985967145199599616 998244353 302762999856065 true = 4 := by decide +kernel
/-- 02_ciphertexts.md, layer 2 of the credit-scoring network: the noise of steps 1 to 4. -/
theorem test_noise_of_the_credit_scoring_network :
    addQ (lse 0x2000 0x1E00) 0x0B00 = 0x2B53 ∧ lse 0x2B53 0 = 0x2B54 ∧ lse (0x2B54 - 0x1DFF) 0x0300 = 0x0D57 ∧
      lse (lse (addQ (lse 0x2B58 0x2B58) 0x0B00) 0x25AE) 0x0800 = 0x375A ∧ sc8 0x1E0060 = 0x1E01 ∧ sc8 0x3C00C0 = 0x3C01 ∧
      lse (lse (addQ (lse 0x2400 0x2400) 0x0B00) 0x1700) 0x0800 = 0x3002 := by decide +kernel
/-- 05_formats_and_encoding.md, one block as B4I and as B8I: the codes, the elements and whether it is dominated. -/
def blockIn : List (Bool × Nat × Int) := [(false, 23, -2), (true, 5452595, -22), (false, 13421773, -26), (true, 13421773, -27)]
theorem test_one_block_packed_two_ways :
    (packBlock 7 blockIn 0).code = 0x7F ∧ (packBlock 7 blockIn 0).elts = [6, 15, 0, 0] ∧ (packBlock 7 blockIn 0).dominated = true ∧
      (packBlock 6 blockIn 0).code = 0x7B ∧ (packBlock 6 blockIn 0).elts = [0x5C, 0xEB, 0x03, 0xFE] ∧
      (packBlock 6 blockIn 0).dominated = false := by decide +kernel
/-- 09_refresh.md, a step function: phase 1,178 of 2n_r = 4,096 reads T[9], a score of 9.2 gives index 9, and one of -3.0 gives 29,
that is -T[13] = -12. -/
def stepTable : List Int := (List.range 16).map fun k => ((Nat.min k 12 : Nat) : Int)
theorem test_step_function :
    kappa 16 2048 1178 = 9 ∧ lookupIndex 16 320 92 = 9 ∧ lookupValue stepTable 9 = 9 ∧ lookupIndex 16 320 (-30) = 29 ∧
      lookupValue stepTable 29 = -12 := by decide +kernel
/-- 10_memory.md, a map-out: unit 2,097,152 is on pseudo-channel 0 of HB0 before it, and on pseudo-channel 0 of HB1 after it. -/
def hbmAll (pc5 : Nat) : State :=
  put 0x10000 147456 ((List.range 8).foldl (fun s h => put (0x10020 + 4 * h) (if h = 2 then pc5 else 0xFFFFFFFF) s) up)
theorem test_hbm_map_out :
    placeOf (hbmAll 0xFFFFFFFF) 0x100000000 = (0, 0x2000000) ∧ placeOf (hbmAll 0xFFFFFFDF) 0x100000000 = (32, 0x2040800) := by
  decide +kernel
/-- 15_keeper.md, Table 15.12: claims nest, and completing the outer source first empties the stack and pends both again. -/
theorem test_completing_the_outer_source_first :
    let s := setPendingBit (setEicStack up 4 0 [(5, 8), (40, 6)]) 4 300 true
    let t := after (.eicComplete 4 0 40) s
    eicStack t 4 0 = [] ∧ ([5, 40, 300].all fun n => bit (regGet t (eicBase 4 + 0x800 + 4 * (n / 32))).toNat (n % 32)) = true ∧
      (regGet t (eicBase 4 + 0x910)).toNat = 1 := by decide +kernel

/-- No row of the table gives bits: no word spells a command, and a state with a word in front is unchanged. -/
theorem test_no_word_spells_a_command (nbits w : Nat) (s : State) :
    decodeTableWord nbits w = none ∧ State.withFetchWord s nbits w = s := ⟨rfl, rfl⟩

/-! ### Frames -/

theorem witness_FrameOfRegisters_1 : ∃ (c : Instr) (s t : State), exec c s = .next t ∧ Part.regs ∉ partsOf c :=
  ⟨.perstDeassert, up, _, rfl, by decide⟩

theorem witness_FrameOfMemory_1 : ∃ (c : Instr) (s t : State), exec c s = .next t ∧ Part.mem ∉ partsOf c :=
  ⟨.perstDeassert, up, _, rfl, by decide⟩

theorem witness_FrameOfCoresFunctionsSectorsJobs_1 : ∃ (c : Instr) (s t : State), exec c s = .next t ∧ Part.cores ∉ partsOf c ∧ Part.fns ∉ partsOf c ∧ Part.sectors ∉ partsOf c ∧ Part.jobs ∉ partsOf c :=
  ⟨.perstDeassert, up, _, rfl, by decide, by decide, by decide, by decide⟩

theorem witness_FrameOfWorkInFlight_1 : ∃ (c : Instr) (s t : State), exec c s = .next t ∧ Part.memq ∉ partsOf c ∧ Part.encQ ∉ partsOf c ∧ Part.passes ∉ partsOf c ∧ Part.xfers ∉ partsOf c ∧ Part.zeroing ∉ partsOf c ∧ Part.alloc ∉ partsOf c ∧ Part.outputs ∉ partsOf c :=
  ⟨.perstDeassert, up, _, rfl, by decide, by decide, by decide, by decide, by decide, by decide, by decide⟩

theorem witness_FrameOfKeeperTimeAndFabric_1 : ∃ (c : Instr) (s t : State), exec c s = .next t ∧ Part.day ∉ partsOf c ∧ Part.keeper ∉ partsOf c ∧ Part.eic ∉ partsOf c ∧ Part.start ∉ partsOf c ∧ Part.maint ∉ partsOf c :=
  ⟨.curveRead 0, up, _, rfl, by decide, by decide, by decide, by decide, by decide⟩

theorem witness_FrameOfKeeperTimeAndFabric_2 : ∃ (c : Instr) (s t : State), exec c s = .next t ∧ Part.ftime ∉ partsOf c ∧ Part.sched ∉ partsOf c ∧ Part.fab ∉ partsOf c ∧ Part.pke ∉ partsOf c :=
  ⟨.perstDeassert, up, _, rfl, by decide, by decide, by decide, by decide⟩


/-! ### Further cases of the clauses -/

/-- An image of one class, one stride and one LOCAL operation, with a segment of empty bundles. -/
def imgObj : List Byte := obj 2240 [(0x0, 0x59454d31), (0x4, 0x10080), (0x8, 0x8c0), (0xc, 0x1), (0x10, 0x1000001), (0x14, 0x10001), (0x18, 0x10000), (0x2c, 0x80), (0x30, 0x90), (0x34, 0xa0), (0x38, 0x80), (0x3c, 0x80), (0x40, 0xc0), (0x7c, 0x64b12cc0), (0x8c, 0xffff0001), (0xa4, 0x1ffff), (0xa8, 0xffffffff), (0xb0, 0xffff0000)]
theorem test_smallest_image : imageOk imgObj 0x8C0 = true := by decide +kernel
/-- The job of that image, in a function whose parameter set is empty, and a state in which it waits at its sector. -/
def jobI : Job := { jobA with imageAt := ⟨gddrBase, 0x8C0⟩, image := none, bindings := [⟨0, 0, 1, 0, 0, false, 0, 0⟩] }
def imgUp (s : State) : State := { oneSector { secA with queue := [0] } (withSet (setBytes s gddrBase imgObj)) with jobs := [(0, some jobI)] }
def imgTook (s : State) : State :=
  takeSector (modJob (engineAccess (imgUp s) gddrBase 0x8C0) 0 (withPolicy (engineAccess (imgUp s) gddrBase 0x8C0))) 5 0
/-- A job of a batch of DIRECT_OPs, and one whose only entry needs a key that is not there. -/
def jobG (passed : Bool) : Job := { jobA with group := some 0, passed := passed }
def jobK : Job := { jobA with image := some { img with ops := [⟨6, 0, 1, 0, 0, 0xFFFF, 0, 0xFFFF, 0⟩] } }
theorem witness_FunctionResetsComplete_4 : ∃ (s t : State), exec .vfEnableClear (resetFn s 0 2) = .next t := ⟨up, _, rfl⟩
theorem witness_DueEntriesFireAndGather_1a : ∃ (n : Nat) (e : SchedEnt) (s : State),
    nextFiring s = some n ∧
    getSched s n = some e ∧
    e.action = 1 :=
  ⟨63, (due 1 15), (dueAt 63 (due 1 15) up), by decide +kernel, by decide +kernel, by decide +kernel⟩

theorem witness_DueEntriesFireAndGather_1b : ∃ (n : Nat) (e : SchedEnt) (s : State),
    nextFiring s = some n ∧
    getSched s n = some e ∧
    e.action = 2 :=
  ⟨63, (due 2 15), (dueAt 63 (due 2 15) up), by decide +kernel, by decide +kernel, by decide +kernel⟩

theorem witness_DueEntriesFireAndGather_1c : ∃ (n : Nat) (e : SchedEnt) (s : State),
    nextFiring s = some n ∧
    getSched s n = some e ∧
    e.action = 3 :=
  ⟨63, (due 3 15), (dueAt 63 (due 3 15) up), by decide +kernel, by decide +kernel, by decide +kernel⟩

theorem witness_DueEntriesFireAndGather_1d : ∃ (n : Nat) (e : SchedEnt) (s : State),
    nextFiring s = some n ∧
    getSched s n = some e ∧
    e.action = 4 :=
  ⟨63, (due 4 15), (dueAt 63 (due 4 15) up), by decide +kernel, by decide +kernel, by decide +kernel⟩

theorem witness_DueEntriesFireAndGather_1e : ∃ (n : Nat) (e : SchedEnt) (s : State),
    nextFiring s = some n ∧
    getSched s n = some e ∧
    e.action = 5 :=
  ⟨63, (due 5 15), (dueAt 63 (due 5 15) up), by decide +kernel, by decide +kernel, by decide +kernel⟩

theorem witness_DueEntriesFireAndGather_1f : ∃ (n : Nat) (e : SchedEnt) (s : State),
    nextFiring s = some n ∧
    getSched s n = some e ∧
    e.action = 6 :=
  ⟨63, (due 6 15), (dueAt 63 (due 6 15) up), by decide +kernel, by decide +kernel, by decide +kernel⟩

theorem witness_MessageAnswersAndTimeoutsComplete_2a : ∃ (p reason : Nat) (fl : Flit) (good : Bool) (m : SendMsg) (s u : State),
    receiveXctrl 2 s p fl good = (u, true) ∧
    answered u fl = some m ∧
    reason = bits (fieldAt fl.payload 0 4) 27 24 ∧
    m.resent = false ∧
    reason = 3 :=
  ⟨31, _, (xflit 2 (2 ^ 22 + 3 * 2 ^ 24) (leBytes 4 9)), true, (send .waitAck), (sending .waitAck link), ((receiveXctrl 2 (sending .waitAck link) 31 (xflit 2 (2 ^ 22 + 3 * 2 ^ 24) (leBytes 4 9)) true).1), by decide +kernel, by decide +kernel, rfl, by decide +kernel, rfl⟩

theorem witness_MessageAnswersAndTimeoutsComplete_2b : ∃ (p reason : Nat) (fl : Flit) (good : Bool) (m : SendMsg) (s u : State),
    receiveXctrl 2 s p fl good = (u, true) ∧
    answered u fl = some m ∧
    reason = bits (fieldAt fl.payload 0 4) 27 24 ∧
    m.resent = false ∧
    reason = 7 :=
  ⟨31, _, (xflit 2 (2 ^ 22 + 7 * 2 ^ 24) (leBytes 4 9)), true, (send .waitAck), (sending .waitAck link), ((receiveXctrl 2 (sending .waitAck link) 31 (xflit 2 (2 ^ 22 + 7 * 2 ^ 24) (leBytes 4 9)) true).1), by decide +kernel, by decide +kernel, rfl, by decide +kernel, rfl⟩

theorem witness_MessageAnswersAndTimeoutsComplete_2c : ∃ (p reason : Nat) (fl : Flit) (good : Bool) (m : SendMsg) (s u : State),
    receiveXctrl 2 s p fl good = (u, true) ∧
    answered u fl = some m ∧
    reason = bits (fieldAt fl.payload 0 4) 27 24 ∧
    m.resent = false ∧
    reason = 1 ∧
    newEpoch u m = false :=
  ⟨31, _, (xflit 2 (2 ^ 22 + 1 * 2 ^ 24) (leBytes 4 9)), true, (send .waitAck), (sending .waitAck link), ((receiveXctrl 2 (sending .waitAck link) 31 (xflit 2 (2 ^ 22 + 1 * 2 ^ 24) (leBytes 4 9)) true).1), by decide +kernel, by decide +kernel, rfl, by decide +kernel, rfl, by decide +kernel⟩

theorem witness_MessageAnswersAndTimeoutsComplete_6a : ∃ (i : Nat) (m : SendMsg) (s : State),
    s.fab.sends[i]? = some m ∧
    m.phase = .waitBusy ∧
    m.lastTx + busyRetry s ≤ s.ftime.toNat ∧
    s.ftime.toNat < m.firstTx + ackTimeout s :=
  ⟨0, ({ send .waitBusy with firstTx := 65536 }), ({ up with ftime := 65536, fab := { up.fab with sends := [{ send .waitBusy with firstTx := 65536 }] } }), by decide +kernel, by decide +kernel, by decide +kernel, by decide +kernel⟩

theorem witness_PairItemsComplete_10a : ∃ (p : Nat) (fl : Flit) (good : Bool) (b : List Byte) (s u v : State),
    receivePair 6 s p fl good = (u, some b) ∧
    v = { u with fab := { u.fab with commitLog := [] } } ∧
    b = digestBytes (sha384 u.fab.commitLog) :=
  ⟨31, (pflit 6 (digestBytes (sha384 []))), true, (digestBytes (sha384 [])), (pair true 2), ((receivePair 6 (pair true 2) 31 (pflit 6 (digestBytes (sha384 []))) true).1), _, by decide +kernel, rfl, by decide +kernel⟩

theorem witness_LoadsAndCopyComplete_11a : ∃ (f r i : Nat) (d : Desc) (s : State),
    rowDesc s f r i 5 = some d ∧
    d.phase = .fetched ∧
    copyStatus s d = 0 ∧
    journalRoom s = true ∧
    (refAt d.bytes 8).kind ≠ 0 :=
  ⟨0, 0, 0, (row 5 [bh, 0, 1, bh, 64, 1, 4] (.fetched)), (withDesc (row 5 [bh, 0, 1, bh, 64, 1, 4] (.fetched)) (withBuf memUp)), by decide +kernel, by decide +kernel, by decide +kernel, by decide +kernel, by decide +kernel⟩

theorem witness_FenceAndMemoryRowsComplete_8a : ∃ (f r i kind n : Nat) (d : Desc) (s : State),
    rowDesc s f r i 7 = some d ∧
    kind = bits (ow d.bytes 0xC) 7 4 ∧
    kind ≠ 0 ∧
    n = bits (ow d.bytes 0x10) 5 0 ∧
    n < [16, 64, 8, 8].getD (kind - 1) 0 ∧
    slotUse s f kind n = 0 ∧
    slotLoaded s f kind n = true :=
  ⟨0, 0, 0, 1, 0, (row 7 [0, 0x10, 0] (.fetched)), (withDesc (row 7 [0, 0x10, 0] (.fetched)) (withSet up)), by decide +kernel, by decide +kernel, by decide +kernel, by decide +kernel, by decide +kernel, by decide +kernel, by decide +kernel⟩

theorem witness_FenceAndMemoryRowsComplete_8b : ∃ (f r i kind n : Nat) (d : Desc) (s : State),
    rowDesc s f r i 7 = some d ∧
    kind = bits (ow d.bytes 0xC) 7 4 ∧
    kind ≠ 0 ∧
    n = bits (ow d.bytes 0x10) 5 0 ∧
    n < [16, 64, 8, 8].getD (kind - 1) 0 ∧
    slotUse s f kind n ≠ 0 :=
  ⟨0, 0, 0, 1, 0, (row 7 [0, 0x10, 0] (.fetched)), (withDesc (row 7 [0, 0x10, 0] (.fetched)) (runs jobA secA up)), by decide +kernel, by decide +kernel, by decide +kernel, by decide +kernel, by decide +kernel, by decide +kernel⟩

theorem witness_SectorsQuotasAndScheduleComplete_3a : ∃ (f r i n : Nat) (d : Desc) (x : Sector) (s : State),
    rowDesc s f r i 0x22 = some d ∧
    n = bits (ow d.bytes 8) 5 0 ∧
    getSector s n = some x ∧
    x.owner ≠ f :=
  ⟨0, 0, 0, 5, (row 34 [5] (.fetched)), ({ secA with owner := 1 }), (withDesc (row 34 [5] (.fetched)) (oneSector { secA with owner := 1 } up)), by decide +kernel, by decide +kernel, by decide +kernel, by decide +kernel⟩

theorem witness_SectorsQuotasAndScheduleComplete_3b : ∃ (f r i n : Nat) (d : Desc) (x : Sector) (s : State),
    rowDesc s f r i 0x22 = some d ∧
    n = bits (ow d.bytes 8) 5 0 ∧
    getSector s n = some x ∧
    x.owner = f ∧
    x.model.isSome = true :=
  ⟨0, 0, 0, 5, (row 34 [5] (.fetched)), ({ secA with model := some 0 }), (withDesc (row 34 [5] (.fetched)) (oneSector { secA with model := some 0 } up)), by decide +kernel, by decide +kernel, by decide +kernel, by decide +kernel, by decide +kernel⟩

theorem witness_SectorsQuotasAndScheduleComplete_5a : ∃ (f r i : Nat) (d : Desc) (s : State),
    rowDesc s f r i 0x23 = some d ∧
    bits (ow d.bytes 8) 7 0 = 2 ∧
    1 < ow d.bytes 0xC :=
  ⟨0, 0, 0, (row 35 [2, 2] (.fetched)), (withDesc (row 35 [2, 2] (.fetched)) (up)), by decide +kernel, by decide +kernel, by decide +kernel⟩

theorem witness_QueriesComplete_1a : ∃ (f r i : Nat) (d : Desc) (s : State),
    rowDesc s f r i 8 = some d ∧
    bits (ow d.bytes 8) 7 0 = 2 :=
  ⟨0, 0, 0, (row 8 [2] (.fetched)), (withDesc (row 8 [2] (.fetched)) (up)), by decide +kernel, by decide +kernel⟩

theorem witness_QueriesComplete_1b : ∃ (f r i : Nat) (d : Desc) (s : State),
    rowDesc s f r i 8 = some d ∧
    bits (ow d.bytes 8) 7 0 = 7 :=
  ⟨0, 0, 0, (row 8 [7] (.fetched)), (withDesc (row 8 [7] (.fetched)) (up)), by decide +kernel, by decide +kernel⟩

theorem witness_QueriesComplete_2a : ∃ (f r i n : Nat) (d : Desc) (s : State),
    rowDesc s f r i 8 = some d ∧
    bits (ow d.bytes 8) 7 0 = 3 ∧
    n = bits (ow d.bytes 0xC) 15 0 ∧
    (getSector s n).map (·.owner) = some d.fn :=
  ⟨0, 0, 0, 5, (row 8 [3, 5] (.fetched)), (withDesc (row 8 [3, 5] (.fetched)) (oneSector secA up)), by decide +kernel, by decide +kernel, by decide +kernel, by decide +kernel⟩

theorem witness_QueriesComplete_3a : ∃ (f r i n : Nat) (d : Desc) (s : State),
    rowDesc s f r i 8 = some d ∧
    bits (ow d.bytes 8) 7 0 = 4 ∧
    n = bits (ow d.bytes 0xC) 15 0 ∧
    8 ≤ n :=
  ⟨0, 0, 0, 8, (row 8 [4, 8] (.fetched)), (withDesc (row 8 [4, 8] (.fetched)) (up)), by decide +kernel, by decide +kernel, by decide +kernel, by decide +kernel⟩

theorem witness_JobsLoadAndEnd_1a : ∃ (sec jid : Nat) (l : List Nat) (x y : Sector) (j0 j : Job) (s w u : State),
    getSector s sec = some x ∧
    x.queue = jid :: l ∧
    getJob s jid = some j0 ∧
    stage5Ready s sec x = true ∧
    owesReceipt s j0 = false ∧
    w = engineAccess s j0.imageAt.base j0.imageAt.len ∧
    u = takeSector (modJob w jid (withPolicy w)) sec jid ∧
    getJob u jid = some j ∧
    getSector u sec = some y ∧
    j.kind ≠ .direct ∧
    anyPoison u j.imageAt.base (Nat.min j.imageAt.len (fieldAt (memBytes u j.imageAt.base j.imageAt.len) 8 4)) = false ∧
    stage5Status u j y (memBytes u j.imageAt.base j.imageAt.len) j.imageAt.len = 0 ∧
    blobDense (jobBlob u j) = false :=
  ⟨5, 0, [], ({ secA with queue := [0] }), ({ secA with running := some 0, idleSince := none }), jobI, jobI, (imgUp memUp), (engineAccess (imgUp memUp) gddrBase 0x8C0), (imgTook memUp), by decide +kernel, by decide +kernel, by decide +kernel, by decide +kernel, by decide +kernel, rfl, rfl, by decide +kernel, by decide +kernel, by decide +kernel, by decide +kernel, by decide +kernel, by decide +kernel⟩

theorem witness_JobsLoadAndEnd_3a : ∃ (sec : Nat) (j : Job) (s : State),
    runningJob s sec = some j ∧
    jobOver j = true :=
  ⟨5, ({ jobA with phase := .stopping }), (runs { jobA with phase := .stopping } secI up), by decide +kernel, by decide +kernel⟩

theorem witness_JobsLoadAndEnd_4a : ∃ (sec f : Nat) (j : Job) (s : State),
    runningJob s sec = some j ∧
    j.phase = .dense f ∧
    f ≤ s.ftime.toNat :=
  ⟨5, 7, ({ jobA with phase := .dense 7 }), ({ runs { jobA with phase := .dense 7 } secI up with ftime := 7 }), by decide +kernel, by decide +kernel, by decide +kernel⟩

theorem witness_OperationsIssueInOrder_3a : ∃ (sec idx : Nat) (j : Job) (i : Image) (s : State),
    runningJob s sec = some j ∧
    j.phase = .running ∧
    j.image = some i ∧
    j.refreshing = [] ∧
    ((List.range i.ops.length).find? fun n => decide (j.opNext ≤ n) && !j.skipped.contains n) = some idx ∧
    idx ∈ j.batch :=
  ⟨5, 0, ({ jobA with batch := [0] }), img, (runs ({ jobA with batch := [0] }) secI (up)), by decide +kernel, by decide +kernel, by decide +kernel, by decide +kernel, by decide +kernel, by decide +kernel⟩

theorem witness_OperationsIssueInOrder_3b : ∃ (sec idx : Nat) (j : Job) (i : Image) (s : State),
    runningJob s sec = some j ∧
    j.phase = .running ∧
    j.image = some i ∧
    j.refreshing = [] ∧
    ((List.range i.ops.length).find? fun n => decide (j.opNext ≤ n) && !j.skipped.contains n) = some idx ∧
    idx ∉ j.batch ∧
    j.group = none ∧
    batchPlan s j i (batchAt s j i idx) = .go :=
  ⟨5, 0, jobA, img, (runs (jobA) secI (up)), by decide +kernel, by decide +kernel, by decide +kernel, by decide +kernel, by decide +kernel, by decide +kernel, by decide +kernel, by decide +kernel⟩

theorem witness_OperationsIssueInOrder_3c : ∃ (sec idx : Nat) (j : Job) (i : Image) (s : State),
    runningJob s sec = some j ∧
    j.phase = .running ∧
    j.image = some i ∧
    j.refreshing = [] ∧
    ((List.range i.ops.length).find? fun n => decide (j.opNext ≤ n) && !j.skipped.contains n) = some idx ∧
    idx ∉ j.batch ∧
    j.group ≠ none ∧
    j.passed = true :=
  ⟨5, 0, (jobG true), img, (runs (jobG true) secI (up)), by decide +kernel, by decide +kernel, by decide +kernel, by decide +kernel, by decide +kernel, by decide +kernel, by decide +kernel, by decide +kernel⟩

theorem witness_OperationsIssueInOrder_3d : ∃ (sec idx : Nat) (j : Job) (i : Image) (s : State),
    runningJob s sec = some j ∧
    j.phase = .running ∧
    j.image = some i ∧
    j.refreshing = [] ∧
    ((List.range i.ops.length).find? fun n => decide (j.opNext ≤ n) && !j.skipped.contains n) = some idx ∧
    idx ∉ j.batch ∧
    j.group ≠ none ∧
    j.passed = false :=
  ⟨5, 0, (jobG false), img, (runs (jobG false) secI (up)), by decide +kernel, by decide +kernel, by decide +kernel, by decide +kernel, by decide +kernel, by decide +kernel, by decide +kernel, by decide +kernel⟩

theorem witness_EncoderAndKeyPassesComplete_10a : ∃ (p mem g : Nat) (x : Pass) (s u : State),
    getPass s p = some x ∧
    x.dropped = false ∧
    (∀ y ∈ s.passes, y.job = x.job → y.groups ≠ 0 → y.first < x.first → y.slices ≤ tget 0 y.counted mem) ∧
    (mem, x.first + tget 0 x.counted mem) ∈ x.landed ∧
    u = modPass s p (fun y => { y with landed := y.landed.erase (mem, y.first + tget 0 x.counted mem), counted := tset 0 y.counted mem (tget 0 x.counted mem + 1) }) ∧
    memberCore u x mem = some g ∧
    x.builtin = true :=
  ⟨1, 0, 0, ({ pass0 with builtin := true }), (withPass { pass0 with builtin := true } (oneSector secA up)), _, by decide +kernel, by decide +kernel, by decide +kernel, by decide +kernel, rfl, by decide +kernel, by decide +kernel⟩

end Sys2Proof.Tests
end

/-! The register accesses of chapter 00 (R15 to R20): who may make an access, what a write leaves and what a read returns,
first as one rule for each operation of RegAccess and RegHooks, then the statements about the commands. -/

namespace Sys2Proof.Machine

/-! ### Where an offset lies -/

/-- Below the top 256 KiB of the PF's BAR0 an offset stands for itself (R394). -/
theorem regOff_of_lt {o : Nat} (h : o < 0x03FC0000) : regOff o = o := if_neg (by omega)

/-- The device register space belongs to no function. -/
theorem fnOfOff_of_lt {o : Nat} (h : o < 0x04000000) : fnOfOff o = none := if_neg (by omega)

/-- Below the per-die windows an offset names no EIC. -/
theorem eicAt_of_lt {o : Nat} (h : o < 0x12000000) : eicAt o = none := by
  unfold eicAt
  rw [if_neg (by omega), if_neg (by omega)]

/-- The device register space below the KPR block has no register of the sideband's own. -/
theorem sbOwn_of_lt {o : Nat} (h : o < 0x60000) : sbOwn o = false := by
  have hcfg : o ≠ 0x60018 := by omega
  have hcap : ¬(0x60040 ≤ o ∧ o < 0x60070) := by omega
  simp [sbOwn, hcfg, hcap]

/-- A CLAIM register is aligned, and so is the offset by which its window names it. -/
theorem aligned_of_eicAt_claimOff {o e x : Nat} (h : eicAt o = some (e, x)) (hx : claimOff x = true) : o % 4 = 0 := by
  simp only [claimOff, Bool.and_eq_true, beq_iff_eq, decide_eq_true_eq] at hx
  simp only [eicAt] at h
  split at h
  · obtain ⟨-, rfl⟩ := Prod.mk.inj (Option.some.inj h); omega
  · split at h
    · obtain ⟨-, rfl⟩ := Prod.mk.inj (Option.some.inj h); omega
    · cases h

/-! ### Writes -/

/-- The bits of a word after a write, by access type (Table 0.3): W1S before W1C before RW. -/
theorem getLsbD_fieldWrite (fs : List Fld) (old v : Word) (i : Nat) :
    (fieldWrite fs old v).getLsbD i =
      if (maskOfAcc fs (· == .w1s)).getLsbD i && v.getLsbD i then true
      else if (maskOfAcc fs (· == .w1c)).getLsbD i && v.getLsbD i then false
      else if (maskOfAcc fs (· == .rw)).getLsbD i then v.getLsbD i
      else old.getLsbD i := by
  by_cases hi : i < 32
  · simp only [fieldWrite, BitVec.getLsbD_or, BitVec.getLsbD_and, BitVec.getLsbD_not, hi, decide_true, Bool.true_and,
      Bool.and_comm (v.getLsbD i)]
    by_cases hs : ((maskOfAcc fs (· == .w1s)).getLsbD i && v.getLsbD i) = true
    · rw [if_pos hs, hs, Bool.or_true]
    · rw [if_neg hs, eq_false_of_ne_true hs, Bool.or_false]
      by_cases hc : ((maskOfAcc fs (· == .w1c)).getLsbD i && v.getLsbD i) = true
      · rw [if_pos hc, hc, Bool.not_true, Bool.and_false]
      · rw [if_neg hc, eq_false_of_ne_true hc, Bool.not_false, Bool.and_true]
        by_cases hrw : (maskOfAcc fs (· == .rw)).getLsbD i = true
        · rw [if_pos hrw, hrw, Bool.not_true, Bool.and_false, Bool.false_or, Bool.true_and]
        · rw [if_neg hrw, eq_false_of_ne_true hrw, Bool.not_false, Bool.and_true, Bool.false_and, Bool.or_false]
  · have beyond (w : Word) : w.getLsbD i = false := BitVec.getLsbD_of_ge w i (by omega)
    simp [beyond]

/-- A register all of whose bits are RW takes the written value. -/
theorem fieldWrite_of_all_rw {fs : List Fld} (hrw : maskOfAcc fs (· == .rw) = BitVec.allOnes 32)
    (hc : maskOfAcc fs (· == .w1c) = 0#32) (hs : maskOfAcc fs (· == .w1s) = 0#32) (old v : Word) : fieldWrite fs old v = v := by
  refine BitVec.eq_of_getLsbD_eq fun i hi => ?_
  rw [getLsbD_fieldWrite, hrw, hc, hs]
  simp only [BitVec.getLsbD_allOnes, hi, decide_true, BitVec.getLsbD_zero, Bool.false_and, Bool.false_eq_true, if_false, if_true]

section
variable {s : State} {m n o : Nat} {fs : List Fld}

theorem writeFields_reserved (h : regAt o = none) (v : Word) : writeFields s m o v = s := by
  simp only [writeFields, h]

theorem writeFields_single (h : regAt o = some (fs, .no)) (v : Word) :
    writeFields s m o v = regSet s o (fieldWrite fs (regGet s o) v) := by
  simp only [writeFields, h]

theorem writeFields_hi (h : regAt o = some (fs, .hi)) (hrw : maskOfAcc fs (· == .rw) ≠ 0) (v : Word) :
    writeFields s m o v = { s with holds := tset (regReset o) s.holds (pairKey m o) v } := by
  simp only [writeFields, h, beq_eq_false_iff_ne.2 hrw, Bool.false_eq_true, if_false]

theorem writeFields_lo (h : regAt o = some (fs, .lo)) (hrw : maskOfAcc fs (· == .rw) ≠ 0) (v : Word) :
    writeFields s m o v =
      regSet (regSet s o (fieldWrite fs (regGet s o) v)) (o + 4)
        (fieldWrite (fldsAt (o + 4)) (regGet (regSet s o (fieldWrite fs (regGet s o) v)) (o + 4)) (holdOf s m (o + 4))) := by
  simp only [writeFields, h, beq_eq_false_iff_ne.2 hrw, Bool.false_eq_true, if_false]

/-! ### Reads -/

/-- A read of RC fields returns the word from before the events of its cycle, which count on the cleared word (R18). -/
theorem readReg_rc (h : regAt o = some (fs, .no)) (hrc : maskOfAcc fs (· == .rc) ≠ 0)
    (hup : ∀ f, fnOfOff o = some f → (getFn s f).resetting = false) :
    readReg s m o n = (wordAt s o, bumpN (regSet s o (fieldClear fs (regGet s o))) o n) := by
  have hmask : (maskOfAcc fs (· == .rc) == 0) = false := beq_eq_false_iff_ne.2 hrc
  cases hf : fnOfOff o with
  | none => simp only [readReg, h, hf, hmask, Bool.or_self, Bool.false_eq_true, if_false]
  | some f => simp only [readReg, h, hf, hmask, hup f hf, Bool.or_self, Bool.false_eq_true, if_false]

/-- A read of _LO captures _HI in the master's read shadow (R20). -/
theorem readReg_lo (h : regAt o = some (fs, .lo)) :
    readReg s m o n =
      (wordAt s o, { s with shadows := tset (regReset (o + 4)) s.shadows (pairKey m (o + 4)) (wordAt s (o + 4)) }) := by
  simp only [readReg, h]

end

/-! ### Accesses by a master -/

section
variable {s : State} {m : Master} {o : Nat}

/-- A write that its master may make, and that R523 does not deny, acts on the register. -/
theorem masterWrite_of_allowed (hup : masterUp s m o = true) (hreach : mayReach m o = true)
    (hsb : m = .proc .sideband → sbDenied s = false) (heic : eicAt o = none) (v : Word) :
    masterWrite s m o v = regWrite s m o v := by
  have hden : ¬(m = .proc .sideband ∧ !sbOwn o ∧ sbDenied s) := fun ⟨hm, _, hd⟩ => by simp [hsb hm] at hd
  simp only [masterWrite, hup, hreach, heic, if_neg hden, Bool.not_true, Bool.false_eq_true, or_self, if_false]

/-- A denied write of the sideband is counted and does nothing else (R523). -/
theorem masterWrite_of_denied (hup : masterUp s (.proc .sideband) o = true) (hreach : mayReach (.proc .sideband) o = true)
    (hown : sbOwn o = false) (hden : sbDenied s = true) (v : Word) :
    masterWrite s (.proc .sideband) o v = bump s 0x60104 := by
  simp [masterWrite, hup, hreach, hown, hden]

/-- From FT_SET_HI to the end of the CLK block no register's write has a rule of its own. -/
theorem regWrite_of_plain (hlo : 0x30014 ≤ o) (hhi : o < 0x60000) (v : Word) :
    regWrite s m o v = writeFields s (masterNo m) o v := by
  have hfn : fnOfOff o = none := fnOfOff_of_lt (by omega)
  simp (disch := omega) only [regWrite, hfn, sbOwn_of_lt hhi, Bool.false_eq_true, if_false, if_neg]

/-- A write of FT_SET_LO arms FT_SET (R474). -/
theorem regWrite_ftSet (v : Word) :
    regWrite s m 0x30010 v = regSetFld (writeFields s (masterNo m) 0x30010 v) 0x30004 5 5 1 := by
  have hfn : fnOfOff 0x30010 = none := fnOfOff_of_lt (by decide)
  simp [regWrite, hfn]

/-- A read of another width or alignment returns zero and changes nothing (R19). -/
theorem masterRead_of_bad {width : Nat} (h : width ≠ 4 ∨ o % 4 ≠ 0) (n : Nat) : masterRead s m o width n = (0, s) := by
  unfold masterRead
  exact if_pos (h.elim .inl fun h => .inr (.inl h))

/-- A read that its master may make, away from the EICs, reads the register. -/
theorem masterRead_of_allowed (hup : masterUp s m o = true) (hreach : mayReach m o = true) (hal : o % 4 = 0)
    (hclaim : mirrorClaim o = false) (heic : eicAt o = none) (n : Nat) :
    masterRead s m o 4 n = readReg s (masterNo m) o n := by
  simp [masterRead, hup, hreach, hal, hclaim, heic]

/-- Away from the EICs' windows a read claims nothing. -/
theorem claimRead_of_no_eic (heic : eicAt o = none) (width : Nat) : claimRead s m o width = none := by
  simp only [claimRead, heic]

/-- A read of another width or alignment claims nothing. -/
theorem claimRead_of_bad {width : Nat} (h : width ≠ 4 ∨ o % 4 ≠ 0) : claimRead s m o width = none := by
  unfold claimRead
  split
  · rename_i e x p heic _
    refine if_neg fun ⟨hw, _, hx⟩ => ?_
    exact h.elim (· hw) (· (aligned_of_eicAt_claimOff heic hx))
  · rfl

/-! ### The rows -/

theorem execRegisterWrite_aligned {off : Nat} (hal : regOff off % 4 = 0) (v : Nat) :
    execRegisterWrite m off 4 v s = .next (masterWrite s m (regOff off) (BitVec.ofNat 32 v)) := by
  simp [execRegisterWrite, hal]

/-- Below the top 256 KiB of the PF's BAR0 an aligned REGISTER_WRITE writes the register at its own offset. -/
theorem exec_registerWrite_of_lt {off : Nat} (hlt : off < 0x03FC0000) (hal : off % 4 = 0) (v : Nat) :
    exec (.registerWrite m off 4 v) s = .next (masterWrite s m off (BitVec.ofNat 32 v)) := by
  have hoff : regOff off = off := regOff_of_lt hlt
  have hrow := execRegisterWrite_aligned (s := s) (m := m) (hoff.symm ▸ hal) v
  rw [hoff] at hrow
  exact hrow

theorem execRegisterWrite_bad {off width : Nat} (hbad : width ≠ 4 ∨ regOff off % 4 ≠ 0)
    (hup : masterUp s m (regOff off) = true) (hreach : mayReach m (regOff off) = true) (v : Nat) :
    execRegisterWrite m off width v s = .next (badAccess s m) := by
  have hbad' : ¬(width = 4 ∧ regOff off % 4 = 0) := fun ⟨hw, ha⟩ => hbad.elim (· hw) (· ha)
  simp only [execRegisterWrite, if_neg hbad', hup, hreach, Bool.and_self, if_true]

theorem execRcRead_of_no_claim {off width n : Nat} (h : claimRead s m (regOff off) width = none) :
    execRcRead m ⟨off, width⟩ n s =
      .next (emit (masterRead s m (regOff off) width n).2 (.value (masterRead s m (regOff off) width n).1)) := by
  simp only [execRcRead, h]

theorem execPairLoRead_of_lo {off width : Nat} (h : halfAt (regOff off) = .lo) :
    execPairLoRead m ⟨off, width⟩ s =
      .next (emit (masterRead s m (regOff off) width 0).2 (.value (masterRead s m (regOff off) width 0).1)) := by
  simp only [execPairLoRead, h, if_true]

theorem execPairHiWrite_of_hi {off : Nat} (h : halfAt (regOff off) = .hi) (v : Word) :
    execPairHiWrite m off v s = .next (masterWrite s m (regOff off) v) := by
  simp only [execPairHiWrite, h, if_true]

theorem execPairLoWrite_of_lo {off : Nat} (h : halfAt (regOff off) = .lo) (v : Word) :
    execPairLoWrite m off v s = .next (masterWrite s m (regOff off) v) := by
  simp only [execPairLoWrite, h, if_true]

theorem halfAt_of_regAt {fs : List Fld} {p : PairHalf} (h : regAt o = some (fs, p)) : halfAt o = p := by
  simp only [halfAt, h]

end

/-! ### FT_SET -/

theorem regAt_ftSetLo : regAt 0x30010 = some ([⟨31, 0, .rw, 0⟩], .lo) := by decide +kernel

theorem regAt_ftSetHi : regAt 0x30014 = some ([⟨31, 0, .rw, 0⟩], .hi) := by decide +kernel

/-- A word that is one RW field takes the written value. -/
theorem fieldWrite_word (old v : Word) : fieldWrite [⟨31, 0, .rw, 0⟩] old v = v :=
  fieldWrite_of_all_rw (by decide) (by decide) (by decide) old v

/-- A write of FT_SET_LO puts v and the held _HI into the pair. -/
theorem writeFields_ftSet (s : State) (m : Nat) (v : Word) :
    writeFields s m 0x30010 v = regSet (regSet s 0x30010 v) 0x30014 (holdOf s m 0x30014) := by
  have hhi : fldsAt 0x30014 = [⟨31, 0, .rw, 0⟩] := by simp only [fldsAt, regAt_ftSetHi]
  rw [writeFields_lo regAt_ftSetLo (by decide), fieldWrite_word, hhi, fieldWrite_word]

/-! ### The statements -/

/-- Settles O6: `exec_within` bounds what a command changes by its parts. -/
theorem frameOfRegisters : Obligations.FrameOfRegisters := by
  intro c s t h hp
  obtain ⟨hregs, hshadows, hholds⟩ := (exec_within h).regs (partsMask_testBit hp)
  exact ⟨fun o => by simp only [regGet, hregs], hshadows, hholds⟩

/-- Settles O11. -/
theorem fieldWriteFollowsTheAccessTypes : Obligations.FieldWriteFollowsTheAccessTypes :=
  getLsbD_fieldWrite

/-- Settles O16: the write of _HI stops at the holding register, and the write of _LO is followed through the three register
writes that it makes. -/
theorem pairWritesTakeEffectAtTheLowHalf : Obligations.PairWritesTakeEffectAtTheLowHalf := by
  refine ⟨fun m v s hup hreach hsb => ?_, fun m v s hinv hup hreach hsb => ?_⟩
  · have hoff : regOff 0x30014 = 0x30014 := regOff_of_lt (by decide)
    have hrow := execPairHiWrite_of_hi (s := s) (m := m) (off := 0x30014) (halfAt_of_regAt (hoff ▸ regAt_ftSetHi)) v
    rw [hoff, masterWrite_of_allowed hup hreach hsb (eicAt_of_lt (by decide)), regWrite_of_plain (by decide) (by decide),
      writeFields_hi regAt_ftSetHi (by decide)] at hrow
    exact hrow
  · have hoff : regOff 0x30010 = 0x30010 := regOff_of_lt (by decide)
    have hrow := execPairLoWrite_of_lo (s := s) (m := m) (off := 0x30010) (halfAt_of_regAt (hoff ▸ regAt_ftSetLo)) v
    rw [hoff, masterWrite_of_allowed hup hreach hsb (eicAt_of_lt (by decide)), regWrite_ftSet, writeFields_ftSet] at hrow
    have hinv₁ := inv_regSet hinv 0x30010 v
    have hinv₂ := inv_regSet hinv₁ 0x30014 (holdOf s (masterNo m) 0x30014)
    refine ⟨_, hrow, ?_, ?_, rfl, regFld_regSetFld hinv₂ (by decide)⟩
    · rw [regSetFld, regGet_regSet_ne _ (by decide), regGet_regSet_ne _ (by decide), regGet_regSet_same hinv]
    · rw [regSetFld, regGet_regSet_ne _ (by decide), regGet_regSet_same hinv₁]

/-- Settles O12. -/
theorem registerWriteCompletes : Obligations.RegisterWriteCompletes := by
  refine ⟨fun m off v s fs hlo hhi hal hup hreach hsb hreg => ?_, fun m off v s hlo hhi hal hup hreach hsb hreg => ?_,
    fun off v s hlo hhi hal hup hden => ?_⟩
  · rw [exec_registerWrite_of_lt (by omega) hal, masterWrite_of_allowed hup hreach hsb (eicAt_of_lt (by omega)),
      regWrite_of_plain (by omega) hhi, writeFields_single hreg]
  · rw [exec_registerWrite_of_lt (by omega) hal, masterWrite_of_allowed hup hreach hsb (eicAt_of_lt (by omega)),
      regWrite_of_plain (by omega) hhi, writeFields_reserved hreg]
  · have hreach : mayReach (.proc .sideband) off = true := decide_eq_true (by omega)
    rw [exec_registerWrite_of_lt (by omega) hal, masterWrite_of_denied hup hreach (sbOwn_of_lt hhi) hden]

/-- Settles O13. -/
theorem badRegisterWriteIsDiscardedAndFlagged : Obligations.BadRegisterWriteIsDiscardedAndFlagged := by
  intro f off width v s hphase hreach hbad hrst
  have hup : masterUp s (.bar0 f) (regOff off) = true := by simp [masterUp, fromHost, hphase]
  have hflag : badAccess s (.bar0 f) = regSetFld s (fnBase f + 4) 0 0 1 := by simp [badAccess, hrst]
  exact hflag ▸ execRegisterWrite_bad hbad hup hreach v

/-- Settles O14. -/
theorem rcReadLosesNoEvent : Obligations.RcReadLosesNoEvent := by
  refine ⟨fun m off n s fs hup hreach hal hclaim heic hrst hreg hrc => ?_, fun m off w n s hbad => ?_⟩
  · have hrow := execRcRead_of_no_claim (s := s) (m := m) (n := n) (claimRead_of_no_eic heic 4)
    rw [masterRead_of_allowed hup hreach hal hclaim heic, readReg_rc hreg hrc hrst] at hrow
    exact hrow
  · have hrow := execRcRead_of_no_claim (s := s) (m := m) (n := n) (claimRead_of_bad hbad)
    rw [masterRead_of_bad hbad] at hrow
    exact hrow

/-- Settles O15. -/
theorem pairLoReadCapturesTheShadow : Obligations.PairLoReadCapturesTheShadow := by
  rintro m off s t fs hup hreach hal hclaim heic hreg rfl
  have hrow := execPairLoRead_of_lo (s := s) (m := m) (width := 4) (halfAt_of_regAt hreg)
  rw [masterRead_of_allowed hup hreach hal hclaim heic, readReg_lo hreg] at hrow
  exact hrow

end Sys2Proof.Machine

/-! The commands of chapter 01 about jobs, sectors and the schedule: what each does to the descriptor or the sector that it
acts on, first as one rule for each outcome of a row, then the statements. -/

namespace Sys2Proof.Machine

/-! ### Job rows -/

section
variable {s u : State} {f r i t st : Nat} {d : Desc} {j : Job}
  {stage3 : State → Desc → Nat × Job} {place : State → Desc → Job → State}

/-- A descriptor that fails a check of stage 3 completes with its status (R57). -/
theorem jobRow_of_failed (hd : rowDesc s f r i t = some d) (hph : d.phase = .fetched) (hj : stage3 s d = (st, j)) (hst : st ≠ 0) :
    jobRow t stage3 place f r i s = failStage3 s d j st := by
  simp only [jobRow, hd, hph, hj, if_pos hst]

/-- A descriptor that passes stage 3 becomes a job: the headers of its inputs are read, it is journaled, and it goes on (R57, R404). -/
theorem jobRow_of_passed (hd : rowDesc s f r i t = some d) (hph : d.phase = .fetched) (hj : stage3 s d = (0, j))
    (hroom : journalRoom s = true)
    (hu : u = readHdrs s j ((List.range j.bindings.length).filter fun v => ((j.bindings[v]?).map fun b => !b.output).getD false)) :
    jobRow t stage3 place f r i s =
      place (journalDesc (setPhase (setJob { u with jobSeq := u.jobSeq + 1 } j.id (some j)) d (.job j.id)) d) d j := by
  subst hu
  simp only [jobRow, hd, hph, hj, hroom, ne_eq, not_true_eq_false, Bool.not_true, Bool.false_eq_true, if_false]

/-- The window of a ring's batch (R293): the batch is dispatched once it has passed, and stays until then. -/
theorem execDirectOpBatchWindow_of_open {b : Batch} (hb : (s.batches.find? fun b => b.fn == f && b.ring == r) = some b) :
    execDirectOpBatchWindow f r s = .next (if b.closes ≤ s.ftime.toNat then dispatchBatch s b else s) := by
  simp only [execDirectOpBatchWindow, hb]

end

/-! ### Sectors -/

section
variable {s : State} {f r i n : Nat} {d : Desc}

theorem execSectorForm_of_tiles {l ts : List Nat} (hd : rowDesc s f r i 0x21 = some d) (hn : n = bits (ow d.bytes 0xC) 8 0)
    (hlo : 1 ≤ n) (hhi : n ≤ 400) (hl : tileList s f (ow d.bytes 8) n = (0, l))
    (hts : chooseFor s f (placementOf s f) false n (some l) = .tiles ts) :
    execSectorForm f r i s =
      .next (completeWith (formSector s f ts none false).2 f r i 0 (formSector s f ts none false).1 0 [] []) := by
  subst hn
  have hsize : ¬(bits (ow d.bytes 0xC) 8 0 = 0 ∨ 400 < bits (ow d.bytes 0xC) 8 0) := by omega
  simp only [execSectorForm, hd, if_neg hsize, hl, ne_eq, not_true_eq_false, if_false, hts]

theorem execSectorForm_of_bad_size (hd : rowDesc s f r i 0x21 = some d) (hn : n = bits (ow d.bytes 0xC) 8 0) (hbad : n = 0 ∨ 400 < n) :
    execSectorForm f r i s = .next (completeDesc s f r i stParam) := by
  subst hn
  simp only [execSectorForm, hd, if_pos hbad]

variable {x : Sector} (hd : rowDesc s f r i 0x22 = some d) (hn : n = bits (ow d.bytes 8) 5 0) (hx : getSector s n = some x)
include hd hn hx

theorem execSectorRelease_of_not_owner (hown : x.owner ≠ f) : execSectorRelease f r i s = .next (failDesc s f r i stNotOwner) := by
  subst hn
  simp only [execSectorRelease, hd, hx, if_pos hown]

/-- A model's sector is released only with its slot (R404). -/
theorem execSectorRelease_of_model (hown : x.owner = f) (hm : x.model.isSome = true) :
    execSectorRelease f r i s = .next (completeDesc s f r i stParam) := by
  subst hn
  simp only [execSectorRelease, hd, hx, hown, hm, ne_eq, not_true_eq_false, if_false, if_true]

theorem execSectorRelease_of_free (hown : x.owner = f) (hm : x.model = none) (hrel : x.releasing = none) :
    execSectorRelease f r i s =
      .next (releaseDue (setPhase (setSector s n (some { x with releasing := some (r * 65536 + i) })) d .working) n) := by
  subst hn
  simp only [execSectorRelease, hd, hx, hown, hm, hrel, Option.isSome_none, Bool.false_eq_true, ne_eq, not_true_eq_false, if_false]

end

/-! ### FN_ADMIN and SCHEDULE -/

section
variable {s : State} {f r i : Nat} {d : Desc}

theorem execSetQuota_of_action (hd : rowDesc s f r i 0x23 = some d) (hact : bits (ow d.bytes 8) 7 0 = 1) :
    execSetQuota f r i s =
      .next (completeDesc (regSet s (fnBase (bits (ow d.bytes 8) 21 16) + 0x2500) (BitVec.ofNat 32 (ow d.bytes 0xC))) f r i 0) := by
  simp only [execSetQuota, hd, hact, ne_eq, not_true_eq_false, if_false]

theorem execSetExpert_of_action (hd : rowDesc s f r i 0x23 = some d) (hact : bits (ow d.bytes 8) 7 0 = 2) :
    execSetExpert f r i s =
      .next (if 1 < ow d.bytes 0xC then completeDesc s f r i stParam
        else completeDesc (regSetFld s (fnBase (bits (ow d.bytes 8) 21 16)) 8 8 (ow d.bytes 0xC)) f r i 0) := by
  simp only [execSetExpert, hd, hact, ne_eq, not_true_eq_false, if_false]

variable (hd : rowDesc s f r i 0x12 = some d) (hph : d.phase = .fetched)
include hd hph

theorem execSchedule_of_failed (hst : scheduleStatus s d ≠ 0) :
    execSchedule f r i s = .next (failDesc s f r i (scheduleStatus s d)) := by
  simp only [execSchedule, hd, hph, ne_eq, not_true_eq_false, if_false, if_pos hst]

/-- An entry that passes the checks of R476 is written, and removed at once where it is late and asks to be dropped (R477). -/
theorem execSchedule_of_passed {n t : Nat} {e : SchedEnt} {u : State} (hst : scheduleStatus s d = 0) (hn : n = bits (ow d.bytes 8) 5 0)
    (ht : t = ow d.bytes 0xC + ow d.bytes 0x10 * 2 ^ 32)
    (he : e = { fn := f, ring := r, index := i, action := bits (ow d.bytes 0x14) 7 0, arg := ow d.bytes 0x18, t := t
                lateDrop := bit (ow d.bytes 0x14) 8, written := s.ftime.toNat, late := decide (t ≤ s.ftime.toNat + 1)
                due := false, fired := false, firedAt := 0 })
    (hu : u = setPhase (setSched s n (some e)) d (.scheduled n)) :
    execSchedule f r i s = .next (if t ≤ s.ftime.toNat + 1 ∧ e.lateDrop = true then schedEnd (bump u 0x30050) n 0x0802 else u) := by
  subst hu he ht hn
  simp only [execSchedule, hd, hph, hst, ne_eq, not_true_eq_false, if_false, Bool.and_eq_true, decide_eq_true_eq]

end

/-! ### Image load -/

section
variable {s w u : State} {sec jid : Nat} {x y : Sector} {j0 j : Job} {l : List Nat}

theorem execProgramLoad_of_empty_queue (hx : getSector s sec = some x) (hq : x.queue = []) : execProgramLoad sec s = .next s := by
  simp only [execProgramLoad, hx, hq]

/-- Stage 5 of a circuit or a raw job that owes no receipt: poison, then the checks of the image, then the load (R57, R180, R181). -/
theorem execProgramLoad_of_image {bs : List Byte} (hx : getSector s sec = some x) (hq : x.queue = jid :: l) (hj0 : getJob s jid = some j0)
    (hready : stage5Ready s sec x = true) (howes : owesReceipt s j0 = false) (hw : w = engineAccess s j0.imageAt.base j0.imageAt.len)
    (hu : u = takeSector (modJob w jid (withPolicy w)) sec jid) (hj : getJob u jid = some j) (hy : getSector u sec = some y)
    (hk : j.kind ≠ .direct) (hbs : bs = memBytes u j.imageAt.base j.imageAt.len) :
    execProgramLoad sec s = .next
      (if anyPoison u j.imageAt.base (Nat.min j.imageAt.len (fieldAt bs 8 4)) then failStage5 u jid 0x0120
        else if stage5Status u j y bs j.imageAt.len ≠ 0 then failStage5 u jid (stage5Status u j y bs j.imageAt.len)
        else beginJob u sec y j (readImage bs)
          (if blobDense (jobBlob u j) then (allowed (jobBlob u j) (bs.take (readImage bs).bytes)).getD 0 else 0)) := by
  subst hw hu hbs
  simp only [execProgramLoad, hx, hq, hj0, hready, howes, hj, hy, if_neg hk, Bool.not_true, Bool.false_eq_true, false_and, if_false]

end

/-! ### The end of a running job -/

section
variable {s : State} {sec : Nat} {j : Job} (hrun : runningJob s sec = some j)
include hrun

theorem execJobComplete_of_running : execJobComplete sec s = .next (if jobOver j then closeJob s j.id else s) := by
  simp only [execJobComplete, hrun]

/-- The dense floor holds a finished job until its tick (R228). -/
theorem execDenseFloorExpiry_of_dense {floor : Nat} (hph : j.phase = .dense floor) :
    execDenseFloorExpiry sec s = .next (if floor ≤ s.ftime.toNat then endJob s j.id false else s) := by
  simp only [execDenseFloorExpiry, hrun, hph]

/-- A job whose contexts have faulted stops with its sector (R172). -/
theorem execProgramFault_of_fault (hfault : j.fault ≠ none) (hph : j.phase = .running) :
    execProgramFault sec s = .next (stopSector s sec j stProgram) := by
  have hgoes : ¬(j.fault.isNone || j.phase != .running) = true := by simp [hfault, hph]
  simp only [execProgramFault, programFault, hrun, if_neg hgoes]

/-- A RECEIVE whose time has passed fails its entry (R449). -/
theorem execRecvTimeout_of_due {op : Nat} {w : RecvWait} (hw : (s.fab.recvs.find? fun w => w.job == j.id && w.op == op) = some w)
    (hdue : w.since + recvTimeout s ≤ s.ftime.toNat) :
    execRecvTimeout sec op s = .next
      (failOp { s with fab := { s.fab with recvs := s.fab.recvs.filter (· != w) } } j.id op Operand.absent 0x0403 true) := by
  simp only [execRecvTimeout, hrun, hw, if_neg (Nat.not_lt.2 hdue)]

end

/-! ### The statements -/

/-- Settles O45: the three job rows are one row with their own checks of stage 3, and share its two outcomes. -/
theorem jobsStart : Obligations.JobsStart := by
  refine ⟨fun f r i st d j s hd hph hj hst => ?circuitFailed, fun f r i d j s u hd hph hj hroom hu => ?circuitPassed,
    fun f r i st d j s hd hph hj hst => ?directFailed, fun f r i d j s u hd hph hj hroom hu => ?directPassed,
    fun f r i st d j s hd hph hj hst => ?rawFailed, fun f r i d j s u hd hph hj hroom hu => ?rawPassed,
    fun f r b s hb hclosed => ?windowPassed, fun f r b s hb hopen => ?windowOpen⟩
  case circuitFailed | directFailed | rawFailed => exact congrArg Host.Outcome.next (jobRow_of_failed hd hph hj hst)
  case circuitPassed | directPassed | rawPassed => exact congrArg Host.Outcome.next (jobRow_of_passed hd hph hj hroom hu)
  case windowPassed => exact (execDirectOpBatchWindow_of_open hb).trans (congrArg _ (if_pos hclosed))
  case windowOpen => exact (execDirectOpBatchWindow_of_open hb).trans (congrArg _ (if_neg (Nat.not_le.2 hopen)))

/-- Settles O48: one rule per outcome of each row. -/
theorem sectorsQuotasAndScheduleComplete : Obligations.SectorsQuotasAndScheduleComplete := by
  refine ⟨fun f r i n d l ts s hd hn hlo hhi hl hts => execSectorForm_of_tiles hd hn hlo hhi hl hts,
    fun f r i n d s hd hn hbad => execSectorForm_of_bad_size hd hn hbad,
    fun f r i n d x s hd hn hx => ⟨execSectorRelease_of_not_owner hd hn hx, execSectorRelease_of_model hd hn hx,
      execSectorRelease_of_free hd hn hx⟩,
    fun f r i d s hd hact => execSetQuota_of_action hd hact,
    fun f r i d s hd hact => ⟨fun hv => ?expertWritten, fun hv => ?expertBad⟩,
    fun f r i d s hd hph hst => execSchedule_of_failed hd hph hst,
    fun f r i n t d e s u hd hph hst hn ht he hu => ⟨fun hkept => ?entryKept, fun hlate hdrop => ?entryDropped⟩⟩
  case expertWritten => exact (execSetExpert_of_action hd hact).trans (congrArg _ (if_neg (Nat.not_lt.2 hv)))
  case expertBad => exact (execSetExpert_of_action hd hact).trans (congrArg _ (if_pos hv))
  case entryKept =>
    have hstays : ¬(t ≤ s.ftime.toNat + 1 ∧ e.lateDrop = true) := fun ⟨hlate, hdrop⟩ =>
      hkept.elim (Nat.not_lt.2 hlate) (by simp [hdrop])
    exact (execSchedule_of_passed hd hph hst hn ht he hu).trans (congrArg _ (if_neg hstays))
  case entryDropped => exact (execSchedule_of_passed hd hph hst hn ht he hu).trans (congrArg _ (if_pos ⟨hlate, hdrop⟩))

/-- Settles O50: the three clauses of an image that is read are the branches of `execProgramLoad_of_image`. -/
theorem jobsLoadAndEnd : Obligations.JobsLoadAndEnd := by
  refine ⟨fun sec jid l x y j0 j s w u hx hq hj0 hready howes hw hu hj hy hk => ?image,
    fun sec x s hx hq => execProgramLoad_of_empty_queue hx hq,
    fun sec j s hrun => ⟨fun hended => ?jobIsOver, fun hgoing => ?jobRuns⟩,
    fun sec floor j s hrun hph => ⟨fun hcome => ?floorCome, fun hwait => ?floorAhead⟩,
    fun sec j s hrun hfault hph => execProgramFault_of_fault hrun hfault hph,
    fun sec op j w s hrun hw hdue => execRecvTimeout_of_due hrun hw hdue⟩
  case image =>
    have hload : exec (.programLoad sec) s = _ := execProgramLoad_of_image hx hq hj0 hready howes hw hu hj hy hk rfl
    refine ⟨fun hpoison => ?_, fun hclean hbad => ?_, fun hclean hgood hdense => ?_⟩
    · rw [hload, if_pos hpoison]
    · rw [hload, if_neg (ne_true_of_eq_false hclean), if_pos hbad]
    · rw [hload, if_neg (ne_true_of_eq_false hclean), if_neg (not_not_intro hgood), if_neg (ne_true_of_eq_false hdense)]
  case jobIsOver => exact (execJobComplete_of_running hrun).trans (congrArg _ (if_pos hended))
  case jobRuns => exact (execJobComplete_of_running hrun).trans (congrArg _ (if_neg (ne_true_of_eq_false hgoing)))
  case floorCome => exact (execDenseFloorExpiry_of_dense hrun hph).trans (congrArg _ (if_pos hcome))
  case floorAhead => exact (execDenseFloorExpiry_of_dense hrun hph).trans (congrArg _ (if_neg (Nat.not_le.2 hwait)))

end Sys2Proof.Machine

/-! The commands of chapter 02: the object policy, the loads of objects and COPY, and the operation table of a running job, with
the event counters that they advance, first as one rule for each outcome of an operation, then the statements. -/

namespace Sys2Proof.Machine

/-! ### Counters -/

theorem toNat_satAdd (w : Word) (n : Nat) : (satAdd w n).toNat = Nat.min (w.toNat + n) 0xFFFFFFFF := by
  have hle : Nat.min (w.toNat + n) 0xFFFFFFFF ≤ 0xFFFFFFFF := Nat.min_le_right _ _
  rw [satAdd, BitVec.toNat_ofNat, Nat.mod_eq_of_lt (by omega)]

theorem bumpN_zero (s : State) (o : Nat) : bumpN s o 0 = s := if_pos rfl

theorem bumpN_of_ne_zero {n : Nat} (h : n ≠ 0) (s : State) (o : Nat) :
    bumpN s o n = regSet s o (satAdd (regGet s o) n) := if_neg h

/-! ### JOB_OBJ_POLICY -/

section
variable {s : State} {f x : Nat} (hf : f < 64) (hx : x < 0x40000)
include hf hx

theorem fnOfOff_fnBase_add : fnOfOff (fnBase f + x) = some f := by
  have hin : 0x04000000 ≤ fnBase f + x ∧ fnBase f + x < 0x05000000 := by simp only [fnBase]; omega
  rw [fnOfOff, if_pos hin]
  simp only [fnBase, Option.some.injEq]
  omega

/-- The host's writes through a function's own BAR0 act on the registers of that function (R394). -/
theorem masterWrite_bar0_own (hphase : s.start.phase = 8) (v : Word) :
    masterWrite s (.bar0 f) (fnBase f + x) v = fnWrite s 0 f x v := by
  have hfn := fnOfOff_fnBase_add hf hx
  have hup : masterUp s (.bar0 f) (fnBase f + x) = true := by simp [masterUp, fromHost, hphase]
  have hreach : mayReach (.bar0 f) (fnBase f + x) = true := by simp only [mayReach, hfn, beq_self_eq_true]
  have heic : eicAt (fnBase f + x) = none := eicAt_of_lt (by simp only [fnBase]; omega)
  rw [masterWrite_of_allowed hup hreach nofun heic]
  simp only [regWrite, hfn, Nat.add_sub_cancel_left, masterNo]

end

section
variable {s : State} {f : Nat}

theorem fnWrite_policy (hrst : (getFn s f).resetting = false) (m : Nat) (v : Word) :
    fnWrite s m f 0x2000 v = policyWrite s f v := by
  simp [fnWrite, hrst]

theorem execJobObjPolicyWrite_of_up (hf : f < 64) (hphase : s.start.phase = 8) (hrst : (getFn s f).resetting = false) (v : Word) :
    execJobObjPolicyWrite f v s = .next (policyWrite s f v) := by
  rw [execJobObjPolicyWrite, if_pos hf, masterWrite_bar0_own hf (by decide) hphase, fnWrite_policy hrst]

theorem policyWrite_of_unlocked (h : bit (regGet s (fnBase f + 0x2000)).toNat 4 = false) (v : Word) :
    policyWrite s f v = regSet s (fnBase f + 0x2000)
      (fieldWrite (fldsAt (fnBase f + 0x2000)) (regGet s (fnBase f + 0x2000)) v) := by
  simp only [policyWrite, h, Bool.false_eq_true, if_false]

theorem policyWrite_of_locked (h : bit (regGet s (fnBase f + 0x2000)).toNat 4 = true) (v : Word) :
    policyWrite s f v = regSet s (fnBase f + 0x2000)
      (putBits (fieldWrite (fldsAt (fnBase f + 0x2000)) (regGet s (fnBase f + 0x2000)) v) 3 3
        (bits (regGet s (fnBase f + 0x2000)).toNat 3 3)) := by
  simp only [policyWrite, h, if_true]

end

theorem bit_three_policyRead {w : Word} (h : bit w.toNat 4 = true) : bit (policyRead w).toNat 3 = true := by
  rw [policyRead, if_pos h, bit_or]
  exact Bool.or_eq_true_iff.2 (.inr (by decide))

/-! ### The statements about counters and the policy -/

/-- Settles O59: an advance is no write at all, or one write of the saturated sum. -/
theorem countersSaturate : Obligations.CountersSaturate := by
  intro s o n hinv
  by_cases hn : n = 0
  · subst hn
    have hle : (regGet s o).toNat ≤ 0xFFFFFFFF := Nat.le_of_lt_succ (regGet s o).isLt
    exact ⟨(bumpN_zero s o).symm ▸ (Nat.min_eq_left hle).symm, fun p _ => congrArg (regGet · p) (bumpN_zero s o)⟩
  · rw [bumpN_of_ne_zero hn]
    exact ⟨(congrArg BitVec.toNat (regGet_regSet_same hinv o _)).trans (toNat_satAdd _ n), fun p hp => regGet_regSet_ne _ hp⟩

/-- Settles O17. -/
theorem jobObjPolicyLocks : Obligations.JobObjPolicyLocks := by
  refine ⟨fun f v s hf hphase hrst hopen => ?unlocked, fun f v s hf hphase hrst hlocked => ?locked, fun w => bit_three_policyRead⟩
  case unlocked => exact (execJobObjPolicyWrite_of_up hf hphase hrst v).trans (congrArg _ (policyWrite_of_unlocked hopen v))
  case locked => exact (execJobObjPolicyWrite_of_up hf hphase hrst v).trans (congrArg _ (policyWrite_of_locked hlocked v))

/-! ### The load rows -/

section
variable {s : State} {f r i t x bad : Nat} {d : Desc} {y : Xfer} {len : List Byte → Nat} {check : State → Desc → List TByte → State}
  {finish : State → Desc → Nat → List TByte → State}

theorem findDesc_of_rowDesc (h : rowDesc s f r i t = some d) : findDesc s f r i = some d := by
  unfold rowDesc at h
  split at h
  · next e he =>
    split at h
    · cases h
    · split at h
      · cases h
      · exact he.trans h
  · cases h

/-- With the object in, the checks run on the whole of it (R70, R87, R222). -/
theorem loadRow_of_arrived (hd : rowDesc s f r i t = some d) (hph : d.phase = .arrived x) (hy : xferOf s d = some y) :
    loadRow t len check finish f r i s = check s d (xferBytes y) := by
  simp only [loadRow, hd, hph, findDesc_of_rowDesc hd, hy, reduceCtorEq, if_false]

/-- The end of the security unit's work ends the load (R565, R567). -/
theorem loadRow_of_security (hd : rowDesc s f r i t = some d) (hph : d.phase = .security 0 bad) (hy : xferOf s d = some y) :
    loadRow t len check finish f r i s = finish s d bad (xferBytes y) := by
  simp only [loadRow, hd, hph, findDesc_of_rowDesc hd, hy, reduceCtorEq, if_false]

end

/-! ### LOAD_PARAMS -/

section
variable {s u : State} {d : Desc} {bs : List TByte} {o : List Byte} {conv : List (Nat × Extent)} {n : Nat}

/-- A parameter set that passes every check, and for whose conversion constants there is room, goes into a slot that is not in
use (R70, R74). -/
theorem checkParams_of_passed (ho : o = bs.map (·.b)) (hn : n = bits (ow d.bytes 0x14) 3 0)
    (hst : paramChecks (bit (regGet s (fnBase d.fn + 0x2000)).toNat 5) o = 0)
    (htake : takeHbm true ((placementDies d.placement).map fun p => (p, convBytes o)) s = some (conv, u))
    (hfree : paramInUse s d.fn n = false) : checkParams s d bs = installParams u d n o conv := by
  subst ho hn
  simp only [checkParams, hst, htake, hfree, ne_eq, not_true_eq_false, Bool.false_eq_true, if_false]

/-- A set that meets the security floor is installed under the slot's next generation, without an event (R73, R74). -/
theorem installParams_of_meetsFloor {gen : Nat} {v : State} (hfloor : pMeetsFloor o = true)
    (hgen : gen = if (getParam u d.fn n).lastGen = 0xFFFF then 1 else (getParam u d.fn n).lastGen + 1)
    (hv : v = conv.foldl (fun st e => setBytes st e.2.base (convBlock o)) (dropHbm u (getParam u d.fn n).conv)) :
    installParams u d n o conv =
      endLoad (paramRegs (hbmRegs (setParam v d.fn n ⟨gen, true, o, false, conv⟩) d.fn) d.fn n gen true false) d 0 gen := by
  subst hgen hv
  simp only [installParams, hfloor, Bool.not_true, Bool.false_eq_true, if_false]

end

/-! ### LOAD_KEYS -/

section
variable {s u : State} {d : Desc} {bs : List TByte} {p o : List Byte} {k n : Nat}

/-- An unsigned key set that passes the checks is placed where no signature is asked for (R87, R565). -/
theorem checkKeys_of_unsigned (ho : o = bs.map (·.b)) (hp : p = (getParam s d.fn (bits (ow d.bytes 0x14) 3 0)).obj)
    (hkind : ow o 0 ≠ 0x59544231) (hst : keyChecks p o = 0) (hsigned : kSigned o = false)
    (hpol : bits (regGet s (fnBase d.fn + 0x2000)).toNat 4 3 = 0) : checkKeys s d bs = placeKeys s d bs := by
  subst ho hp
  have hbit (i : Nat) (hi : i < 2) : bit (regGet s (fnBase d.fn + 0x2000)).toNat (3 + i) = false := by
    rw [bit_eq]
    simpa [bits_testBit, hi] using congrArg (·.testBit i) hpol
  simp only [checkKeys, if_neg hkind, hst, hsigned, hbit 0 (by decide), hbit 1 (by decide), ne_eq, not_true_eq_false, Bool.not_false,
    Bool.or_self, Bool.false_eq_true, if_false, if_true]

/-- A set that repairs none goes into its shares of both dies, in place of what its slot held (R87, R88). -/
theorem placeKeys_of_new {ext : List (Nat × Extent)} {v : State} (ho : o = bs.map (·.b)) (hk : k = bits (ow d.bytes 0x14) 21 16)
    (hn : n = bits (ow d.bytes 0x14) 3 0) (hp : p = (getParam s d.fn n).obj) (hnew : isRepair s d.fn k o = false)
    (htake : takeHbm false ([0, 1].map fun die => (die, pieceSize (keyPieces p o d.placement die))) s = some (ext, u))
    (hfree : keyInUse s d.fn k = false)
    (hv : v = putShares (dropHbm u (getKeys s d.fn k).extents) bs (keyPieces p o d.placement) ext) :
    placeKeys s d bs =
      endLoad (keyPoisonReg (keyLoadedReg (hbmRegs (setKeys v d.fn k ⟨true, o, n, d.placement, ext, []⟩) d.fn) d.fn k true) d.fn k false)
        d 0 0 := by
  subst ho hk hn hp hv
  simp only [placeKeys, hnew, htake, hfree, Bool.false_and, Bool.false_eq_true, if_false]

end

/-! ### LOAD_MODEL -/

section
variable {s : State} {d : Desc} {bs : List TByte} {raw clear : List Byte} {conf : Bool}

/-- A blob without an envelope, for which there is room, is placed as it came (R222). -/
theorem checkModel_of_plain (hraw : raw = bs.map (·.b)) (hroom : (takeGddr s d.fn raw.length).isSome = true)
    (hkind : ow raw 0 ≠ 0x59454E31) : checkModel s d bs = placeBlob s d bs raw false := by
  subst hraw
  simp only [checkModel, Option.isNone_eq_false_iff.2 hroom, if_pos hkind, Bool.false_eq_true, if_false]

/-- A blob that passes its checks, and names no tiles, goes onto the tiles that are chosen for it, once they are zeroed (R217, R222). -/
theorem placeBlob_of_tiles {m : Nat} {ts : List Nat} (hm : m = bits (ow d.bytes 0x14) 2 0) (hst : blobStatus clear conf = 0)
    (hnone : ow d.bytes 0x20 = 0) (hts : chooseFor s d.fn (placementOf s d.fn) false (blobT clear) none = .tiles ts)
    (hfree : modelInUse s d.fn m = false) (hzeroed : ∀ t ∈ ts, t ∉ s.zeroing) :
    placeBlob s d bs clear conf = endLoad (installModel s d.fn m bs clear conf false (.tiles ts)) d 0 0 := by
  subst hm
  have hany : (ts.any fun t => s.zeroing.contains t) = false := by simpa using hzeroed
  simp only [placeBlob, hst, hnone, hts, hfree, hany, ne_eq, not_true_eq_false, decide_false, Bool.false_eq_true, if_false, if_true]

/-- A model that goes into an empty slot: its home copy, its sector, the slot, its registers, its tiles (R214, R216, R226). -/
theorem installModel_of_tiles {f m n : Nat} {ts : List Nat} {e : Extent} {u v : State} {q : ModelSlot}
    (htake : takeGddr s f bs.length = some (e, u)) (hform : formSector (writeT u e.base bs) f ts (some m) false = (n, v))
    (hempty : (getModel s f m).loaded = false)
    (hq : q = ⟨true, false, clear, bs.length, e, digestBytes (sha384 clear), n, ((getSector v n).map (·.tiles)).getD [], [], false, [], []⟩) :
    installModel s f m bs clear false false (.tiles ts) = memRegs (placeModel (regSetFld (regSetFld (regSetFld (modModel v f m fun _ => q)
      (fnBase f + 0x2200) m m 1) (fnBase f + 0x2200) (8 + m) (8 + m) 0) (fnBase f + 0x2200) (16 + m) (16 + m) 0) f m (tilePairs q)) f := by
  subst hq
  simp only [installModel, htake, hform, hempty, Bool.false_eq_true, if_false]

end

/-! ### COPY -/

section
variable {s : State} {f r i x : Nat} {d : Desc}

theorem execCopy_of_failed (hd : rowDesc s f r i 5 = some d) (hph : d.phase = .fetched) (hst : copyStatus s d ≠ 0) :
    execCopy f r i s = .next (failDesc s f r i (copyStatus s d)) := by
  simp only [execCopy, hd, hph, if_pos hst]

/-- A COPY that passes its checks is journaled; its bytes come from the host, or from a memory of the module (R404). -/
theorem execCopy_of_passed (hd : rowDesc s f r i 5 = some d) (hph : d.phase = .fetched) (hst : copyStatus s d = 0)
    (hroom : journalRoom s = true) :
    execCopy f r i s = .next (if (refAt d.bytes 8).kind = 0
      then startXfer (journalDesc s d) d (refHost (refAt d.bytes 8)) (ow d.bytes 0x20) else copyBegin (journalDesc s d) d none) := by
  simp only [execCopy, hd, hph, hst, hroom, ne_eq, not_true_eq_false, Bool.not_true, Bool.false_eq_true, if_false]

theorem execCopy_of_arrived {y : Xfer} (hd : rowDesc s f r i 5 = some d) (hph : d.phase = .arrived x) (hy : xferOf s d = some y) :
    execCopy f r i s = .next (copyBegin s d (some (xferBytes y))) := by
  simp only [execCopy, hd, hph, hy]

/-- Between two memories of the module a COPY begins with reads of its source (log entry 39). -/
theorem copyBegin_of_device {a b n : Nat} (hdst : (refAt d.bytes 0x14).kind ≠ 0)
    (hn : n = ow d.bytes 0x20) (hb : refAddr s d.fn (refAt d.bytes 0x14) n true = (0, b))
    (ha : refAddr s d.fn (refAt d.bytes 8) n false = (0, a)) :
    copyBegin s d none = setPhase (beginMove s (.copy d.fn d.ring d.index) (some b) n [(a, 0, n)]) d .working := by
  subst hn
  simp only [copyBegin, if_neg hdst, hb, ha, ne_eq, not_true_eq_false, if_false]

/-- Bytes of a move's source go on to its destination as they come. -/
theorem moveGot_of_dst {mv off a : Nat} {bs : List TByte} {m : Move} (hm : findMove s mv = some m) (hdst : m.dst = some a) :
    moveGot s mv off bs =
      moveLess (moveOut (modMove s mv fun m => { m with poisoned := m.poisoned || bs.any (·.tag) }) mv (a + off) bs) mv := by
  simp only [moveGot, hm, hdst]

/-- Once the last request has ended the COPY completes. -/
theorem execCopy_of_ended {m : Move} (hd : rowDesc s f r i 5 = some d) (hph : d.phase = .working) (hm : copyMove s d = some m)
    (hleft : m.left = 0) : execCopy f r i s = .next (copyEnd s d m) := by
  simp only [execCopy, hd, hph, hm, hleft, if_true]

theorem copyEnd_of_host {m : Move} (hdst : m.dst = none) :
    copyEnd s d m = completeWith (emit (dropMoves (dropXfer s d) d.fn d.ring d.index)
      (.hostWrite d.fn (refHost (refAt d.bytes 0x14)) ((moveBytes m).map (·.b))))
      d.fn d.ring d.index (if m.poisoned then stDonePoisoned else 0) 0 0 [] [] := by
  simp only [copyEnd, hdst]

/-- Only a destination in a buffer is an output that a front mirrors. -/
theorem copyEnd_of_no_buffer {m : Move} {a : Nat} (hdst : m.dst = some a) (hkind : (refAt d.bytes 0x14).kind ≠ 1) :
    copyEnd s d m = completeWith (dropMoves (dropXfer s d) d.fn d.ring d.index) d.fn d.ring d.index
      (if m.poisoned then stDonePoisoned else 0) 0 0 [] [] := by
  simp only [copyEnd, hdst, if_neg hkind]

end

/-- Settles O44: the three load rows are one row with their own checks, and share its two outcomes; the objects that are installed are
followed through their checks. -/
theorem loadsAndCopyComplete : Obligations.LoadsAndCopyComplete := by
  refine ⟨fun f r i x d y s hd hph hy => ?paramsIn, fun f r i x d y s hd hph hy => ?keysIn, fun f r i x d y s hd hph hy => ?modelIn,
    fun f r i bad d y s hd hph hy => ?modelSecured, fun f r i bad d y s hd hph hy => ?keysSecured,
    fun f r i x n gen d y o conv s u v hd hfn hph hy ho hn hst htake hfree hfloor hgen hv => ?paramsInstalled,
    fun f r i x k n d y p o ext s u v hd hfn hph hy ho hn hk hp hkind hst hsigned hpol hnew hfree htake hv => ?keysInstalled,
    fun f r i x m d y raw ts s hd hfn hph hy hraw hm hroom hkind hst hnone hts hfree hzeroed => ?modelInstalled,
    fun f m n raw clear ts e s u v q htake hform hempty hq => installModel_of_tiles htake hform hempty hq,
    fun f r i d s hd hph hst => execCopy_of_failed hd hph hst,
    fun f r i d s hd hph hst hroom => ⟨fun hhost => ?copyFromHost, fun hdev => ?copyFromDevice⟩,
    fun f r i x d y s hd hph hy => execCopy_of_arrived hd hph hy,
    fun a b n d s _ hdst hn hb ha => copyBegin_of_device hdst hn hb ha,
    fun mv off a bs m s u hm hdst hu => hu ▸ moveGot_of_dst hm hdst,
    fun f r i d m s u hd hph hm hleft hu => ⟨fun hdst => ?copyToHost, fun a hdst hkind => ?copyToDevice⟩⟩
  case paramsIn | keysIn | modelIn => exact congrArg Host.Outcome.next (loadRow_of_arrived hd hph hy)
  case modelSecured | keysSecured => exact congrArg Host.Outcome.next (loadRow_of_security hd hph hy)
  case paramsInstalled =>
    subst hfn
    refine congrArg Host.Outcome.next ((loadRow_of_arrived hd hph hy).trans ?_)
    rw [checkParams_of_passed ho hn hst htake hfree, installParams_of_meetsFloor hfloor hgen hv]
  case keysInstalled =>
    subst hfn
    refine congrArg Host.Outcome.next ((loadRow_of_arrived hd hph hy).trans ?_)
    rw [checkKeys_of_unsigned ho (hn ▸ hp) hkind hst hsigned hpol, placeKeys_of_new ho hk hn hp hnew htake hfree hv]
  case modelInstalled =>
    subst hfn
    refine congrArg Host.Outcome.next ((loadRow_of_arrived hd hph hy).trans ?_)
    rw [checkModel_of_plain hraw hroom hkind, placeBlob_of_tiles hm hst hnone hts hfree hzeroed]
  case copyFromHost => exact (execCopy_of_passed hd hph hst hroom).trans (congrArg _ (if_pos hhost))
  case copyFromDevice => exact (execCopy_of_passed hd hph hst hroom).trans (congrArg _ (if_neg hdev))
  case copyToHost => exact hu ▸ (execCopy_of_ended hd hph hm hleft).trans (congrArg _ (copyEnd_of_host hdst))
  case copyToDevice => exact hu ▸ (execCopy_of_ended hd hph hm hleft).trans (congrArg _ (copyEnd_of_no_buffer hdst hkind))

/-! ### OPERATION_ISSUE -/

/-- What becomes of the members of a batch under a plan (R96 to R98, R291). -/
def planOutcome (s : State) (j : Job) (i : Image) (members : List Nat) : Plan → State
  | .wait => s
  | .refresh op v => insertRefresh s j j op v
  | .fail l => failBatch s j i l
  | .go => passBatch s j i members

theorem not_held_of_running {j : Job} (hph : j.phase = .running) (href : j.refreshing = []) :
    ¬(j.phase ≠ .running ∨ (!j.refreshing.isEmpty) = true) := by
  simp [hph, href]

section
variable {s : State} {sec idx : Nat} {j : Job} {i : Image} (hrun : runningJob s sec = some j)
include hrun

/-- While an inserted refresh is under way no entry issues (R98). -/
theorem execOperationIssue_of_refreshing (href : j.refreshing ≠ []) : execOperationIssue sec s = .next s := by
  have hwaits : j.phase ≠ .running ∨ (!j.refreshing.isEmpty) = true := .inr (by simpa using href)
  simp only [execOperationIssue, hrun, if_pos hwaits]

variable (hph : j.phase = .running) (himg : j.image = some i) (href : j.refreshing = [])
include hph himg href

theorem execOperationIssue_of_table_end
    (hnext : ((List.range i.ops.length).find? fun n => decide (j.opNext ≤ n) && !j.skipped.contains n) = none) :
    execOperationIssue sec s = .next (modJob s j.id fun y => { y with opNext := i.ops.length }) := by
  simp only [execOperationIssue, hrun, if_neg (not_held_of_running hph href), himg, hnext]

variable (hnext : ((List.range i.ops.length).find? fun n => decide (j.opNext ≤ n) && !j.skipped.contains n) = some idx)
include hnext

/-- An entry whose batch has passed its checks issues (R96). -/
theorem execOperationIssue_of_mem_batch (hin : idx ∈ j.batch) : execOperationIssue sec s = .next (issueEntry s j.id idx) := by
  simp only [execOperationIssue, hrun, if_neg (not_held_of_running hph href), himg, hnext, List.contains_iff_mem.2 hin, if_true]

variable (hout : idx ∉ j.batch)
include hout

/-- The leader of a batch of DIRECT_OPs has its members checked together, and passes once they have (R293, log entry 35). -/
theorem execOperationIssue_of_group (hgroup : j.group ≠ none) :
    execOperationIssue sec s = .next (if j.passed then passBatch s j i [idx] else issueGroup s j i) := by
  simp only [execOperationIssue, hrun, if_neg (not_held_of_running hph href), himg, hnext, List.contains_iff_mem, if_neg hout,
    Option.isSome_iff_ne_none.2 hgroup, true_and, if_true]
  cases j.passed <;> rfl

/-- The batch that an entry begins is checked, and its plan is carried out (R96 to R98, R291). -/
theorem execOperationIssue_of_plan {p : Plan} (hgroup : j.group = none) (hplan : batchPlan s j i (batchAt s j i idx) = p) :
    execOperationIssue sec s = .next (planOutcome s j i (batchAt s j i idx) p) := by
  simp only [execOperationIssue, hrun, if_neg (not_held_of_running hph href), himg, hnext, List.contains_iff_mem, if_neg hout,
    hgroup, Option.isSome_none, Bool.false_eq_true, false_and, if_false, hplan]
  cases p <;> rfl

end

/-! ### STRIDE_END -/

section
variable {s u : State} {sec k n : Nat} {x : Sector} {j : Job} {i : Image}

/-- The stride of an inserted refresh ends with the last pass of its built-in program, and its result replaces the operand (R99,
R320). -/
theorem builtinEnd_of_refresh {c tick : Nat} {l : List (Nat × Nat)} (hover : passesOver s j [builtinStride] = true)
    (halone : batchJobs s j = []) (href : j.refreshing = (c, tick) :: l) :
    builtinEnd s j i k builtinStride = some (modJob (endRefresh
      (modJob (modJob s j.id fun y => { y with active := tset none y.active k none }) j.id fun y => { y with refreshing := [] })
      j j (c / 65536) (c % 65536) tick) j.id fun y => { y with passEnded := y.passEnded.filter fun p => p.members != [builtinStride] }) := by
  simp only [builtinEnd, hover, halone, href, List.find?_nil, Option.getD_none, Bool.not_true, Bool.false_eq_true, if_false, if_true]

/-- A stride whose entry is no built-in program's ends with the contexts of its cores. -/
theorem not_builtin_of_strides (hn : n ≠ builtinStride)
    (h : ∀ st e, i.strides[n]? = some st → i.ops[st.opIndex]? = some e → isBuiltin j e = false) :
    ¬(n = builtinStride ∨ (((i.strides[n]?).bind fun t => i.ops[t.opIndex]?).map (isBuiltin j)).getD false = true) := by
  rw [or_iff_right hn, Bool.not_eq_true]
  cases hst : i.strides[n]? with
  | none => rfl
  | some st =>
    cases he : i.ops[st.opIndex]? with
    | none => simp only [Option.bind_some, he, Option.map_none, Option.getD_none]
    | some e => simp only [Option.bind_some, he, Option.map_some, Option.getD_some, h st e hst he]

variable (hx : getSector s sec = some x) (hrun : runningJob s sec = some j) (himg : j.image = some i)
include hx hrun himg

theorem execStrideEnd_of_builtinEnd (hactive : tget none j.active k = some builtinStride)
    (hend : builtinEnd s j i k builtinStride = some u) : execStrideEnd sec k s = .next (advance u sec) := by
  simp only [execStrideEnd, hx, hrun, himg, hactive, hend, true_or, if_true]

variable (hactive : tget none j.active k = some n) (hn : n ≠ builtinStride)
  (hcores : ∀ st e, i.strides[n]? = some st → i.ops[st.opIndex]? = some e → isBuiltin j e = false)
include hactive hn hcores

/-- Where every core of the image has halted the context already, the stride and the entries that end with it end (R154). -/
theorem execStrideEnd_of_halted {j1 : Job}
    (hall : ∀ g ∈ x.lcores.take i.coreCount, coreFenced s g = false ∧ (getCtx (getCore s g) k).run = .halted)
    (hu : u = modJob s j.id fun y => { y with stridesDone := y.stridesDone ++ [n], active := tset none y.active k none })
    (hj1 : getJob u j.id = some j1) :
    execStrideEnd sec k s = .next (advance (finishAll u j.id (endedBy j1 i n)) sec) := by
  subst hu
  have hdone : ((x.lcores.take i.coreCount).all fun g =>
      coreFenced s g || (getCtx (getCore s g) k).run == .halted || haltDone (getCore s g) k) = true :=
    List.all_eq_true.2 fun g hg => by simp [(hall g hg).2]
  have hkeeps : ((x.lcores.take i.coreCount).foldl (fun st g =>
      if coreFenced st g || (getCtx (getCore st g) k).run == .halted then st else modCore st g finishHalts) s) = s :=
    List.foldlRecOn _ _ (motive := (· = s)) rfl fun st hst g hg => by
      subst hst
      exact if_pos (by simp [(hall g hg).2])
  simp only [execStrideEnd, hx, hrun, himg, hactive, if_neg (not_builtin_of_strides hn hcores), hdone, hkeeps, hj1,
    Bool.not_true, Bool.false_eq_true, if_false]

/-- While a core of the image runs the context the stride goes on (R154). -/
theorem execStrideEnd_of_running {g : Nat} (hg : g ∈ x.lcores.take i.coreCount) (hup : coreFenced s g = false)
    (hctx : (getCtx (getCore s g) k).run = .running) (hhalt : haltDone (getCore s g) k = false) :
    execStrideEnd sec k s = .next s := by
  have hgoing : ((x.lcores.take i.coreCount).all fun g =>
      coreFenced s g || (getCtx (getCore s g) k).run == .halted || haltDone (getCore s g) k) = false :=
    List.all_eq_false.2 ⟨g, hg, by simp [hup, hctx, hhalt]⟩
  simp only [execStrideEnd, hx, hrun, himg, hactive, if_neg (not_builtin_of_strides hn hcores), hgoing, Bool.not_false, if_true]

end

/-! ### REFRESH_TABLE_COPY -/

theorem modJob_congr {s : State} {jid : Nat} {j : Job} {g h : Job → Job} (hj : getJob s jid = some j) (heq : g j = h j) :
    modJob s jid g = modJob s jid h := by
  simp only [modJob, hj, Option.map_some, heq]

/-- The table of a job's only batch goes to the Tile Banks of every tile of the sector (R318). -/
theorem execRefreshTableCopy_of_single {s u v : State} {sec ts : Nat} {x : Sector} {j : Job} {t : TabBatch} {e : TabEnt}
    (hx : getSector s sec = some x) (hrun : runningJob s sec = some j) (hts : j.table = some ts) (htab : j.tabBatches = [t])
    (hnew : t.copied = false) (he : e = tEnt (getTabs s j.fn ts).obj t.table)
    (hu : u = x.tiles.foldl (fun st tl => writeT st (tbBase tl + 0x2FC000)
      (((((getTabs s j.fn ts).obj.drop e.off).take e.len).map fun y => ⟨y, (getTabs s j.fn ts).poisoned.contains t.table⟩))) s)
    (hv : v = regSetPair u (fnBase j.fn + 0x2318) ((regPair u (fnBase j.fn + 0x2318) + e.len) % 2 ^ 64))
    (hfill : j.stats.fillEnd ≠ none) (hj : getJob v j.id = some j) :
    execRefreshTableCopy sec s = .next (advance (modJob v j.id fun y => { y with
      tabBatches := ((List.range y.tabBatches.length).zip y.tabBatches).map fun p => if p.1 = 0 then { p.2 with copied := true } else p.2
      refreshSlots := tset none y.refreshSlots 0 (some t.table) }) sec) := by
  have hfirst : ((List.range j.tabBatches.length).find? fun b => ((j.tabBatches[b]?).map fun t => !t.copied).getD false) = some 0 := by
    simp [htab, hnew]
  have htable : ((j.tabBatches[0]?).map (·.table)).getD 0 = t.table := by simp [htab]
  have hfilled : j.stats.fillEnd.isNone = false := Option.isNone_eq_false_iff.2 (Option.isSome_iff_ne_none.2 hfill)
  subst he hu hv
  simp only [execRefreshTableCopy, hx, hrun, hfirst, hts, htable, Nat.zero_lt_two, decide_true, Bool.true_or, Bool.not_true,
    Bool.false_eq_true, if_false, Nat.zero_mod, Nat.mul_zero, Nat.add_zero]
  refine congrArg (fun st => Host.Outcome.next (advance st sec)) (modJob_congr hj ?_)
  simp only [hfilled, Bool.and_false, Bool.false_and, Bool.false_eq_true, if_false]

/-- Settles O51: one rule per outcome of each row. -/
theorem operationsIssueInOrder : Obligations.OperationsIssueInOrder := by
  refine ⟨fun sec j s hrun href => execOperationIssue_of_refreshing hrun href,
    fun sec k c tick l x j i s hx hrun himg hactive hover halone href =>
      execStrideEnd_of_builtinEnd hx hrun himg hactive (builtinEnd_of_refresh hover halone href),
    fun sec idx j i s hrun hph himg href hnext => ⟨?mem, ?wait, ?go, ?refresh, ?groupPassed, ?fail, ?group⟩,
    fun sec j i s hrun hph himg href hnext => execOperationIssue_of_table_end hrun hph himg href hnext,
    fun sec k n x j j1 i s u hx hrun himg hactive hn hcores hall hu hj1 =>
      execStrideEnd_of_halted hx hrun himg hactive hn hcores hall hu hj1,
    fun sec k n g x j i s hx hrun himg hactive hn hcores hg hup hctx hhalt =>
      execStrideEnd_of_running hx hrun himg hactive hn hcores hg hup hctx hhalt,
    fun sec b ts x j t e s u v hx hrun hts htab hnew he hb hu hv hfill hj => ?table⟩
  case mem => exact execOperationIssue_of_mem_batch hrun hph himg href hnext
  case wait | go => exact fun hout => execOperationIssue_of_plan hrun hph himg href hnext hout
  case refresh => exact fun op v hout => execOperationIssue_of_plan hrun hph himg href hnext hout
  case fail => exact fun l hout => execOperationIssue_of_plan hrun hph himg href hnext hout
  case groupPassed =>
    exact fun hout hgroup hpassed =>
      (execOperationIssue_of_group hrun hph himg href hnext hout hgroup).trans (congrArg _ (if_pos hpassed))
  case group =>
    exact fun hout hgroup hpassed =>
      (execOperationIssue_of_group hrun hph himg href hnext hout hgroup).trans (congrArg _ (if_neg (ne_true_of_eq_false hpassed)))
  case table =>
    subst hb
    exact execRefreshTableCopy_of_single hx hrun hts htab hnew he hu hv hfill hj

end Sys2Proof.Machine

/-! The cores of chapter 03 and the memories that serve them: what a command leaves of cores, functions, sectors and jobs, the
rows of the memory controllers, banks, stream ports and credits, and the rows of one core cycle, first as one rule for each
outcome of a row, then the statements. -/

namespace Sys2Proof.Machine

/-- Settles O8: `exec_within` bounds what a command changes by its parts. -/
theorem frameOfCoresFunctionsSectorsJobs : Obligations.FrameOfCoresFunctionsSectorsJobs := by
  intro c s t h
  have hwithin := exec_within h
  refine ⟨fun hp g => ?cores, fun hp f => ?fns, fun hp n => ?sectors, fun hp j => ?jobs⟩
  case cores => simp only [getCore, hwithin.cores (partsMask_testBit hp)]
  case fns => simp only [getFn, hwithin.fns (partsMask_testBit hp)]
  case sectors => simp only [getSector, hwithin.sectors (partsMask_testBit hp)]
  case jobs => simp only [getJob, (hwithin.jobs (partsMask_testBit hp)).1]

/-! ### The bytes of an access -/

theorem tget_numbered {α : Type} (d : α) (k i : Nat) (vs : List α) : tget d (numbered k vs) (k + i) = vs.getD i d := by
  induction vs generalizing k i with
  | nil => rfl
  | cons v vs ih =>
    cases i with
    | zero => simp [numbered, tget]
    | succ i =>
      have hne : k ≠ k + (i + 1) := by omega
      have hnext : k + (i + 1) = k + 1 + i := by omega
      rw [numbered, tget, if_neg hne, hnext, ih, List.getD_cons_succ]

/-- A run of values that are all there is kept whole. -/
theorem tsetRun_nil_some {α : Type} [DecidableEq α] (k : Nat) (vs : List α) :
    tsetRun none [] k (vs.map some) = numbered k (vs.map some) := by
  simp only [tsetRun, List.filter_nil, List.nil_append, List.append_nil]
  induction vs generalizing k with
  | nil => rfl
  | cons v vs ih => simp only [List.map_cons, numbered, List.filter_cons, ih, ne_eq, reduceCtorEq, not_false_eq_true,
      decide_true, if_true]

/-- An access whose bytes have come at once gives them in their order. -/
theorem gotBytes_of_run {r : MemReq} {bs : List TByte} (hgot : r.got = tsetRun none [] 0 (bs.map some)) (hlen : r.total = bs.length) :
    gotBytes r = bs := by
  refine List.ext_getElem (by simp [gotBytes, hlen]) fun i hi hi' => ?_
  have hread := tget_numbered none 0 i (bs.map some)
  rw [Nat.zero_add] at hread
  simp [gotBytes, hgot, tsetRun_nil_some, hread, hi']

/-- An access ends with its last part. -/
theorem partDone_of_last {s : State} {r : MemReq} (hlast : ∀ q ∈ s.memq, q.acc ≠ r.acc) (bs : List TByte) :
    partDone s r bs = delivered s r
      (if r.write then [] else gotBytes { r with got := tsetRun none r.got (r.addr - r.base) (bs.map some) }) := by
  have hnone : (s.memq.find? fun q => q.acc == r.acc) = none :=
    List.find?_eq_none.2 fun q hq => by simpa using hlast q hq
  simp only [partDone, hnone]

/-- A read of one part gives the bytes that its memory gave. -/
theorem partDone_of_single_read {s : State} {r : MemReq} {bs : List TByte} (hlast : ∀ q ∈ s.memq, q.acc ≠ r.acc)
    (hbase : r.base = r.addr) (htotal : r.total = bs.length) (hgot : r.got = []) (hread : r.write = false) :
    partDone s r bs = delivered s r bs := by
  have hbytes : gotBytes { r with got := tsetRun none r.got (r.addr - r.base) (bs.map some) } = bs :=
    gotBytes_of_run (by simp only [hgot, hbase, Nat.sub_self]) htotal
  rw [partDone_of_last hlast, hbytes, hread, if_neg Bool.false_ne_true]

/-! ### Memory controllers -/

section
variable {s : State} {ctl : Nat} {r : MemReq}

theorem dramServe_of_write {err : MemErr} (hw : r.write = true) (hok : err ≠ .linkCrc ∨ controllerOf s r.addr < 256) :
    dramServe s r err = partDone (writeT (popReq s r.id) r.addr r.data) r [] := by
  have hserved : ¬(err = .linkCrc ∧ 256 ≤ controllerOf s r.addr) := fun ⟨he, hc⟩ => hok.elim (· he) (Nat.not_lt.2 hc)
  simp only [dramServe, dramGive, hw, if_true, if_neg hserved]

/-- A write whose GDDR7 link has exhausted its retries marks the device and poisons what it would have written (R335, log entry 65). -/
theorem dramServe_of_lost_write (hw : r.write = true) (hgddr : 256 ≤ controllerOf s r.addr) :
    dramServe s r .linkCrc =
      partDone (poisonSpan (markRetrain (popReq s r.id) (controllerOf s r.addr) 4) r.addr r.len) r [] := by
  simp only [dramServe, hw, hgddr, and_self, if_true]

/-- A read takes its bytes after what the error that it meets does to them (R331). -/
theorem dramServe_of_read {err : MemErr} {u : State} (hr : r.write = false)
    (hu : u = popReq (memErr s r.addr r.len err (r.origin == .scrub)) r.id) :
    dramServe s r err = partDone u r (readT u r.addr r.len) := by
  simp only [dramServe, dramGive, hr, hu, Bool.false_eq_true, if_false]

theorem execDeviceMemoryResponse_of_idle {err : MemErr} (hnone : oldest s (.dram ctl) = none) :
    execDeviceMemoryResponse ctl err s = .next s := by
  simp only [execDeviceMemoryResponse, hnone]

variable (hr : oldest s (.dram ctl) = some r)
include hr

theorem execDeviceMemoryResponse_of_oldest (hheld : ctlHeld s ctl = false) (err : MemErr) :
    execDeviceMemoryResponse ctl err s = .next (dramServe s r err) := by
  simp only [execDeviceMemoryResponse, hr, hheld, Bool.false_eq_true, if_false]

/-- A request without a response within 64 µs is counted and marks its memory; then it ends as poisoned data, or as a discarded
write (R334, R335). -/
theorem execMemoryRequestTimeout_of_oldest {u : State} (hu : u = markMapOut (bump (popReq s r.id) 0x10070) ctl 3) :
    execMemoryRequestTimeout ctl s = .next
      (if r.write then partDone (poisonSpan u r.addr r.len) r [] else partDone u r (List.replicate r.len ⟨0, true⟩)) := by
  simp only [execMemoryRequestTimeout, hr, hu]

end

/-! ### Tile Banks -/

section
variable {s : State} {t n : Nat}

/-- A tile that is being zeroed serves no bank (R343). -/
theorem execTileBankService_of_zeroing (hz : t ∈ s.zeroing) (err : MemErr) : execTileBankService t n err s = .next s := by
  simp only [execTileBankService, List.contains_iff_mem.2 hz, Bool.true_or, if_true]

/-- With no write between its two steps every bank serves the class of the wheel's phase (R339, R340). -/
theorem execTileBankService_of_class {cls : Nat} (hup : t ∉ s.zeroing) (ht : t < 408) (hcls : wheelClass s t n = some cls)
    (hwhole : ∀ r ∈ s.memq, r.merged = []) :
    execTileBankService t n .none s =
      .next (admitBank (finishPort ((List.range 16).foldl (fun st b => bankCycle st t cls b []) s) [.bank t cls] n) t cls) := by
  have hserves : ¬((s.zeroing.contains t || decide (nTiles ≤ t)) = true) := fun hidle =>
    (Bool.or_eq_true_iff.1 hidle).elim (fun hz => hup (List.contains_iff_mem.1 hz)) fun hout => Nat.not_lt.2 (of_decide_eq_true hout) ht
  have hhalves : (s.memq.flatMap fun r => if r.port == .bank t cls then r.merged.map fun l => (r.id, l) else []) = [] :=
    List.flatMap_eq_nil_iff.2 fun r hr => by simp [hwhole r hr]
  have hbanks : ((List.range 16).filter fun _ => true) = List.range 16 := List.filter_eq_self.2 fun _ _ => rfl
  simp only [execTileBankService, if_neg hserves, hcls, hhalves, List.foldl_nil, List.map_nil, List.any_nil, Bool.not_false, hbanks]

end

/-! ### Stream ports -/

section
variable {s : State} {g n : Nat} {err : MemErr}

/-- The stream port serves in the cycles of phase 3 only (R380). -/
theorem execStreamPortService_of_phase (hph : n % 4 ≠ 3) : execStreamPortService g n err s = .next s := by
  simp only [execStreamPortService, if_pos (Or.inl hph)]

/-- The stream ports of a tile that is being zeroed serve nothing (R343). -/
theorem execStreamPortService_of_zeroing (hz : tileOfCore g ∈ s.zeroing) : execStreamPortService g n err s = .next s := by
  simp only [execStreamPortService, if_pos (Or.inr (Or.inr (List.contains_iff_mem.2 hz)))]

variable {u : State} (hph : n % 4 = 3) (hg : g < 26112) (hup : tileOfCore g ∉ s.zeroing) (hu : u = settle s g n)
include hph hg hup hu

/-- The class that the port picks has up to 8 lines served; classes 0 to 2 take turns, and those that read or write the Core
Store may meet an error there (R288, R380). -/
theorem execStreamPortService_of_class {cls : Nat} {v w : State} (hcls : portClass u g n = some cls)
    (hv : v = if cls < 3 then modCore u g fun c => { c with portTurn := cls } else u)
    (hw : w = if cls = 1 ∨ cls = 2 then memErr v (csBase g) 0x8000 err false else v) :
    execStreamPortService g n err s = .next (finishPort (portLoop 8 w g cls) [.stream g cls] n) := by
  have hserves : ¬(n % 4 ≠ 3 ∨ nCores ≤ g ∨ s.zeroing.contains (tileOfCore g) = true) := by
    simp [hph, hup, nCores, hg]
  simp only [execStreamPortService, if_neg hserves, ← hu, hcls, ← hv, ← hw]

end

/-! ### Credits -/

theorem getCore_setCore_same {s : State} (hwf : twf Core.fresh s.cores = true) (g : Nat) (c : Core) :
    getCore (setCore s g c) g = c :=
  tget_tset_same g c hwf

section
variable {s : State} {g : Nat} {r : MemReq} (hr : oldest s (.credit g) = some r)
include hr

/-- A remote write that the receiver's credit does not cover waits (R345). -/
theorem execCreditGrant_of_short (hshort : (getCore s g).credits < lines32 r.addr r.len) : execCreditGrant g s = .next s := by
  simp only [execCreditGrant, hr, if_pos hshort]

variable (hcovered : lines32 r.addr r.len ≤ (getCore s g).credits)
include hcovered

/-- The credit of a landing region goes to the encode request that asked for it (R205). -/
theorem execCreditGrant_of_land {fe id h : Nat} (horigin : r.origin = .land fe id h) :
    execCreditGrant g s = .next
      (grantLanding (popReq (modCore s g fun c => { c with credits := c.credits - lines32 r.addr r.len }) r.id) fe id g) := by
  simp only [execCreditGrant, hr, if_neg (Nat.not_lt.2 hcovered), horigin]

/-- Any other write joins the queue of the stream port at once, since no context waits for its credit (R345, R346). -/
theorem execCreditGrant_of_queued {u : State} (hstore : ∀ h id, r.origin ≠ .store h id) (hland : ∀ fe id h, r.origin ≠ .land fe id h)
    (hu : u = modCore s g fun c => { c with credits := c.credits - lines32 r.addr r.len }) :
    execCreditGrant g s = .next { u with memq := (u.memq.filter fun x => x.id != r.id) ++
      [{ r with port := .stream g 0, linesLeft := portLines (.stream g 0) r.addr r.len }] } := by
  -- the branches of `.land` and `.store` are closed by `hland` and `hstore`, which simp finds in the context
  simp only [execCreditGrant, hr, if_neg (Nat.not_lt.2 hcovered), ← hu]

end

/-- Settles O36: one rule per outcome of each row. -/
theorem memoryCommandsComplete : Obligations.MemoryCommandsComplete := by
  refine ⟨⟨fun ctl err s hnone => execDeviceMemoryResponse_of_idle hnone, fun ctl err r s hr hheld hw hok => ?written,
      fun ctl r s hr hheld hw hgddr => ?lost, fun ctl err r s u hr hheld hread hu => ?read,
      fun r bs s hlast hbase htotal hgot hread => partDone_of_single_read hlast hbase htotal hgot hread,
      fun ctl r s hr hread => ?readLate, fun ctl r s hr hw => ?writeLate⟩,
    fun t n err s hz => execTileBankService_of_zeroing hz err,
    fun t n cls s hup ht hcls hwhole => execTileBankService_of_class hup ht hcls hwhole,
    fun g n err s hph => execStreamPortService_of_phase hph, fun g n err s hz => execStreamPortService_of_zeroing hz,
    fun g n err s u hph hg hup hu hcls => execStreamPortService_of_class hph hg hup hu hcls rfl rfl,
    fun g n err s u hph hg hup hu hcls => execStreamPortService_of_class hph hg hup hu hcls rfl rfl,
    fun g n cls err s u hph hg hup hu hcls hturn => ?turn,
    fun g r s hr hshort => execCreditGrant_of_short hr hshort,
    fun g fe id h r s hr hcovered horigin => execCreditGrant_of_land hr hcovered horigin,
    fun g r s hr hcovered hwf hstore hland => ?queued⟩
  case written => exact (execDeviceMemoryResponse_of_oldest hr hheld err).trans (congrArg _ (dramServe_of_write hw hok))
  case lost => exact (execDeviceMemoryResponse_of_oldest hr hheld .linkCrc).trans (congrArg _ (dramServe_of_lost_write hw hgddr))
  case read => exact (execDeviceMemoryResponse_of_oldest hr hheld err).trans (congrArg _ (dramServe_of_read hread hu))
  case readLate =>
    exact (execMemoryRequestTimeout_of_oldest hr rfl).trans (congrArg _ (if_neg (ne_true_of_eq_false hread)))
  case writeLate => exact (execMemoryRequestTimeout_of_oldest hr rfl).trans (congrArg _ (if_pos hw))
  case turn =>
    have hlow : cls < 3 := by omega
    refine execStreamPortService_of_class hph hg hup hu hcls rfl ?_
    rw [if_pos hturn, if_pos hlow]
  case queued =>
    refine ⟨_, execCreditGrant_of_queued hr hcovered hstore hland rfl, ?_, rfl⟩
    exact congrArg Core.credits (getCore_setCore_same hwf g _)

/-! ### The rows of a core that runs -/

section
variable {s u : State} {g n : Nat}

/-- A cycle that is closed takes no issue any more. -/
theorem bundleIssueAt_of_passed (hpassed : n < (getCore s g).cyc) : bundleIssueAt g n s = s := by
  have hno : ¬((coreRuns s g && decide ((getCore s g).cyc ≤ n)) = true) := by simp [hpassed]
  exact if_neg hno

variable (hruns : coreRuns s g = true) (hcyc : (getCore s g).cyc ≤ n) (hu : u = trackWaits (settle (settleArrivals s g n) g n) g)
include hruns hcyc hu

theorem bundleIssueAt_of_runs : bundleIssueAt g n s = closeCycle (issueCycle u g n) g n := by
  simp only [bundleIssueAt, hruns, hcyc, hu, decide_true, Bool.and_self, if_true]

/-- A context whose wait has failed for longer than the limit faults (R173). -/
theorem waitTimeoutAt_of_expired {k sn t0 : Nat} {sec : Sector} (hsec : coreSector u g = some (sn, sec))
    (hsince : (getCtx (getCore u g) k).waitSince = some t0) (hlim : 0 < waitLimit u sec)
    (hlong : waitLimit u sec < u.ftime.toNat - t0) (hctx : (getCtx (getCore u g) k).run = .running) :
    waitTimeoutAt g k n s = faultCtx u g k (getCtx (getCore u g) k).pc [fWaitTimeout] 0 := by
  subst hu
  simp only [waitTimeoutAt, hruns, hcyc, decide_true, Bool.and_self, if_true, hsec, hsince, hlim, hlong, hctx, and_self]

end

/-! ### The rows of a core between issues -/

/-- A channel that one core takes part in completes in that core (R148, R149). -/
theorem barrierAt_of_single {s : State} {sn ch n g : Nat} {x : Sector} {e : ImgChan} (hx : getSector s sn = some x)
    (he : chanEntry x ch = some e) (hmembers : (x.lcores.drop e.first).take (e.last + 1 - e.first) = [g])
    (hat : coreAt s g n = true) :
    barrierAt sn ch n s =
      closeCycle (performSigs (settle (settleArrivals s g n) g n) g n fun p => p.kind == 9 && p.sel == ch) g n := by
  simp only [barrierAt, hx, he, hmembers, List.foldl_cons, List.foldl_nil, hat, if_true]

/-- Without an error in what it reads, the service of local loads finds the core as it stands (R135). -/
theorem execCoreStoreLoadService_of_no_error (g n : Nat) (s : State) :
    execCoreStoreLoadService g n .none s = .next (loadServiceAt g n s) := rfl

/-- Settles O38: each row acts in a cycle that has not passed, and leaves the state in one that has. -/
theorem coreCommandsComplete : Obligations.CoreCommandsComplete := by
  refine ⟨⟨fun g n s u hruns hcyc hu => ?issues, fun g n s _ hpassed => ?passed,
      fun g k n sn sec t0 s u hruns hcyc hu hsec hsince hlim hlong hctx => ?expired, fun g n s hat => ?array,
      fun g n s hat => ?assist, fun g n s hat => ?element, fun sn ch n g x e s hx he hmembers hat => ?barrier⟩,
    fun g n s hat => ⟨?load, ?store, ?segment, ?signal⟩, fun g k n s hat => ?data,
    fun g k n s hnot => ⟨?loadPassed, ?storePassed, ?segmentPassed, ?signalPassed, ?dataPassed⟩⟩
  case issues => exact congrArg Host.Outcome.next (bundleIssueAt_of_runs hruns hcyc hu)
  case passed => exact congrArg Host.Outcome.next (bundleIssueAt_of_passed hpassed)
  case expired =>
    exact congrArg Host.Outcome.next (waitTimeoutAt_of_expired hruns hcyc hu hsec hsince hlim hlong hctx)
  case barrier => exact congrArg Host.Outcome.next (barrierAt_of_single hx he hmembers hat)
  case load => exact (execCoreStoreLoadService_of_no_error g n s).trans (congrArg _ (if_pos hat))
  case array | assist | element | store | segment | signal | data => exact congrArg Host.Outcome.next (if_pos hat)
  case loadPassed =>
    exact (execCoreStoreLoadService_of_no_error g n s).trans (congrArg _ (if_neg (ne_true_of_eq_false hnot)))
  case storePassed | segmentPassed | signalPassed | dataPassed =>
    exact congrArg Host.Outcome.next (if_neg (ne_true_of_eq_false hnot))

end Sys2Proof.Machine

/-! The encoder and the Key Stream Engines (chapters 05 and 08): what a command leaves of the work in flight, and the rows that
start and finish encode requests and key passes, first as one rule for each outcome of a row, then the statements. -/

namespace Sys2Proof.Machine

/-- Settles O9: `exec_within` bounds what a command changes by its parts. -/
theorem frameOfWorkInFlight : Obligations.FrameOfWorkInFlight := by
  intro c s t h
  have hwithin := exec_within h
  refine ⟨fun hp => ?memq, fun hp => hwithin.encQ (partsMask_testBit hp), fun hp => ?passes, fun hp => ?xfers,
    fun hp => hwithin.zeroing (partsMask_testBit hp), fun hp => hwithin.alloc (partsMask_testBit hp),
    fun hp => hwithin.outputs (partsMask_testBit hp)⟩
  case memq =>
    obtain ⟨hmemq, -, hmoves, -, hbank, hdram, hbuf⟩ := hwithin.memq (partsMask_testBit hp)
    exact ⟨hmemq, hmoves, hbuf, hbank, hdram⟩
  case passes => exact (hwithin.passes (partsMask_testBit hp)).1
  case xfers =>
    obtain ⟨hxfers, -, hbatches⟩ := hwithin.xfers (partsMask_testBit hp)
    exact ⟨hxfers, hbatches⟩

/-! ### Encode requests -/

section
variable {s : State} {fe : Nat} {r : EncReq}

/-- A granted request that no request of its sector precedes, nor any granted one, is the first that may start. -/
theorem find?_startable {l m : List EncReq} (hbefore : ∀ q ∈ l, q.sector ≠ r.sector ∧ encGranted s q = false)
    (hgranted : encGranted s r = true) :
    ((l ++ r :: m).find? fun q => ((l ++ r :: m).find? fun x => x.sector == q.sector) == some q && encGranted s q) = some r := by
  have hfirst : ((l ++ r :: m).find? fun x => x.sector == r.sector) = some r :=
    List.find?_eq_some_iff_append.2 ⟨beq_self_eq_true _, l, m, rfl, fun q hq => by simp [(hbefore q hq).1]⟩
  exact List.find?_eq_some_iff_append.2
    ⟨by simp [hfirst, hgranted], l, m, rfl, fun q hq => by simp [(hbefore q hq).2]⟩

theorem execEncodeRequestStart_of_startable {l m : List EncReq} (hup : ioStopped s fe = false)
    (hqueue : ((tget [] s.encQ fe).filter fun q => !q.started) = l ++ r :: m)
    (hbefore : ∀ q ∈ l, q.sector ≠ r.sector ∧ encGranted s q = false) (hgranted : encGranted s r = true) {u : State}
    (hu : u = emitEncode s fe r) :
    execEncodeRequestStart fe s = .next (queueAllEncodes { u with encQ := (tset [] u.encQ fe
      ((tget [] u.encQ fe).map fun x => if x = r then { x with started := true } else x)) }) := by
  simp only [execEncodeRequestStart, hqueue, hup, Bool.false_eq_true, if_false, find?_startable hbefore hgranted, ← hu]

/-- A stopped I/O die starts no request. -/
theorem execEncodeRequestStart_of_stopped (hstop : ioStopped s fe = true) : execEncodeRequestStart fe s = .next s := by
  simp only [execEncodeRequestStart, hstop, if_true]

/-- Without its cores' credit no request starts (R205). -/
theorem execEncodeRequestStart_of_no_credit (hwait : ∀ r ∈ tget [] s.encQ fe, r.started = false → encGranted s r = false) :
    execEncodeRequestStart fe s = .next s := by
  have hnone (p : EncReq → Bool) :
      (((tget [] s.encQ fe).filter fun q => !q.started).find? fun q => p q && encGranted s q) = none := by
    refine List.find?_eq_none.2 fun q hq => ?_
    obtain ⟨hmem, hstarted⟩ := List.mem_filter.1 hq
    simp [hwait q hmem (by simpa using hstarted)]
  simp only [execEncodeRequestStart, hnone, ite_self]

theorem any_ofEncode_eq_false (hdone : ∀ q ∈ s.memq, ofEncode r.id q = false) : s.memq.any (ofEncode r.id) = false :=
  List.any_eq_false.2 fun q hq => ne_true_of_eq_false (hdone q hq)

section
variable (hr : (tget [] s.encQ fe).find? (·.started) = some r)
include hr

/-- A request with a coefficient still on its way is not done (R204). -/
theorem execEncodeRequestDone_of_landing (hland : ∃ q ∈ s.memq, ofEncode r.id q = true) : execEncodeRequestDone fe s = .next s := by
  simp only [execEncodeRequestDone, hr, List.any_eq_true.2 hland, if_true]

variable (hdone : ∀ q ∈ s.memq, ofEncode r.id q = false)
include hdone

theorem execEncodeRequestDone_of_dropped (hdrop : r.dropped = true) :
    execEncodeRequestDone fe s = .next { s with encQ := tset [] s.encQ fe ((tget [] s.encQ fe).erase r) } := by
  simp only [execEncodeRequestDone, hr, any_ofEncode_eq_false hdone, hdrop, Bool.false_eq_true, if_false, if_true]

/-- A request that is done is counted and noted in its job, whose stager releases the groups that are done with it (R208, R229). -/
theorem execEncodeRequestDone_of_landed {j : Job} {u : State} (hkept : r.dropped = false)
    (hu : u = modJob (bump { s with encQ := tset [] s.encQ fe ((tget [] s.encQ fe).erase r) } (fnBase r.fn + 0x210C)) r.job
      (fun j => { j with encoded := r.opIndex :: j.encoded, stats := { j.stats with steadyEnd := some s.ftime.toNat } }))
    (hj : getJob u r.job = some j) : execEncodeRequestDone fe s = .next (releaseStager u j) := by
  simp only [execEncodeRequestDone, hr, any_ofEncode_eq_false hdone, hkept, Bool.false_eq_true, if_false, ← hu, hj]

end
end

/-! ### Passes become active -/

section
variable {s : State} {iod : Nat} {p : Pass} {l : List Pass}
  (hheads : ∀ d ∈ [0, 1], passOnDie s p d = true → (activePasses s d).length < 16 ∧ ∃ l, queuedPasses s d = p :: l)
include hheads

/-- A pass at the head of each of its fetch units' queues, where they have room for it, is one that may become active (R287). -/
theorem room_of_heads : (([0, 1] : List Nat).all fun d => !passOnDie s p d ||
    (decide ((activePasses s d).length < 16) && ((queuedPasses s d).head?.map (·.id)) == some p.id)) = true := by
  refine List.all_eq_true.2 fun d hd => ?_
  by_cases hon : passOnDie s p d = true
  · obtain ⟨hroom, l, hqueue⟩ := hheads d hd hon
    simp [hroom, hqueue]
  · simp [hon]

variable (hqueue : queuedPasses s iod = p :: l) (hiod : iod < 2) (hup : ioStopped s iod = false)
include hqueue hiod hup

/-- A pass of a key that is not compressed needs no expander; without an address its entry has no poison (R286, R296). -/
theorem execKeyPassActivate_of_uncompressed (hplain : (passEnt s p).compressed = false)
    (haddr : keyAddr (keyParam s p.fn p.key) (getKeys s p.fn p.key) (0x80 + 64 * p.entry) = none) :
    execKeyPassActivate iod s = .next (requestNext ((List.range nDies).foldl updateHub
      (modPass s p.id fun x => { x with active := true, dead := false, exps := [] }))) := by
  simp only [execKeyPassActivate, hqueue, room_of_heads hheads, hup, Nat.not_le.2 hiod, hplain, haddr, Bool.not_true,
    Bool.false_and, Bool.false_eq_true, or_self, if_false]

/-- A pass whose words no expander can give fails (R286). -/
theorem execKeyPassActivate_of_no_expander (hcomp : (passEnt s p).compressed = true)
    (hnone : ∀ d, d < nDies → expanderFree s d = false) : execKeyPassActivate iod s = .next (requestNext (failPass s p)) := by
  have hfree : (List.range nDies).filter (expanderFree s) = [] :=
    List.filter_eq_nil_iff.2 fun d hd => ne_true_of_eq_false (hnone d (List.mem_range.1 hd))
  simp only [execKeyPassActivate, hqueue, room_of_heads hheads, hup, Nat.not_le.2 hiod, hcomp, hfree, Bool.not_true,
    Bool.false_eq_true, or_self, if_false, List.isEmpty_nil, Bool.and_self, if_true]

end

/-! ### Bursts and slices -/

theorem execKeyBurst_of_next {s : State} {b : BurstRead} {p : Pass} {i r : Nat} (hup : ioStopped s b.iod = false)
    (hpass : nextPass s b.iod = some p) (hburst : nextBurst s p b.iod = some (i, r)) :
    execKeyBurst b s = .next (serveBurst s p b.iod i r b.err) := by
  simp only [execKeyBurst, hup, hpass, hburst, Bool.false_eq_true, if_false]

/-- A burst without poison counts its bytes, and the last of a slice sends it (R284, R287). -/
theorem serveBurst_of_clean {s u v w : State} {p : Pass} {iod i r a n : Nat} {err : MemErr}
    (hplace : burstPlace s p i r = (some a, n)) (hu : u = memErr (engineAccess s a n) a n err false)
    (hclean : anyPoison u a n = false)
    (hv : v = modPass u p.id fun x => { x with bursts := tset 0 x.bursts iod (tget 0 x.bursts iod + 1) })
    (hw : w = regSetPair { v with kseTurn := tset 0 v.kseTurn iod (p.id + 1) } (fnBase p.fn + 0x2318)
      ((regPair v (fnBase p.fn + 0x2318) + n) % 2 ^ 64)) :
    serveBurst s p iod i r err =
      if r + 1 = ceilDiv (sliceBytes w p i) 2048 ∧ passRaw w p = false then sendSlice w p i else w := by
  have hpair : regPair { v with kseTurn := tset 0 v.kseTurn iod (p.id + 1) } (fnBase p.fn + 0x2318) =
      regPair v (fnBase p.fn + 0x2318) := rfl
  simp only [serveBurst, hplace, ← hu, hclean, Bool.false_eq_true, if_false, ← hv, hpair, ← hw]

/-- A slice that has landed with every earlier one of the job counts once (R285), and is given back at once by a built-in
program (log entry 27). -/
theorem execKeySliceLanded_of_next {s u : State} {p mem g : Nat} {x : Pass} (hx : getPass s p = some x) (hkept : x.dropped = false)
    (hearlier : ∀ y ∈ s.passes, y.job = x.job → y.groups ≠ 0 → y.first < x.first → y.slices ≤ tget 0 y.counted mem)
    (hlanded : (mem, x.first + tget 0 x.counted mem) ∈ x.landed)
    (hu : u = modPass s p fun y => { y with
      landed := y.landed.erase (mem, y.first + tget 0 x.counted mem), counted := tset 0 y.counted mem (tget 0 x.counted mem + 1) })
    (hg : memberCore u x mem = some g) :
    execKeySliceLanded p mem s = .next (if x.builtin then engineInc (engineInc u g 2) g 3 else engineInc u g 2) := by
  have hnone : (s.passes.any fun y => y.job == x.job && y.groups != 0 && decide (y.first < x.first) &&
      decide (tget 0 y.counted mem < y.slices)) = false := by
    refine List.any_eq_false.2 fun y hy hopen => ?_
    simp only [Bool.and_eq_true, beq_iff_eq, bne_iff_ne, decide_eq_true_eq] at hopen
    obtain ⟨⟨⟨hjob, hgroups⟩, hfirst⟩, hshort⟩ := hopen
    exact Nat.not_lt.2 (hearlier y hy hjob hgroups hfirst) hshort
  simp only [execKeySliceLanded, hx, hkept, hnone, List.contains_iff_mem.2 hlanded, Bool.not_true, Bool.false_eq_true, or_self,
    if_false, ← hu, hg]

/-- A pass that has been read, and whose members all have every slice, leaves (R284, R299). -/
theorem execKeyPassEnd_of_complete {s : State} {p : Nat} {x : Pass} (hx : getPass s p = some x) (hkept : x.dropped = false)
    (hactive : x.active = true) (hread : passRead s x = true) (hown : x.builtin = false)
    (hall : ∀ m ∈ passMembers x, memberCore s x m = none ∨ tget 0 x.counted m = x.slices) :
    execKeyPassEnd p s = .next (advanceAll (requestNext ((List.range nDies).foldl updateHub
      (modJob (bump { s with passes := s.passes.filter fun y => y.id != p } (fnBase x.fn + 0x2310)) x.job
        fun j => { j with stats := { j.stats with passes := j.stats.passes + 1 } })))) := by
  have hcounted : ((passMembers x).all fun m => (memberCore s x m).isNone || tget 0 x.counted m == x.slices) = true :=
    List.all_eq_true.2 fun m hm => by simpa using hall m hm
  simp only [execKeyPassEnd, hx, hkept, hactive, hread, hcounted, hown, Bool.not_true, Bool.or_self, Bool.false_eq_true, if_false]

/-- Settles O53: one rule per outcome of each row. -/
theorem encoderAndKeyPassesComplete : Obligations.EncoderAndKeyPassesComplete := by
  refine ⟨fun fe r l m s u hup hqueue hbefore hgranted hu => execEncodeRequestStart_of_startable hup hqueue hbefore hgranted hu,
    fun fe s hstop => execEncodeRequestStart_of_stopped hstop,
    fun fe s hwait => execEncodeRequestStart_of_no_credit hwait,
    fun fe r s hr hland => execEncodeRequestDone_of_landing hr hland,
    fun fe r s hr hdone hdrop => execEncodeRequestDone_of_dropped hr hdone hdrop,
    fun fe r j s u hr hdone hkept hu hj => execEncodeRequestDone_of_landed hr hdone hkept hu hj,
    fun iod p l s hqueue hiod hup hheads hplain haddr =>
      execKeyPassActivate_of_uncompressed hheads hqueue hiod hup hplain haddr,
    fun iod p l s hqueue hiod hup hheads hcomp hnone =>
      execKeyPassActivate_of_no_expander hheads hqueue hiod hup hcomp hnone,
    fun b p i r a n s u v w hup hpass hburst hplace hu hclean hv hw =>
      (execKeyBurst_of_next hup hpass hburst).trans (congrArg _ (serveBurst_of_clean hplace hu hclean hv hw)),
    fun p mem g x s u hx hkept hearlier hlanded hu hg => ⟨fun hown => ?own, fun hbuiltin => ?builtin⟩,
    fun p x s hx hkept hactive hread hown hall => execKeyPassEnd_of_complete hx hkept hactive hread hown hall⟩
  case own =>
    exact (execKeySliceLanded_of_next hx hkept hearlier hlanded hu hg).trans (congrArg _ (if_neg (ne_true_of_eq_false hown)))
  case builtin =>
    exact (execKeySliceLanded_of_next hx hkept hearlier hlanded hu hg).trans (congrArg _ (if_pos hbuiltin))

end Sys2Proof.Machine

/-! Function resets (chapters 06 and 12) and the end of a tile's zeroing: what each stage of a reset leaves of the function's record and
of its registers, then the statement. -/

namespace Sys2Proof.Machine

/-! ### Tables with entries taken out or changed -/

/-- A key whose entries a filter takes out reads as the default. -/
theorem tget_filter_of_dropped {α : Type} {d : α} {p : Nat × α → Bool} {k : Nat} (hp : ∀ v, p (k, v) = false) (t : Tbl α) :
    tget d (t.filter p) k = d := by
  induction t with
  | nil => rfl
  | cons q t ih =>
    obtain ⟨j, v⟩ := q
    rw [List.filter_cons]
    split
    · rename_i hkeep
      have hj : j ≠ k := fun hjk => by simp [hjk, hp] at hkeep
      simp only [tget, if_neg hj, ih]
    · exact ih

/-- A change of every value that leaves the default acts on what a key reads as. -/
theorem tget_tmap {α : Type} [DecidableEq α] {d : α} {g : α → α} (hg : g d = d) {t : Tbl α} (ht : twf d t = true) (k : Nat) :
    tget d (tmap d g t) k = g (tget d t k) := by
  induction t with
  | nil => exact hg.symm
  | cons q t ih =>
    obtain ⟨j, v⟩ := q
    simp only [twf, Bool.and_eq_true] at ht
    obtain ⟨⟨-, habove⟩, htail⟩ := ht
    have hcons : tmap d g ((j, v) :: t) = if g v = d then tmap d g t else (j, g v) :: tmap d g t := by
      simp [tmap, List.filter_cons]
    rw [hcons]
    by_cases hj : j = k
    · subst hj
      split
      · rename_i hv
        rw [ih htail, tget_of_keysAbove d habove (Nat.le_refl j), hg]
        simp only [tget, if_true, hv]
      · simp only [tget, if_true]
    · split <;> simp only [tget, if_neg hj, ih htail]

/-! ### The record of a function -/

section
variable {s : State}

theorem getFn_setFn_same (hi : s.Inv) (f : Nat) (x : Fn) : getFn (setFn s f x) f = x := tget_tset_same f x hi.fns

theorem getFn_modFn_same (hi : s.Inv) (f : Nat) (g : Fn → Fn) : getFn (modFn s f g) f = g (getFn s f) :=
  getFn_setFn_same hi f _

theorem inv_modFn (hi : s.Inv) (f : Nat) (g : Fn → Fn) : (modFn s f g).Inv := { hi with fns := twf_tset f _ hi.fns }

/-! ### The end of a function reset -/

theorem inv_resetFnRegs (hi : s.Inv) (f : Nat) (pcie : Bool) : (resetFnRegs s f pcie).Inv :=
  (resetFnRegs_within (Within.refl 1 s) (sub_of rfl)).inv hi

/-- A register of the function that is not kept is back at its reset value (R416, step 4). -/
theorem regGet_resetFnRegs {f o : Nat} {pcie : Bool} (hin : inFnSpace f o = true) (hkept : keptInReset f pcie o = false)
    (hctrl : o ≠ fnBase f) : regGet (resetFnRegs s f pcie) o = regReset o := by
  rw [resetFnRegs, regSetFld, regGet_regSet_ne _ hctrl]
  exact tget_filter_of_dropped (fun v => by simp [hin, hkept]) s.regs

/-- What resetPfKept does to the functions: each loses its signer slots. -/
theorem resetPfKept_fns (s : State) : (resetPfKept s).fns = tmap Fn.fresh (fun x => { x with signers := [] }) s.fns := by
  unfold resetPfKept
  refine congrArg (tmap Fn.fresh fun x : Fn => { x with signers := [] }) ((Within.foldl (Within.refl 1 s) fun t f h => ?_).fns rfl)
  exact regSet_within (regSet_within (regSetFld_within h (sub_of rfl)) (sub_of rfl)) (sub_of rfl)

theorem getFn_resetPfKept (hi : s.Inv) (f : Nat) : getFn (resetPfKept s) f = { getFn s f with signers := [] } := by
  rw [getFn, resetPfKept_fns]
  exact tget_tmap rfl hi.fns f

/-- A reset leaves the function fresh, but for the generations of its buffers (R365) and, outside a reset of the PF, its signer
slots (R564). -/
theorem getFn_finishFnReset (hi : s.Inv) (f : Nat) :
    getFn (finishFnReset s f) f =
      { Fn.fresh with signers := if f = 0 then [] else (getFn s f).signers, bufs := (getFn s f).bufs } := by
  have hregs (pcie : Bool) := inv_resetFnRegs hi f pcie
  unfold finishFnReset
  by_cases hf : f = 0
  · simp only [if_pos hf, getFn_resetPfKept (inv_modFn (hregs _) f _), getFn_modFn_same (hregs _)]
    rfl
  · simp only [if_neg hf, getFn_modFn_same (hregs _)]
    rfl

/-- In the register space of a VF a reset keeps HIF_FN_CTRL, HIF_FN_LAST_RESET, MEM_FN_QUOTA and at most the MSI-X table. -/
theorem regGet_finishFnReset {f o : Nat} (hf : f ≠ 0) (hlo : 4 ≤ o) (hhi : o < 0x30000) (hlast : o ≠ 0x2C) (hquota : o ≠ 0x2500) :
    regGet (finishFnReset s f) (fnBase f + o) = regReset (fnBase f + o) := by
  have hin : inFnSpace f (fnBase f + o) = true := by simp only [inFnSpace, Bool.and_eq_true, decide_eq_true_eq]; omega
  have hkept (pcie : Bool) : keptInReset f pcie (fnBase f + o) = false := by
    have hmsix : ¬ 0x30000 ≤ o := by omega
    simp [keptInReset, hlast, hquota, hmsix]
  unfold finishFnReset
  rw [if_neg hf]
  exact regGet_resetFnRegs hin (hkept _) (by omega)

/-! ### A reset of a function -/

theorem resetFn_absorbed {f : Nat} (h : 64 ≤ f ∨ (getFn s f).resetting = true ∨ s.start.phase ≠ 8) (cause : Nat) :
    resetFn s f cause = s := if_pos h

/-- Where a reset of function f stands once its descriptors have stopped, its objects are released and HIF_FN_LAST_RESET holds
its cause (R416, steps 1 to 3). -/
def fnReleased (s : State) (f cause : Nat) : State :=
  regSet (releaseFn (stopAll (modFn s f fun x => { x with resetting := true }) f (cause != 1)) f) (fnBase f + 0x2C)
    (BitVec.ofNat 32 (openDescs s f % 2 ^ 16 * 2 ^ 16 + cause))

theorem inv_fnReleased (hi : s.Inv) (f cause : Nat) : (fnReleased s f cause).Inv :=
  inv_regSet ((releaseFn_within (stopAll_within (Within.refl 3129343 _) (sub_of rfl)) (sub_of rfl)).inv (inv_modFn hi f _)) _ _

/-- A reset of a function without sectors waits for no tile: it ends at once. -/
theorem resetFn_of_no_sector {f : Nat} (hf : f < 64) (hrst : (getFn s f).resetting = false) (hphase : s.start.phase = 8)
    (hsec : sectorsOf s f = []) (cause : Nat) : resetFn s f cause = finishFnReset (fnReleased s f cause) f := by
  have hgo : ¬(64 ≤ f ∨ (getFn s f).resetting = true ∨ s.start.phase ≠ 8) := by simp [hf, hrst, hphase]
  rw [resetFn, if_neg hgo, hsec]
  rfl

/-! ### The rows -/

theorem execHifFnResetGo_of_no_sector {f : Nat} (hf : f < 64) (hrst : (getFn s f).resetting = false) (hphase : s.start.phase = 8)
    (hsec : sectorsOf s f = []) : execHifFnResetGo f s = .next (finishFnReset (fnReleased s f 1) f) :=
  congrArg Host.Outcome.next (resetFn_of_no_sector hf hrst hphase hsec 1)

/-- A function-level reset of a VF resets that function alone. -/
theorem execFunctionLevelReset_vf {f : Nat} (hf : f ≠ 0) : execFunctionLevelReset f s = .next (resetFn s f 2) :=
  congrArg Host.Outcome.next (if_neg hf)

/-- That of the PF clears VF Enable behind its own reset (R415). -/
theorem execFunctionLevelReset_pf : execFunctionLevelReset 0 s = execVfEnableClear (resetFn s 0 2) :=
  congrArg Host.Outcome.next (if_pos rfl)

theorem execVfEnableClear_eq (s : State) :
    execVfEnableClear s = .next ((List.range' 1 63).foldl (fun st k => resetFn st k 3) s) := by
  have hvfs : (List.range 63).map (· + 1) = List.range' 1 63 := by decide
  rw [execVfEnableClear, hvfs]

theorem execSectorZeroingEnd_of_zeroing {t : Nat} (h : t ∈ s.zeroing) :
    execSectorZeroingEnd t s =
      .next (resetsGoOn { clearTile s t with zeroing := (clearTile s t).zeroing.filter (· != t) } t) := by
  have hz : ¬(!s.zeroing.contains t) = true := by simp [h]
  rw [execSectorZeroingEnd, if_neg hz]

end

/-! ### The statement -/

/-- Settles O29: a reset that waits for no tile goes through fnReleased and finishFnReset, which say what is left of the record
and of the registers. -/
theorem functionResetsComplete : Obligations.FunctionResetsComplete := by
  refine ⟨fun f s h => congrArg Host.Outcome.next (resetFn_absorbed h 1), fun f s hf hrst hphase _ hsec hinv => ?complete,
    fun f s hf => execFunctionLevelReset_vf hf, fun s t h => execFunctionLevelReset_pf.trans h, execVfEnableClear_eq,
    fun t s h => ⟨_, execSectorZeroingEnd_of_zeroing h, rfl⟩⟩
  case complete =>
    have hfresh := getFn_finishFnReset (inv_fnReleased hinv f 1) f
    refine ⟨_, execHifFnResetGo_of_no_sector hf hrst hphase hsec, ?_, ?_, ?_, ?_,
      fun hvf o hlo hhi hlast hquota => regGet_finishFnReset hvf hlo hhi hlast hquota⟩
    all_goals rw [hfresh]; rfl

end Sys2Proof.Machine

/-! Device memory, handles and the memory rows of chapter 10, maintenance and Paces, and the state after reset: first the rules of
the operations, then the statements. -/

namespace Sys2Proof.Machine

/-! ### The frame of memory and the state after reset -/

/-- Settles O7: `exec_within` bounds what a command changes by its parts. -/
theorem frameOfMemory : Obligations.FrameOfMemory := by
  intro c s t h hp
  obtain ⟨hmem, hpoison⟩ := (exec_within h).mem (partsMask_testBit hp)
  exact ⟨fun a => by simp only [memByte, hmem], hpoison⟩

theorem inv_reset : State.reset.Inv where
  mem := memory_wf_reset
  poison := twf_nil _
  regs := rfl
  cores := twf_nil _
  fns := twf_nil _
  sectors := twf_nil _
  jobs := twf_nil _
  phase := Nat.zero_le 8

/-- Settles O4: at reset every table is empty, so that each of its keys reads as the default. -/
theorem resetStateIsCanonicalAndEmpty : Obligations.ResetStateIsCanonicalAndEmpty :=
  ⟨inv_reset, rfl, rfl, rfl, rfl, fun _ => rfl, fun _ => rfl⟩

/-! ### Reads after a run is written -/

section
variable {α : Type}

/-- A table that follows another answers for the keys that the first does not list. -/
theorem tget_append (d : α) (t u : Tbl α) (k : Nat) : tget d (t ++ u) k = tget (tget d u k) t k := by
  induction t with
  | nil => rfl
  | cons p t ih => simp only [List.cons_append, tget, ih]

theorem tget_of_absent (d : α) {t : Tbl α} {k : Nat} (h : ∀ p ∈ t, p.1 ≠ k) : tget d t k = d := by
  induction t with
  | nil => rfl
  | cons p t ih =>
    obtain ⟨hp, ht⟩ := List.forall_mem_cons.1 h
    rw [tget, if_neg hp, ih ht]

/-- A key whose entries a filter keeps reads as before. -/
theorem tget_filter_of_kept {d : α} {p : Nat × α → Bool} {k : Nat} (hp : ∀ v, p (k, v) = true) (t : Tbl α) :
    tget d (t.filter p) k = tget d t k := by
  induction t with
  | nil => rfl
  | cons q t ih =>
    obtain ⟨j, v⟩ := q
    rw [List.filter_cons]
    by_cases hj : j = k
    · subst hj
      simp only [hp, if_true, tget]
    · split <;> simp only [tget, if_neg hj, ih]

/-- A key outside a run is not among its entries. -/
theorem tget_numbered_filter_of_outside (d : α) {k j : Nat} {vs : List α} (p : Nat × α → Bool) (h : j < k ∨ k + vs.length ≤ j) :
    tget d ((numbered k vs).filter p) j = d := by
  refine tget_of_absent d fun q hq => ?_
  obtain ⟨hlo, hhi⟩ := mem_numbered (List.mem_filter.1 hq).1
  omega

variable [DecidableEq α]

/-- A run of values reads the same with its defaults left out. -/
theorem tget_numbered_filter (d : α) (k i : Nat) (vs : List α) :
    tget d ((numbered k vs).filter fun p => decide (p.2 ≠ d)) (k + i) = vs.getD i d := by
  induction vs generalizing k i with
  | nil => rfl
  | cons v vs ih =>
    rw [numbered, List.filter_cons]
    cases i with
    | zero =>
      split
      · simp [tget]
      · rename_i hv
        have hvd : v = d := by simpa using hv
        have htail := keysAbove_filter (fun p => decide (p.2 ≠ d)) (keysAbove_numbered vs (Nat.lt_add_one k))
        exact (tget_of_keysAbove d htail (Nat.le_refl k)).trans hvd.symm
    | succ i =>
      have hne : k ≠ k + (i + 1) := by omega
      have hnext : tget d ((numbered (k + 1) vs).filter fun p => decide (p.2 ≠ d)) (k + (i + 1)) = vs.getD i d := by
        rw [← ih (k + 1) i, Nat.add_assoc, Nat.add_comm 1 i]
      rw [List.getD_cons_succ]
      split
      · rw [tget, if_neg hne, hnext]
      · exact hnext

/-- A key of the run reads the value written under it. -/
theorem tget_tsetRun_of_lt {d : α} {i : Nat} {vs : List α} (t : Tbl α) (k : Nat) (h : i < vs.length) :
    tget d (tsetRun d t k vs) (k + i) = vs.getD i d := by
  have hlow (e : α) : tget e (t.filter fun p => decide (p.1 < k)) (k + i) = e :=
    tget_filter_of_dropped (fun _ => decide_eq_false (by omega)) t
  have hhigh : tget d (t.filter fun p => decide (k + vs.length ≤ p.1)) (k + i) = d :=
    tget_filter_of_dropped (fun _ => decide_eq_false (by omega)) t
  rw [tsetRun, tget_append, tget_append, hlow, hhigh, tget_numbered_filter]

/-- A key outside the run reads as before. -/
theorem tget_tsetRun_of_outside {d : α} {k j : Nat} {vs : List α} (t : Tbl α) (h : j < k ∨ k + vs.length ≤ j) :
    tget d (tsetRun d t k vs) j = tget d t j := by
  rw [tsetRun, tget_append, tget_append, tget_numbered_filter_of_outside _ _ h]
  obtain hbelow | habove := h
  · have hhigh : tget d (t.filter fun p => decide (k + vs.length ≤ p.1)) j = d :=
      tget_filter_of_dropped (fun _ => decide_eq_false (by omega)) t
    rw [hhigh, tget_filter_of_kept fun _ => decide_eq_true hbelow]
  · have hhigh : tget d (t.filter fun p => decide (k + vs.length ≤ p.1)) j = tget d t j :=
      tget_filter_of_kept (fun _ => decide_eq_true habove) t
    rw [hhigh, tget_filter_of_dropped fun _ => decide_eq_false (by omega)]

end

/-- Settles O57: memory is a table that `setBytes` writes a run into. -/
theorem memoryReadsBackWhatIsWritten : Obligations.MemoryReadsBackWhatIsWritten := fun s a bs hinv =>
  ⟨fun _ hi => tget_tsetRun_of_lt s.mem a hi, fun _ hx => tget_tsetRun_of_outside s.mem hx, memory_wf_setBytes a bs hinv.mem⟩

/-! ### Handles (R359, R361) -/

section
variable {f gen i : Nat}

theorem hFn_handleOf (hf : f < 64) (hgen : gen < 2 ^ 10) (hi : i < 2 ^ 16) : hFn (handleOf f gen i) = f := by
  simp only [hFn, bits, handleOf, Nat.shiftRight_eq_div_pow]
  omega

theorem hIdx_handleOf (hi : i < 2 ^ 16) : hIdx (handleOf f gen i) = i := by
  simp only [hIdx, bits, handleOf, Nat.shiftRight_eq_div_pow]
  omega

end

section
variable {s : State} {f h : Nat} {b : Buf}

theorem resolve_of_other (hf : hFn h ≠ f) : resolve s f h = (stNotOwner, Buf.free) := if_pos hf

theorem resolve_of_dead (hf : hFn h = f) (hdead : (getBuf s f (hIdx h)).live = false) : resolve s f h = (stStale, Buf.free) := by
  subst hf
  simp only [resolve, ne_eq, not_true_eq_false, if_false, hdead, Bool.not_false, Bool.true_or, if_true]

/-- A handle that resolves gives the buffer at its index. -/
theorem eq_getBuf_of_resolve (hres : resolve s f h = (0, b)) : b = getBuf s f (hIdx h) := by
  unfold resolve at hres
  dsimp only at hres
  split at hres
  · exact absurd (congrArg Prod.fst hres) (show stNotOwner ≠ 0 by decide)
  · rename_i hf
    split at hres
    · exact absurd (congrArg Prod.fst hres) (show stStale ≠ 0 by decide)
    · rw [← Classical.not_not.1 hf]
      exact (congrArg Prod.snd hres).symm

/-- What a freed buffer leaves at its index: no memory, and the next generation (R361). -/
def freedBuf (b : Buf) : Buf := ⟨if b.gen = 1023 then 1 else b.gen + 1, false, 0, 0⟩

theorem memRegs_fns (s : State) (f : Nat) : (memRegs s f).fns = s.fns := by
  rw [memRegs, regSet_fns, regSet_fns]

/-- Of the functions' records, freeing a buffer changes the owner's, at the handle's index only. -/
theorem freeBuf_fns (s : State) (h : Nat) : (freeBuf s h).fns = (modFn s (hFn h) fun x =>
    { x with bufs := tset Buf.free x.bufs (hIdx h) (freedBuf (getBuf s (hFn h) (hIdx h))) }).fns := by
  rw [freeBuf, memRegs_fns, dropPools]
  split <;> rfl

theorem getBuf_freeBuf (hi : s.Inv) (hbufs : twf Buf.free (getFn s (hFn h)).bufs = true) :
    getBuf (freeBuf s h) (hFn h) (hIdx h) = freedBuf (getBuf s (hFn h) (hIdx h)) := by
  rw [getBuf, getFn, freeBuf_fns, ← getFn, getFn_modFn_same hi]
  exact tget_tset_same _ _ hbufs

end

/-- Settles O58: the freed index is no longer live, and a handle of another function is refused before its index is looked at. -/
theorem freedHandlesAreStale : Obligations.FreedHandlesAreStale := by
  intro s f i gen b hf hi hgen hinv hbufs hres
  have hfn : hFn (handleOf f gen i) = f := hFn_handleOf hf hgen hi
  have hidx : hIdx (handleOf f gen i) = i := hIdx_handleOf hi
  have hb := eq_getBuf_of_resolve hres
  have hfreed := getBuf_freeBuf (h := handleOf f gen i) hinv (hfn.symm ▸ hbufs)
  rw [hfn, hidx] at hfreed
  rw [hidx] at hb
  have hdead : (getBuf (freeBuf s (handleOf f gen i)) f i).live = false := congrArg Buf.live hfreed
  refine ⟨_, rfl, hdead, ?gen, ?stale, fun g hg => ?other⟩
  case gen => rw [hfreed, hb, freedBuf]
  case stale => exact congrArg Prod.fst (resolve_of_dead hfn (hidx.symm ▸ hdead))
  case other => exact congrArg Prod.fst (resolve_of_other (hfn.symm ▸ hg.symm))

/-! ### FENCE, ALLOC and FREE -/

section
variable {s u : State} {f r i h : Nat} {d e : Desc}

theorem execFence_of_clear (hd : rowDesc s f r i 6 = some d)
    (hclear : ∀ e ∈ (getFn s f).descs, e.order < d.order → bit (ow d.bytes 8) 0 = false ∧ e.ring ≠ r) :
    execFence f r i s = .next (completeDesc s f r i 0) := by
  have hnone : ¬((getFn s f).descs.any fun e => decide (e.order < d.order) && (bit (ow d.bytes 8) 0 || e.ring == r)) = true := by
    simp only [List.any_eq_true, Bool.and_eq_true, Bool.or_eq_true, decide_eq_true_eq, beq_iff_eq, not_exists, not_and]
    intro e he hlt hscope
    obtain ⟨hall, hring⟩ := hclear e he hlt
    exact hscope.elim (fun hbit => Bool.false_ne_true (hall.symm.trans hbit)) hring
  simp only [execFence, hd, if_neg hnone]

/-- A fence waits for every earlier descriptor in its scope: its own ring, or all rings of the function (R406). -/
theorem execFence_of_open (hd : rowDesc s f r i 6 = some d) (he : e ∈ (getFn s f).descs) (hlt : e.order < d.order)
    (hscope : bit (ow d.bytes 8) 0 = true ∨ e.ring = r) : execFence f r i s = .next s := by
  have hany : ((getFn s f).descs.any fun e => decide (e.order < d.order) && (bit (ow d.bytes 8) 0 || e.ring == r)) = true :=
    List.any_eq_true.2 ⟨e, he, by simpa [hlt] using hscope⟩
  simp only [execFence, hd, if_pos hany]

theorem execAlloc_of_empty (hd : rowDesc s f r i 0x20 = some d) (hlo : ow d.bytes 8 = 0) (hhi : ow d.bytes 0xC = 0) :
    execAlloc f r i s = .next (completeDesc s f r i stParam) := by
  have hsize : ow d.bytes 8 + ow d.bytes 0xC * 2 ^ 32 = 0 := by omega
  simp only [execAlloc, hd, if_pos hsize]

section
variable (hd : rowDesc s f r i 0x20 = some d) (hsize : ow d.bytes 8 + ow d.bytes 0xC * 2 ^ 32 ≠ 0)
include hd hsize

theorem execAlloc_of_fit (hfit : allocBuf s f (ow d.bytes 8 + ow d.bytes 0xC * 2 ^ 32) = some (h, u)) :
    execAlloc f r i s = .next (completeWith u f r i 0 h 0 [] []) := by
  simp only [execAlloc, hd, if_neg hsize, hfit]

theorem execAlloc_of_full (hfull : allocBuf s f (ow d.bytes 8 + ow d.bytes 0xC * 2 ^ 32) = none) :
    execAlloc f r i s = .next (completeDesc s f r i stMemory) := by
  simp only [execAlloc, hd, if_neg hsize, hfull]

end

section
variable (hd : rowDesc s f r i 7 = some d) (hkind : bits (ow d.bytes 0xC) 7 4 = 0) (hforce : bit (ow d.bytes 0xC) 0 = false)
include hd hkind hforce

theorem execFreeBuffer_of_live (hh : h = ow d.bytes 8) (hown : hFn h = f) (hgen : hGen h ≠ 0)
    (hlive : (getBuf s f (hIdx h)).live = true) (hsame : (getBuf s f (hIdx h)).gen = hGen h) :
    execFreeBuffer f r i s = .next (completeDesc (dropApertures (freeBuf s h) h) f r i 0) := by
  subst hh hown
  simp [execFreeBuffer, hd, hkind, hforce, hgen, hlive, hsame]

theorem execFreeBuffer_of_other (hh : h = ow d.bytes 8) (hother : hFn h ≠ f) :
    execFreeBuffer f r i s = .next (failDesc (dayEvent s 0x0402 0xFF 0 [f, h]) f r i stNotOwner) := by
  subst hh
  simp [execFreeBuffer, hd, hkind, hforce, hother]

end

section
variable {kind n : Nat} (hd : rowDesc s f r i 7 = some d) (hk : kind = bits (ow d.bytes 0xC) 7 4) (hkind : kind ≠ 0)
  (hn : n = bits (ow d.bytes 0x10) 5 0) (hslot : n < [16, 64, 8, 8].getD (kind - 1) 0)
include hd hk hkind hn hslot

/-- FREE of a slot that exists: one in use keeps its object, an empty one is stale, any other is emptied (R405). -/
theorem execFreeSlot_of_slot :
    execFreeSlot f r i s = .next (if slotUse s f kind n ≠ 0 then completeDesc s f r i (slotUse s f kind n)
      else if !slotLoaded s f kind n then failDesc s f r i stStale
      else completeDesc (emptySlot s f kind n) f r i 0) := by
  subst hk hn
  simp only [execFreeSlot, hd, if_neg hkind, if_neg (Nat.not_le.2 hslot)]

theorem execFreeSlot_of_use (huse : slotUse s f kind n ≠ 0) :
    execFreeSlot f r i s = .next (completeDesc s f r i (slotUse s f kind n)) := by
  rw [execFreeSlot_of_slot hd hk hkind hn hslot, if_pos huse]

theorem execFreeSlot_of_empty (huse : slotUse s f kind n = 0) (hempty : slotLoaded s f kind n = false) :
    execFreeSlot f r i s = .next (failDesc s f r i stStale) := by
  rw [execFreeSlot_of_slot hd hk hkind hn hslot, if_neg (not_not_intro huse), hempty]
  rfl

theorem execFreeSlot_of_loaded (huse : slotUse s f kind n = 0) (hloaded : slotLoaded s f kind n = true) :
    execFreeSlot f r i s = .next (completeDesc (emptySlot s f kind n) f r i 0) := by
  rw [execFreeSlot_of_slot hd hk hkind hn hslot, if_neg (not_not_intro huse), hloaded]
  rfl

end
end

/-- Settles O47: one rule per outcome of each row. -/
theorem fenceAndMemoryRowsComplete : Obligations.FenceAndMemoryRowsComplete :=
  ⟨fun _ _ _ _ _ hd hclear => execFence_of_clear hd hclear,
    fun _ _ _ _ _ _ hd he hlt hscope => execFence_of_open hd he hlt hscope,
    fun _ _ _ _ _ hd hlo hhi => execAlloc_of_empty hd hlo hhi,
    fun _ _ _ _ _ _ _ hd hsize hfit => execAlloc_of_fit hd hsize hfit,
    fun _ _ _ _ _ hd hsize hfull => execAlloc_of_full hd hsize hfull,
    fun _ _ _ _ _ _ hd hkind hh hown hforce hgen hlive hsame =>
      execFreeBuffer_of_live hd hkind hforce hh hown hgen hlive hsame,
    fun _ _ _ _ _ _ hd hkind hh hother hforce => execFreeBuffer_of_other hd hkind hforce hh hother,
    fun _ _ _ _ _ _ _ hd hk hkind hn hslot => ⟨execFreeSlot_of_use hd hk hkind hn hslot,
      execFreeSlot_of_empty hd hk hkind hn hslot, execFreeSlot_of_loaded hd hk hkind hn hslot⟩⟩

/-! ### Maintenance activities (R594, R598, R599) -/

section
variable {s : State} {a : Nat} {r : MntRun} (hr : mntFind s a = some r)
include hr

/-- An activity that needs no idle tile, or whose tile is idle, begins; a link's retraining (class 5) takes its port down besides. -/
theorem execMaintenanceActivityBegin_of_idle (hwaits : r.begun = false) (hcls : r.req.cls ≠ 5)
    (hidle : (needsIdle r.req.cls && (targetTile r.req.target).any (tileRunsJob s)) = false) :
    execMaintenanceActivityBegin a s = .next { s with maint := { s.maint with
      running := s.maint.running.map fun x => if x.id = a then { x with begun := true } else x } } := by
  simp [execMaintenanceActivityBegin, hr, hwaits, hidle, hcls]

theorem execMaintenanceActivityBegin_of_busy (hbusy : r.begun = true ∨
    (needsIdle r.req.cls && (targetTile r.req.target).any (tileRunsJob s)) = true) :
    execMaintenanceActivityBegin a s = .next s := by
  simp only [execMaintenanceActivityBegin, hr, if_pos hbusy]

theorem execMaintenanceActivityEnd_of_begun (hbegun : r.begun = true) (rep : MntReport) :
    execMaintenanceActivityEnd a rep s = .next (mntFinish (activityEnd s r.req rep).1 a (activityEnd s r.req rep).2) := by
  simp [execMaintenanceActivityEnd, hr, hbegun]

theorem execMntIdleTimeout_of_due (hwaits : r.begun = false)
    (hdue : r.granted + Nat.max 1 (regFld s 0xB0000 31 16) ≤ s.ftime.toNat) :
    execMntIdleTimeout a s = .next (mntFinish s a 0x0704) := by
  simp only [execMntIdleTimeout, hr, hwaits, Bool.false_eq_true, false_or, if_neg (Nat.not_lt.2 hdue)]

end

/-! ### Patrol scrub (R354, R355) -/

section
variable {s : State} {n g t x c : Nat} {r : MemReq} {err : MemErr}

theorem execPatrolScrub_of_off {p : ScrubSlot} (h : s.start.phase ≠ 8 ∨ patrolUnit s p.addr = none) :
    execPatrolScrub p err s = .next s := by
  by_cases hphase : s.start.phase = 8
  · simp only [execPatrolScrub, hphase, h.resolve_left (not_not_intro hphase), ne_eq, not_true_eq_false, if_false]
  · simp only [execPatrolScrub, ne_eq, hphase, not_false_eq_true, if_true]

section
variable {p : ScrubSlot} {unit : Nat} (hup : s.start.phase = 8) (hunit : patrolUnit s p.addr = some unit)
include hup hunit

theorem execPatrolScrub_of_store (hreg : regionOf s p.addr = .cs g x) :
    execPatrolScrub p err s = .next (scrubStore s g p.cyc (p.addr / unit * unit) err) := by
  simp only [execPatrolScrub, hup, hunit, hreg, ne_eq, not_true_eq_false, if_false]

theorem execPatrolScrub_of_bank (hreg : regionOf s p.addr = .tb t x) :
    execPatrolScrub p err s = .next (scrubBank s t p.cyc (p.addr / unit * unit) err) := by
  simp only [execPatrolScrub, hup, hunit, hreg, ne_eq, not_true_eq_false, if_false]

theorem execPatrolScrub_of_dram (hreg : regionOf s p.addr = .hbm ∨ regionOf s p.addr = .gddr) :
    execPatrolScrub p err s = .next (scrubDram s (p.addr / unit * unit) err) := by
  obtain hreg | hreg := hreg <;>
    simp only [execPatrolScrub, hup, hunit, hreg, ne_eq, not_true_eq_false, if_false]

end

theorem scrubStore_of_slot {a : Nat} (hcyc : n % 4 = 3) (hfrom : (getCore s g).scrubFrom ≤ n)
    (hport : ∀ k, k < 4 → portPending s g k = false) (hzero : tileOfCore g ∉ s.zeroing) :
    scrubStore s g n a err = memErr (modCore s g fun c => { c with scrubFrom := n + 64 }) a 32 err true := by
  have hfree : (List.range 4).any (portPending s g) = false :=
    List.any_eq_false.2 fun k hk => by simp [hport k (List.mem_range.1 hk)]
  simp [scrubStore, hcyc, Nat.not_lt.2 hfrom, hfree, hzero]

theorem scrubBank_of_slot {a : Nat} (hcyc : n % 8 = 7) (hfrom : tget 0 s.bankScrub t ≤ n) (hzero : t ∉ s.zeroing) :
    scrubBank s t n a err = memErr { s with bankScrub := tset 0 s.bankScrub t (n + 64) } a 1024 err true := by
  simp [scrubBank, hcyc, Nat.not_lt.2 hfrom, hzero]

section
variable {a : Nat} (hc : c = controllerOf s a) (hheld : ctlHeld s c = false)
include hc hheld

/-- A controller without requests scrubs its unit at once. -/
theorem scrubDram_of_idle (hidle : oldest s (.dram c) = none)
    (hdue : tget 0 s.dramScrub c + Nat.max 1 (regFld s 0x10014 7 0) ≤ s.ftime.toNat) :
    scrubDram s a err = memErr { s with dramScrub := tset 0 s.dramScrub c s.ftime.toNat } a 2048 err true := by
  subst hc
  simp only [scrubDram, hheld, Bool.false_eq_true, or_false, if_neg (Nat.not_lt.2 hdue), hidle, Option.isNone_none, if_true]

/-- One with requests queues it behind them, once its interval has passed twice. -/
theorem scrubDram_of_late (hbusy : oldest s (.dram c) = some r)
    (hlate : tget 0 s.dramScrub c + 2 * Nat.max 1 (regFld s 0x10014 7 0) ≤ s.ftime.toNat) :
    scrubDram s a err = pushReq { s with dramScrub := tset 0 s.dramScrub c s.ftime.toNat } (.dram c) false a 2048 [] .scrub := by
  subst hc
  have hdue : ¬ s.ftime.toNat < tget 0 s.dramScrub (controllerOf s a) + Nat.max 1 (regFld s 0x10014 7 0) := by omega
  have htwice : tget 0 s.dramScrub (controllerOf s a) + Nat.max 1 (regFld s 0x10014 7 0) +
      Nat.max 1 (regFld s 0x10014 7 0) ≤ s.ftime.toNat := by omega
  simp only [scrubDram, hheld, Bool.false_eq_true, or_false, if_neg hdue, hbusy, Option.isNone_some, if_false, if_pos htwice]

end
end

/-! ### Start slots and Pace changes (R493, R500) -/

section
variable {s : State} {t : Nat} {q : List Nat}

theorem execStartSlot_of_empty (hq : s.sched.startQ = []) : execStartSlot s = .next s := by
  simp only [execStartSlot, hq]

/-- The slot ends the wait of the first tile in the queue. -/
theorem execStartSlot_of_move {m : PaceMove} (hq : s.sched.startQ = t :: q) (hm : tget none s.sched.moves t = some m) :
    execStartSlot s =
      .next (setMove { s with sched := { s.sched with startQ := q } } t (some { m with waits := false })) := by
  simp only [execStartSlot, hq, hm]

theorem execStartSlot_of_none (hq : s.sched.startQ = t :: q) (hm : tget none s.sched.moves t = none) :
    execStartSlot s = .next { s with sched := { s.sched with startQ := q } } := by
  simp only [execStartSlot, hq, hm]

theorem endMove_of_none (hm : tget none s.sched.moves t = none) : endMove s t = s := by
  simp only [endMove, hm]

end

/-- Settles O33: one rule per outcome of each row. -/
theorem maintenanceAndPaceComplete : Obligations.MaintenanceAndPaceComplete := by
  refine ⟨⟨fun a s r hr hwaits hcls hidle => execMaintenanceActivityBegin_of_idle hr hwaits hcls hidle,
    fun a s r hr hbusy => execMaintenanceActivityBegin_of_busy hr hbusy,
    fun a rep s r hr hbegun => execMaintenanceActivityEnd_of_begun hr hbegun rep,
    fun a s r hr hwaits hdue => execMntIdleTimeout_of_due hr hwaits hdue,
    fun g x addr n err s hup hunit hreg hcyc hfrom hport hzero => ?store,
    fun t x addr n err s hup hunit hreg hcyc hfrom hzero => ?bank,
    fun addr n c err s hup hunit hreg hc hheld hidle hdue => ?idle,
    fun addr n c r err s hup hunit hreg hc hheld hbusy hlate => ?late,
    fun p err s hoff => execPatrolScrub_of_off hoff, fun c s => rfl⟩,
    fun s hq => execStartSlot_of_empty hq, fun t q m s hq hm => execStartSlot_of_move hq hm,
    fun t q s hq hm => execStartSlot_of_none hq hm, fun t s hm => congrArg Host.Outcome.next (endMove_of_none hm),
    fun t s => rfl, fun sec s => rfl⟩
  case store =>
    exact (execPatrolScrub_of_store (p := ⟨addr, n⟩) hup hunit hreg).trans
      (congrArg Host.Outcome.next (scrubStore_of_slot hcyc hfrom hport hzero))
  case bank =>
    exact (execPatrolScrub_of_bank (p := ⟨addr, n⟩) hup hunit hreg).trans
      (congrArg Host.Outcome.next (scrubBank_of_slot hcyc hfrom hzero))
  case idle =>
    exact (execPatrolScrub_of_dram (p := ⟨addr, n⟩) hup hunit hreg).trans
      (congrArg Host.Outcome.next (scrubDram_of_idle hc hheld hidle hdue))
  case late =>
    exact (execPatrolScrub_of_dram (p := ⟨addr, n⟩) hup hunit hreg).trans
      (congrArg Host.Outcome.next (scrubDram_of_late hc hheld hbusy hlate))

end Sys2Proof.Machine

/-! The stream engines of chapter 11 (R374 to R385): requests that issue, chunks that are counted in order, and the end of a stream. -/

namespace Sys2Proof.Machine

/-! ### Requests of streams -/

section
variable {s : State} {g : Nat}

theorem execStreamRequestIssue_of_running (hruns : coreRuns s g = true) : execStreamRequestIssue g s = .next (issueStreamReq s g) := by
  simp only [execStreamRequestIssue, hruns, if_true]

theorem execStreamRequestIssue_of_stopped (hstopped : coreRuns s g = false) : execStreamRequestIssue g s = .next s := by
  simp only [execStreamRequestIssue, hstopped, Bool.false_eq_true, if_false]

end

/-! ### The next chunk in order -/

section
variable {s : State} {g k : Nat} {st : Stream}

section
variable {c : Chunk} (hst : getStr s g k = some st) (hc : st.chunks.find? (fun c => c.n == st.sigma) = some c)
  (hwhole : c.landed = true) (hnew : c.counted = false)
include hst hc hwhole hnew

/-- Both directions count a whole chunk in the same way: an IN chunk may come late, and an OUT chunk is used and released at
once (R376, R377, R384). -/
theorem countChunk_of_whole {out : Bool} (hdir : st.desc.out = out) :
    countChunk s g k out = engineInc (setStr s g k (some { st with
      sigma := st.sigma + 1
      late := if !out && chunkLate s st.desc.ringCore st.desc.sigCnt then st.late + 1 else st.late
      used := if out then st.used + 1 else st.used
      chunks := st.chunks.map fun x => if x.n = st.sigma then { x with counted := true, released := x.released || out } else x }))
      st.desc.ringCore st.desc.sigCnt := by
  have hcounts : ¬(st.desc.out ≠ out ∨ (!c.landed) = true ∨ c.counted = true) := by simp [hdir, hwhole, hnew]
  simp only [countChunk, hst, hc, if_neg hcounts]

theorem execChunkLanded_of_in_time (hin : st.desc.out = false) (htime : chunkLate s st.desc.ringCore st.desc.sigCnt = false) :
    execChunkLanded g k s = .next (engineInc (setStr s g k (some { st with
      sigma := st.sigma + 1
      chunks := st.chunks.map fun x => if x.n = st.sigma then { x with counted := true } else x }))
      st.desc.ringCore st.desc.sigCnt) := by
  simp only [execChunkLanded, countChunk_of_whole hst hc hwhole hnew hin, htime, Bool.and_false, Bool.or_false, Bool.false_eq_true,
    if_false]

theorem execOutChunkAck_of_whole (hout : st.desc.out = true) :
    execOutChunkAck g k s = .next (engineInc (setStr s g k (some { st with
      sigma := st.sigma + 1
      used := st.used + 1
      chunks := st.chunks.map fun x => if x.n = st.sigma then { x with counted := true, released := true } else x }))
      st.desc.ringCore st.desc.sigCnt) := by
  simp only [execOutChunkAck, countChunk_of_whole hst hc hwhole hnew hout, Bool.not_true, Bool.false_and, Bool.or_true,
    Bool.false_eq_true, if_false, if_true]

end

/-! ### The end of a stream -/

/-- A stream of a program ends with its record once every byte was requested and every chunk counted and released (R378,
R385). -/
theorem execStreamEnd_of_released {x : Stream} (hst : getStr s g k = some st) (hx : x = releaseChunks s st)
    (hprogram : isStager x = false) (hbytes : strTotal x.desc ≠ 0) (hrequested : x.nextOff = strTotal x.desc) (hreqs : x.reqs = [])
    (hcounted : x.sigma = strChunks x.desc) (hreleased : ∀ c ∈ x.chunks, c.released = true) :
    execStreamEnd g k s = .next (setStr (accountStream (writeRecord s g k 1 0 x) g (strCounts x 0)) g k none) := by
  have hnoneHeld : (x.chunks.any fun c => !c.released) = false := List.any_eq_false.2 fun c hc => by simp [hreleased c hc]
  have hends : ¬(isStager x = true ∨ strTotal x.desc = 0 ∨ x.nextOff ≠ strTotal x.desc ∨ x.reqs ≠ [] ∨
      x.sigma ≠ strChunks x.desc ∨ (x.chunks.any fun c => !c.released) = true) := by
    simp [hprogram, hbytes, hrequested, hreqs, hcounted, hnoneHeld]
  simp only [execStreamEnd, hst, ← hx, if_neg hends]

end

/-- Settles O37: one rule per outcome of each row. -/
theorem streamCommandsComplete : Obligations.StreamCommandsComplete :=
  ⟨fun _ _ hruns => execStreamRequestIssue_of_running hruns,
    fun _ _ hstopped => execStreamRequestIssue_of_stopped hstopped,
    fun _ _ _ _ _ hst hc hin hwhole hnew htime => execChunkLanded_of_in_time hst hc hwhole hnew hin htime,
    fun _ _ _ _ _ hst hc hout hwhole hnew => execOutChunkAck_of_whole hst hc hwhole hnew hout,
    fun _ _ _ _ _ hst hx hprogram hbytes hrequested hreqs hcounted hreleased =>
      execStreamEnd_of_released hst hx hprogram hbytes hrequested hreqs hcounted hreleased⟩

end Sys2Proof.Machine

/-! Chapters 12 and 17 at the host's interface: the pins and the warm reset with the configuration requests, CANCEL and QUERY, each
first as one rule for each outcome of a row, then the statements. -/

namespace Sys2Proof.Machine

/-! ### The warm reset (R590) -/

section
variable (s : State)

@[simp] theorem setModState_keeper (m : ModState) : (setModState s m).keeper = { s.keeper with state := m } :=
  regSetFld_keeper _ _ _ _ _

section
variable (keep : Nat → Bool)

@[simp] theorem mainReset_fns : (mainReset s keep).fns = [] := (keepCeilings_within (.refl 1 _) (sub_of rfl)).fns rfl

@[simp] theorem mainReset_sectors : (mainReset s keep).sectors = [] := (keepCeilings_within (.refl 1 _) (sub_of rfl)).sectors rfl

@[simp] theorem mainReset_jobs : (mainReset s keep).jobs = [] := ((keepCeilings_within (.refl 1 _) (sub_of rfl)).jobs rfl).1

@[simp] theorem mainReset_start : (mainReset s keep).start = s.start := (keepCeilings_within (.refl 1 _) (sub_of rfl)).start rfl

end

@[simp] theorem beginWarm_start : (beginWarm s).start =
    { s.start with phase := 5, depth := 2, warm := true, grace := false, pendingReset := none, byPerst := true } := by
  simp only [beginWarm, setModState_start, regSetFld_start, mainReset_start]

@[simp] theorem beginWarm_keeper_state : (beginWarm s).keeper.state = .resetting := by rw [beginWarm, setModState_keeper]

@[simp] theorem beginWarm_ftime : (beginWarm s).ftime = s.ftime := by simp only [beginWarm, setModState_ftime, regSetFld_ftime]

@[simp] theorem beginWarm_fns : (beginWarm s).fns = [] := by simp only [beginWarm, setModState_fns, regSetFld_fns, mainReset_fns]

@[simp] theorem beginWarm_sectors : (beginWarm s).sectors = [] := by
  simp only [beginWarm, setModState_sectors, regSetFld_sectors, mainReset_sectors]

@[simp] theorem beginWarm_jobs : (beginWarm s).jobs = [] := by
  simp only [beginWarm, setModState_jobs, regSetFld_jobs, mainReset_jobs]

theorem takeReset_warm : takeReset s 2 = beginWarm s := by simp [takeReset]

@[simp] theorem enterPhase_mem (p : Nat) : (enterPhase s p).mem = s.mem := setStartStatus_mem _ _ _

@[simp] theorem enterPhase_start (p : Nat) : (enterPhase s p).start = { s.start with phase := p } := setStartStatus_start _ _ _

end

/-! ### The pins (R577, R610) -/

section
variable {s : State}

/-- Before device ready PERST# resets nothing. -/
theorem execPerstAssert_of_not_ready (hperst : s.start.perst = false) (hphase : s.start.phase ≠ 8) (hwake : s.start.wake = false) :
    execPerstAssert s = .next { s with start := { s.start with perst := true } } := by
  simp only [execPerstAssert, hperst, hwake, Bool.false_eq_true, if_false, if_pos hphase]

/-- After device ready PERST# releases WAKE#, is recorded, and begins a warm reset. -/
theorem execPerstAssert_of_ready (hperst : s.start.perst = false) (hphase : s.start.phase = 8) (hnone : s.start.pendingReset = none) :
    ∃ u, u.start = { s.start with perst := true, wake := false } ∧ u.ftime = s.ftime ∧
      execPerstAssert s = .next (beginWarm (dayEvent u 0x0105 0xFF 0 [3, 0])) := by
  have hdepth : Nat.max 2 ((none : Option Nat).getD 0) = 2 := rfl
  cases hwake : s.start.wake with
  | false =>
    refine ⟨{ s with start := { s.start with perst := true } }, by rw [← hwake], rfl, ?_⟩
    simp only [execPerstAssert, hperst, hwake, hphase, hnone, hdepth, takeReset_warm, ne_eq, not_true_eq_false, Bool.false_eq_true,
      if_false]
  | true =>
    refine ⟨emit { s with start := { s.start with perst := true, wake := false } } (.wakePin false), rfl, rfl, ?_⟩
    simp only [execPerstAssert, hperst, hwake, emit_start, hphase, hnone, hdepth, takeReset_warm, ne_eq, not_true_eq_false,
      Bool.false_eq_true, if_false, if_true]

theorem execWakeRelease_of_asserted (hwake : s.start.wake = true) :
    execWakeRelease s = .next (emit { s with start := { s.start with wake := false } } (.wakePin false)) := by
  simp only [execWakeRelease, hwake, if_true]

/-- With memory zeroed and the ports trained, phase 5 begins (R590). -/
theorem execWarmResetZeroingEnd_of_warm (hwarm : s.start.warm = true) :
    execWarmResetZeroingEnd s = .next (enterPhase { s with
      mem := [], sramPoison := [], poison0 := [], poison1 := [], start := { s.start with warm := false } } 5) := by
  simp only [execWarmResetZeroingEnd, hwarm, Bool.not_true, Bool.false_eq_true, if_false]

end

/-! ### Configuration requests (R391, R392) -/

section
variable {s : State} {f off : Nat} (hperst : s.start.perst = false) (hrails : s.start.rails = true) (hf : f < 64)
include hperst hrails hf

theorem execConfigRequest_of_not_ready (hphase : s.start.phase ≠ 8) (write : Bool) (v : Word) :
    execConfigRequest f off write v s = .next (emit s (.config true 0)) := by
  simp only [execConfigRequest, hperst, hrails, Nat.not_le.2 hf, Bool.not_true, Bool.false_eq_true, or_self, if_false, if_pos hphase]

variable (hphase : s.start.phase = 8)
include hphase

/-- A write is answered and changes no register (log entry 53). -/
theorem execConfigRequest_of_write (v : Word) : execConfigRequest f off true v s = .next (emit s (.config false 0)) := by
  simp only [execConfigRequest, hperst, hrails, Nat.not_le.2 hf, hphase, Bool.not_true, Bool.false_eq_true, or_self, ne_eq,
    not_true_eq_false, if_false, if_true]

/-- A read of a dword that Table 12.1 gives answers with it. -/
theorem execConfigRequest_of_table {w : Nat} (hw : cfgWord f (off / 4 * 4) = some w) (v : Word) :
    execConfigRequest f off false v s = .next (emit s (.config false w)) := by
  simp only [execConfigRequest, hperst, hrails, Nat.not_le.2 hf, hphase, hw, Bool.not_true, Bool.false_eq_true, or_self, ne_eq,
    not_true_eq_false, if_false]

end

theorem cfgWord_ids {f off : Nat} (hoff : off < 4) : cfgWord f (off / 4 * 4) = some (if f = 0 then 0x02501FB4 else 0xFFFFFFFF) := by
  have hdword : off / 4 * 4 = 0 := by omega
  rw [cfgWord, if_pos hdword]

theorem cfgWord_class {f off : Nat} (hoff : off / 4 = 2) : cfgWord f (off / 4 * 4) = some 0x12000011 := by
  have hdword : off / 4 * 4 = 8 := by omega
  rw [cfgWord, hdword, if_neg (by decide), if_pos rfl]

/-- Settles O26: one rule per outcome of each row, and what beginWarm and enterPhase leave of the state. -/
theorem pinsResetsAndConfigurationComplete : Obligations.PinsResetsAndConfigurationComplete := by
  refine ⟨fun s => rfl, fun s hperst hphase hwake => execPerstAssert_of_not_ready hperst hphase hwake,
    fun s hperst hphase hnone => ?warmReset, fun s hwake => execWakeRelease_of_asserted hwake, fun s hwarm => ?zeroed,
    fun f off w v s hperst hrails hf hphase => execConfigRequest_of_not_ready hperst hrails hf hphase w v,
    fun off v s hperst hrails hphase hoff =>
      execConfigRequest_of_table hperst hrails (by decide) hphase ((cfgWord_ids hoff).trans (congrArg some (if_pos rfl))) v,
    fun f off v s hperst hrails hphase hvf hf hoff => execConfigRequest_of_table hperst hrails hf hphase
      ((cfgWord_ids hoff).trans (congrArg some (if_neg (Nat.ne_of_gt hvf)))) v,
    fun f off v s hperst hrails hphase hf hoff => execConfigRequest_of_table hperst hrails hf hphase (cfgWord_class hoff) v,
    fun f off v s hperst hrails hphase hf => execConfigRequest_of_write hperst hrails hf hphase v⟩
  case warmReset =>
    obtain ⟨u, hstart, hftime, hrow⟩ := execPerstAssert_of_ready hperst hphase hnone
    refine ⟨_, hrow, ?perst, ?wake, ?warm, ?phase, beginWarm_keeper_state _, ?ftime, beginWarm_fns _, beginWarm_sectors _,
      beginWarm_jobs _⟩
    case perst | wake | warm | phase => rw [beginWarm_start, dayEvent_start, hstart]
    case ftime => rw [beginWarm_ftime, dayEvent_ftime, hftime]
  case zeroed =>
    have hmem := enterPhase_mem { s with
      mem := [], sramPoison := [], poison0 := [], poison1 := [], start := { s.start with warm := false } } 5
    refine ⟨_, execWarmResetZeroingEnd_of_warm hwarm, hmem, fun a => congrArg (tget 0 · a) hmem, ?phase, ?warm⟩
    case phase | warm => rw [enterPhase_start]

/-! ### CANCEL (R407) -/

section
variable {s : State} {f r i : Nat} {d : Desc} (hd : rowDesc s f r i 9 = some d)
include hd

theorem execCancel_of_absent (hnone : findDesc s f (bits (ow d.bytes 8) 4 0) (bits (ow d.bytes 0xC) 15 0) = none) :
    execCancel f r i s = .next (completeDesc s f r i stNoTarget) := by
  simp only [execCancel, hd, hnone]

/-- The descriptor named may be the CANCEL itself, which then ends CANCELLED (log entry 42). -/
theorem execCancel_of_open {e : Desc} (he : findDesc s f (bits (ow d.bytes 8) 4 0) (bits (ow d.bytes 0xC) 15 0) = some e) :
    execCancel f r i s = .next (completeDesc (stopDesc s e stCancelled false false) f r i 0) := by
  simp only [execCancel, hd, he]

end

/-- Settles O46: one rule per outcome of the row. -/
theorem cancelComplete : Obligations.CancelComplete :=
  ⟨fun _ _ _ _ _ hd hnone => execCancel_of_absent hd hnone, fun _ _ _ _ _ _ hd he => execCancel_of_open hd he⟩

/-! ### QUERY (R404, R424) -/

section
variable {s : State} {f r i kind : Nat} {d : Desc} {status : State → Desc → Nat} {result : State → Desc → List Byte}
  (hd : rowDesc s f r i 8 = some d) (hkind : bits (ow d.bytes 8) 7 0 = kind)
include hd hkind

/-- A QUERY whose target passes its check ends with the result of its kind; so does one of an empty model slot, whose result is
zeros (log entry 30). -/
theorem queryRow_of_passed (hst : status s d = 0) : queryRow kind status result f r i s = queryEnd s d (result s d) := by
  simp only [queryRow, hd, hkind, hst, ne_eq, not_true_eq_false, if_false]

theorem queryRow_of_refused {st : Nat} (hst : status s d = st) (hbad : st ≠ 0) :
    queryRow kind status result f r i s = failDesc s f r i st := by
  simp only [queryRow, hd, hkind, hst, ne_eq, not_true_eq_false, if_false, if_pos hbad]

end

section
variable {s : State} {d : Desc} {n : Nat}

theorem querySector_of_own (hown : (getSector s n).map (·.owner) = some d.fn) : querySector s d n = 0 := if_pos hown

theorem querySector_of_other (hother : (getSector s n).map (·.owner) ≠ some d.fn) : querySector s d n = stNotOwner := if_neg hother

end

/-! ### QUERY ATTEST (R561, R569) -/

section
variable {s : State} {f r i : Nat} {d : Desc} (hd : rowDesc s f r i 8 = some d) (hkind : bits (ow d.bytes 8) 7 0 = 6)
include hd hkind

theorem execQueryAttest_of_host_nonce (hph : d.phase = .fetched) (hhost : (refAt d.bytes 0x10).kind = 0) :
    execQueryAttest f r i s = .next (startXfer s d (refHost (refAt d.bytes 0x10)) 32) := by
  simp only [execQueryAttest, hd, hkind, hph, hhost, ne_eq, not_true_eq_false, if_false, if_true]

theorem execQueryAttest_of_memory_nonce {a : Nat} (hph : d.phase = .fetched) (hmem : (refAt d.bytes 0x10).kind ≠ 0)
    (ha : refAddr s f (refAt d.bytes 0x10) 32 false = (0, a)) :
    execQueryAttest f r i s = .next (attestSign (engineAccess s a 32) d (readT (engineAccess s a 32) a 32)) := by
  simp only [execQueryAttest, hd, hkind, hph, ha, if_neg hmem, ne_eq, not_true_eq_false, if_false]

/-- The end of the security unit's work ends the report, or the descriptor with the unit's status. -/
theorem execQueryAttest_of_signed {bad : Nat} {y : Xfer} (hph : d.phase = .security 0 bad) (hy : xferOf s d = some y) :
    execQueryAttest f r i s = .next (attestEnd s d bad (xferBytes y)) := by
  simp only [execQueryAttest, hd, hkind, hph, hy, ne_eq, not_true_eq_false, if_false]

end

/-- Settles O49: six kinds are one row with their own checks and results; an attestation has a row of its own. -/
theorem queriesComplete : Obligations.QueriesComplete := by
  refine ⟨fun f r i d s hd => ⟨fun hkind => ?device, fun hkind => ?function, fun hkind => ?identity⟩,
    fun f r i n d s hd hkind hn => ⟨fun hown => ?sector, fun hother => ?otherSector⟩,
    fun f r i n d s hd hkind hn => ⟨fun hslot => ?model, fun hnone => ?noModel⟩,
    fun f r i sec k d s hd hkind hsec hk hown hloaded => ?builtin,
    fun f r i d s hd hkind hph hhost => execQueryAttest_of_host_nonce hd hkind hph hhost,
    fun f r i a d s hd hkind hph hmem ha => execQueryAttest_of_memory_nonce hd hkind hph hmem ha,
    fun f r i bad d y s hd hkind hph hy => execQueryAttest_of_signed hd hkind hph hy⟩
  case device | function | identity => exact congrArg Host.Outcome.next (queryRow_of_passed hd hkind rfl)
  case sector => subst hn; exact congrArg Host.Outcome.next (queryRow_of_passed hd hkind (querySector_of_own hown))
  case otherSector =>
    subst hn; exact congrArg Host.Outcome.next (queryRow_of_refused hd hkind (querySector_of_other hother) (by decide))
  case model => subst hn; exact congrArg Host.Outcome.next (queryRow_of_passed hd hkind (if_neg (Nat.not_le.2 hslot)))
  case noModel => subst hn; exact congrArg Host.Outcome.next (queryRow_of_refused hd hkind (if_pos hnone) (by decide))
  case builtin =>
    subst hsec hk
    refine congrArg Host.Outcome.next (queryRow_of_passed hd hkind ?_)
    simp only [querySector_of_own hown, hloaded, if_true]
    rfl

end Sys2Proof.Machine

/-! The fabric of chapter 13: writes of FAB_ROLE_CMD, flits that arrive at a link port, the answers to a SEND, and the roles and items of
a range pair. -/

namespace Sys2Proof.Machine

/-! ### FAB_ROLE_CMD (R446, R466) -/

section
variable {s : State} {m : Master}

theorem regWrite_roleCmd (v : Word) : regWrite s m 0x20024 v = roleCmd s v := by
  have hfn : fnOfOff 0x20024 = none := fnOfOff_of_lt (by decide)
  simp [regWrite, hfn]

/-- A write of FAB_ROLE_CMD that its master may make acts on the commands that it names. -/
theorem masterWrite_roleCmd (hup : masterUp s m 0x20024 = true) (hreach : mayReach m 0x20024 = true)
    (hsb : m = .proc .sideband → sbDenied s = false) (v : Word) : masterWrite s m 0x20024 v = roleCmd s v :=
  (masterWrite_of_allowed hup hreach hsb (eicAt_of_lt (by decide)) v).trans (regWrite_roleCmd v)

/-- The row ROLE_COMMIT sets the commit bit; a write without read commits only. -/
theorem roleCmd_of_commit {v : Word} (hread : bit v.toNat 1 = false) : roleCmd s (v ||| 1) = roleCommit s := by
  have hcommit : bit (v ||| 1).toNat 0 = true := by rw [bit_or, show bit (1 : Word).toNat 0 = true from rfl, Bool.or_true]
  have hread' : bit (v ||| 1).toNat 1 = false := by rw [bit_or, hread]; rfl
  simp only [roleCmd, hcommit, hread', if_true, Bool.false_eq_true, if_false]

/-- The row ROLE_READ sets the read bit; a write without commit reads only. -/
theorem roleCmd_of_read {v : Word} (hcommit : bit v.toNat 0 = false) : roleCmd s (v ||| 2) = roleRead s := by
  have hread : bit (v ||| 2).toNat 1 = true := by rw [bit_or, show bit (2 : Word).toNat 1 = true from rfl, Bool.or_true]
  have hcommit' : bit (v ||| 2).toNat 0 = false := by rw [bit_or, hcommit]; rfl
  simp only [roleCmd, hread, hcommit', if_true, Bool.false_eq_true, if_false]

theorem countOutcome_fab (f st : Nat) : (countOutcome s f st).fab = s.fab :=
  (countOutcome_within (.refl 1 s) (sub_of rfl)).fab rfl

end

section
variable {s : State} {slot : Nat} {r : Role} (hslot : slot = regFld s 0x20010 11 0)
  (hr : r = roleMask ⟨regGet s 0x20014, regGet s 0x20018, regGet s 0x2001C, regGet s 0x20020⟩)
include hslot hr

/-- A commit that a check refuses shows its status and puts nothing into the table. -/
theorem roleCommit_of_refused (hst : roleStatus s slot r ≠ 0) :
    roleCommit s = regSetFld (countOutcome s (slot / 64) (roleStatus s slot r)) 0x20028 31 16 (roleStatus s slot r) := by
  subst hslot hr
  exact if_pos hst

/-- A commit that passes, on a module that does not mirror, puts the entry into the table and does nothing else. -/
theorem roleCommit_of_passed (hst : roleStatus s slot r = 0)
    (hm : mirroring (putRole (regSetFld (countOutcome s (slot / 64) 0) 0x20028 31 16 0) slot r) = false) :
    roleCommit s = putRole (regSetFld (countOutcome s (slot / 64) 0) 0x20028 31 16 0) slot r := by
  subst hslot hr
  simp only [roleCommit, hst, hm, ne_eq, not_true_eq_false, Bool.false_eq_true, if_false]

end

/-- Settles O18: a write with one of the two command bits is that command alone. -/
theorem roleCommandsComplete : Obligations.RoleCommandsComplete := by
  refine ⟨fun m v s slot r hup hreach hsb hread hslot hr hst => ?refused,
    fun m v s slot r hup hreach hsb hread hslot hr hst hm => ?passed, fun m v s r hup hreach hsb hcommit hr => ?read⟩
  case refused =>
    have hrow := (masterWrite_roleCmd hup hreach hsb (v ||| 1)).trans (roleCmd_of_commit hread)
    exact ⟨_, congrArg Host.Outcome.next (hrow.trans (roleCommit_of_refused hslot hr hst)),
      (regSetFld_fab ..).trans (countOutcome_fab ..), rfl⟩
  case passed =>
    have hrow := (masterWrite_roleCmd hup hreach hsb (v ||| 1)).trans (roleCmd_of_commit hread)
    exact congrArg Host.Outcome.next (hrow.trans (roleCommit_of_passed hslot hr hst hm))
  case read =>
    subst hr
    exact congrArg Host.Outcome.next ((masterWrite_roleCmd hup hreach hsb (v ||| 2)).trans (roleCmd_of_read hcommit))

/-! ### Ports (R432, R435, R436) -/

section
variable {s : State} {p : Nat}

theorem execPortLockLoss_of_up (hp : p < 32) (hup : 2 ≤ portState s p) :
    execPortLockLoss p s = .next (bump (setPortState s p 1) 0x20208) := by
  rw [execPortLockLoss, if_neg (by omega)]

theorem execPortLockLoss_of_not_up (h : portState s p < 2) : execPortLockLoss p s = .next s := by
  rw [execPortLockLoss, if_pos (.inr h)]

/-- A port that trains comes up, or fails once more, or goes DOWN with the third failure. -/
theorem execPortTrainingEnd_of_training (hp : p < 32) (ht : portState s p = 1) (ok : Bool) (lanes : Nat) :
    execPortTrainingEnd p ok lanes s = .next (if ok then portUp s p (lanes % 16)
      else if 2 ≤ (getPort s p).trainFails then portDown s p
      else modPort s p fun x => { x with trainFails := x.trainFails + 1 }) := by
  rw [execPortTrainingEnd, if_neg (by omega)]

theorem execFlitTransmit_of_le (hp : p ≤ 32) : execFlitTransmit p s = .next (transmit s p) := by
  rw [execFlitTransmit, if_neg (Nat.not_lt.2 hp)]

theorem execReplayTimeout_of_up (hp : p < 32) (hup : 2 ≤ portState s p) : execReplayTimeout p s = .next (beginReplay s p) := by
  rw [execReplayTimeout, if_neg (by omega)]

theorem execReplayTimeout_of_not_up (h : portState s p < 2) : execReplayTimeout p s = .next s := by
  rw [execReplayTimeout, if_pos (.inr h)]

/-- Below the sixteenth replay without progress the port sends again from its oldest held flit. -/
theorem beginReplay_of_progress (hheld : (getPort s p).replay ≠ []) (hstuck : (getPort s p).stuck < 15) :
    beginReplay s p = setPort (bump s 0x20204) p { getPort s p with stuck := (getPort s p).stuck + 1, resend := 0 } := by
  simp only [beginReplay, if_neg hheld]
  exact if_neg (by omega)

/-- The sixteenth makes it retrain. -/
theorem beginReplay_of_stuck (hheld : (getPort s p).replay ≠ []) (hstuck : 15 ≤ (getPort s p).stuck) :
    beginReplay s p =
      bump (setPortState (setPort (bump s 0x20204) p { getPort s p with stuck := 0, resend := 0 }) p 1) 0x20208 := by
  simp only [beginReplay, if_neg hheld]
  exact if_pos (by omega)

end

/-! ### A flit arrives (R433 to R436) -/

/-- A flit is discarded: it is counted, and answered by one LNAK until the expected one arrives. -/
def discardFlit (s : State) (p : Nat) : State :=
  bump (modPort s p fun x => if x.ignoring then x else { x with ignoring := true, lnakDue := true }) 0x20200

section
variable {s : State} {p t : Nat} {f : Flit}

theorem receiveAs_of_bad (hp : p ≤ 32) (hup : 2 ≤ portState s p) : receiveAs t s p f false = (discardFlit s p, false) := by
  rw [receiveAs, if_neg (Nat.not_lt.2 hp), receive, if_neg (Nat.not_lt.2 hup)]
  rfl

theorem receiveAs_of_good (hp : p ≤ 32) (ht : f.typ = t) : receiveAs t s p f true = receive s p f true := by
  rw [receiveAs, if_neg (Nat.not_lt.2 hp), ht, beq_self_eq_true, Bool.and_true]

/-- A good flit of an unsequenced type only gives its ack and its credits. -/
theorem receive_of_unsequenced (hp : p ≠ 32) (hup : 2 ≤ portState s p) (htyp : f.typ ≤ 5) (hseq : sequenced f.typ = false) :
    receive s p f true = (setPort s p (takeAck (getPort s p) f), true) := by
  simp only [receive, if_neg (Nat.not_lt.2 hup), decide_eq_false (Nat.not_lt.2 htyp), if_neg hp, hseq, Bool.not_true,
    Bool.or_self, Bool.not_false, Bool.false_eq_true, if_false, if_true]

/-- A good sequenced flit that is not the expected one gives its ack and its credits, and is discarded. -/
theorem receive_of_out_of_sequence (hp : p ≠ 32) (hup : 2 ≤ portState s p) (htyp : f.typ ≤ 5) (hseq : sequenced f.typ = true)
    (hne : f.seq ≠ (getPort s p).rxExp) :
    receive s p f true = (discardFlit (setPort s p (takeAck (getPort s p) f)) p, false) := by
  simp only [receive, if_neg (Nat.not_lt.2 hup), decide_eq_false (Nat.not_lt.2 htyp), if_neg hp, hseq, if_neg hne, Bool.not_true,
    Bool.or_self, Bool.false_eq_true, if_false]
  rfl

end

section
variable {s : State} {p : Nat} {f : Flit} (hp : p < 32) (hid : devId s ≠ 0xFFFFF) (hpair : isPairPort s p = false)
include hp hid hpair

/-- On a port to another device, a flit for this device is taken, and its credit is owed back (R439). -/
theorem arriveFlit_of_here (hhere : deliveredHere s f.dst = true) : arriveFlit s p f = (oweCredit s (some (p, f.vc)), true) := by
  have hport : p ≠ 32 := by omega
  simp [arriveFlit, bufferOf, hport, hid, hpair, hhere]

/-- A flit for another device goes on (R441). -/
theorem arriveFlit_of_elsewhere (hfar : deliveredHere s f.dst = false) :
    arriveFlit s p f = (forward s f (some (p, f.vc)), false) := by
  have hport : p ≠ 32 := by omega
  simp [arriveFlit, bufferOf, hport, hid, hpair, hfar]

end

section
variable {s u v : State} {p : Nat} {f : Flit} {good : Bool}

theorem execIdle_of_received {taken : Bool} (hr : receiveAs 0 s p f good = (u, taken)) : execIdle p f good s = .next u := by
  rw [execIdle, hr]

theorem execLnak_of_taken (hr : receiveAs 3 s p f good = (u, true)) : execLnak p f good s = .next (beginReplay u p) := by
  simp only [execLnak, hr, if_true]

theorem execData_of_discarded (hr : receiveAs 1 s p f good = (u, false)) : execData p f good s = .next u := by
  simp only [execData, hr, Bool.not_false, if_true]

theorem execData_of_delivered (hr : receiveAs 1 s p f good = (u, true)) (ha : arriveFlit u p f = (v, true)) :
    execData p f good s = .next (ingress v p f) := by
  simp only [execData, hr, ha, Bool.not_true, Bool.false_eq_true, if_false, if_true]

theorem execData_of_passed_on (hr : receiveAs 1 s p f good = (u, true)) (ha : arriveFlit u p f = (v, false)) :
    execData p f good s = .next v := by
  simp only [execData, hr, ha, Bool.not_true, Bool.false_eq_true, if_false]

end

/-- Settles O39: the rows of a port by its state, and the rows of a flit by what receive and arriveFlit make of it. -/
theorem linkCommandsComplete : Obligations.LinkCommandsComplete := by
  refine ⟨⟨fun p s hp hup => execPortLockLoss_of_up hp hup,
      fun p s h => ⟨execPortLockLoss_of_not_up h, execReplayTimeout_of_not_up h⟩,
      fun p lanes s hp ht => execPortTrainingEnd_of_training hp ht true lanes,
      fun p lanes s hp ht hfew => ?failed, fun p lanes s hp ht hmany => ?down,
      fun p s hp _ => execFlitTransmit_of_le hp,
      fun p s hp hup hheld hstuck => ?replay, fun p s hp hup hheld hstuck => ?retrain⟩,
    fun p fl s hp hup => execIdle_of_received (receiveAs_of_bad (Nat.le_of_lt hp) hup),
    fun p fl s hp hup ht => ?idle, fun p fl s hp hup ht => ?lnak, fun p fl s u hp hup ht hne hu => ?outOfSequence,
    fun p fl s u hp hr hid hpair hhere => execData_of_delivered hr (arriveFlit_of_here hp hid hpair hhere),
    fun p fl s u hp hr hid hpair hfar => execData_of_passed_on hr (arriveFlit_of_elsewhere hp hid hpair hfar)⟩
  case failed =>
    exact (execPortTrainingEnd_of_training hp ht false lanes).trans (congrArg Host.Outcome.next (if_neg (Nat.not_le.2 hfew)))
  case down => exact (execPortTrainingEnd_of_training hp ht false lanes).trans (congrArg Host.Outcome.next (if_pos hmany))
  case replay =>
    exact (execReplayTimeout_of_up hp hup).trans (congrArg Host.Outcome.next (beginReplay_of_progress hheld hstuck))
  case retrain => exact (execReplayTimeout_of_up hp hup).trans (congrArg Host.Outcome.next (beginReplay_of_stuck hheld hstuck))
  case idle =>
    have hseq : sequenced fl.typ = false := by rw [ht]; rfl
    have hrecv := receive_of_unsequenced (Nat.ne_of_lt hp) hup (by omega) hseq
    exact execIdle_of_received ((receiveAs_of_good (Nat.le_of_lt hp) ht).trans hrecv)
  case lnak =>
    have hseq : sequenced fl.typ = false := by rw [ht]; rfl
    have hrecv := receive_of_unsequenced (Nat.ne_of_lt hp) hup (by omega) hseq
    exact execLnak_of_taken ((receiveAs_of_good (Nat.le_of_lt hp) ht).trans hrecv)
  case outOfSequence =>
    subst hu
    have hseq : sequenced fl.typ = true := by rw [ht]; rfl
    have hrecv := receive_of_out_of_sequence (Nat.ne_of_lt hp) hup (by omega) hseq hne
    exact execData_of_discarded ((receiveAs_of_good (Nat.le_of_lt hp) ht).trans hrecv)

/-! ### Answers to a SEND (R453 to R455, Table 13.9) -/

section
variable {s u : State} {p : Nat} {f : Flit} {good : Bool} {m : SendMsg}

theorem execAck_of_answered (hr : receiveXctrl 1 s p f good = (u, true)) (hm : answered u f = some m) :
    execAck p f good s = .next (sendAcked u m) := by
  simp only [execAck, hr, hm, Bool.not_true, Bool.false_eq_true, if_false]

theorem execNack_of_answered (hr : receiveXctrl 2 s p f good = (u, true)) (hm : answered u f = some m) :
    execNack p f good s = .next (nacked u m (bits (fieldAt f.payload 0 4) 27 24)) := by
  simp only [execNack, hr, hm, Bool.not_true, Bool.false_eq_true, if_false]

end

section
variable {s : State} {m : SendMsg} {reason : Nat} (hfirst : m.resent = false)
include hfirst

/-- A stale or missing role: the message goes out again once its entry has another epoch. -/
theorem nacked_of_role (hreason : reason = 1 ∨ reason = 2) :
    nacked s m reason = if newEpoch s m then resendMsg s m true
      else setSend s m { m with phase := .waitEpoch, lastTx := s.ftime.toNat } := by
  simp only [nacked, hfirst, Bool.false_eq_true, if_false, if_pos hreason]

theorem nacked_of_busy : nacked s m 5 = setSend s m { m with phase := .waitBusy, lastTx := s.ftime.toNat } := by
  simp [nacked, hfirst]

theorem nacked_of_mismatch (hreason : reason = 3 ∨ reason = 4) : nacked s m reason = sendFailed s m 0x0404 := by
  obtain rfl | rfl := hreason <;> simp [nacked, hfirst]

theorem nacked_of_no_route (hreason : reason = 6 ∨ reason = 7) : nacked s m reason = sendFailed s m 0x0402 := by
  obtain rfl | rfl := hreason <;> simp [nacked, hfirst]

end

/-! ### Timeouts of messages (R452, R453) -/

theorem execMessageInputTimeout_of_landing {s : State} {slot pool src id gen port len t : Nat} {bs : List Byte}
    (h : poolAt s slot pool = .landing src id gen port len t bs) :
    execMessageInputTimeout slot pool s = .next (dropLanding s slot pool) := by
  simp only [execMessageInputTimeout, h]

section
variable {s : State} {i : Nat} {m : SendMsg} (hm : s.fab.sends[i]? = some m)
include hm

theorem execAckTimeout_of_due (hph : m.phase = .waitAck) (hdue : m.lastTx + ackTimeout s ≤ s.ftime.toNat) :
    execAckTimeout i s = .next (sendFailed s m 0x0403) := by
  simp only [execAckTimeout, hm, if_pos (And.intro hph hdue)]

theorem execResendWaitExpiry_of_due (hph : m.phase = .waitEpoch) (hold : newEpoch s m = false)
    (hdue : m.lastTx + resendWait s ≤ s.ftime.toNat) : execResendWaitExpiry i s = .next (sendFailed s m 0x0401) := by
  simp only [execResendWaitExpiry, hm, hph, hold, ne_eq, not_true_eq_false, Bool.false_eq_true, if_false, if_pos hdue]

/-- Once busy_retry has passed, ack_timeout since the first transmission decides between failure and another try. -/
theorem execBusyRetryExpiry_of_due (hph : m.phase = .waitBusy) (hdue : m.lastTx + busyRetry s ≤ s.ftime.toNat) :
    execBusyRetryExpiry i s =
      .next (if m.firstTx + ackTimeout s ≤ s.ftime.toNat then sendFailed s m 0x0403 else resendMsg s m false) := by
  simp only [execBusyRetryExpiry, hm, hph, ne_eq, not_true_eq_false, false_or, if_neg (Nat.not_lt.2 hdue)]

end

/-- Settles O40: one rule per answer and per timeout. -/
theorem messageAnswersAndTimeoutsComplete : Obligations.MessageAnswersAndTimeoutsComplete := by
  refine ⟨fun p fl good m s u hr hm => execAck_of_answered hr hm, fun p reason fl good m s u hr hm hreason hfirst => ?nack,
    fun slot pool src id gen port len t bs s h => execMessageInputTimeout_of_landing h,
    fun i m s hm hph hdue => execAckTimeout_of_due hm hph hdue,
    fun i m s hm hph hold hdue => execResendWaitExpiry_of_due hm hph hold hdue, fun i m s hm hph hdue => ?busyRetry⟩
  case nack =>
    have hrow : exec (.nack p fl good) s = .next (nacked u m reason) := hreason ▸ execNack_of_answered hr hm
    rw [hrow]
    refine ⟨fun h => ?busy, fun h => ?mismatch, fun h => ?noRoute, fun h hnew => ?newEpoch, fun h hold => ?oldEpoch⟩ <;>
      refine congrArg Host.Outcome.next ?_
    case busy => exact h ▸ nacked_of_busy hfirst
    case mismatch => exact nacked_of_mismatch hfirst h
    case noRoute => exact nacked_of_no_route hfirst h
    case newEpoch => rw [nacked_of_role hfirst h, if_pos hnew]
    case oldEpoch => rw [nacked_of_role hfirst h, hold]; rfl
  case busyRetry =>
    have hrow : exec (.busyRetryExpiry i) s = _ := execBusyRetryExpiry_of_due hm hph hdue
    rw [hrow]
    exact ⟨fun hlate => congrArg Host.Outcome.next (if_pos hlate),
      fun hearly => congrArg Host.Outcome.next (if_neg (Nat.not_le.2 hearly))⟩

/-! ### Roles of a range pair (R456 to R464) -/

section
variable {s : State}

theorem pairResync_of_front (hon : pairOn s = true) (hfront : isRear s = false) : pairResync s = startSync s := by
  simp only [pairResync, hon, hfront, Bool.not_false, Bool.and_self, if_true]

/-- Off a front, the guard that resync and handover share fails. -/
theorem front_guard_false (h : pairOn s = false ∨ isRear s = true) : (pairOn s && !isRear s) = false := by
  obtain h | h := h <;> simp [h]

theorem pairResync_of_not_front (h : pairOn s = false ∨ isRear s = true) : pairResync s = s := by
  simp only [pairResync, front_guard_false h, Bool.false_eq_true, if_false]

theorem pairHandover_of_not_front (h : pairOn s = false ∨ isRear s = true) : pairHandover s = s := by
  simp only [pairHandover, front_guard_false h, Bool.false_and, Bool.false_eq_true, if_false]

/-- While a job stands, the handover of a PAIRED front only waits. -/
theorem pairHandover_of_jobs (hon : pairOn s = true) (hfront : isRear s = false) (hpaired : pairState s = 2)
    (hjobs : ∃ x ∈ s.jobs, x.2.isSome = true) : pairHandover s = { s with fab := { s.fab with handover := true } } := by
  have hwait : (s.jobs.any fun x => x.2.isSome) = true := List.any_eq_true.2 hjobs
  simp only [pairHandover, hon, hfront, hpaired, Bool.not_false, beq_self_eq_true, Bool.and_self, if_true, handoverStep, hwait, or_true]

/-- The mirror is done when nothing but heartbeats waits at the pair ports (R458). -/
theorem execPairMirrorDone_of_sent (hon : pairOn s = true) (hfront : isRear s = false) (hsync : pairState s = 1)
    (hsent : ∀ p ∈ pairPorts s, ∀ q ∈ (getPort s p).pair, q.flit.payload.headD 0 = 1) :
    execPairMirrorDone s = .next (setPairState s 2) := by
  have hall : ((pairPorts s).all fun p => (getPort s p).pair.all fun q => q.flit.payload.headD 0 == 1) = true := by
    simpa only [List.all_eq_true, beq_iff_eq] using hsent
  simp only [execPairMirrorDone, hon, hfront, hsync, hall, Bool.not_false, beq_self_eq_true, Bool.and_self, if_true]

theorem pairState_setPairState (hi : s.Inv) (v : Nat) : pairState (setPairState s v) = v % 8 :=
  regFld_regSetFld hi (by decide)

theorem setJournal_fab (l : List JEntry) : (setJournal s l).fab = { s.fab with journal := l } := regSetFld_fab ..

theorem takeOver_of_not_paired_rear (h : pairOn s = false ∨ isRear s = false ∨ pairState s ≠ 2) (kind : Nat) :
    takeOver s kind = s := by
  have hguard : (!pairOn s || !isRear s || s.fab.serving || pairState s != 2) = true := by
    obtain h | h | h := h <;> simp [h]
  exact if_pos hguard

/-- Journal entries that come back as descriptors change nothing of the fabric's own state. -/
theorem foldl_rerunEntry_fab (l : List JEntry) : (l.foldl rerunEntry s).fab = s.fab :=
  (Within.foldl (.refl 16 s) fun _ _ h => rerunEntry_within h (sub_of rfl)).fab rfl

theorem execProbeTimeout_of_due {n : Nat} (hprobe : s.fab.probe = some n) (hdue : n + probeTicks s ≤ s.ftime.toNat) :
    execProbeTimeout s = .next (takeOver s 1) := by
  simp only [execProbeTimeout, hprobe, if_pos hdue]

end

section
variable {s : State} (hon : pairOn s = true) (hrear : isRear s = true) (hpaired : pairState s = 2) (hidle : s.fab.serving = false)
include hon hrear hpaired hidle

/-- A PAIRED rear that takes over serves from then on, and its journal is empty, whatever it held. -/
theorem takeOver_of_paired_rear (kind : Nat) :
    (takeOver s kind).fab.serving = true ∧ (takeOver s kind).fab.tookOver = kind ∧ (takeOver s kind).fab.journal = [] := by
  have hguard : (!pairOn s || !isRear s || s.fab.serving || pairState s != 2) = false := by simp [hon, hrear, hpaired, hidle]
  simp only [takeOver, hguard, Bool.false_eq_true, if_false, sbAlert_fab, setJournal_fab,
    foldl_rerunEntry_fab, and_self]

/-- A rear that has missed its front's heartbeats notes the time of its probe. -/
theorem execHeartbeatMiss_of_due (hprobe : s.fab.probe = none) (hdue : s.fab.heard + missTicks s ≤ s.ftime.toNat) :
    ∃ t, execHeartbeatMiss s = .next t ∧ t.fab.probe = some s.ftime.toNat := by
  simp only [execHeartbeatMiss, hon, hrear, hpaired, hidle, hprobe, hdue, beq_self_eq_true, Bool.not_false, Option.isNone_none,
    decide_true, Bool.and_self, if_true]
  exact ⟨_, rfl, rfl⟩

end

/-- Settles O41: one rule per role and outcome; a takeover by write and one after a probe share `takeOver_of_paired_rear`. -/
theorem pairRolesComplete : Obligations.PairRolesComplete := by
  refine ⟨fun s hon hfront => congrArg Host.Outcome.next (pairResync_of_front hon hfront),
    fun s h => ⟨congrArg Host.Outcome.next (pairResync_of_not_front h), congrArg Host.Outcome.next (pairHandover_of_not_front h)⟩,
    fun s hon hfront hsync hi hsent =>
      ⟨setPairState s 2, execPairMirrorDone_of_sent hon hfront hsync hsent, pairState_setPairState hi 2, rfl⟩,
    fun s hon hfront hpaired hjobs => congrArg Host.Outcome.next (pairHandover_of_jobs hon hfront hpaired hjobs),
    fun s h => congrArg Host.Outcome.next (takeOver_of_not_paired_rear h 2),
    fun s hon hrear hpaired hidle _ => ⟨_, rfl, takeOver_of_paired_rear hon hrear hpaired hidle 2⟩,
    fun s n hon hrear hpaired hidle _ hprobe hdue => ?probeTimeout,
    fun s hon hrear hpaired hidle hprobe hdue => execHeartbeatMiss_of_due hon hrear hpaired hidle hprobe hdue⟩
  case probeTimeout =>
    obtain ⟨hserving, htook, -⟩ := takeOver_of_paired_rear hon hrear hpaired hidle 1
    exact ⟨_, execProbeTimeout_of_due hprobe hdue, hserving, htook⟩

/-! ### Probes and TAKEOVER (R462, R464) -/

section
variable {s u : State} {p : Nat} {f : Flit} {good : Bool}

/-- A probe is answered; a front in SYNCING, PAIRED or NOT_READY that has answered one is ALONE. -/
theorem execProbe_of_received (hr : receiveXctrl 3 s p f good = (u, true)) {v : State} (hv : v = sendXctrl u f.src 4 0 0 0 0 0) :
    execProbe p f good s = .next (if pairOn v && !isRear v && (pairState v == 1 || pairState v == 2 || pairState v == 3)
      then setPairState v 4 else v) := by
  simp only [execProbe, hr, hv, Bool.not_true, Bool.false_eq_true, if_false]

theorem execProbeAck_of_rear (hr : receiveXctrl 4 s p f good = (u, true)) (hon : pairOn u = true) (hrear : isRear u = true) :
    execProbeAck p f good s = .next { u with fab := { u.fab with probe := none, heard := u.ftime.toNat } } := by
  simp only [execProbeAck, hr, hon, hrear, Bool.not_true, Bool.false_eq_true, Bool.and_self, if_false, if_true]

theorem execTakeover_over_fabric (hport : 32 ≤ p ∨ isPairPort s p = false) (hr : receiveXctrl 5 s p f good = (u, true))
    (hon : pairOn u = true) : execTakeover p f good s = .next (if isRear u then becomeFront u else fenceFront u) := by
  have hfab : ¬(p < 32 ∧ isPairPort s p = true) := fun ⟨hp, hpair⟩ =>
    hport.elim (Nat.not_le.2 hp) fun h => Bool.false_ne_true (h.symm.trans hpair)
  simp only [execTakeover, if_neg hfab, hr, hon, Bool.not_true, Bool.false_eq_true, if_false, if_true]

end

/-! ### The items of a pair (R460, R461) -/

section
variable {s u : State} {p : Nat} {f : Flit} {good : Bool} {b : List Byte}

/-- A whole item is acted on by its row. -/
theorem pairRow_of_item {kind : Nat} (act : State → List Byte → State) (hr : receivePair kind s p f good = (u, some b)) :
    pairRow kind act p f good s = .next (act u b) := by
  simp only [pairRow, hr]

/-- The journal takes entries up to 4,096; the model makes the pair NOT_READY when it is full. -/
theorem execJournal_of_item (hr : receivePair 3 s p f good = (u, some b)) :
    execJournal p f good s = .next (if u.fab.journal.length < 4096 then
      setJournal u (u.fab.journal ++ [⟨fieldAt b 0 1 % 64, fieldAt b 1 1, fieldAt b 2 2, (b.drop 4).take 64⟩]) else notReady u) :=
  pairRow_of_item _ hr

/-- Mirrored bytes that lie within a live buffer go to the same handle and offset. -/
theorem execMirror_of_item {x : Buf} (hr : receivePair 4 s p f good = (u, some b))
    (hx : resolve u (hFn (fieldAt b 0 4)) (fieldAt b 0 4) = (0, x)) (hfit : fieldAt b 4 4 + (b.drop 8).length ≤ x.size) :
    execMirror p f good s = .next (writeT u (x.base + fieldAt b 4 4) (plain (b.drop 8))) := by
  rw [execMirror, pairRow_of_item _ hr]
  simp only [hx, ne_eq, not_true_eq_false, false_or, if_neg (Nat.not_lt.2 hfit)]

/-- A commit retires its journal entry and joins the bytes that the rear will digest. -/
theorem execCommit_of_item {v : State} (hr : receivePair 5 s p f good = (u, some b))
    (hv : v = setJournal u (u.fab.journal.filter fun j =>
      !(j.fn == fieldAt b 0 1 && j.ring == fieldAt b 1 1 && j.index == fieldAt b 2 2))) :
    execCommit p f good s = .next { v with fab := { v.fab with
      commitLog := v.fab.commitLog ++ b.take 6 ++ (chunksOf 16 (b.drop 6)).flatMap (storedOut v) } } := by
  subst hv
  exact pairRow_of_item _ hr

/-- The front's digest either matches the rear's own, or the pair is NOT_READY (R461). -/
theorem execDigest_of_item {v : State} (hr : receivePair 6 s p f good = (u, some b))
    (hv : v = { u with fab := { u.fab with commitLog := [] } }) :
    execDigest p f good s = .next (if b = digestBytes (sha384 u.fab.commitLog) then v
      else notReady (sbAlert (dayEvent (bump v 0x2022C) 0x0601 0xFF 0 []))) := by
  subst hv
  exact pairRow_of_item _ hr

end

/-- Settles O42: each item's row is one action on the whole item. -/
theorem pairItemsComplete : Obligations.PairItemsComplete := by
  refine ⟨fun p fl good s u hr hoff => ?answered, fun p fl good s u v hr hv hon hfront hpaired => ?alone,
    fun p fl good s u hr hon hrear => execProbeAck_of_rear hr hon hrear,
    fun p fl good s u hport hr hon => execTakeover_over_fabric hport hr hon,
    fun p fl good b s u hr => pairRow_of_item takeHeartbeat hr, fun p fl good b s u hr => pairRow_of_item takeState hr,
    fun p fl good b s u hr => ⟨fun hroom => ?stored, fun hfull => ?full⟩,
    fun p fl good b x s u hr hx hfit => execMirror_of_item hr hx hfit, fun p fl good b s u v hr hv => execCommit_of_item hr hv,
    fun p fl good b s u v hr hv => ⟨fun hsame => ?sameDigest, fun hdiff => ?otherDigest⟩⟩
  case answered =>
    refine (execProbe_of_received hr rfl).trans (congrArg Host.Outcome.next (if_neg ?_))
    simp only [hoff, Bool.false_and, Bool.false_eq_true, not_false_eq_true]
  case alone =>
    refine (execProbe_of_received hr hv).trans (congrArg Host.Outcome.next (if_pos ?_))
    simp only [hon, hfront, hpaired]
    decide
  case stored => exact (execJournal_of_item hr).trans (congrArg Host.Outcome.next (if_pos hroom))
  case full => exact (execJournal_of_item hr).trans (congrArg Host.Outcome.next (if_neg (Nat.not_lt.2 hfull)))
  case sameDigest => exact (execDigest_of_item hr hv).trans (congrArg Host.Outcome.next (if_pos hsame))
  case otherDigest => exact (execDigest_of_item hr hv).trans (congrArg Host.Outcome.next (if_neg hdiff))

end Sys2Proof.Machine

/-! Chapters 14 and 15: what a command leaves of the Daymark, the Keeper, time and the fabric, the rows of the fabric tick and of the
schedule, and those of the Keeper and the PLLs, first as one rule for each outcome of a row, then the statements. -/

namespace Sys2Proof.Machine

/-- Every part of the state but one, as a mask of `Within`. -/
def partsBut (p : Part) : Nat := 0x3FFFFF - 2 ^ p.no

/-- Settles O10: `exec_within` bounds what a command changes by its parts. -/
theorem frameOfKeeperTimeAndFabric : Obligations.FrameOfKeeperTimeAndFabric := by
  refine ⟨fun c s t h => ?_, fun c s t h => ?_⟩
  · have hwithin := exec_within h
    exact ⟨fun hp => hwithin.day (partsMask_testBit hp), fun hp => hwithin.keeper (partsMask_testBit hp),
      fun hp e i => by simp only [eicStack, hwithin.eic (partsMask_testBit hp)], fun hp => hwithin.start (partsMask_testBit hp),
      fun hp => hwithin.maint (partsMask_testBit hp)⟩
  · have hwithin := exec_within h
    exact ⟨fun hp => hwithin.ftime (partsMask_testBit hp), fun hp => hwithin.sched (partsMask_testBit hp),
      fun hp => hwithin.fab (partsMask_testBit hp), fun hp => hwithin.pke (partsMask_testBit hp)⟩

/-! ### Accepted ticks (R468 to R475) -/

/-- A tick that is accepted with value v puts v into the counter, and nothing that the tick then does moves it (R468, R480). -/
@[simp] theorem acceptTick_ftime (s : State) (v dt origin hops : Nat) : (acceptTick s v dt origin hops).ftime = BitVec.ofNat 64 v := by
  unfold acceptTick
  extract_lets s0 _ s1 s2 s3 s4 s5 s6 s7 s8 s9 _ s10 s11
  have h2 : Within (partsBut .ftime) s1 s2 := regSet_within (regSetPair_within (.refl _ _) (sub_of rfl)) (sub_of rfl)
  have h3 : Within (partsBut .ftime) s1 s3 := .ite (regSetFld_within h2 (sub_of rfl)) h2
  have h4 : Within (partsBut .ftime) s1 s4 := forwardTick_within h3 (sub_of rfl)
  have h5 : Within (partsBut .ftime) s1 s5 := .ite (emit_within h4 (sub_of rfl)) h4
  have h7 : Within (partsBut .ftime) s1 s7 := markDue_within (latchPower_within h5 (sub_of rfl)) (sub_of rfl)
  have h8 : Within (partsBut .ftime) s1 s8 := .ite (takeStrobe_within h7 (sub_of rfl)) h7
  have h9 : Within (partsBut .ftime) s1 s9 := updatePaces_within (grantAll_within h8 (sub_of rfl)) (sub_of rfl)
  have h10 : Within (partsBut .ftime) s1 s10 := countHeld_within (h9.upd_sched (sub_of rfl)) (sub_of rfl)
  have h11 : Within (partsBut .ftime) s1 s11 := .ite (h10.foldl fun _ _ h => pairOnPort_within h (sub_of rfl)) h10
  exact (rerunStep_within (handoverStep_within h11 (sub_of rfl)) (sub_of rfl)).ftime rfl

/-- A field write leaves the bits of its register outside the field. -/
theorem bit_regSetFld_outside {s : State} (hinv : s.Inv) {o hi lo v j : Nat} (hj : j < 32) (hout : j < lo ∨ hi < j) :
    bit (regGet (regSetFld s o hi lo v) o).toNat j = bit (regGet s o).toNat j := by
  have hfield : ¬(lo ≤ j ∧ j - lo < hi + 1 - lo) := by omega
  rw [bit_eq, bit_eq, regSetFld, regGet_regSet_same hinv]
  exact (getLsbD_putBits hj).trans (if_neg hfield)

@[simp] theorem endFallback_ftime (s : State) : (endFallback s).ftime = s.ftime := regSetFld_ftime _ _ _ _ _

/-- The end of fallback leaves FT_STATUS.armed. -/
theorem armed_endFallback {s : State} (hinv : s.Inv) : bit (regGet (endFallback s) 0x30004).toNat 5 = bit (regGet s 0x30004).toNat 5 :=
  bit_regSetFld_outside hinv (by decide) (.inr (by decide))

theorem ftSet_endFallback (s : State) : regPair (endFallback s) 0x30010 = regPair s 0x30010 := by
  simp only [regPair, endFallback, regSetFld, regGet_regSet_ne _ (show (0x30010 : Nat) ≠ 0x30004 by decide),
    regGet_regSet_ne _ (show (0x30010 + 4 : Nat) ≠ 0x30004 by decide)]

section
variable {s : State} {dt : Nat}

theorem ofNat_ftime_add_one : BitVec.ofNat 64 (s.ftime.toNat + 1) = s.ftime + 1 := by
  rw [BitVec.ofNat_add, BitVec.ofNat_toNat, BitVec.setWidth_eq]
  rfl

/-- Where no value is armed, a tick of SYNC_IN or LOCAL advances the counter by 1 (R470). -/
theorem acceptLocal_ftime_of_unarmed (harmed : bit (regGet s 0x30004).toNat 5 = false) : (acceptLocal s dt).ftime = s.ftime + 1 := by
  simp only [acceptLocal, harmed, Bool.false_eq_true, if_false, acceptTick_ftime, ofNat_ftime_add_one]

/-- It takes an armed value that exceeds the counter (R474). -/
theorem acceptLocal_ftime_of_armed (harmed : bit (regGet s 0x30004).toNat 5 = true) : (acceptLocal s dt).ftime =
    if s.ftime.toNat < regPair s 0x30010 then BitVec.ofNat 64 (regPair s 0x30010) else s.ftime + 1 := by
  simp only [acceptLocal, harmed, if_true, apply_ite State.ftime, acceptTick_ftime, ofNat_ftime_add_one]

/-! ### The rows of the tick -/

section
variable (hruns : timeRuns s = true)
include hruns

section
variable (hsrc : tickSource s = 0)
include hsrc

theorem execSyncInEdge_of_early (hearly : dt < 25) : execSyncInEdge dt s = .next (bump s 0x30040) := by
  simp only [execSyncInEdge, hruns, hsrc, if_pos hearly, Bool.not_true, bne_self_eq_false, Bool.or_self, Bool.false_eq_true, if_false]

theorem execSyncInEdge_of_accepted (hdt : 25 ≤ dt) : execSyncInEdge dt s = .next (acceptLocal (endFallback s) dt) := by
  simp only [execSyncInEdge, hruns, hsrc, if_neg (Nat.not_lt.2 hdt), Bool.not_true, bne_self_eq_false, Bool.or_self,
    Bool.false_eq_true, if_false]

end

/-- A local tick of another source than TICK is accepted as one of SYNC_IN is (R469, R475). -/
theorem execLocalTick_of_accepted (hlocal : localRuns s = true) (hint : s.sched.localInt ≤ dt) (hdt : 25 ≤ dt)
    (hsrc : tickSource s ≠ 1) : execLocalTick dt s = .next (acceptLocal (if tickSource s = 2 then endFallback s else s) dt) := by
  simp only [execLocalTick, hruns, hlocal, Nat.not_lt.2 hint, if_neg (Nat.not_lt.2 hdt), if_neg hsrc, Bool.not_true, decide_false,
    Bool.or_self, Bool.false_eq_true, if_false]

/-- Without fallback the watchdog sets missing, is recorded, and tells the Keeper (R475). -/
theorem execTickWatchdogExpiry_of_no_fallback {u : State} (hsrc : tickSource s ≠ 2) (hlimit : 100 * watchdogLimit s ≤ dt)
    (hu : u = raiseSrc (sbAlert (dayEvent (regSetFld s 0x30004 0 0 1) 0x0203 12 0 [tickSource s])) 12 34)
    (hoff : bit (regGet u 0x30000).toNat 16 = false) : execTickWatchdogExpiry dt s = .next u := by
  subst hu
  simp only [execTickWatchdogExpiry, hruns, hoff, beq_false_of_ne hsrc, Nat.not_lt.2 hlimit, Bool.not_true, decide_false, Bool.or_self,
    Bool.false_and, Bool.false_eq_true, if_false]

/-- A TICK on the configured port whose value lies above the counter gives it that value (R471). -/
theorem acceptFlitTick_ftime {p : Nat} {fl : Flit} (hsrc : tickSource s = 1) (hport : p = regFld s 0x30000 12 8) (hdt : 25 ≤ dt)
    (habove : s.ftime.toNat < fieldAt fl.payload 0 8) :
    (acceptFlitTick s p fl dt).ftime = BitVec.ofNat 64 (fieldAt fl.payload 0 8) := by
  simp only [acceptFlitTick, hruns, hsrc, ← hport, if_neg (Nat.not_lt.2 hdt), if_neg (Nat.not_le.2 habove), Bool.not_true,
    bne_self_eq_false, Bool.or_self, Bool.false_eq_true, if_false, acceptTick_ftime]

end
end

/-- A TICK flit that a port other than the pair's has received is a candidate (R459, R471). -/
theorem execTick_of_received {s u : State} {p dt : Nat} {fl : Flit} {good : Bool} (hr : receiveAs 4 s p fl good = (u, true))
    (hpair : isPairPort u p = false) : execTick p fl good dt s = .next (acceptFlitTick u p fl dt) := by
  simp only [execTick, hr, hpair, Bool.not_false, Bool.and_self, if_true]

/-- Settles O34: one rule for each row's accepted candidate, and `acceptTick_ftime` for the value that the counter takes. -/
theorem acceptedTicksAdvanceFabricTime : Obligations.AcceptedTicksAdvanceFabricTime := by
  refine ⟨fun dt s hruns hsrc hearly => execSyncInEdge_of_early hruns hsrc hearly, fun dt s hruns hsrc hdt hinv harmed => ?edge,
    fun dt s hruns hsrc hdt hinv harmed => ?armedEdge, fun dt s hruns hlocal hint hdt hsrc hinv harmed => ?localTick,
    fun p dt fl good s u hr hpair hruns hsrc hport hdt habove =>
      ⟨_, execTick_of_received hr hpair, acceptFlitTick_ftime hruns hsrc hport hdt habove⟩,
    fun dt s u hruns hsrc hlimit hu hoff => ?watchdog⟩
  case edge =>
    refine ⟨_, execSyncInEdge_of_accepted hruns hsrc hdt, ?_⟩
    rw [acceptLocal_ftime_of_unarmed ((armed_endFallback hinv).trans harmed), endFallback_ftime]
  case armedEdge =>
    refine ⟨_, execSyncInEdge_of_accepted hruns hsrc hdt, ?_⟩
    rw [acceptLocal_ftime_of_armed ((armed_endFallback hinv).trans harmed), endFallback_ftime, ftSet_endFallback]
  case localTick =>
    refine ⟨_, execLocalTick_of_accepted hruns hlocal hint hdt hsrc, ?_⟩
    split
    · rw [acceptLocal_ftime_of_unarmed ((armed_endFallback hinv).trans harmed), endFallback_ftime]
    · exact acceptLocal_ftime_of_unarmed harmed
  case watchdog =>
    refine ⟨u, execTickWatchdogExpiry_of_no_fallback hruns hsrc hlimit hu hoff, rfl, ?_⟩
    rw [hu, raiseSrc_ftime, sbAlert_ftime, dayEvent_ftime, regSetFld_ftime]

/-! ### Schedule entries that fire (R477 to R480) -/

section
variable {s : State} {n : Nat} {e : SchedEnt}

section
variable (hnext : nextFiring s = some n) (he : getSched s n = some e)
include hnext he

/-- The next entry that is due fires at the row of its action. -/
theorem fireRow_of_next {a : Nat} (ha : e.action = a) : fireRow a n s = .next (fireEntry s n) := by
  simp only [fireRow, hnext, he, ha, if_true]

/-- At its tick an entry is marked as fired, and its action taken. -/
theorem fireRow_of_on_time {a : Nat} {x : SchedEnt} {t : State} (ha : e.action = a) (hlate : e.late = false)
    (hx : x = { e with due := false, fired := true, firedAt := s.ftime.toNat })
    (hfire : fireAction (setSched s n (some x)) n x = t) : fireRow a n s = .next t := by
  rw [fireRow_of_next hnext he ha, ← hfire]
  subst hx
  simp only [fireEntry, he, hlate, Bool.false_eq_true, if_false]

end

/-! Table 14.3. -/

theorem fireAction_hold {k : Nat} (ha : e.action = 1) (hring : bits e.arg 4 0 < 16) (hk : k = e.fn * 16 + bits e.arg 4 0)
    (hfree : s.sched.holds.contains k = false) :
    fireAction s n e = schedEnd { s with sched := { s.sched with holds := s.sched.holds ++ [k] } } n 0 := by
  have hok : ¬15 < bits e.arg 4 0 := by omega
  subst hk
  simp only [fireAction, ha, if_neg hok, hfree, Bool.false_eq_true, if_false]

theorem fireAction_release (ha : e.action = 2) (hring : bits e.arg 4 0 < 16) :
    fireAction s n e = schedEnd (dropHold s e.fn (bits e.arg 4 0)) n 0 := by
  have hok : ¬15 < bits e.arg 4 0 := by omega
  simp only [fireAction, ha, if_neg hok]

theorem fireAction_pace {y : Sector} (ha : e.action = 4) (hsec : getSector s (bits e.arg 5 0) = some y) (hown : y.owner = e.fn) :
    fireAction s n e = schedEnd (regSet s (0x40100 + 4 * bits e.arg 5 0)
      (BitVec.ofNat 32 (bits e.arg 31 16 * 2 ^ 16 + bits e.arg 14 12 * 2 ^ 12 + bits e.arg 10 8 * 2 ^ 8))) n 0 := by
  simp only [fireAction, ha, hsec, hown, if_true]

theorem fireAction_mark (ha : e.action = 7) : fireAction s n e = schedEnd s n 0 := by
  simp only [fireAction, ha]

/-! ### Captures and the admission walk (R483, R484, R497) -/

/-- DONE is no outcome that Table 10.18 counts. -/
theorem schedFail_done : schedFail s n e 0 = schedEnd s n 0 := rfl

/-- The gather of a bank's only user goes to its buffer, and frees the bank. -/
theorem execCaptureGatherEnd_of_only_user {x : CapBank} {b : Buf} {bs : List Byte} (hbank : tget none s.sched.banks 0 = some x)
    (husers : x.users = [n]) (he : getSched s n = some e) (hbuf : resolve s e.fn e.arg = (0, b))
    (hbs : bs = captureBytes s e.fn (tget [] x.tiles n) x) :
    execCaptureGatherEnd n s =
      .next (schedEnd (setBank (writeT (engineAccess s b.base bs.length) b.base (plain bs)) 0 none) n 0) := by
  subst hbs
  simp only [execCaptureGatherEnd, List.find?_cons, hbank, husers, List.contains_cons, beq_self_eq_true, Bool.true_or, he, hbuf,
    List.erase_cons_head, List.isEmpty_nil, if_true, schedFail_done]

theorem execAdmissionWalk_of_due (hdue : nextFiring s ≠ none) : execAdmissionWalk s = .next s := by
  simp only [execAdmissionWalk, Option.isSome_iff_ne_none.2 hdue, if_true]

theorem execAdmissionWalk_of_none_due (hnone : nextFiring s = none) : execAdmissionWalk s = .next (tickWalk s) := by
  simp only [execAdmissionWalk, hnone, Option.isSome_none, Bool.false_eq_true, if_false]

end

/-- Settles O35: every row of Table 14.3 is fireRow with its own action, whose effect is one rule of fireAction. -/
theorem dueEntriesFireAndGather : Obligations.DueEntriesFireAndGather := by
  refine ⟨⟨fun n e s hnext he => ?rows, fun n r e x s hnext he ha hlate hr hring hfree hx => ?hold,
    fun n r e x s hnext he ha hlate hr hring hx => ?release, fun n e x y s hnext he ha hlate hsec hown hx => ?pace,
    fun n e x s hnext he ha hlate hx => ?mark⟩,
    fun n x e b bs s hbank husers he hbuf hbs => execCaptureGatherEnd_of_only_user hbank husers he hbuf hbs,
    fun s hdue => execAdmissionWalk_of_due hdue, fun s hnone hidle => ?between, fun s hnone htick => ?ofTick⟩
  case rows =>
    have hfires (a : Nat) (ha : e.action = a) := fireRow_of_next hnext he ha
    exact ⟨hfires 1, hfires 2, hfires 3, hfires 4, hfires 5, hfires 6, hfires 7⟩
  case hold =>
    subst hx hr
    exact fireRow_of_on_time hnext he ha hlate rfl (fireAction_hold ha hring rfl hfree)
  case release =>
    subst hx hr
    exact fireRow_of_on_time hnext he ha hlate rfl (fireAction_release ha hring)
  case pace =>
    subst hx
    exact fireRow_of_on_time hnext he ha hlate rfl (fireAction_pace ha hsec hown)
  case mark =>
    subst hx
    exact fireRow_of_on_time hnext he ha hlate rfl (fireAction_mark ha)
  case between =>
    refine (execAdmissionWalk_of_none_due hnone).trans (congrArg Host.Outcome.next ?_)
    simp only [tickWalk, hidle, Bool.false_eq_true, if_false]
  case ofTick =>
    refine (execAdmissionWalk_of_none_due hnone).trans (congrArg Host.Outcome.next ?_)
    simp only [tickWalk, htick, if_true]

/-! ### The Keeper's restart (R509) -/

section
variable (s : State)

@[simp] theorem dayRegs_keeper : (dayRegs s).keeper = s.keeper := (dayRegs_within (.refl (partsBut .keeper) s) (sub_of rfl)).keeper rfl

@[simp] theorem dayPut_keeper (r : DayRec) (erase : Bool) : (dayPut s r erase).keeper = s.keeper :=
  (dayPut_within (.refl (partsBut .keeper) s) (sub_of rfl)).keeper rfl

/-- Programming the staged records saves the counts of R511, and leaves which Keeper runs. -/
theorem dayFlush_active : (dayFlush s).keeper.active = s.keeper.active := by
  have hput {t : State} (h : Within (partsBut .keeper) s t) :
      Within (partsBut .keeper) s (t.day.staged.foldl (fun st r => dayPut st r true) t) :=
    h.foldl fun _ _ h => dayPut_within h (sub_of rfl)
  have hrecords := congrArg Keeper.active ((hput (dayLost_within (hput (.refl (partsBut .keeper) s)) (sub_of rfl))).keeper rfl)
  unfold dayFlush
  split
  · rfl
  · exact hrecords

/-- A retry of the Daymark leaves which Keeper runs. -/
theorem dayRetry_active (r : FlashResult) : (dayRetry s r).keeper.active = s.keeper.active := by
  unfold dayRetry
  split
  · rfl
  · extract_lets sec s1 s2 latch seq s3 s4
    cases r with
    | ok =>
      have h3 : Within (partsBut .keeper) s2 s3 := dayEvent_within (.refl _ _) (sub_of rfl)
      have h4 : Within (partsBut .keeper) s2 s4 := .ite (dayEvent_within h3 (sub_of rfl)) h3
      exact (congrArg Keeper.active ((postEvent_within h4 (sub_of rfl)).keeper rfl)).trans (dayFlush_active s1)
    | program | verify | erase | stagingRam => exact congrArg Keeper.active (latchFailure_keeper _ _ _)

/-- The records of a boot leave which Keeper runs. -/
theorem bootRecords_active (k im : Nat) (step : Option Nat) (retry : FlashResult) :
    (bootRecords s k im step retry).keeper.active = s.keeper.active := by
  unfold bootRecords
  rw [dayRetry_active, dayRegs_keeper, dayEvent_keeper]
  cases step with
  | none => rfl
  | some d => rw [dayEvent_keeper]

/-- A Keeper that comes up runs, with the start and memory as they were. -/
theorem bootRecords_keeperUp (k im : Nat) (step : Option Nat) (retry : FlashResult) :
    (bootRecords (keeperUp s k im) k im step retry).keeper.active = k ∧
      (bootRecords (keeperUp s k im) k im step retry).start = s.start ∧
      (bootRecords (keeperUp s k im) k im step retry).mem = s.mem := by
  rw [bootRecords_active, bootRecords_start, bootRecords_mem]
  exact ⟨rfl, rfl, rfl⟩

end

/-- A Keeper that a watchdog restarts: the restarts of the last hour, and this one. -/
def restarted (s : State) : State :=
  { s with keeper := { s.keeper with
    restarts := (s.keeper.restarts.filter fun t => decide (opSeconds s < t + 3600)) ++ [opSeconds s]
    restarting := true } }

section
variable {s : State} {rep : BootReport}

theorem execKeeperWatchdog_of_iod1 (hactive : s.keeper.active = 2) (hruns : keeperRuns rep.fail1 rep.image1 = true) :
    execKeeperWatchdog rep s = .next (bootRecords (keeperUp (restarted s) 2 rep.image1) 2 rep.image1 none rep.retry) := by
  simp [execKeeperWatchdog, hactive, hruns, restarted]

/-- The Keeper of IOD0 stays, up to its second restart within an hour. -/
theorem execKeeperWatchdog_of_iod0 (hactive : s.keeper.active = 1) (hruns : keeperRuns rep.fail0 rep.image0 = true)
    (hfew : (s.keeper.restarts.filter fun t => decide (opSeconds s < t + 3600)).length < 2) :
    execKeeperWatchdog rep s = .next (bootRecords (keeperUp (restarted s) 1 rep.image0) 1 rep.image0 none rep.retry) := by
  have hstays : ¬3 ≤ (s.keeper.restarts.filter fun t => decide (opSeconds s < t + 3600)).length + 1 := by omega
  simp [execKeeperWatchdog, hactive, bootKeeper, hruns, hstays, restarted]

/-- The third hands over to that of IOD1. -/
theorem execKeeperWatchdog_of_failover (hactive : s.keeper.active = 1) (hruns : keeperRuns rep.fail1 rep.image1 = true)
    (hmany : 2 ≤ (s.keeper.restarts.filter fun t => decide (opSeconds s < t + 3600)).length) :
    execKeeperWatchdog rep s = .next (bootRecords (keeperUp (restarted s) 2 rep.image1) 2 rep.image1 (some 4) rep.retry) := by
  have hover : 3 ≤ (s.keeper.restarts.filter fun t => decide (opSeconds s < t + 3600)).length + 1 := by omega
  simp [execKeeperWatchdog, hactive, bootKeeper, hruns, hover, restarted]

/-! ### The grace period, operating seconds and the sample (R511 to R516, R591) -/

theorem execResetGraceExpiry_of_pending {d : Nat} (hgrace : s.start.grace = true) (hd : s.start.pendingReset = some d) :
    execResetGraceExpiry s = .next (takeReset s d) := by
  simp only [execResetGraceExpiry, hgrace, hd, Option.getD_some, if_true]

@[simp] theorem takeReset_cold_start : (takeReset s 3).start =
    { (powerDown s).start with phase := 2, depth := 3, byPerst := false, railRetry := false } := by
  have hcold : takeReset s 3 = beginStart (powerDown s) 2 3 false := by simp [takeReset]
  rw [hcold, beginStart, enterPhase_start, setModState_start]
  rfl

theorem execOpSecondsSave_of_running (hactive : s.keeper.active ≠ 0) : execOpSecondsSave s = .next (saveCounts s) := by
  simp only [execOpSecondsSave, if_neg hactive]

/-- A sample that calls for no shutdown brings every die to its ceiling. -/
theorem execKeeperSample_of_no_shutdown {smp : Sample} {u : State} (hactive : s.keeper.active ≠ 0)
    (hu : u = runConds (rampReg (filterAll (countSecond { s with keeper := { s.keeper with restarting := false } }) smp)))
    (hnone : u.start.phase = 0 ∨ shutCause u = none) : execKeeperSample smp s = .next (setCeilings s u) := by
  have hcause : (if u.start.phase = 0 then none else shutCause u) = none :=
    ite_eq_left_iff.2 fun hphase => hnone.resolve_left hphase
  simp only [execKeeperSample, if_neg hactive, ← hu, hcause]

/-! ### PLLs (R489) -/

variable {die dom : Nat}

/-- A count of attempts other than 0 reads back. -/
theorem pllTries_setPll {n : Nat} (hn : n ≠ 0) : pllTries (setPll s die dom n) die dom = n := by
  rw [pllTries, setPll, regSetFld_sched]
  dsimp only
  rw [tset, if_neg hn, tget_tput_same]

/-- A raised source leaves the PLLs. -/
@[simp] theorem pllTries_raiseSrc (e n : Nat) : pllTries (raiseSrc s e n) die dom = pllTries s die dom := by
  unfold raiseSrc
  split
  · rfl
  · extract_lets s1
    have hsame : pllTries s1 die dom = pllTries s die dom := by simp only [pllTries, s1, setPendingBit_sched]
    split <;> exact hsame

/-- A loss of lock is marked and counted, and the expanders that it takes away are lost to their passes. -/
def lockLost (s : State) (die dom : Nat) : State := loseExpanders (bump (setPll s die dom 1) 0x50008)

theorem lockLost_sched : (lockLost s die dom).sched = (setPll s die dom 1).sched :=
  ((loseExpanders_within (.refl 512 _) (sub_of rfl)).sched rfl).trans (bump_sched _ _)

@[simp] theorem pllTries_lockLost : pllTries (lockLost s die dom) die dom = 1 := by
  rw [pllTries, lockLost_sched]
  exact pllTries_setPll (by decide)

section
variable (hrails : s.start.rails = true) (htries : pllTries s die dom = 0)
include hrails htries

theorem execPllUnlock_of_iod (hdie : die = 12 ∨ die = 13) (hdom : dom = 4) :
    execPllUnlock die dom s = .next (raiseSrc (lockLost s die dom) die 37) := by
  have hexists : pllExists die dom = true := by simp [pllExists, hdie, hdom]
  have hio : ¬die < 12 := by omega
  simp only [execPllUnlock, hexists, hrails, htries, if_neg hio, Bool.not_true, Bool.false_eq_true, ne_eq, not_true_eq_false, or_self,
    if_false, lockLost]

/-- On a compute die the jobs with a stride end. -/
theorem execPllUnlock_of_compute {u : State} (hdie : die < 12) (hdom : dom < 4) (hu : u = raiseSrc (lockLost s die dom) die 70) :
    execPllUnlock die dom s = .next ((jobsOnDie u die).foldl (fun st j => stopJob st j stInternal false) u) := by
  have hexists : pllExists die dom = true := by simp [pllExists, hdie, hdom]
  subst hu
  simp only [execPllUnlock, hexists, hrails, htries, if_pos hdie, Bool.not_true, Bool.false_eq_true, ne_eq, not_true_eq_false, or_self,
    if_false, lockLost]

end

section
variable {n : Nat} (htries : pllTries s die dom = n) (hpos : 1 ≤ n)
include htries hpos

theorem execPllRelock_of_locked (hn : n < 4) :
    execPllRelock die dom true s = .next (dayEvent (setPll s die dom 0) 0x0202 die dom [n, 0]) := by
  have hopen : ¬(n = 0 ∨ 4 ≤ n) := by omega
  simp only [execPllRelock, htries, if_neg hopen, if_true]

/-- The first two failures are followed by another attempt. -/
theorem execPllRelock_of_failed (hn : n < 3) : execPllRelock die dom false s = .next (setPll s die dom (n + 1)) := by
  have hopen : ¬(n = 0 ∨ 4 ≤ n) := by omega
  simp only [execPllRelock, htries, if_neg hopen, if_pos hn, Bool.false_eq_true, if_false]

end

/-- The third fences the tiles of a compute die with cause 7. -/
theorem execPllRelock_of_fenced {u : State} (htries : pllTries s die dom = 3) (hdie : die < 12) (hphase : s.start.phase = 8)
    (hu : u = dayEvent (setPll s die dom 4) 0x0202 die dom [3, 1]) :
    execPllRelock die dom false s = .next (((List.range 34).map (34 * die + ·)).foldl (fun st k => fenceTile st k 7) u) := by
  have hopen : ¬(3 = 0 ∨ 4 ≤ 3) := by decide
  subst hu
  simp only [execPllRelock, htries, if_neg hopen, Nat.lt_irrefl, if_pos (And.intro hdie hphase), Bool.false_eq_true, if_false]

end

/-- Settles O28: one rule per outcome of each row. -/
theorem keeperAndPllCommandsComplete : Obligations.KeeperAndPllCommandsComplete := by
  refine ⟨⟨fun rep s hactive hruns => ⟨_, execKeeperWatchdog_of_iod1 hactive hruns, bootRecords_keeperUp (restarted s) _ _ _ _⟩,
    fun rep s hactive hruns hfew => ⟨_, execKeeperWatchdog_of_iod0 hactive hruns hfew, bootRecords_keeperUp (restarted s) _ _ _ _⟩,
    fun rep s hactive hruns hmany =>
      ⟨_, execKeeperWatchdog_of_failover hactive hruns hmany, bootRecords_keeperUp (restarted s) _ _ _ _⟩,
    fun s hgrace hwarm => ?warm, fun s hgrace hcold => ?cold,
    fun s hactive => ⟨_, execOpSecondsSave_of_running hactive, rfl⟩,
    fun smp s u hactive hu hnone => execKeeperSample_of_no_shutdown hactive hu hnone⟩,
    fun die s hdie hrails htries _ => ?ioLock, fun die dom s u hdie hdom hrails htries hu =>
      execPllUnlock_of_compute hrails htries hdie hdom hu,
    fun die dom n s htries hpos hn => execPllRelock_of_locked htries hpos hn,
    fun die dom n s htries hpos hn => execPllRelock_of_failed htries hpos hn,
    fun die dom s u htries hdie hphase hu => ⟨_, execPllRelock_of_fenced htries hdie hphase hu, rfl⟩⟩
  case warm =>
    refine ⟨_, execResetGraceExpiry_of_pending hgrace hwarm, ?_⟩
    rw [takeReset_warm, beginWarm_start]
    exact ⟨rfl, rfl, rfl, beginWarm_ftime s⟩
  case cold =>
    refine ⟨_, execResetGraceExpiry_of_pending hgrace hcold, ?_⟩
    rw [takeReset_cold_start]
    exact ⟨rfl, rfl, rfl⟩
  case ioLock =>
    exact ⟨_, execPllUnlock_of_iod hrails htries hdie rfl, (pllTries_raiseSrc _ _).trans pllTries_lockLost, rfl⟩

end Sys2Proof.Machine

/-! The step: every command answers a next state, and what `exec_within` then says of it. -/

namespace Sys2Proof.Machine

section
variable (s : State)

/-! The commands that choose a row before they answer; every other one answers at once. -/

theorem execDaymarkProgram_answers (res : FlashResult) : ∃ t, execDaymarkProgram res s = .next t := by
  unfold execDaymarkProgram
  split <;> exact ⟨_, rfl⟩

theorem execFreezeLimitExpiry_answers (m : Nat) : ∃ t, execFreezeLimitExpiry m s = .next t := by
  unfold execFreezeLimitExpiry
  split <;> exact ⟨_, rfl⟩

theorem execEicClaim_answers (e i : Nat) (who : Proc) : ∃ t, execEicClaim e i who s = .next t := by
  unfold execEicClaim
  split
  · split <;> exact ⟨_, rfl⟩
  · exact ⟨_, rfl⟩

theorem execEicComplete_answers (e i src : Nat) : ∃ t, execEicComplete e i src s = .next t := by
  unfold execEicComplete
  split
  · exact ⟨_, rfl⟩
  split
  · split <;> exact ⟨_, rfl⟩
  · exact ⟨_, rfl⟩

theorem execRcRead_answers (m : Master) (r : RegSpan) (n : Nat) : ∃ t, execRcRead m r n s = .next t := by
  unfold execRcRead
  dsimp only
  split
  · exact execEicClaim_answers s ..
  · exact ⟨_, rfl⟩

theorem execPairLoRead_answers (m : Master) (r : RegSpan) : ∃ t, execPairLoRead m r s = .next t := by
  unfold execPairLoRead
  dsimp only
  split <;> exact ⟨_, rfl⟩

/-- No command ends a run. -/
theorem exec_answers (c : Instr) : ∃ t, exec c s = .next t := by
  cases c with
  | daymarkProgram res => exact execDaymarkProgram_answers s res
  | freezeLimitExpiry m => exact execFreezeLimitExpiry_answers s m
  | eicClaim e i who => exact execEicClaim_answers s e i who
  | eicComplete e i src => exact execEicComplete_answers s e i src
  | rcRead m r n => exact execRcRead_answers s m r n
  | pairLoRead m r => exact execPairLoRead_answers s m r
  | _ => exact ⟨_, rfl⟩

theorem step_of_nil {s : State} (h : s.pending = []) : step s = .next s := by simp only [step, h]

theorem step_of_cons {s : State} {c : Instr} {rest : List Instr} (h : s.pending = c :: rest) :
    step s = exec c { s with pending := rest } := by simp only [step, h]

end

/-- The queue is no part of the invariant. -/
theorem inv_pending {s : State} (hi : s.Inv) (l : List Instr) : ({ s with pending := l } : State).Inv := { hi with }

/-- Settles O1: it is the second equation of `step`. -/
theorem stepRunsFrontCommand : Obligations.StepRunsFrontCommand := fun _ _ _ => step_of_cons rfl

/-- Settles O2: it is the first equation of `step`. -/
theorem emptyQueueIdles : Obligations.EmptyQueueIdles := fun _ => step_of_nil

/-- Settles O3: no command ends a run, and `exec_within` bounds what one does to the queue and the free values. -/
theorem everyCommandAnswersANextState : Obligations.EveryCommandAnswersANextState := by
  intro c s
  obtain ⟨t, ht⟩ := exec_answers s c
  exact ⟨t, ht, (exec_within ht).pending, (exec_within ht).free⟩

/-- Settles O5: the queue is no part of the invariant, and `exec_within` keeps it. -/
theorem everyStepKeepsTheInvariant : Obligations.EveryStepKeepsTheInvariant := by
  intro s t hinv hstep
  cases hq : s.pending with
  | nil => exact Host.Outcome.next.inj ((step_of_nil hq).symm.trans hstep) ▸ hinv
  | cons c rest => exact (exec_within ((step_of_cons hq).symm.trans hstep)).inv (inv_pending hinv rest)

end Sys2Proof.Machine

/-! The claim stacks of the Event Interrupt Controllers (chapter 15): the search for the best eligible source, what each command that
claims, completes, writes a register or takes the main rails down leaves of the stacks, and that every step keeps them in order. -/

namespace Sys2Proof.Machine

/-! ### Claim stacks (R536, R537) -/

section
variable {α : Type}

theorem mem_of_mem_tdel {t : Tbl α} {k : Nat} {x : Nat × α} (h : x ∈ tdel t k) : x ∈ t := by
  induction t with
  | nil => exact h
  | cons p t ih =>
    obtain ⟨j, w⟩ := p
    simp only [tdel] at h
    split at h
    · exact List.mem_cons_of_mem _ h
    · exact (List.mem_cons.1 h).elim (fun he => he ▸ List.mem_cons_self) fun ht => List.mem_cons_of_mem _ (ih ht)

theorem mem_of_mem_tput {t : Tbl α} {k : Nat} {v : α} {x : Nat × α} (h : x ∈ tput t k v) : x = (k, v) ∨ x ∈ t := by
  induction t with
  | nil => exact .inl (List.mem_singleton.1 h)
  | cons p t ih =>
    obtain ⟨j, w⟩ := p
    simp only [tput] at h
    split at h
    · exact List.mem_cons.1 h
    · split at h
      · exact (List.mem_cons.1 h).imp_right (List.mem_cons_of_mem _)
      · rcases List.mem_cons.1 h with he | ht
        · exact .inr (he ▸ List.mem_cons_self)
        · exact (ih ht).imp_right (List.mem_cons_of_mem _)

/-- An entry of a table after a write is the one written, or was there before. -/
theorem mem_of_mem_tset [DecidableEq α] {d : α} {t : Tbl α} {k : Nat} {v : α} {x : Nat × α} (h : x ∈ tset d t k v) :
    x = (k, v) ∨ x ∈ t := by
  unfold tset at h
  split at h
  · exact .inr (mem_of_mem_tdel h)
  · exact mem_of_mem_tput h

/-- What a key reads as is the default or an entry of the table. -/
theorem tget_eq_default_or_mem (d : α) (t : Tbl α) (k : Nat) : tget d t k = d ∨ (k, tget d t k) ∈ t := by
  induction t with
  | nil => exact .inl rfl
  | cons p t ih =>
    obtain ⟨j, w⟩ := p
    simp only [tget]
    split
    · next hj => exact .inr (hj ▸ List.mem_cons_self)
    · exact ih.imp_right (List.mem_cons_of_mem _)

end

/-- A claim stack in order, top first: priorities of four bits, each above the one below it. -/
def StackOrdered (l : List (Nat × Nat)) : Prop := l.Pairwise (fun a b => b.2 < a.2) ∧ ∀ y ∈ l, y.2 < 16

/-- Every claim stack is in order. -/
def StacksOrdered (s : State) : Prop := ∀ x ∈ s.eicStack, StackOrdered x.2

theorem stackOrdered_nil : StackOrdered [] := ⟨.nil, nofun⟩

theorem StackOrdered.tail {a : Nat × Nat} {l : List (Nat × Nat)} (h : StackOrdered (a :: l)) : StackOrdered l :=
  ⟨(List.pairwise_cons.1 h.1).2, fun y hy => h.2 y (List.mem_cons_of_mem _ hy)⟩

/-- An entry above the top of a stack goes on it. -/
theorem StackOrdered.push {n p : Nat} {l : List (Nat × Nat)} (h : StackOrdered l) (hp : p < 16) (htop : ∀ y ∈ l.head?, y.2 < p) :
    StackOrdered ((n, p) :: l) := by
  refine ⟨List.pairwise_cons.2 ⟨fun y hy => ?_, h.1⟩, fun y hy => (List.mem_cons.1 hy).elim (fun he => he ▸ hp) (h.2 y)⟩
  cases l with
  | nil => cases hy
  | cons a l =>
    have ha : a.2 < p := htop a rfl
    rcases List.mem_cons.1 hy with rfl | hl
    · exact ha
    · exact Nat.lt_trans ((List.pairwise_cons.1 h.1).1 y hl) ha

/-- Sixteen priorities leave room for 16 entries. -/
theorem StackOrdered.length_le {l : List (Nat × Nat)} (h : StackOrdered l) : l.length ≤ 16 := by
  have hnodup : (l.map (·.2)).Nodup := List.pairwise_map.2 (h.1.imp fun hlt => Nat.ne_of_gt hlt)
  have hsub : l.map (·.2) ⊆ List.range 16 := fun p hp => by
    obtain ⟨y, hy, rfl⟩ := List.mem_map.1 hp
    exact List.mem_range.2 (h.2 y hy)
  simpa using (hnodup.subperm hsub).length_le

section
variable {s t : State}

theorem StacksOrdered.eicStack (h : StacksOrdered s) (e i : Nat) : StackOrdered (eicStack s e i) := by
  rcases tget_eq_default_or_mem [] s.eicStack (4 * e + i) with hnil | hmem
  · exact (congrArg StackOrdered hnil).mpr stackOrdered_nil
  · exact h _ hmem

theorem stacksOrdered_of_empty (h : s.eicStack = []) : StacksOrdered s := fun x hx => by rw [h] at hx; cases hx

theorem StacksOrdered.of_eq (h : StacksOrdered s) (he : t.eicStack = s.eicStack) : StacksOrdered t :=
  fun x hx => h x (he ▸ hx)

/-- An operation that does not have the claim stacks among its parts keeps them. -/
theorem StacksOrdered.of_within {P : Nat} (h : StacksOrdered s) (hw : Within P s t) (hP : P.testBit 14 = false) : StacksOrdered t :=
  h.of_eq (hw.eic hP)

theorem StacksOrdered.setEicStack {l : List (Nat × Nat)} (h : StacksOrdered s) (hl : StackOrdered l) (e i : Nat) :
    StacksOrdered (setEicStack s e i l) :=
  fun x hx => (mem_of_mem_tset hx).elim (fun he => he ▸ hl) (h x)

end

/-! ### The best eligible source (R536) -/

/-- One source of the search of `eicBest`: an eligible one replaces the best so far unless its priority is lower. -/
def claimStep (s : State) (e t : Nat) (acc : Option Nat) (n : Nat) : Option Nat :=
  if eicEligible s e t n then
    (match acc with
      | some m => if eicPriority s e m ≤ eicPriority s e n then some n else acc
      | none => some n)
  else acc

section
variable {s : State} {e t : Nat}

theorem eicBest_eq_foldl : eicBest s e t = eicSources.foldl (claimStep s e t) none := rfl

theorem mem_eicSources {n : Nat} : n ∈ eicSources ↔ 1 ≤ n ∧ n < 512 := by
  simp only [eicSources, List.mem_map, List.mem_range]
  exact ⟨fun ⟨k, hk, hn⟩ => by omega, fun ⟨hlo, hhi⟩ => ⟨n - 1, by omega, by omega⟩⟩

theorem pairwise_eicSources : eicSources.Pairwise (· < ·) :=
  List.pairwise_map.2 (List.pairwise_lt_range.imp Nat.succ_lt_succ)

theorem claimStep_of_not_eligible {n : Nat} (h : eicEligible s e t n = false) (acc : Option Nat) : claimStep s e t acc n = acc := by
  simp only [claimStep, h, Bool.false_eq_true, if_false]

/-- A source that is eligible and has no lower priority than the best so far is the best. -/
theorem claimStep_of_best {n : Nat} {acc : Option Nat} (h : eicEligible s e t n = true)
    (hacc : ∀ m ∈ acc, eicPriority s e m ≤ eicPriority s e n) : claimStep s e t acc n = some n := by
  cases acc with
  | none => simp only [claimStep, h, if_true]
  | some m => simp only [claimStep, h, if_true, if_pos (hacc m rfl)]

/-- A source that is not eligible or has a lower priority leaves the best so far. -/
theorem claimStep_of_below {m n : Nat} (h : eicEligible s e t m = true → eicPriority s e m < eicPriority s e n) :
    claimStep s e t (some n) m = some n := by
  cases hm : eicEligible s e t m with
  | false => exact claimStep_of_not_eligible hm _
  | true => simp only [claimStep, hm, if_true, if_neg (Nat.not_le.2 (h hm))]

/-- What the search ends with was there at its start, or is an eligible source of those searched. -/
theorem eligible_of_foldl_claimStep {l : List Nat} {acc : Option Nat} {n : Nat} (h : l.foldl (claimStep s e t) acc = some n) :
    acc = some n ∨ n ∈ l ∧ eicEligible s e t n = true := by
  induction l generalizing acc with
  | nil => exact .inl h
  | cons m l ih =>
    rcases ih h with hstep | ⟨hmem, helig⟩
    · cases hm : eicEligible s e t m with
      | false => exact .inl ((claimStep_of_not_eligible hm acc).symm.trans hstep)
      | true =>
        cases acc with
        | none =>
          simp only [claimStep, hm, if_true, Option.some.injEq] at hstep
          exact .inr ⟨hstep ▸ List.mem_cons_self, hstep ▸ hm⟩
        | some k =>
          simp only [claimStep, hm, if_true] at hstep
          split at hstep
          · obtain rfl := Option.some.inj hstep
            exact .inr ⟨List.mem_cons_self, hm⟩
          · exact .inl hstep
    · exact .inr ⟨List.mem_cons_of_mem _ hmem, helig⟩

theorem eligible_of_eicBest {n : Nat} (h : eicBest s e t = some n) : eicEligible s e t n = true :=
  (eligible_of_foldl_claimStep h).elim nofun And.right

theorem foldl_claimStep_of_below {l : List Nat} {n : Nat}
    (h : ∀ m ∈ l, eicEligible s e t m = true → eicPriority s e m < eicPriority s e n) :
    l.foldl (claimStep s e t) (some n) = some n := by
  induction l with
  | nil => rfl
  | cons m l ih =>
    rw [List.foldl_cons, claimStep_of_below (h m List.mem_cons_self)]
    exact ih fun k hk => h k (List.mem_cons_of_mem _ hk)

/-- The eligible source of highest priority, among equals the highest number, is the best: those before it do not stand
against it, those after it do not replace it. -/
theorem eicBest_of_best {n : Nat} (hlo : 1 ≤ n) (hhi : n < 512) (helig : eicEligible s e t n = true)
    (hbest : ∀ m, 1 ≤ m → m < 512 → eicEligible s e t m = true →
      eicPriority s e m < eicPriority s e n ∨ (eicPriority s e m = eicPriority s e n ∧ m ≤ n)) :
    eicBest s e t = some n := by
  obtain ⟨before, after, hsplit⟩ := List.append_of_mem (mem_eicSources.2 ⟨hlo, hhi⟩)
  have hrange {m : Nat} (hm : m ∈ before ++ n :: after) : 1 ≤ m ∧ m < 512 := mem_eicSources.1 (hsplit ▸ hm)
  have hrise : ∀ m ∈ after, n < m :=
    (List.pairwise_cons.1 (List.pairwise_append.1 (hsplit ▸ pairwise_eicSources)).2.1).1
  rw [eicBest_eq_foldl, hsplit, List.foldl_append, List.foldl_cons, claimStep_of_best helig ?earlier]
  case earlier =>
    intro m hm
    obtain ⟨hmem, hm⟩ := (eligible_of_foldl_claimStep hm).resolve_left nofun
    obtain ⟨hm1, hm2⟩ := hrange (List.mem_append_left _ hmem)
    rcases hbest m hm1 hm2 hm with h | ⟨h, -⟩
    · exact Nat.le_of_lt h
    · exact Nat.le_of_eq h
  refine foldl_claimStep_of_below fun m hmem hm => ?_
  obtain ⟨hm1, hm2⟩ := hrange (List.mem_append_right _ (List.mem_cons_of_mem _ hmem))
  have hlt := hrise m hmem
  exact (hbest m hm1 hm2 hm).resolve_right fun h => by omega

theorem eicBest_of_none (h : ∀ m, 1 ≤ m → m < 512 → eicEligible s e t m = false) : eicBest s e t = none := by
  cases hb : eicBest s e t with
  | none => rfl
  | some n =>
    obtain ⟨hmem, helig⟩ := (eligible_of_foldl_claimStep hb).resolve_left nofun
    obtain ⟨hlo, hhi⟩ := mem_eicSources.1 hmem
    exact absurd helig (by rw [h n hlo hhi]; decide)

/-- An eligible source lies above the top of its interface's stack (R535). -/
theorem top_lt_of_eligible {n : Nat} (h : eicEligible s e t n = true) : ∀ y ∈ (eicStack s e t).head?, y.2 < eicPriority s e n := by
  intro y hy
  simp only [eicEligible, Bool.and_eq_true] at h
  cases hst : eicStack s e t with
  | nil => rw [hst] at hy; cases hy
  | cons a l =>
    rw [hst] at hy h
    obtain rfl := Option.some.inj hy
    exact of_decide_eq_true h.2

theorem eicPriority_lt (n : Nat) : eicPriority s e n < 16 := Nat.mod_lt _ (by decide)

end

/-! ### The rows of the claim stacks -/

section
variable {s t : State} {e i : Nat}

theorem eicHas_of_interface (he : e < 14) (hi : i < 4) (h0 : 12 ≤ e → i ≠ 0) : eicHas e i = true := by
  have hres : (decide (12 ≤ e) && i == 0) = false := by
    rw [Bool.and_eq_false_imp]
    exact fun h => beq_eq_false_iff_ne.2 (h0 (of_decide_eq_true h))
  simp only [eicHas, he, hi, hres, decide_true, Bool.not_false, Bool.and_self]

/-- A claim by the processor of the interface takes the best eligible source. -/
theorem execEicClaim_of_best {who : Proc} {n : Nat} (hhas : eicHas e i = true) (hwho : procOf s e i = some who)
    (hbest : eicBest s e i = some n) :
    execEicClaim e i who s = .next (emit
      (setEicStack (setPendingBit s e n false) e i ((n, eicPriority s e n) :: eicStack s e i)) (.value (BitVec.ofNat 32 n))) := by
  simp only [execEicClaim, hhas, hwho, hbest, BEq.rfl, Bool.and_self, if_true]

/-- Any other claim returns 0. -/
theorem execEicClaim_of_zero {who : Proc} (h : eicBest s e i = none ∨ procOf s e i ≠ some who) :
    execEicClaim e i who s = .next (emit s (.value 0)) := by
  unfold execEicClaim
  split
  · next hcond =>
    have hwho := eq_of_beq (Bool.and_eq_true_iff.1 hcond).2
    rw [h.resolve_right (not_not_intro hwho)]
  · rfl

/-- A claim pushes a source above the top. -/
theorem execEicClaim_stacksOrdered {who : Proc} (hs : StacksOrdered s) (h : execEicClaim e i who s = .next t) : StacksOrdered t := by
  unfold execEicClaim at h
  split at h
  · split at h
    · next n hbest =>
      obtain rfl := Host.Outcome.next.inj h
      have hpend : StacksOrdered (setPendingBit s e n false) := hs.of_eq (setPendingBit_eicStack ..)
      exact (hpend.setEicStack ((hs.eicStack e i).push (eicPriority_lt n) (top_lt_of_eligible (eligible_of_eicBest hbest))) e i).of_eq rfl
    · exact Host.Outcome.next.inj h ▸ hs.of_eq rfl
  · exact Host.Outcome.next.inj h ▸ hs.of_eq rfl

/-- A stack fault empties the stack. -/
theorem stackFault_stacksOrdered (hs : StacksOrdered s) (src : Nat) : StacksOrdered (stackFault s e i src) := by
  unfold stackFault
  extract_lets st top o s1 s2
  have hpend : StacksOrdered (st.foldl (fun a p => setPendingBit a e p.1 true) s) :=
    hs.of_within (.foldl (.refl (partsBut .eic) s) fun _ _ h => setPendingBit_within h (sub_of rfl)) rfl
  have h1 : StacksOrdered s1 := hpend.setEicStack stackOrdered_nil e i
  exact h1.of_within (dayEvent_within (raiseSrc_within (bump_within (regSet_within (.refl (partsBut .eic) s1) (sub_of rfl)) (sub_of rfl))
    (sub_of rfl)) (sub_of rfl)) rfl

/-- A completion pops the stack or is a stack fault. -/
theorem execEicComplete_stacksOrdered {src : Nat} (hs : StacksOrdered s) (h : execEicComplete e i src s = .next t) : StacksOrdered t := by
  have hst : StackOrdered (eicStack s e i) := hs.eicStack e i
  unfold execEicComplete at h
  split at h
  · exact Host.Outcome.next.inj h ▸ hs
  · split at h
    · next n p l htop =>
      rw [htop] at hst
      split at h
      · exact Host.Outcome.next.inj h ▸ hs.setEicStack hst.tail e i
      · exact Host.Outcome.next.inj h ▸ stackFault_stacksOrdered (hs.setEicStack hst e i) _
    · exact Host.Outcome.next.inj h ▸ stackFault_stacksOrdered hs _

end

/-! ### Register accesses that reach an EIC (R545) -/

section
variable {s t : State}

theorem after_stacksOrdered {o : StepOut} (hs : StacksOrdered s) (ho : ∀ t, o = .next t → StacksOrdered t) :
    StacksOrdered (after o s) := by
  cases o with
  | next t => exact ho t rfl
  | fault | refused => exact hs

theorem eicWrite_stacksOrdered (hs : StacksOrdered s) (who : Option Proc) (e x : Nat) (v : Word) :
    StacksOrdered (eicWrite s who e x v) := by
  have hrefl := Within.refl (partsBut .eic) s
  unfold eicWrite
  split
  · exact hs
  split
  · split
    · exact hs
    · exact hs.of_within (writeSrcCfg_within hrefl (sub_of rfl)) rfl
  split
  · exact after_stacksOrdered hs fun t h => hs.of_within (execEicSwset_within hrefl (sub_of rfl) h) rfl
  split
  · exact after_stacksOrdered hs fun t h => hs.of_within (execEicLock_within hrefl (sub_of rfl) h) rfl
  split
  · exact after_stacksOrdered hs fun t h => execEicComplete_stacksOrdered hs h
  · exact hs

theorem masterWrite_stacksOrdered (hs : StacksOrdered s) (m : Master) (o : Nat) (v : Word) : StacksOrdered (masterWrite s m o v) := by
  unfold masterWrite
  split
  · exact hs
  split
  · exact hs.of_eq (bump_eicStack ..)
  split
  · exact eicWrite_stacksOrdered hs _ _ _ _
  · exact hs.of_within (regWrite_within (.refl (partsBut .eic) s) (sub_of rfl)) rfl

theorem execRegisterWrite_stacksOrdered {m : Master} {off width v : Nat} (hs : StacksOrdered s)
    (h : execRegisterWrite m off width v s = .next t) : StacksOrdered t := by
  obtain rfl := Host.Outcome.next.inj h
  dsimp only
  split
  · exact masterWrite_stacksOrdered hs _ _ _
  split
  · exact hs.of_within (badAccess_within (.refl (partsBut .eic) s) (sub_of rfl)) rfl
  · exact hs

theorem execRcRead_stacksOrdered {m : Master} {at_ : RegSpan} {n : Nat} (hs : StacksOrdered s)
    (h : execRcRead m at_ n s = .next t) : StacksOrdered t := by
  unfold execRcRead at h
  dsimp only at h
  split at h
  · exact execEicClaim_stacksOrdered hs h
  · obtain rfl := Host.Outcome.next.inj h
    exact hs.of_within (emit_within (masterRead_within (.refl (partsBut .eic) s) (sub_of rfl)) (sub_of rfl)) rfl

theorem execPairHiWrite_stacksOrdered {m : Master} {off : Nat} {v : Word} (hs : StacksOrdered s)
    (h : execPairHiWrite m off v s = .next t) : StacksOrdered t := by
  obtain rfl := Host.Outcome.next.inj h
  split
  · exact masterWrite_stacksOrdered hs _ _ _
  · exact hs

theorem execPairLoWrite_stacksOrdered {m : Master} {off : Nat} {v : Word} (hs : StacksOrdered s)
    (h : execPairLoWrite m off v s = .next t) : StacksOrdered t := by
  obtain rfl := Host.Outcome.next.inj h
  split
  · exact masterWrite_stacksOrdered hs _ _ _
  · exact hs

theorem execJobObjPolicyWrite_stacksOrdered {f : Nat} {v : Word} (hs : StacksOrdered s)
    (h : execJobObjPolicyWrite f v s = .next t) : StacksOrdered t := by
  obtain rfl := Host.Outcome.next.inj h
  split
  · exact masterWrite_stacksOrdered hs _ _ _
  · exact hs

theorem sbRow_stacksOrdered {act : State → State} (hs : StacksOrdered s) (hact : StacksOrdered (act s)) (h : sbRow act s = .next t) :
    StacksOrdered t := by
  obtain rfl := Host.Outcome.next.inj h
  split
  · exact hact
  · exact hs

theorem foldl_masterWrite_stacksOrdered (hs : StacksOrdered s) (m : Master) (l : List (Nat × Word)) :
    StacksOrdered (l.foldl (fun u p => masterWrite u m p.1 p.2) s) := by
  induction l generalizing s with
  | nil => exact hs
  | cons p l ih => exact ih (masterWrite_stacksOrdered hs m _ _)

theorem execRegWrite_stacksOrdered {off : Nat} {ws : List Word} (hs : StacksOrdered s) (h : execRegWrite off ws s = .next t) :
    StacksOrdered t := by
  refine sbRow_stacksOrdered hs ?_ h
  dsimp only
  split
  · exact hs.of_eq (sbAnswer_eicStack ..)
  split
  · exact hs.of_eq ((sbAnswer_eicStack ..).trans (bump_eicStack ..))
  · exact (foldl_masterWrite_stacksOrdered hs _ _).of_eq (sbAnswer_eicStack ..)

end

/-! ### The main rails (R518, R519, R590): what goes down with them, and the starts that follow -/

section
variable (s : State)

@[simp] theorem mainReset_eicStack (keep : Nat → Bool) : (mainReset s keep).eicStack = [] :=
  (keepCeilings_within (.refl 1 _) (sub_of rfl)).eic rfl

theorem eicStack_withStart (x : Startup) : ({ s with start := x } : State).eicStack = s.eicStack := rfl

@[simp] theorem powerDown_eicStack : (powerDown s).eicStack = [] :=
  (eicStack_withStart _ _).trans (mainReset_eicStack s standbyReg)

@[simp] theorem enterPhase_eicStack (p : Nat) : (enterPhase s p).eicStack = s.eicStack := setStartStatus_eicStack ..

@[simp] theorem beginStart_eicStack (p depth : Nat) (byPerst : Bool) : (beginStart s p depth byPerst).eicStack = s.eicStack := by
  rw [beginStart, enterPhase_eicStack, setModState_eicStack]

@[simp] theorem beginWarm_eicStack : (beginWarm s).eicStack = [] := by
  simp only [beginWarm, setModState_eicStack, regSetFld_eicStack, mainReset_eicStack]

@[simp] theorem shutdown_eicStack (cause index value : Nat) : (shutdown s cause index value).eicStack = [] := by
  simp only [shutdown, sbAlert_eicStack, regSet_eicStack, setModState_eicStack, dayEvent_eicStack, powerDown_eicStack]

@[simp] theorem failStart_eicStack (phase reason : Nat) : (failStart s phase reason).eicStack = [] := by
  simp only [failStart, sbAlert_eicStack, dayEvent_eicStack, setStartStatus_eicStack, setModState_eicStack, powerDown_eicStack]

@[simp] theorem standBy_eicStack : (standBy s).eicStack = [] := by
  unfold standBy
  dsimp only
  split
  · exact powerDown_eicStack s
  · exact (setModState_eicStack ..).trans (powerDown_eicStack s)

@[simp] theorem takeReset_eicStack (d : Nat) : (takeReset s d).eicStack = [] := by
  unfold takeReset
  split
  · exact shutdown_eicStack ..
  split
  · exact (beginStart_eicStack ..).trans (powerDown_eicStack s)
  · exact beginWarm_eicStack s

end

section
variable {s t : State}

theorem resumeReset_stacksOrdered (hs : StacksOrdered s) (d : Nat) : StacksOrdered (resumeReset s d) := by
  unfold resumeReset
  dsimp only
  split
  · exact stacksOrdered_of_empty (shutdown_eicStack ..)
  split
  · exact stacksOrdered_of_empty ((beginStart_eicStack ..).trans (powerDown_eicStack _))
  · exact hs.of_eq ((enterPhase_eicStack ..).trans (setModState_eicStack ..))

theorem afterPhase_stacksOrdered (hs : StacksOrdered s) (p : Nat) : StacksOrdered (afterPhase s p) := by
  unfold afterPhase
  split
  · exact resumeReset_stacksOrdered hs _
  split
  · exact hs.of_within (deviceReady_within (.refl (partsBut .eic) s) (sub_of rfl)) rfl
  · exact hs.of_eq (enterPhase_eicStack ..)

theorem failStart_stacksOrdered (p r : Nat) : StacksOrdered (failStart s p r) := stacksOrdered_of_empty (failStart_eicStack ..)

theorem execStartPhaseEnd_stacksOrdered {rep : PhaseReport} (hs : StacksOrdered s) (h : execStartPhaseEnd rep s = .next t) :
    StacksOrdered t := by
  obtain rfl := Host.Outcome.next.inj h
  dsimp only
  split
  · exact hs
  split
  · exact hs
  generalize hw : regSet s (0xB0044 + 4 * (s.start.phase - 1)) (BitVec.ofNat 32 (rep.ms % 2 ^ 16)) = s0
  have h0 : StacksOrdered s0 := hw ▸ hs.of_eq (regSet_eicStack ..)
  have hw0 := Within.refl (partsBut .eic) s0
  split
  · split
    · split
      · exact failStart_stacksOrdered _ _
      · exact h0.of_eq rfl
    · exact afterPhase_stacksOrdered (h0.of_within (railsUp_within hw0 (sub_of rfl)) rfl) _
  · have hmarks : Within (partsBut .eic) s0 (rep.badCtls.foldl (fun st c => if c < 272 then markMapOut st c 1 else st) s0) :=
      .foldl hw0 fun _ _ h => .ite (markMapOut_within h (sub_of rfl)) h
    have h1 := h0.of_within (memoryShape_within hmarks (sub_of rfl)) rfl
    split
    · exact afterPhase_stacksOrdered h1 _
    · exact failStart_stacksOrdered _ _
  · exact afterPhase_stacksOrdered (h0.of_within (testResults_within hw0 (sub_of rfl)) rfl) _
  · have h1 := h0.of_within (setEics_within (spareRegs_within (buildFences_within hw0 (sub_of rfl)) (sub_of rfl)) (sub_of rfl)) rfl
    split
    · exact afterPhase_stacksOrdered h1 _
    · exact failStart_stacksOrdered _ _
  · split
    · exact failStart_stacksOrdered _ _
    split
    · exact failStart_stacksOrdered _ _
    · exact afterPhase_stacksOrdered (h0.of_within (idleTiles_within (regSetFld_within hw0 (sub_of rfl)) (sub_of rfl)) rfl) _
  · exact afterPhase_stacksOrdered h0 _

theorem execPhaseTimeout_stacksOrdered (hs : StacksOrdered s) (h : execPhaseTimeout s = .next t) : StacksOrdered t := by
  obtain rfl := Host.Outcome.next.inj h
  dsimp only
  split
  · exact hs
  · exact failStart_stacksOrdered _ _

/-- The standby rail has dropped with all stacks; a boot and a start raise none. -/
theorem execPowerApplied_stacksOrdered {vin : Nat} {rep : BootReport} (hs : StacksOrdered s) (h : execPowerApplied vin rep s = .next t) :
    StacksOrdered t := by
  obtain rfl := Host.Outcome.next.inj h
  split
  · exact hs
  · extract_lets s0 _ s1 s2
    have h1 : StacksOrdered s1 := stacksOrdered_of_empty rfl
    have hw2 : Within (partsBut .eic) s1 s2 := regSet_within (regSet_within (.refl _ _) (sub_of rfl)) (sub_of rfl)
    split
    · exact h1
    · next s3 hboot =>
      exact h1.of_within (beginStart_within (readFieldMaps_within (bootKeeper_within hboot hw2 (sub_of rfl)) (sub_of rfl)) (by decide)
        (sub_of rfl)) rfl

theorem execKeeperWatchdog_stacksOrdered {rep : BootReport} (hs : StacksOrdered s) (h : execKeeperWatchdog rep s = .next t) :
    StacksOrdered t := by
  obtain rfl := Host.Outcome.next.inj h
  split
  · exact hs
  · extract_lets now recent _ s1 out
    have hw1 : Within (partsBut .eic) s s1 := (Within.refl _ s).upd_keeper (sub_of rfl)
    have hdead (k : Keeper) : StacksOrdered (setModState { powerDown s1 with keeper := k } .dead) :=
      (stacksOrdered_of_empty (powerDown_eicStack s1)).of_within
        (setModState_within ((Within.refl (partsBut .eic) _).upd_keeper (sub_of rfl)) (sub_of rfl)) rfl
    split
    · split
      · exact hs.of_within (bootRecords_within (keeperUp_within hw1 (sub_of rfl)) (sub_of rfl)) rfl
      · exact hdead _
    · split
      · next s2 hboot => exact hs.of_within (bootKeeper_within hboot hw1 (sub_of rfl)) rfl
      · exact hdead _

theorem execPowerFail_stacksOrdered {vin : Nat} (hs : StacksOrdered s) (h : execPowerFail vin s = .next t) : StacksOrdered t := by
  obtain rfl := Host.Outcome.next.inj h
  split
  · exact hs
  · extract_lets old _ s0 s1 s2 n
    have h0 : StacksOrdered s0 := stacksOrdered_of_empty (powerDown_eicStack _)
    have hw2 : Within (partsBut .eic) s0 s2 := regSet_within (setModState_within (dayEvent_within (dayEndFreezes_within (.refl _ s0)
      (sub_of rfl)) (sub_of rfl)) (sub_of rfl)) (sub_of rfl)
    split
    · exact h0
    split
    · exact h0.of_within (saveCounts_within (dayFlushN_within hw2 (sub_of rfl)) (sub_of rfl)) rfl
    · have hw4 (m : Nat) := dayFlushN_within (a1 := m) (drawFree_within hw2) (sub_of rfl)
      exact h0.of_within (.ite (hw4 _) (saveCounts_within (hw4 _) (sub_of rfl))) rfl

theorem execModuleWithdrawal_stacksOrdered {vin : Nat} (hs : StacksOrdered s) (h : execModuleWithdrawal vin s = .next t) :
    StacksOrdered t := by
  obtain rfl := Host.Outcome.next.inj h
  dsimp only
  split
  · exact hs
  split
  · exact stacksOrdered_of_empty ((dayEvent_eicStack ..).trans (standBy_eicStack _))
  · exact stacksOrdered_of_empty (standBy_eicStack _)

theorem execInputProtectionTrip_stacksOrdered (hs : StacksOrdered s) (h : execInputProtectionTrip s = .next t) : StacksOrdered t := by
  obtain rfl := Host.Outcome.next.inj h
  split
  · exact hs
  · exact stacksOrdered_of_empty ((dayEvent_eicStack ..).trans (standBy_eicStack _))

theorem execHwThermalTrip_stacksOrdered {sensor : Nat} (hs : StacksOrdered s) (h : execHwThermalTrip sensor s = .next t) :
    StacksOrdered t := by
  obtain rfl := Host.Outcome.next.inj h
  split
  · exact hs
  split
  · exact stacksOrdered_of_empty (powerDown_eicStack s)
  · exact stacksOrdered_of_empty (shutdown_eicStack ..)

theorem takeReset_stacksOrdered (d : Nat) : StacksOrdered (takeReset s d) := stacksOrdered_of_empty (takeReset_eicStack ..)

theorem requestReset_stacksOrdered (hs : StacksOrdered s) (d : Nat) : StacksOrdered (requestReset s d) := by
  have hraise : StacksOrdered (raiseSrc s 12 39) := hs.of_eq (raiseSrc_eicStack ..)
  unfold requestReset
  extract_lets more s1 s2
  have hmore {u : State} (hu : StacksOrdered u) : StacksOrdered (more u) := hu.of_eq rfl
  split
  · split
    · exact takeReset_stacksOrdered d
    · exact hs
  split
  · split
    · exact hmore hs
    split
    · have h2 : StacksOrdered s2 :=
        hraise.of_within (.foldl (.refl (partsBut .eic) s1) fun _ _ h => resetFn_within h (sub_of rfl)) rfl
      clear_value s2
      exact hmore (h2.of_eq rfl)
    · exact takeReset_stacksOrdered d
  split
  · exact hs
  split
  · exact hs
  · exact hmore hraise

theorem execResetGraceExpiry_stacksOrdered (hs : StacksOrdered s) (h : execResetGraceExpiry s = .next t) : StacksOrdered t := by
  obtain rfl := Host.Outcome.next.inj h
  split
  · exact takeReset_stacksOrdered _
  · exact hs

theorem execPerstAssert_stacksOrdered (hs : StacksOrdered s) (h : execPerstAssert s = .next t) : StacksOrdered t := by
  obtain rfl := Host.Outcome.next.inj h
  split
  · exact hs
  · extract_lets _ s1 _ s2
    split
    · have h2 : s2.eicStack = s.eicStack := by dsimp only [s2]; split <;> rfl
      exact hs.of_eq h2
    · exact takeReset_stacksOrdered _

theorem execKeeperSample_stacksOrdered {smp : Sample} (hs : StacksOrdered s) (h : execKeeperSample smp s = .next t) : StacksOrdered t := by
  obtain rfl := Host.Outcome.next.inj h
  split
  · exact hs
  · extract_lets _ s1 s2
    split
    · exact stacksOrdered_of_empty (shutdown_eicStack ..)
    · have hw1 : Within (partsBut .eic) s s1 := countSecond_within ((Within.refl _ s).upd_keeper (sub_of rfl)) (sub_of rfl)
      exact hs.of_within (setCeilings_within (runConds_within (rampReg_within (filterAll_within hw1 (sub_of rfl)) (sub_of rfl))
        (sub_of rfl)) (sub_of rfl)) rfl

theorem powerAction_stacksOrdered (hs : StacksOrdered s) (d0 d1 d : Nat) : StacksOrdered (powerAction d0 d1 d s) := by
  unfold powerAction
  split
  · exact hs.of_eq (sbAnswer_eicStack ..)
  · exact requestReset_stacksOrdered (hs.of_eq ((sbAnswer_eicStack ..).trans (dayEvent_eicStack ..))) d

end

/-- Every command keeps the claim stacks in order: only those that claim or complete push or pop, and those that take the main
rails down empty them. -/
theorem exec_stacksOrdered {c : Instr} {s t : State} (hs : StacksOrdered s) (h : exec c s = .next t) : StacksOrdered t := by
  cases c with
  | powerApplied _ _ => exact execPowerApplied_stacksOrdered hs h
  | startPhaseEnd _ => exact execStartPhaseEnd_stacksOrdered hs h
  | phaseTimeout => exact execPhaseTimeout_stacksOrdered hs h
  | perstAssert => exact execPerstAssert_stacksOrdered hs h
  | moduleWithdrawal _ => exact execModuleWithdrawal_stacksOrdered hs h
  | inputProtectionTrip => exact execInputProtectionTrip_stacksOrdered hs h
  | powerFail _ => exact execPowerFail_stacksOrdered hs h
  | hwThermalTrip _ => exact execHwThermalTrip_stacksOrdered hs h
  | keeperWatchdog _ => exact execKeeperWatchdog_stacksOrdered hs h
  | keeperSample _ => exact execKeeperSample_stacksOrdered hs h
  | resetGraceExpiry => exact execResetGraceExpiry_stacksOrdered hs h
  | pldmPowerOff => exact sbRow_stacksOrdered (act := powerAction 2 1 4) hs (powerAction_stacksOrdered hs _ _ _) h
  | pldmWarmReset => exact sbRow_stacksOrdered (act := powerAction 3 1 2) hs (powerAction_stacksOrdered hs _ _ _) h
  | pldmColdReset => exact sbRow_stacksOrdered (act := powerAction 3 1 3) hs (powerAction_stacksOrdered hs _ _ _) h
  | regWrite _ _ => exact execRegWrite_stacksOrdered hs h
  | eicClaim a b c => exact execEicClaim_stacksOrdered (e := a) (i := b) (who := c) hs h
  | eicComplete _ _ _ => exact execEicComplete_stacksOrdered hs h
  | registerWrite _ _ _ _ => exact execRegisterWrite_stacksOrdered hs h
  | rcRead _ _ _ => exact execRcRead_stacksOrdered hs h
  | pairHiWrite _ _ _ => exact execPairHiWrite_stacksOrdered hs h
  | pairLoWrite _ _ _ => exact execPairLoWrite_stacksOrdered hs h
  | jobObjPolicyWrite _ _ => exact execJobObjPolicyWrite_stacksOrdered hs h
  | roleCommit _ _ | roleRead _ _ => exact Host.Outcome.next.inj h ▸ masterWrite_stacksOrdered hs _ _ _
  | _ => exact hs.of_within (exec_within h) (partsMask_testBit (p := .eic) (by simp only [partsOf]; decide))

/-- Settles O60: every command keeps the order, and an ordered stack has room for the 16 priorities only. -/
theorem claimStacksStayOrdered : Obligations.ClaimStacksStayOrdered := by
  intro s t hs hstep
  have ht : StacksOrdered t := by
    cases hq : s.pending with
    | nil => exact Host.Outcome.next.inj ((step_of_nil hq).symm.trans hstep) ▸ hs
    | cons c rest =>
      exact exec_stacksOrdered (s := { s with pending := rest }) hs ((step_of_cons hq).symm.trans hstep)
  exact ⟨ht, fun e i => (ht.eicStack e i).length_le⟩

end Sys2Proof.Machine

/-! The rows of chapter 15's interrupt controllers and of the Daymark: one rule for each outcome of a row, then the statements. -/

namespace Sys2Proof.Machine

/-! ### Claims and completions (R536, R537) -/

/-- Settles O19: the best eligible source is what the search finds. -/
theorem claimTakesTheBestEligibleSource : Obligations.ClaimTakesTheBestEligibleSource := by
  refine ⟨fun e t n who s he ht h0 hwho hlo hhi helig hbest => ?best, fun e t who s hnone => ?none, fun e t who s hwho => ?other⟩
  case best =>
    exact execEicClaim_of_best (e := e) (i := t) (who := who) (s := s) (eicHas_of_interface he ht h0) hwho
      (eicBest_of_best hlo hhi helig hbest)
  case none => exact execEicClaim_of_zero (e := e) (i := t) (who := who) (s := s) (.inl (eicBest_of_none hnone))
  case other => exact execEicClaim_of_zero (e := e) (i := t) (who := who) (s := s) (.inr hwho)

/-- Writing a key's own value into a table in its canonical form changes nothing. -/
theorem tset_tget_self {α : Type} [DecidableEq α] {d : α} {t : Tbl α} (h : twf d t = true) (k : Nat) :
    tset d t k (tget d t k) = t := by
  induction t with
  | nil => exact if_pos rfl
  | cons p t ih =>
    obtain ⟨j, w⟩ := p
    simp only [twf, Bool.and_eq_true, decide_eq_true_eq] at h
    obtain ⟨⟨hw, habove⟩, ht⟩ := h
    have hrest := ih ht
    by_cases hj : j = k
    · subst hj
      simp only [tget, if_true, tset, if_neg hw, tput, Nat.lt_irrefl, if_false]
    · simp only [tget, if_neg hj]
      by_cases hd : tget d t k = d
      · rw [tset, if_pos hd] at hrest
        rw [tset, if_pos hd, tdel, if_neg hj, hrest]
      · have hkj : ¬k < j := fun hlt => hd (tget_of_keysAbove d habove (Nat.le_of_lt hlt))
        rw [tset, if_neg hd] at hrest
        rw [tset, if_neg hd, tput, if_neg hkj, if_neg (Ne.symm hj), hrest]

section
variable {s : State} {e i src : Nat}

theorem eicStack_setEicStack_same (h : twf [] s.eicStack = true) (l : List (Nat × Nat)) : eicStack (setEicStack s e i l) e i = l :=
  tget_tset_same _ l h

/-- Writing a stack back leaves the state. -/
theorem setEicStack_eicStack_self (h : twf [] s.eicStack = true) : setEicStack s e i (eicStack s e i) = s := by
  have htbl := tset_tget_self h (4 * e + i)
  unfold setEicStack eicStack
  rw [htbl]

/-- A completion of the top source pops it. -/
theorem execEicComplete_of_top {p : Nat} {l : List (Nat × Nat)} (hhas : eicHas e i = true) (hsrc : src < 512)
    (hst : eicStack s e i = (src, p) :: l) : execEicComplete e i src s = .next (setEicStack s e i l) := by
  simp only [execEicComplete, hhas, hst, Nat.mod_eq_of_lt hsrc, Bool.not_true, Bool.false_eq_true, if_false, if_true]

theorem execEicComplete_of_empty (hhas : eicHas e i = true) (hsrc : src < 512) (hst : eicStack s e i = []) :
    execEicComplete e i src s = .next (stackFault s e i src) := by
  simp only [execEicComplete, hhas, hst, Nat.mod_eq_of_lt hsrc, Bool.not_true, Bool.false_eq_true, if_false]

/-- A completion of a source that is not on top is a stack fault. -/
theorem execEicComplete_of_other {n p : Nat} {l : List (Nat × Nat)} (hhas : eicHas e i = true) (hsrc : src < 512)
    (hwf : twf [] s.eicStack = true) (hst : eicStack s e i = (n, p) :: l) (hn : n ≠ src) :
    execEicComplete e i src s = .next (stackFault s e i src) := by
  have hself : setEicStack s e i ((n, p) :: l) = s := hst ▸ setEicStack_eicStack_self hwf
  simp only [execEicComplete, hhas, hst, Nat.mod_eq_of_lt hsrc, if_neg hn, hself, Bool.not_true, Bool.false_eq_true, if_false]

theorem stackFault_of_empty (hst : eicStack s e i = []) :
    stackFault s e i src = dayEvent (raiseSrc (bump (regSet (setEicStack s e i [])
      (eicBase e + 0x900 + 0x40 * i + 0xC) (BitVec.ofNat 32 (src * 2 ^ 16))) (eicBase e + 0x900 + 0x40 * i + 0x10)) e 1)
      0x0701 e 0 [i, src, 0] := by
  simp only [stackFault, hst, List.foldl_nil, Nat.add_zero]

theorem stackFault_of_top {n p : Nat} {l : List (Nat × Nat)} {u : State} (hst : eicStack s e i = (n, p) :: l)
    (hu : u = ((n, p) :: l).foldl (fun a x => setPendingBit a e x.1 true) s) :
    stackFault s e i src = dayEvent (raiseSrc (bump (regSet (setEicStack u e i [])
      (eicBase e + 0x900 + 0x40 * i + 0xC) (BitVec.ofNat 32 (src * 2 ^ 16 + n))) (eicBase e + 0x900 + 0x40 * i + 0x10)) e 1)
      0x0701 e 0 [i, src, n] := by
  simp only [stackFault, hst, hu]

/-- After a stack fault the stack is empty. -/
theorem eicStack_stackFault (hwf : twf [] s.eicStack = true) : eicStack (stackFault s e i src) e i = [] := by
  unfold stackFault
  extract_lets st top o s1 s2
  have hpend : (st.foldl (fun a p => setPendingBit a e p.1 true) s).eicStack = s.eicStack :=
    (Within.foldl (.refl (partsBut .eic) s) fun _ _ h => setPendingBit_within h (sub_of rfl)).eic rfl
  have h1 : eicStack s1 e i = [] := eicStack_setEicStack_same (hpend ▸ hwf) []
  simp only [eicStack, dayEvent_eicStack, raiseSrc_eicStack, s2, bump_eicStack, regSet_eicStack]
  exact h1

end

/-- Settles O20: a completion pops or is a stack fault, whose effects are its equation. -/
theorem completePopsOrFaults : Obligations.CompletePopsOrFaults := by
  refine ⟨fun e t src p l s he ht h0 hsrc hst => execEicComplete_of_top (eicHas_of_interface he ht h0) hsrc hst,
    fun e t src s he ht h0 hsrc hst => ?empty, fun e t src n p l s u he ht h0 hsrc hwf hst hn hu => ?other⟩
  case empty => rw [← stackFault_of_empty hst]; exact execEicComplete_of_empty (eicHas_of_interface he ht h0) hsrc hst
  case other =>
    exact ⟨_, execEicComplete_of_other (eicHas_of_interface he ht h0) hsrc hwf hst hn, eicStack_stackFault hwf,
      stackFault_of_top hst hu⟩

/-! ### Software sources, the lock and the wake (R539, R541) -/

section
variable {s : State} {e : Nat}

/-- A raised bit pends. -/
theorem eicPending_setPendingBit (hi : s.Inv) (n : Nat) : eicPending (setPendingBit s e n true) e n = true := by
  have hlt : n % 32 < 32 := Nat.mod_lt _ (by decide)
  have hmask : bit (BitVec.ofNat 32 (2 ^ (n % 32))).toNat (n % 32) = true := by
    rw [bit_eq, BitVec.toNat_ofNat, Nat.mod_eq_of_lt (Nat.pow_lt_pow_right (by decide) hlt), Nat.testBit_two_pow_self]
  simp only [eicPending, setPendingBit, if_true, regGet_regSet_same hi, bit_or, hmask, Bool.or_true]

/-- At a hub that is not at Slate a raise sets the pending bit and no more. -/
theorem raiseSrc_of_awake {n : Nat} (hlo : n ≠ 0) (hhi : n < 512) (hawake : e ∉ s.sched.slateHubs) :
    raiseSrc s e n = setPendingBit s e n true := by
  have hrange : ¬(n = 0 ∨ 512 ≤ n) := by omega
  have hslate : (setPendingBit s e n true).sched.slateHubs.contains e = false := by
    rw [setPendingBit_sched]; simpa using hawake
  simp only [raiseSrc, if_neg hrange, hslate, Bool.false_and, Bool.false_eq_true, if_false]

theorem maySwset_of_processor {who : Proc} (hhost : who ≠ .host) (hsb : who ≠ .sideband) : maySwset who = true := by
  cases who with
  | dieSeq | ioSeq | keeper => rfl
  | host => exact absurd rfl hhost
  | sideband => exact absurd rfl hsb

theorem execEicSwset_of_raised {src : Nat} {who : Proc} (he : e < 14) (hlo : 256 ≤ src) (hhi : src < 512)
    (hwho : maySwset who = true) : execEicSwset e src who s = .next (raiseSrc s e src) := by
  simp only [execEicSwset, he, hlo, hhi, hwho, and_self, if_true]

theorem execEicSwset_of_discarded {src : Nat} {who : Proc} (h : src < 256 ∨ 512 ≤ src ∨ who = .host ∨ who = .sideband) :
    execEicSwset e src who s = .next s := by
  have hcond : ¬(e < 14 ∧ maySwset who = true ∧ 256 ≤ src ∧ src < 512) := by
    rintro ⟨-, hwho, hlo, hhi⟩
    rcases h with h | h | rfl | rfl
    · omega
    · omega
    · cases hwho
    · cases hwho
  simp only [execEicSwset, if_neg hcond]

theorem execEicLock_of_set {v : Word} (he : e < 14) (hv : bit v.toNat 0 = true) :
    execEicLock e v s = .next (regSetFld s (eicBase e + 0x844) 0 0 1) := by
  simp only [execEicLock, he, hv, and_self, if_true]

theorem execEicLock_of_clear {v : Word} (hv : bit v.toNat 0 = false) : execEicLock e v s = .next s := by
  simp only [execEicLock, hv, Bool.false_eq_true, and_false, if_false]

theorem execHubWake_of_wake {d : Nat} (hd : d ∈ s.sched.hubWakes) :
    execHubWake d s = .next { s with sched := { s.sched with
      hubWakes := s.sched.hubWakes.filter (· != d), slateHubs := s.sched.slateHubs.filter (· != d) } } := by
  simp only [execHubWake, List.contains_iff_mem.2 hd, if_true]

end

theorem mem_filter_bne {l : List Nat} {d k : Nat} : k ∈ l.filter (· != d) ↔ k ∈ l ∧ k ≠ d := by
  rw [List.mem_filter, bne_iff_ne]

/-- Settles O21: one rule per outcome of each row. -/
theorem softwareSourcesLockAndWake : Obligations.SoftwareSourcesLockAndWake := by
  refine ⟨fun e src who s he hlo hhi hhost hsb hinv hawake => ?raised, fun e src who s h => execEicSwset_of_discarded h,
    fun e v s he hv hinv => ⟨_, execEicLock_of_set he hv, regFld_regSetFld hinv (by decide), rfl⟩,
    fun e v s hv => execEicLock_of_clear hv, fun d s hd => ⟨_, execHubWake_of_wake hd, ?slate, ?wakes, ?others, rfl, rfl⟩⟩
  case raised =>
    have hraise := raiseSrc_of_awake (n := src) (by omega) hhi hawake
    exact ⟨_, execEicSwset_of_raised he hlo hhi (maySwset_of_processor hhost hsb), hraise ▸ eicPending_setPendingBit hinv src, hraise⟩
  case slate | wakes => exact fun hmem => (mem_filter_bne.1 hmem).2 rfl
  case others =>
    exact fun k hk => ⟨mem_filter_bne.trans (and_iff_left hk), mem_filter_bne.trans (and_iff_left hk)⟩

end Sys2Proof.Machine

/-! The rows of the Daymark (chapter 15): the host's window, freezes, the flash and the latch. -/

namespace Sys2Proof.Machine

/-! ### A run of registers -/

section
variable {s : State}

theorem inv_foldl_regSet (hi : s.Inv) (o : Nat → Nat) (f : Nat → Word) (l : List Nat) :
    (l.foldl (fun st w => regSet st (o w) (f w)) s).Inv := by
  induction l generalizing s with
  | nil => exact hi
  | cons w l ih => exact ih (inv_regSet hi _ _)

/-- A register that is none of a run keeps its value. -/
theorem regGet_foldl_regSet_outside {o : Nat → Nat} {l : List Nat} {p : Nat} (h : ∀ w ∈ l, p ≠ o w) (f : Nat → Word) :
    regGet (l.foldl (fun st w => regSet st (o w) (f w)) s) p = regGet s p := by
  induction l generalizing s with
  | nil => rfl
  | cons w l ih =>
    rw [List.foldl_cons, ih fun k hk => h k (List.mem_cons_of_mem _ hk), regGet_regSet_ne _ (h w List.mem_cons_self)]

/-- Each register of a run of consecutive words reads back what it was given. -/
theorem regGet_foldl_regSet_run (hi : s.Inv) (b : Nat) (f : Nat → Word) {n k : Nat} (hk : k < n) :
    regGet ((List.range n).foldl (fun st w => regSet st (b + 4 * w) (f w)) s) (b + 4 * k) = f k := by
  induction n with
  | zero => cases hk
  | succ n ih =>
    rw [List.range_succ, List.foldl_append, List.foldl_cons, List.foldl_nil]
    by_cases h : k = n
    · subst h
      exact regGet_regSet_same (inv_foldl_regSet hi _ f _) _ _
    · rw [regGet_regSet_ne _ (by omega), ih (by omega)]

end

/-! ### The host's window (R528) -/

section
variable {s : State} {n : Nat}

theorem dayWindow_status : regGet (dayWindow s n) 0x70018 = regGet (regSet s 0x70018 (BitVec.ofNat 32 (dayLookup s n).1)) 0x70018 :=
  regGet_foldl_regSet_outside (o := fun w => 0x70040 + 4 * w) (fun w _ => by omega) _

/-- The cursor stays. -/
theorem dayWindow_cursor : regGet (dayWindow s n) 0x70010 = regGet s 0x70010 :=
  (regGet_foldl_regSet_outside (o := fun w => 0x70040 + 4 * w) (fun w _ => by omega) _).trans (regGet_regSet_ne _ (by decide))

/-- The window shows what the lookup gives: its status and its bytes. -/
theorem dayWindow_shows (hi : s.Inv) :
    regGet (dayWindow s n) 0x70018 = BitVec.ofNat 32 (dayLookup s n).1 ∧
      ∀ k, k < 16 → regGet (dayWindow s n) (0x70040 + 4 * k) = BitVec.ofNat 32 (fieldAt (dayLookup s n).2 (4 * k) 4) :=
  ⟨dayWindow_status.trans (regGet_regSet_same hi _ _), fun _ hk => regGet_foldl_regSet_run (inv_regSet hi _ _) 0x70040 _ hk⟩

theorem dayLookup_of_found {r : DayRec} (hr : r ∈ dayRecords s) (huniq : ∀ q ∈ dayRecords s, q.seq = r.seq → q = r) :
    dayLookup s r.seq = (1, dayBytes r) := by
  unfold dayLookup
  cases hf : (dayRecords s).find? fun q => q.seq == r.seq with
  | none => exact absurd (List.find?_eq_none.1 hf r hr) (by simp)
  | some q => rw [huniq q (List.mem_of_find?_eq_some hf) (eq_of_beq (List.find?_some (p := fun q : DayRec => q.seq == r.seq) hf))]

theorem dayLookup_of_absent (h : ∀ q ∈ dayRecords s, q.seq ≠ n) :
    dayLookup s n = (if s.day.next ≤ n then 3 else 2, List.replicate 64 0) := by
  have hf : (dayRecords s).find? (fun q => q.seq == n) = none := List.find?_eq_none.2 fun q hq => by simpa using h q hq
  simp only [dayLookup, hf]

theorem execDayCmdLoad_of_running (hk : s.keeper.active ≠ 0) :
    execDayCmdLoad s = .next (dayWindow s (regGet s 0x70010).toNat) := by
  simp only [execDayCmdLoad, if_neg hk]

theorem execDayCmdNext_of_running (hk : s.keeper.active ≠ 0) : execDayCmdNext s =
    .next (dayWindow (regSet s 0x70010 (regGet s 0x70010 + 1)) (regGet s 0x70010 + 1).toNat) := by
  simp only [execDayCmdNext, if_neg hk]

theorem dayLookup_regSet (o : Nat) (v : Word) : dayLookup (regSet s o v) n = dayLookup s n := rfl

end

/-- Settles O22: the window shows the lookup of the cursor, and the lookup finds a record by its sequence number. -/
theorem daymarkWindowShowsTheRecord : Obligations.DaymarkWindowShowsTheRecord := by
  refine ⟨fun s hk hinv => ⟨_, execDayCmdLoad_of_running hk, (dayWindow_shows hinv).1, dayWindow_cursor, (dayWindow_shows hinv).2⟩,
    fun s hk hinv => ⟨_, execDayCmdNext_of_running hk, dayWindow_cursor.trans (regGet_regSet_same hinv _ _), ?next⟩,
    fun s r hr huniq => dayLookup_of_found hr huniq, fun s n h => dayLookup_of_absent h⟩
  case next => exact dayLookup_regSet (s := s) _ _ ▸ dayWindow_shows (inv_regSet hinv _ _)

/-! ### Freezes (R529) -/

section
variable {s : State} {m : Nat}

theorem dayFreeze_of_held (h : tget none s.day.freezes m ≠ none) : dayFreeze s m = s := by
  simp only [dayFreeze, Option.isSome_iff_ne_none.2 h, if_true]

theorem dayThaw_of_free (h : tget none s.day.freezes m = none) : dayThaw s m = s := by
  simp only [dayThaw, h, Option.isNone_none, if_true]

/-- A freeze that is taken is the master's own; the staged records stay. -/
theorem dayFreeze_of_free (h : tget none s.day.freezes m = none) :
    (dayFreeze s m).day.freezes = tset none s.day.freezes m (some (opSeconds s)) ∧ (dayFreeze s m).day.staged = s.day.staged := by
  unfold dayFreeze
  rw [h]
  dsimp only [Option.isSome_none]
  simp only [Bool.false_eq_true, if_false, regSetFld_day]
  split <;> exact ⟨rfl, rfl⟩

/-- The last freeze that is released stages a THAW_SUMMARY record. -/
theorem dayThaw_of_last {k : Nat} (hkm : m = 0 ∧ k = 1 ∨ m = 1 ∧ k = 0) (hwf : twf none s.day.freezes = true)
    (hm : tget none s.day.freezes m ≠ none) (hk : tget none s.day.freezes k = none) :
    dayThaw s m = dayEvent
      (regSetFld { s with day := { s.day with freezes := tset none s.day.freezes m none } } 0x70004 m m 0) 0x0801 0xFF 0
      [s.day.missed, s.day.firstMissed, s.day.lastMissed, opSeconds s - s.day.frozenSince] := by
  have hisNone : (tget none s.day.freezes m).isNone = false := Option.isNone_eq_false_iff.2 (Option.isSome_iff_ne_none.2 hm)
  have hself : tget none (tset none s.day.freezes m none) m = none := tget_tset_same m none hwf
  have hother : tget none (tset none s.day.freezes m none) k = none := by
    rw [tget_tset_ne _ _ _ _ (by omega), hk]
  have hthawed :
      dayFrozen (regSetFld { s with day := { s.day with freezes := tset none s.day.freezes m none } } 0x70004 m m 0) = false := by
    rw [dayFrozen, regSetFld_day]
    rcases hkm with ⟨rfl, rfl⟩ | ⟨rfl, rfl⟩ <;> simp only [hself, hother, Option.isSome_none, Bool.or_self]
  simp only [dayThaw, hisNone, hthawed, Bool.false_eq_true, if_false]

theorem execDayCmdFreeze_of_running (hk : s.keeper.active ≠ 0) : execDayCmdFreeze s = .next (dayFreeze s 0) := by
  simp only [execDayCmdFreeze, if_neg hk]

theorem execDayCmdThaw_of_running (hk : s.keeper.active ≠ 0) : execDayCmdThaw s = .next (dayThaw s 0) := by
  simp only [execDayCmdThaw, if_neg hk]

theorem execDayCmdFreeze_of_held (h : tget none s.day.freezes 0 ≠ none) : execDayCmdFreeze s = .next s := by
  simp only [execDayCmdFreeze, dayFreeze_of_held h, ite_self]

theorem execDayCmdThaw_of_free (h : tget none s.day.freezes 0 = none) : execDayCmdThaw s = .next s := by
  simp only [execDayCmdThaw, dayThaw_of_free h, ite_self]

theorem sbUp_of_running (hk : s.keeper.active ≠ 0) : sbUp s = true := bne_iff_ne.2 hk

theorem execDayHoldFreeze_of_running (hk : s.keeper.active ≠ 0) :
    execDayHoldFreeze s = .next (emit (dayFreeze s 1) (.sideband 0 [])) := by
  simp only [execDayHoldFreeze, sbUp_of_running hk, sbAnswer, Bool.not_true, Bool.false_eq_true, if_false]

theorem execDayHoldThaw_of_running (hk : s.keeper.active ≠ 0) :
    execDayHoldThaw s = .next (emit (dayThaw s 1) (.sideband 0 [])) := by
  simp only [execDayHoldThaw, sbUp_of_running hk, sbAnswer, Bool.not_true, Bool.false_eq_true, if_false]

theorem execFreezeLimitExpiry_of_due {b : Nat} (hm : m < 2) (hb : tget none s.day.freezes m = some b)
    (hdue : b + Nat.max 1 (regFld s 0x70000 15 0) ≤ opSeconds s) : execFreezeLimitExpiry m s = .next (dayThaw s m) := by
  simp only [execFreezeLimitExpiry, hb, hm, hdue, and_self, if_true]

end

/-- Settles O23: one rule per outcome of each row. -/
theorem freezesAreHeldByEachMaster : Obligations.FreezesAreHeldByEachMaster := by
  refine ⟨fun s hk hwf hfree => ⟨_, execDayCmdFreeze_of_running hk, ?own, ?other, (dayFreeze_of_free hfree).2⟩,
    fun s hheld => execDayCmdFreeze_of_held hheld, fun s hfree => execDayCmdThaw_of_free hfree,
    fun s hk hheld hfree hwf => (execDayCmdThaw_of_running hk).trans (congrArg _ (dayThaw_of_last (.inl ⟨rfl, rfl⟩) hwf hheld hfree)),
    fun s hk _ => ⟨_, execDayHoldFreeze_of_running hk, rfl⟩, fun s hk hheld => ⟨?held, execDayHoldThaw_of_running hk⟩,
    fun m b s hm hb hdue => execFreezeLimitExpiry_of_due hm hb hdue⟩
  case own => rw [(dayFreeze_of_free hfree).1]; exact tget_tset_same 0 _ hwf
  case other => rw [(dayFreeze_of_free hfree).1]; exact tget_tset_ne _ _ _ _ (by decide)
  case held => exact (execDayHoldFreeze_of_running hk).trans (by rw [dayFreeze_of_held hheld])

/-! ### Flash, retries and the latch (R526, R528, R530, R533) -/

section
variable {s : State} {r : DayRec}

theorem dayRegs_day : (dayRegs s).day = s.day := (dayRegs_within (.refl (partsBut .day) s) (sub_of rfl)).day rfl

theorem dropped_withFlash (f : Tbl (Option DayRec)) :
    ({ s with day := { s.day with flash := f } } : State).day.dropped = s.day.dropped := rfl

theorem dayErase_dropped (sec : Nat) : (dayErase s sec).day.dropped = s.day.dropped := dropped_withFlash _

/-- Programming a record drops no event. -/
theorem dayPut_dropped (erase : Bool) : (dayPut s r erase).day.dropped = s.day.dropped := by
  unfold dayPut
  rw [dayRegs_day]
  split
  · exact dayErase_dropped _
  · rfl

theorem dayLost_of_none (h : s.day.dropped = 0) : dayLost s = s := by simp only [dayLost, h, true_or, if_true]

theorem execDaymarkProgram_of_ok (hr : dayDue s = some r) (hd : s.day.dropped = 0) :
    execDaymarkProgram .ok s = .next (dayPut s r true) := by
  simp only [execDaymarkProgram, hr, dayLost_of_none ((dayPut_dropped true).trans hd)]

theorem execDaymarkProgram_of_failed (hr : dayDue s = some r) :
    execDaymarkProgram .program s = .next (dayFail s 1 (daySectorOf r.seq) r.seq) := by
  simp only [execDaymarkProgram, hr]

/-- A record that reads back different is programmed once more. -/
theorem execDaymarkProgram_of_mismatch (hr : dayDue s = some r) (hfirst : s.day.retried = false) :
    execDaymarkProgram .verify s = .next { s with day := { s.day with retried := true } } := by
  simp only [execDaymarkProgram, hr, hfirst, Bool.false_eq_true, if_false]

theorem execDayCmdRetry_of_running (hk : s.keeper.active ≠ 0) (res : FlashResult) : execDayCmdRetry res s = .next (dayRetry s res) := by
  simp only [execDayCmdRetry, if_neg hk]

theorem dayRetry_of_healthy (h : dayDegraded s = false) (res : FlashResult) : dayRetry s res = s := by
  simp only [dayRetry, h, Bool.not_false, if_true]

theorem dayRetry_of_failed (h : dayDegraded s = true) : dayRetry s .program = latchFailure s 1 (retrySector s) := by
  simp only [dayRetry, h, Bool.not_true, Bool.false_eq_true, if_false]

/-- The latch holds an entry where one of its four words has a kind. -/
theorem latch_any_eq_false_iff :
    ((List.range 4).map fun n => (regGet s (0x70080 + 4 * n)).toNat).any (fun w => bits w 30 28 != 0) = false ↔
      ∀ k, k < 4 → regFld s (0x70080 + 4 * k) 30 28 = 0 := by
  simp only [List.any_map, List.any_eq_false, List.mem_range, Function.comp, bne_iff_ne, ne_eq, not_not]
  exact Iff.rfl

/-- A retry that succeeds leaves DEGRADED mode, flushes the staging ring, and reports what was lost and latched. -/
theorem dayRetry_of_ok {u v w : State} (h : dayDegraded s = true)
    (hu : u = dayFlush (regSetFld (dayErase s (retrySector s)) 0x70004 2 2 0))
    (hv : v = dayEvent u 0x0803 0xFF 0 [(u.day.next + 2 ^ 32 - u.day.ramFrom) % 2 ^ 32])
    (hw : w = (if (∀ k, k < 4 → regFld u (0x70080 + 4 * k) 30 28 = 0) then v
      else dayEvent v 0x0802 0xFF 0 ((List.range 4).map (fun k => (regGet u (0x70080 + 4 * k)).toNat) ++ [regFld v 0x70090 15 0]))) :
    dayRetry s .ok = postEvent w 0 3 (payload4 [2 * 2 ^ 24, 0, u.day.next, regFld w 0x70090 15 0]) := by
  have hlatch : (if ((List.range 4).map fun n => (regGet u (0x70080 + 4 * n)).toNat).any (fun w => bits w 30 28 != 0) = true then
      dayEvent v 0x0802 0xFF 0 ((List.range 4).map (fun k => (regGet u (0x70080 + 4 * k)).toNat) ++ [regFld v 0x70090 15 0])
      else v) = w := by
    rw [hw]
    by_cases hempty : ∀ k, k < 4 → regFld u (0x70080 + 4 * k) 30 28 = 0
    · rw [if_pos hempty, latch_any_eq_false_iff.2 hempty]
      exact if_neg (by decide)
    · rw [if_neg hempty, Bool.eq_true_of_not_eq_false (mt latch_any_eq_false_iff.1 hempty)]
      exact if_pos rfl
  simp only [dayRetry, h, Bool.not_true, Bool.false_eq_true, if_false, ← hu, ← hv, hlatch]

theorem execDayCmdClearLatch_of_running (hk : s.keeper.active ≠ 0) : execDayCmdClearLatch s =
    .next (regSetFld ((List.range 4).foldl (fun st n => regSet st (0x70080 + 4 * n) 0) s) 0x70090 15 0 0) := by
  simp only [execDayCmdClearLatch, if_neg hk]

theorem execDayLoad_of_running {n : Nat} (hk : s.keeper.active ≠ 0) (hn : n < 2 ^ 32) :
    execDayLoad n s = .next (emit s (.sideband 0 (leBytes 1 (dayLookup s n).1 ++ (dayLookup s n).2))) := by
  simp only [execDayLoad, sbUp_of_running hk, sbAnswer, Nat.mod_eq_of_lt hn, Bool.not_true, Bool.false_eq_true, if_false]

theorem execLatchRead_of_running (hk : s.keeper.active ≠ 0) : execLatchRead s =
    .next (emit s (.sideband 0 ((List.range 5).flatMap fun n => leBytes 4 (regGet s (0x70080 + 4 * n)).toNat))) := by
  simp only [execLatchRead, sbUp_of_running hk, sbAnswer, Bool.not_true, Bool.false_eq_true, if_false]

end

/-- Settles O24: one rule per outcome of each row. -/
theorem daymarkCommandsComplete : Obligations.DaymarkCommandsComplete := by
  refine ⟨fun r s hr hd => ⟨execDaymarkProgram_of_ok hr hd, execDaymarkProgram_of_failed hr⟩,
    fun r s hr hfirst => execDaymarkProgram_of_mismatch hr hfirst,
    fun res s hk h => (execDayCmdRetry_of_running hk res).trans (congrArg _ (dayRetry_of_healthy h res)),
    fun s hk h => (execDayCmdRetry_of_running hk _).trans (congrArg _ (dayRetry_of_failed h)),
    fun s u v w hk h hu hv hw => (execDayCmdRetry_of_running hk _).trans (congrArg _ (dayRetry_of_ok h hu hv hw)),
    fun s hk hinv => ⟨_, execDayCmdClearLatch_of_running hk, ?latch, ?overflow⟩,
    fun n s hk hn => execDayLoad_of_running hk hn, fun s hk => execLatchRead_of_running hk⟩
  case latch =>
    intro k hlt
    rw [regSetFld, regGet_regSet_ne _ (by omega)]
    exact regGet_foldl_regSet_run hinv 0x70080 (fun _ => 0) hlt
  case overflow => exact regFld_regSetFld (inv_foldl_regSet hinv _ (fun _ => 0) _) (by decide)

end Sys2Proof.Machine

/-! Power, start-up and the protections of the module (chapters 15 and 17): what the loss of the main rails, a shutdown and a start
leave, then one rule for each outcome of a row, then the statements. -/

namespace Sys2Proof.Machine

/-! ### The main rails -/

section
variable (s : State)

@[simp] theorem powerDown_start : (powerDown s).start = { s.start with
    phase := 0, pendingReset := none, depth := 0, grace := false, rails := false, warm := false, hwChecked := [], ueRows := []
    badCores := [], badTiles := [] } :=
  congrArg (fun x : Startup => { x with
    phase := 0, pendingReset := none, depth := 0, grace := false, rails := false, warm := false, hwChecked := [], ueRows := []
    badCores := [], badTiles := [] }) (mainReset_start s standbyReg)

@[simp] theorem sbAlert_keeper_state : (sbAlert s).keeper.state = s.keeper.state := by
  unfold sbAlert
  dsimp only
  split
  · simp only [emit_keeper, bump_keeper]
  · simp only [emit_keeper, bump_keeper]

@[simp] theorem shutdown_start (cause index value : Nat) : (shutdown s cause index value).start = (powerDown s).start := by
  simp only [shutdown, sbAlert_start, regSet_start, setModState_start, dayEvent_start, powerDown_start, dayEndFreezes_start]

@[simp] theorem shutdown_keeper_state (cause index value : Nat) : (shutdown s cause index value).keeper.state = .shutdown := by
  simp only [shutdown, sbAlert_keeper_state, regSet_keeper, setModState_keeper]

@[simp] theorem failStart_start (phase reason : Nat) : (failStart s phase reason).start = (powerDown s).start := by
  simp only [failStart, sbAlert_start, dayEvent_start, setStartStatus_start, setModState_start]

@[simp] theorem failStart_keeper_state (phase reason : Nat) : (failStart s phase reason).keeper.state = .failed := by
  simp only [failStart, sbAlert_keeper_state, dayEvent_keeper, setStartStatus_keeper, setModState_keeper]

@[simp] theorem standBy_start : (standBy s).start = (powerDown s).start := by
  unfold standBy
  dsimp only
  split
  · rfl
  · exact setModState_start ..

@[simp] theorem enterPhase_keeper (p : Nat) : (enterPhase s p).keeper = s.keeper := setStartStatus_keeper _ _ _

@[simp] theorem enterPhase_ftime (p : Nat) : (enterPhase s p).ftime = s.ftime := setStartStatus_ftime _ _ _

@[simp] theorem beginStart_start (p depth : Nat) (byPerst : Bool) : (beginStart s p depth byPerst).start = { s.start with
    depth := depth, byPerst := byPerst, railRetry := false, badCores := [], badTiles := [], hwChecked := [], ueRows := []
    pendingReset := none, grace := false, warm := false, phase := p } := by
  rw [beginStart, enterPhase_start, setModState_start]

theorem beginStart_keeper_state (p depth : Nat) (byPerst : Bool) :
    (beginStart s p depth byPerst).keeper.state = if depth = 0 then .starting else .resetting := by
  rw [beginStart, enterPhase_keeper, setModState_keeper]

@[simp] theorem beginStart_mem (p depth : Nat) (byPerst : Bool) : (beginStart s p depth byPerst).mem = s.mem := by
  rw [beginStart, enterPhase_mem, setModState_mem]

@[simp] theorem beginStart_ftime (p depth : Nat) (byPerst : Bool) : (beginStart s p depth byPerst).ftime = s.ftime := by
  rw [beginStart, enterPhase_ftime, setModState_ftime]

end

/-! ### A start (R575 to R579) -/

section
variable {s : State} {rep : PhaseReport}

theorem afterPhase_of_none {p : Nat} (hnone : s.start.pendingReset = none) (hp : p ≠ 7) : afterPhase s p = enterPhase s (p + 1) := by
  simp only [afterPhase, hnone, if_neg hp]

theorem afterPhase_of_last (hnone : s.start.pendingReset = none) : afterPhase s 7 = deviceReady s := by
  simp only [afterPhase, hnone, if_true]

/-- The I/O dies run once the rails are up, with fabric time zero. -/
theorem railsUp_start : (railsUp s).start = { s.start with rails := true } := by
  simp only [railsUp, regSet_start, regSetPair_start]

theorem railsUp_ftime : (railsUp s).ftime = 0 := by
  simp only [railsUp, regSet_ftime, regSetPair_ftime]

theorem deviceReady_keeper_state : (deviceReady s).keeper.state = .ready := by
  unfold deviceReady
  dsimp only
  split <;> simp only [emit_keeper, setStartStatus_keeper, setModState_keeper]

theorem deviceReady_phase : (deviceReady s).start.phase = 8 := by
  unfold deviceReady
  dsimp only
  split <;> simp only [emit_start, setStartStatus_start, setModState_start]

/-- WAKE# goes low unless PERST# caused the start (R610). -/
theorem deviceReady_wake (h : s.start.byPerst = false) : (deviceReady s).start.wake = true := by
  simp only [deviceReady, h, Bool.false_eq_true, if_false, emit_start]

/-- A phase that has passed its time, of a start that may run on: its milliseconds are recorded. -/
def phaseRecorded (s : State) (rep : PhaseReport) : State :=
  regSet s (0xB0044 + 4 * (s.start.phase - 1)) (BitVec.ofNat 32 (rep.ms % 2 ^ 16))

section
variable (hwarm : s.start.warm = false)
include hwarm

theorem execStartPhaseEnd_of_first (hphase : s.start.phase = 1) :
    execStartPhaseEnd rep s = .next (afterPhase (phaseRecorded s rep) 1) := by
  simp only [execStartPhaseEnd, phaseRecorded, hphase, hwarm, Nat.reduceEqDiff, Nat.reduceLT, Nat.one_ne_zero, Bool.false_eq_true, or_self,
    false_and, if_false]

theorem execStartPhaseEnd_of_rails (hphase : s.start.phase = 2) (hbad : rep.railBad = false) :
    execStartPhaseEnd rep s = .next (afterPhase (railsUp (phaseRecorded s rep)) 2) := by
  simp only [execStartPhaseEnd, phaseRecorded, hphase, hwarm, hbad, Nat.reduceEqDiff, Nat.reduceLT, OfNat.ofNat_ne_zero, Bool.false_eq_true,
    or_self, false_and, if_false]

/-- A second rail failure fails the start with reason 2. -/
theorem execStartPhaseEnd_of_second_rail_failure (hphase : s.start.phase = 2) (hbad : rep.railBad = true)
    (hretry : s.start.railRetry = true) : execStartPhaseEnd rep s = .next (failStart (phaseRecorded s rep) 2 2) := by
  simp only [execStartPhaseEnd, phaseRecorded, hphase, hwarm, hbad, hretry, Nat.reduceEqDiff, Nat.reduceLT, OfNat.ofNat_ne_zero,
    Bool.false_eq_true, or_self, false_and, if_false, if_true]

theorem execStartPhaseEnd_of_last (hphase : s.start.phase = 7) (hperst : s.start.perst = false) :
    execStartPhaseEnd rep s = .next (afterPhase (phaseRecorded s rep) 7) := by
  simp only [execStartPhaseEnd, phaseRecorded, hphase, hwarm, hperst, Nat.lt_irrefl, OfNat.ofNat_ne_zero, Bool.false_eq_true,
    or_self, and_false, if_false]

theorem execPhaseTimeout_of_running (hstarted : s.start.phase ≠ 0) (hopen : s.start.phase < 8)
    (hperst : s.start.phase = 7 → s.start.perst = false) : execPhaseTimeout s = .next (failStart s s.start.phase 6) := by
  have hlast : ¬(s.start.phase = 7 ∧ s.start.perst = true) := fun ⟨h7, hp⟩ => by rw [hperst h7] at hp; cases hp
  have hcond : ¬(s.start.phase = 0 ∨ 7 < s.start.phase ∨ s.start.warm = true ∨ s.start.phase = 7 ∧ s.start.perst = true) := by
    rw [hwarm]; rintro (h | h | h | h)
    · exact hstarted h
    · omega
    · cases h
    · exact hlast h
  simp only [execPhaseTimeout, if_neg hcond]

end

/-! ### POWER_APPLIED (R508) -/

theorem readFieldMaps_vin (a b : Nat) : (readFieldMaps s a b).start.vin = s.start.vin := by
  unfold readFieldMaps
  split
  dsimp only
  split
  · rfl
  split
  · rfl
  · simp only [writeField, dayEvent_start]

theorem bootKeeper_of_iod0 {rep : BootReport} (hruns : keeperRuns rep.fail0 rep.image0 = true) :
    bootKeeper s rep none = some (bootRecords (keeperUp s 1 rep.image0) 1 rep.image0 none rep.retry) := by
  simp only [bootKeeper, hruns, Option.isNone_none, and_self, if_true]

/-- 40 V starts phase 1 under the Keeper of IOD0, from a state that has lost all but the flash. -/
theorem execPowerApplied_of_iod0 {vin : Nat} {rep : BootReport} (hvin : 400 ≤ vin) (hruns : keeperRuns rep.fail0 rep.image0 = true) :
    ∃ u, u.start.vin = vin ∧ u.mem = [] ∧ u.ftime = 0 ∧ execPowerApplied vin rep s = .next (beginStart u 1 0 s.start.perst) := by
  have hlow : ¬vin < 400 := by omega
  unfold execPowerApplied
  rw [if_neg hlow]
  extract_lets s0 _ s1 s2
  rw [bootKeeper_of_iod0 hruns]
  obtain ⟨-, hstart, hmem⟩ := bootRecords_keeperUp s2 1 rep.image0 none rep.retry
  have hftime := bootRecords_ftime (keeperUp s2 1 rep.image0) 1 rep.image0 none rep.retry
  refine ⟨_, (readFieldMaps_vin _ _).trans (congrArg Startup.vin hstart), ?mem, ?ftime, rfl⟩
  case mem => exact ((readFieldMaps_within (.refl (partsBut .mem) _) (sub_of rfl)).mem rfl).1.trans hmem
  case ftime => exact ((readFieldMaps_within (.refl (partsBut .ftime) _) (sub_of rfl)).ftime rfl).trans hftime

end

/-- Settles O25: one rule per outcome of each row, and what a start, device ready and a failed start leave. -/
theorem startPhasesFollowInOrder : Obligations.StartPhasesFollowInOrder := by
  refine ⟨fun vin rep s hvin hruns => ?power, fun rep s hphase hwarm hnone => ⟨_, execStartPhaseEnd_of_first hwarm hphase, ?first⟩,
    fun rep s hphase hwarm hnone hbad => ⟨_, execStartPhaseEnd_of_rails hwarm hphase hbad, ?rails⟩,
    fun rep s hphase hwarm hbad hretry => ⟨_, execStartPhaseEnd_of_second_rail_failure hwarm hphase hbad hretry, ?failed⟩,
    fun rep s hphase hwarm hperst hnone => ⟨_, execStartPhaseEnd_of_last hwarm hphase hperst, ?ready⟩,
    fun s hstarted hopen hwarm hperst => ⟨_, execPhaseTimeout_of_running hwarm hstarted hopen hperst, rfl, ?timeout⟩⟩
  case power =>
    obtain ⟨u, hvin, hmem, hftime, hrow⟩ := execPowerApplied_of_iod0 (s := s) hvin hruns
    refine ⟨_, hrow, ?_, ?_, beginStart_keeper_state u 1 0 _, ?_, (beginStart_mem u ..).trans hmem,
      (beginStart_ftime u ..).trans hftime⟩
    · rw [beginStart_start]
    · rw [beginStart_start]; exact hvin
    · rw [beginStart_start]
  case first =>
    rw [afterPhase_of_none (s := phaseRecorded s rep) hnone (by decide), phaseRecorded, hphase]
  case rails =>
    have hpass : (railsUp (phaseRecorded s rep)).start.pendingReset = none := by rw [railsUp_start]; exact hnone
    rw [afterPhase_of_none hpass (by decide), enterPhase_start, railsUp_start]
    exact ⟨rfl, rfl, (enterPhase_ftime ..).trans railsUp_ftime⟩
  case failed =>
    rw [failStart_start, powerDown_start]
    exact ⟨rfl, rfl, failStart_keeper_state ..⟩
  case ready =>
    rw [afterPhase_of_last (s := phaseRecorded s rep) hnone]
    exact ⟨deviceReady_phase, deviceReady_keeper_state, fun h => deviceReady_wake (s := phaseRecorded s rep) h⟩
  case timeout =>
    rw [failStart_start, powerDown_start]
    exact ⟨rfl, failStart_keeper_state ..⟩

/-! ### The protections (R517 to R519, R607, R608) -/

section
variable {s : State} {vin : Nat}

theorem execModuleWithdrawal_of_on (hon : s.keeper.state ≠ .off) (hfirst : s.start.withdrawn = false) (hvin : 380 < vin) :
    execModuleWithdrawal vin s =
      .next (dayEvent (standBy { s with start := { s.start with withdrawn := true } }) 0x0106 0xFF 0 [2]) := by
  simp only [execModuleWithdrawal, hon, hfirst, hvin, Bool.false_eq_true, or_self, if_false, if_true]

theorem execInputProtectionTrip_of_on (hon : s.keeper.state ≠ .off) (hfirst : s.start.tripped = false) :
    execInputProtectionTrip s =
      .next (dayEvent (standBy { s with start := { s.start with tripped := true } }) 0x0106 0xFF 0 [1]) := by
  simp only [execInputProtectionTrip, hon, hfirst, Bool.false_eq_true, or_self, if_false]

theorem execHwThermalTrip_of_running {sensor : Nat} (hsensor : sensor < 108) (hrails : s.start.rails = true)
    (hk : s.keeper.active ≠ 0) : execHwThermalTrip sensor s =
      .next (shutdown s 6 sensor ((tget Quantity.none s.keeper.q sensor).y / 256 % 2 ^ 32).toNat) := by
  simp only [execHwThermalTrip, Nat.not_le.2 hsensor, hrails, hk, Bool.not_true, Bool.false_eq_true, or_self, if_false]

theorem saveCounts_keeper_state : (saveCounts s).keeper.state = s.keeper.state := rfl

/-- What a power-fail under a running Keeper leaves before it programs what it can of the staging ring: the rails down, freezes ended,
the SHUTDOWN record with cause 5, and the cause in its register. -/
def powerLost (s : State) (vin : Nat) : State :=
  regSet (setModState (dayEvent (dayEndFreezes (powerDown { s with start := { s.start with vin := vin } })) 0x0104 0xFF 0 [5, 0, vin])
    .shutdown) 0x60004 (BitVec.ofNat 32 (5 * 256))

theorem powerLost_start : (powerLost s vin).start = (powerDown { s with start := { s.start with vin := vin } }).start := by
  simp only [powerLost, regSet_start, setModState_start, dayEvent_start, dayEndFreezes_start]

theorem powerLost_keeper_state : (powerLost s vin).keeper.state = .shutdown := by
  simp only [powerLost, regSet_keeper, setModState_keeper]

/-- However much of the staging ring is programmed, the start and the Keeper's state are those that the power-fail leaves. -/
theorem execPowerFail_of_running (hvin : vin < 380) (hon : s.keeper.state ≠ .off) (hk : s.keeper.active ≠ 0) :
    ∃ t, execPowerFail vin s = .next t ∧ t.start = (powerLost s vin).start ∧ t.keeper.state = (powerLost s vin).keeper.state := by
  have hcond : ¬(380 ≤ vin ∨ s.keeper.state = .off) := not_or.2 ⟨Nat.not_le.2 hvin, hon⟩
  have hflush (u : State) (n : Nat) : (saveCounts (dayFlushN u n)).start = u.start ∧
      (saveCounts (dayFlushN u n)).keeper.state = u.keeper.state :=
    ⟨dayFlushN_start u n, saveCounts_keeper_state.trans (congrArg Keeper.state (dayFlushN_keeper u n))⟩
  unfold execPowerFail
  rw [if_neg hcond]
  dsimp only
  rw [if_neg hk]
  by_cases hold : 400 ≤ s.start.vin
  · exact ⟨_, congrArg _ (if_pos hold), hflush ..⟩
  · rw [if_neg hold]
    by_cases hall : Config.freeValue (drawFree (powerLost s vin)).1 % ((powerLost s vin).day.staged.length + 2) ≤
        (powerLost s vin).day.staged.length
    · exact ⟨_, congrArg _ (if_pos hall), dayFlushN_start .., congrArg Keeper.state (dayFlushN_keeper ..)⟩
    · exact ⟨_, congrArg _ (if_neg hall), hflush ..⟩

end

/-- Settles O27: one rule per outcome of each row, and what the loss of the main rails leaves of the start. -/
theorem moduleProtectionTakesTheRailsDown : Obligations.ModuleProtectionTakesTheRailsDown := by
  refine ⟨fun vin s hon hfirst hvin => ⟨_, execModuleWithdrawal_of_on hon hfirst hvin, ?withdrawn⟩,
    fun s hon hfirst => ⟨_, execInputProtectionTrip_of_on hon hfirst, ?tripped⟩,
    fun sensor s hsensor hrails hk => ⟨_, execHwThermalTrip_of_running hsensor hrails hk, ?thermal⟩,
    fun vin s hvin hon hk _ => ?powerFail⟩
  case withdrawn | tripped =>
    rw [dayEvent_start, standBy_start, powerDown_start]
    exact ⟨rfl, rfl, rfl, rfl⟩
  case thermal =>
    rw [shutdown_start, powerDown_start]
    exact ⟨rfl, rfl, shutdown_keeper_state .., rfl⟩
  case powerFail =>
    obtain ⟨t, hrow, hstart, hstate⟩ := execPowerFail_of_running hvin hon hk
    refine ⟨t, hrow, ?_, ?_, ?_, hstate.trans powerLost_keeper_state⟩
    all_goals rw [hstart, powerLost_start, powerDown_start]

end Sys2Proof.Machine

/-! The sideband port (chapter 15): one rule for each outcome of a row, then the statements. -/

namespace Sys2Proof.Machine

/-! ### Reads (R520, R521) -/

section
variable {s : State}

theorem sbRow_of_running (hk : s.keeper.active ≠ 0) (act : State → State) : sbRow act s = .next (act s) := by
  simp only [sbRow, sbUp_of_running hk, if_true]

theorem sbRow_of_none (hk : s.keeper.active = 0) (act : State → State) : sbRow act s = .next s := by
  simp only [sbRow, sbUp, hk, BEq.rfl, bne, Bool.not_true, Bool.false_eq_true, if_false]

theorem sensorReading_temp {n : Nat} (hn : n < 128) : sensorReading s (0x100 + n) = some (wholeUnits (filtered s n), s) := by
  have hrange : 0x100 ≤ 0x100 + n ∧ 0x100 + n < 0x180 := by omega
  simp only [sensorReading, if_pos hrange, Nat.add_sub_cancel_left]

theorem sensorReading_volt {n : Nat} (hn : n < 64) : sensorReading s (0x200 + n) = some (wholeUnits (filtered s (128 + n)), s) := by
  have htemp : ¬(0x100 ≤ 0x200 + n ∧ 0x200 + n < 0x180) := by omega
  have hrange : 0x200 ≤ 0x200 + n ∧ 0x200 + n < 0x240 := by omega
  simp only [sensorReading, if_neg htemp, if_pos hrange, Nat.add_sub_cancel_left]

theorem sensorReading_ceiling {d : Nat} (hd : d < 12) : sensorReading s (0x500 + d) = some (ceilingOf s d, s) := by
  have htemp : ¬(0x100 ≤ 0x500 + d ∧ 0x500 + d < 0x180) := by omega
  have hvolt : ¬(0x200 ≤ 0x500 + d ∧ 0x500 + d < 0x240) := by omega
  have hamp : ¬(0x300 ≤ 0x500 + d ∧ 0x500 + d < 0x340) := by omega
  have hinput : ¬0x500 + d = 0x400 := by omega
  have hrange : 0x500 ≤ 0x500 + d ∧ 0x500 + d < 0x50C := by omega
  simp only [sensorReading, if_neg htemp, if_neg hvolt, if_neg hamp, if_neg hinput, if_pos hrange, Nat.add_sub_cancel_left]

theorem sensorReading_ready (h : s.keeper.state = .ready) : sensorReading s 0x600 = some (2, s) := by
  have hstate : moduleState s = (2, s) := by simp only [moduleState, h]
  exact congrArg some hstate

/-- A sensor with a reading answers it. -/
theorem execPldmGetSensorReading_of_some {id v : Nat} (hk : s.keeper.active ≠ 0) (hv : sensorReading s id = some (v, s)) :
    execPldmGetSensorReading id s = .next (emit s (.sideband 0 (leBytes 4 v))) :=
  (sbRow_of_running hk _).trans (by rw [hv]; rfl)

theorem execSmbusArp_of_running (hk : s.keeper.active ≠ 0) (cmd : Nat) : execSmbusArp cmd s = .next (sbFree s 19) :=
  sbRow_of_running hk _

theorem execSmbusArp_of_none (hk : s.keeper.active = 0) (cmd : Nat) : execSmbusArp cmd s = .next s := sbRow_of_none hk _

theorem execPldmSetEventReceiver_of_running (hk : s.keeper.active ≠ 0) (eid : Nat) : execPldmSetEventReceiver eid s =
    .next (emit { s with keeper := { s.keeper with receiver := some eid } } (.sideband 0 [])) := sbRow_of_running hk _

theorem execPldmFruRead_of_running (hk : s.keeper.active ≠ 0) (off n : Nat) :
    execPldmFruRead off n s = .next (emit s (.sideband 0 ((fruData.drop off).take n))) := sbRow_of_running hk _

/-- A packet with a bad PEC is discarded and counted. -/
theorem execMctpControl_of_bad_pec (hk : s.keeper.active ≠ 0) (cmd : Nat) (data : List Byte) :
    execMctpControl false cmd data s = .next (bump s 0x60108) := sbRow_of_running hk _

theorem execMctpControl_message_types (hk : s.keeper.active ≠ 0) (data : List Byte) :
    execMctpControl true 5 data s = .next (emit s (.sideband 0 [3, 0x00, 0x01, 0x7E])) := sbRow_of_running hk _

theorem execPldmEventAck_of_alert (hk : s.keeper.active ≠ 0) (halert : s.keeper.smbalert = true) : execPldmEventAck s =
    .next (emit { s with keeper := { s.keeper with smbalert := false } } (.alertPin false)) :=
  (sbRow_of_running hk _).trans (congrArg _ (if_pos halert))

end

/-- Settles O30: one rule per outcome of each row. -/
theorem sidebandReadsComplete : Obligations.SidebandReadsComplete :=
  ⟨fun cmd _ hk => execSmbusArp_of_running hk cmd, fun cmd _ hk => execSmbusArp_of_none hk cmd,
    fun cmd data _ hk => execMctpControl_of_bad_pec hk cmd data, fun data _ hk => execMctpControl_message_types hk data,
    fun eid _ hk => execPldmSetEventReceiver_of_running hk eid, fun _ hk halert => execPldmEventAck_of_alert hk halert,
    fun _ _ hk hn => execPldmGetSensorReading_of_some hk (sensorReading_temp hn),
    fun _ _ hk hn => execPldmGetSensorReading_of_some hk (sensorReading_volt hn),
    fun _ _ hk hd => execPldmGetSensorReading_of_some hk (sensorReading_ceiling hd),
    fun _ hk hready => execPldmGetSensorReading_of_some hk (sensorReading_ready hready),
    fun off n _ hk => execPldmFruRead_of_running hk off n⟩

/-! ### Power (R518, R590 to R592) -/

section
variable {s : State} (hk : s.keeper.active ≠ 0) (hwarm : s.start.warm = false)
include hk hwarm

/-- A power-on is refused while a sensor is at or above warn. -/
theorem execPldmPowerOn_of_warm (hphase : s.start.phase = 0) (hstate : s.keeper.state = .shutdown) (hhot : tooWarm s = true) :
    execPldmPowerOn s = .next (emit s (.sideband 4 [])) := by
  refine (sbRow_of_running hk _).trans (congrArg _ ?_)
  simp only [hphase, hwarm, hstate, hhot, BEq.rfl, Bool.or_true, Bool.true_or, Bool.not_true, Bool.false_eq_true, ne_eq, not_true_eq_false,
    or_self, if_false, if_true, sbAnswer]

/-- Otherwise a module that is off starts with phase 2. -/
theorem execPldmPowerOn_of_off (hphase : s.start.phase = 0)
    (hstate : s.keeper.state = .standby ∨ s.keeper.state = .shutdown ∨ s.keeper.state = .failed)
    (hcool : tooWarm s = false) (htrip : s.start.tripped = false) (hplug : s.start.withdrawn = false) :
    execPldmPowerOn s = .next (beginStart (emit (dayEvent s 0x0105 0xFF 0 [1, 1]) (.sideband 0 [])) 2 0 false) := by
  have hoff : (s.keeper.state == .standby || s.keeper.state == .shutdown || s.keeper.state == .failed) = true := by
    rcases hstate with h | h | h <;> rw [h] <;> rfl
  refine (sbRow_of_running hk _).trans (congrArg _ ?_)
  simp only [hphase, hwarm, hoff, hcool, htrip, hplug, Bool.or_self, Bool.not_true, Bool.false_eq_true, ne_eq, not_true_eq_false, or_self,
    if_false, sbAnswer]

/-- With no grace period a reset that is asked for after device ready is recorded, raises source 39 and goes ahead. -/
theorem sbRow_powerAction_of_ready {u : State} {d0 d1 d : Nat} (hphase : s.start.phase = 8) (hgrace : s.start.grace = false)
    (hu : u = raiseSrc (emit (dayEvent s 0x0105 0xFF 0 [d0, d1]) (.sideband 0 [])) 12 39) (hms : graceMs u = 0) :
    sbRow (powerAction d0 d1 d) s = .next (takeReset u d) := by
  refine (sbRow_of_running hk _).trans (congrArg _ ?_)
  have hstart : (emit (dayEvent s 0x0105 0xFF 0 [d0, d1]) (.sideband 0 [])).start = s.start := by rw [emit_start, dayEvent_start]
  simp only [powerAction, sbAnswer, requestReset, hstart, hwarm, hphase, hgrace, ← hu, hms, OfNat.ofNat_ne_zero, false_and, ne_eq,
    not_true_eq_false, Bool.false_eq_true, if_false, if_true]

end

section
variable (s : State)

theorem takeReset_off : takeReset s 4 = shutdown s 7 0 0 := by simp only [takeReset, if_true]

theorem takeReset_cold : takeReset s 3 = beginStart (powerDown s) 2 3 false := by simp [takeReset]

theorem mainReset_mem (keep : Nat → Bool) : (mainReset s keep).mem = [] := ((keepCeilings_within (.refl 1 _) (sub_of rfl)).mem rfl).1

theorem mem_withStart (x : Startup) : ({ s with start := x } : State).mem = s.mem := rfl

theorem powerDown_mem : (powerDown s).mem = [] := (mem_withStart _ _).trans (mainReset_mem s standbyReg)

end

/-- Settles O31: one rule per outcome of a power-on, and the one reset that each of the others takes. -/
theorem pldmPowerCommandsComplete : Obligations.PldmPowerCommandsComplete := by
  refine ⟨fun s hk hphase hwarm hstate hhot => execPldmPowerOn_of_warm hk hwarm hphase hstate hhot,
    fun s hk hphase hwarm hstate hcool htrip hplug =>
      ⟨_, execPldmPowerOn_of_off hk hwarm hphase hstate hcool htrip hplug, ?on, ?starting, ?byPerst, rfl⟩,
    fun s u hk hphase hwarm hgrace hu hms =>
      (sbRow_powerAction_of_ready hk hwarm hphase hgrace hu hms).trans (congrArg _ (takeReset_off u)),
    fun s u hk hphase hwarm hgrace hu hms => ⟨_, (sbRow_powerAction_of_ready hk hwarm hphase hgrace hu hms).trans
      (congrArg _ (takeReset_warm u)), ?warmPhase, ?warmFlag, beginWarm_keeper_state u, rfl⟩,
    fun s u hk hphase hwarm hgrace hu hms => ⟨_, (sbRow_powerAction_of_ready hk hwarm hphase hgrace hu hms).trans
      (congrArg _ (takeReset_cold u)), ?coldPhase, ?coldRails, ?coldMem, rfl⟩⟩
  case on | byPerst => rw [beginStart_start]
  case starting => exact beginStart_keeper_state ..
  case warmPhase | warmFlag => rw [beginWarm_start]
  case coldPhase => rw [beginStart_start]
  case coldRails => rw [beginStart_start, powerDown_start]
  case coldMem => rw [beginStart_mem, powerDown_mem]

/-! ### Caps and registers (R515, R522, R523) -/

section
variable {s : State} {off d : Nat} (hk : s.keeper.active ≠ 0)
include hk

theorem execPldmSetCapWatts_of_die (hd : d < 12) (w : Nat) : execPldmSetCapWatts d w s =
    .next (emit (regSetFld s (0x60040 + 4 * d) 7 0 (w % 256)) (.sideband 0 [])) :=
  (sbRow_of_running hk _).trans (congrArg _ (if_neg (Nat.not_le.2 hd)))

theorem execPldmSetCapPace_of_die (hd : d < 12) (p : Nat) : execPldmSetCapPace d p s =
    .next (emit (setCeilings s (regSetFld s (0x60040 + 4 * d) 10 8 (p % 8))) (.sideband 0 [])) :=
  (sbRow_of_running hk _).trans (congrArg _ (if_neg (Nat.not_le.2 hd)))

/-- A read with a status other than 0 answers it alone. -/
theorem execRegRead_of_refused {n st : Nat} (hst : sbStatus s off n = st) (hbad : st ≠ 0) :
    execRegRead off n s = .next (emit s (.sideband st [])) := by
  refine (sbRow_of_running hk _).trans (congrArg _ ?_)
  simp only [hst, ne_eq, hbad, not_false_eq_true, if_true, sbAnswer]

/-- A read of one word answers its value and leaves what the read leaves. -/
theorem execRegRead_of_word (hst : sbStatus s off 1 = 0) : execRegRead off 1 s =
    .next (emit (masterRead s (.proc .sideband) off 4 0).2 (.sideband 0 (leBytes 4 (masterRead s (.proc .sideband) off 4 0).1.toNat))) := by
  refine (sbRow_of_running hk _).trans (congrArg _ ?_)
  simp [hst, sbOffs, sbRead, sbAnswer]

/-- A write of one word while the PF is enabled is denied and counted. -/
theorem execRegWrite_of_denied {v : Word} (hst : sbStatus s off 1 = 0) (hden : sbDenied s = true) (hown : sbOwn off = false) :
    execRegWrite off [v] s = .next (emit (bump s 0x60104) (.sideband 2 [])) := by
  refine (sbRow_of_running hk _).trans (congrArg _ ?_)
  simp [hst, hden, hown, sbOffs, sbAnswer]

theorem execRegWrite_of_allowed {v : Word} (hst : sbStatus s off 1 = 0) (hfree : sbDenied s = false ∨ sbOwn off = true) :
    execRegWrite off [v] s = .next (emit (masterWrite s (.proc .sideband) off v) (.sideband 0 [])) := by
  refine (sbRow_of_running hk _).trans (congrArg _ ?_)
  rcases hfree with h | h <;> simp [hst, h, sbOffs, sbAnswer]

end

section
variable {s : State} {off : Nat}

theorem sbStatus_of_bad_request {n : Nat} (h : off % 4 ≠ 0 ∨ n = 0 ∨ 16 < n) : sbStatus s off n = 3 := by
  have hbad : off % 4 ≠ 0 ∨ n = 0 ∨ 16 < n ∨ 0x03FC0000 < off + 4 * n := by omega
  simp only [sbStatus, if_pos hbad]

variable (hal : off % 4 = 0) (hend : off + 4 ≤ 0x03FC0000)
include hal hend

theorem sbStatus_word : sbStatus s off 1 = if !s.start.rails && !standbyOff off then 1 else 0 := by
  have hgood : ¬(off % 4 ≠ 0 ∨ 1 = 0 ∨ 16 < 1 ∨ 0x03FC0000 < off + 4 * 1) := by omega
  simp only [sbStatus, if_neg hgood, sbOffs, List.range_one, List.map_cons, List.map_nil, Nat.mul_zero, Nat.add_zero, List.all_cons,
    List.all_nil, Bool.and_true]

/-- A register off the standby rail is unavailable while the main rails are down. -/
theorem sbStatus_of_unavailable (hrails : s.start.rails = false) (hstandby : standbyOff off = false) : sbStatus s off 1 = 1 := by
  rw [sbStatus_word hal hend, hrails, hstandby]; rfl

theorem sbStatus_of_available (h : s.start.rails = true ∨ standbyOff off = true) : sbStatus s off 1 = 0 := by
  rw [sbStatus_word hal hend]
  rcases h with h | h <;> simp [h]

end

/-- Settles O32: the status of a command, then one rule per outcome of each row. -/
theorem sidebandCapsAndRegistersComplete : Obligations.SidebandCapsAndRegistersComplete :=
  ⟨fun _ w _ hk hd => execPldmSetCapWatts_of_die hk hd w, fun _ p _ hk hd => execPldmSetCapPace_of_die hk hd p,
    fun _ _ _ hk hbad => execRegRead_of_refused hk (sbStatus_of_bad_request hbad) (by decide),
    fun _ _ hk hal hend hrails hstandby => execRegRead_of_refused hk (sbStatus_of_unavailable hal hend hrails hstandby) (by decide),
    fun _ _ _ hk hal hend hup hr => hr ▸ execRegRead_of_word hk (sbStatus_of_available hal hend hup),
    fun _ _ _ hk hal hend hup hden hown => execRegWrite_of_denied hk (sbStatus_of_available hal hend hup) hden hown,
    fun _ _ _ hk hal hend hup hfree => execRegWrite_of_allowed hk (sbStatus_of_available hal hend hup) hfree⟩

end Sys2Proof.Machine

/-! The security unit and the fences (chapters 16 and 17): one rule for each outcome of a row, then the statements. -/

namespace Sys2Proof.Machine

/-! ### The Public-Key Engine and the hash lanes (R549 to R556) -/

section
variable {s : State} {cyc c : Nat} {j : PkeJob}

section
variable (hcur : s.pke.current = some c) (hj : (s.pke.jobs.find? fun j => j.id == c) = some j) (hlong : cyc < j.remaining)
include hcur hj hlong

/-- At a yield point a shorter job takes the engine over (R549). -/
theorem execPkeYield_of_shorter {k : PkeJob} {u : State} (howner : j.owner ≠ .nobody)
    (hu : u = { s with pke := { s.pke with
      jobs := s.pke.jobs.map fun x => if x.id = j.id then { j with remaining := j.remaining - cyc } else x } })
    (hk : pkePick u = some k) (hshort : k.remaining < j.remaining - cyc) :
    execPkeYield cyc s = .next (pkeNext (pkeRun (bump u 0x90308) k)) := by
  have hbind : (s.pke.current.bind fun c => s.pke.jobs.find? fun j => j.id == c) = some j := by rw [hcur]; exact hj
  dsimp only at hu
  simp only [execPkeYield, hbind, if_neg (Nat.not_le.2 hlong), if_neg howner, ← hu, hk, if_pos hshort]

/-- At a yield point a job whose requester is gone is discarded (R550). -/
theorem execPkeYield_of_discarded (howner : j.owner = .nobody) : execPkeYield cyc s = .next (pkeNext (pkeEnded s j)) := by
  simp only [execPkeYield, hcur, Option.bind_some, hj, if_neg (Nat.not_le.2 hlong), howner, if_true]

end

section
variable {n : Nat} {x : PkeJob} (hx : (s.pke.jobs.find? fun x => x.id == n) = some x) (hcur : s.pke.current = some n)
include hx hcur

/-- A job that is done tells its owner. -/
theorem execPkeJobEnd_of_done : execPkeJobEnd n .done s = .next (pkeNext (secDone (pkeEnded s x) x.owner 0)) := by
  have hres : (PkeResult.done == PkeResult.selfFail) = false := rfl
  simp only [execPkeJobEnd, hx, hcur, hres, reduceCtorEq, Bool.and_false, Bool.false_eq_true, ne_eq, not_true_eq_false, false_and, if_false]

/-- A signature that fails its check is counted and recorded, and ends with INTERNAL_FAULT. -/
theorem execPkeJobEnd_of_self_fail {u : State} (hop : x.op = 2 ∨ x.op = 8) (hu : u = pkeEnded s x) : execPkeJobEnd n .selfFail s =
    .next (pkeNext (secDone (dayEvent (bump u 0x9030C) 0x0A01 12 0 [x.op, secFn s x.owner]) x.owner stInternal)) := by
  have hsigns : (x.op == 2 || x.op == 8) = true := by rw [Bool.or_eq_true, beq_iff_eq, beq_iff_eq]; exact hop
  have hres : (PkeResult.selfFail == PkeResult.selfFail) = true := rfl
  simp only [execPkeJobEnd, hx, hcur, hsigns, hres, reduceCtorEq, Bool.and_true, ne_eq, not_true_eq_false, false_and, if_false,
    if_true, ← hu]

end

/-- An overflow list that is empty is emptied to no effect. -/
theorem withOverflow_nil (h : s.pke.overflow = []) : ({ s with pke := { s.pke with overflow := [] } } : State) = s := by rw [← h]

/-- A failed health test with no requester waiting sets the fault and is recorded (R554). -/
theorem execDrbgHealthFail_of_none (h : s.pke.overflow = []) (test : Nat) :
    execDrbgHealthFail test s = .next (dayEvent (regSetFld s 0xA0000 3 3 1) 0x0A02 12 0 [test]) := by
  have hpke : (dayEvent (regSetFld s 0xA0000 3 3 1) 0x0A02 12 0 [test]).pke = s.pke := by rw [dayEvent_pke, regSetFld_pke]
  have hover : (dayEvent (regSetFld s 0xA0000 3 3 1) 0x0A02 12 0 [test]).pke.overflow = [] := by rw [hpke, h]
  simp only [execDrbgHealthFail, hover, List.foldl_nil, withOverflow_nil hover]

theorem execHashLaneDigestDone_of_busy {lane : Nat} {h : HashTask} (hl : tget none s.pke.lanes lane = some h) :
    execHashLaneDigestDone lane s =
      .next (secDone (hashAssign 1 { s with pke := { s.pke with lanes := tset none s.pke.lanes lane none } }) h.owner 0) := by
  simp only [execHashLaneDigestDone, hl]

end

/-- Settles O55: one rule per outcome of each row. -/
theorem securityEnginesComplete : Obligations.SecurityEnginesComplete :=
  ⟨fun _ _ _ _ _ _ hcur hj hlong howner hu hk hshort => execPkeYield_of_shorter hcur hj hlong howner hu hk hshort,
    fun _ _ _ _ hcur hj hlong howner => execPkeYield_of_discarded hcur hj hlong howner,
    fun _ _ _ hx hcur => execPkeJobEnd_of_done hx hcur, fun _ _ _ _ hx hcur hop hu => execPkeJobEnd_of_self_fail hx hcur hop hu,
    fun test _ h _ => ⟨_, execDrbgHealthFail_of_none h test, rfl, (dayEvent_pke ..).trans (regSetFld_pke ..)⟩,
    fun _ _ _ hl => execHashLaneDigestDone_of_busy hl⟩

/-! ### Curve slots (R557, R573) -/

section
variable {s : State} {slot : Nat}

theorem curveLoad_of_builtin (h : slot < 4 ∨ 8 ≤ slot) : curveLoad s slot = s := if_pos (.inr h)

theorem curveClear_of_builtin (h : slot < 4 ∨ 8 ≤ slot) : curveClear s slot = s := if_pos (.inr h)

theorem curve_guard_false (hidle : curveBusy s = false) (hlo : 4 ≤ slot) (hhi : slot < 8) :
    ¬(curveBusy s = true ∨ slot < 4 ∨ 8 ≤ slot) := by
  rw [hidle]; simp only [Bool.false_eq_true, false_or]; omega

section
variable (hidle : curveBusy s = false) (hlo : 4 ≤ slot) (hhi : slot < 8)
include hidle hlo hhi

/-- A slot in use is neither loaded nor cleared. -/
theorem curveLoad_of_in_use (huse : curveInUse s slot = true) : curveLoad s slot = regSetFld s 0x9000C 15 0 0x0605 := by
  simp only [curveLoad, if_neg (curve_guard_false hidle hlo hhi), huse, if_true, curveResult]

theorem curveClear_of_in_use (huse : curveInUse s slot = true) : curveClear s slot = regSetFld s 0x9000C 15 0 0x0605 := by
  simp only [curveClear, if_neg (curve_guard_false hidle hlo hhi), huse, if_true, curveResult]

theorem curveLoad_of_free (huse : curveInUse s slot = false) (hdrbg : drbgFault s = false) :
    curveLoad s slot = pkeSubmit (regSetFld { s with pke := { s.pke with
      checking := some (slot, (List.range 128).map fun w => regGet s (0x90100 + 4 * w)) } } 0x9000C 16 16 1) .curve 10 0 none := by
  simp only [curveLoad, if_neg (curve_guard_false hidle hlo hhi), huse, hdrbg, Bool.false_eq_true, if_false]

theorem curveClear_of_free (huse : curveInUse s slot = false) :
    curveClear s slot = regSetFld (regSetFld { s with pke := { s.pke with curves := tset [] s.pke.curves slot [] } }
      0x9000C (24 + slot) (24 + slot) 0) 0x9000C 15 0 0 := by
  simp only [curveClear, if_neg (curve_guard_false hidle hlo hhi), huse, Bool.false_eq_true, if_false, curveResult]

end

theorem curveRead_of_idle (hidle : curveBusy s = false) (hhi : slot < 8) :
    curveRead s slot = (List.range 128).foldl (fun st w => regSet st (0x90100 + 4 * w) ((curveAt s slot).getD w 0)) s := by
  have hguard : ¬(curveBusy s = true ∨ 8 ≤ slot) := by rw [hidle]; simp only [Bool.false_eq_true, false_or]; omega
  simp only [curveRead, if_neg hguard]

section
variable {ws : List Word} {u : State} (hload : s.pke.checking = some (slot, ws))
  (hended : ∀ j ∈ s.pke.jobs ++ s.pke.overflow, j.owner ≠ .curve)
  (hu : u = regSetFld { s with pke := { s.pke with checking := none } } 0x9000C 16 16 0)
include hload hended hu

theorem execCurveCheckEnd_of_ended : execCurveCheckEnd s = .next (if curveOk ws then
    curveResult (regSetFld { u with pke := { u.pke with curves := tset [] u.pke.curves slot ws } } 0x9000C (24 + slot) (24 + slot) 1) 0
    else curveResult u 0x0604) := by
  have hjobs : ((s.pke.jobs ++ s.pke.overflow).any fun j => j.owner == .curve) = false :=
    List.any_eq_false.2 fun j hj => by simpa using hended j hj
  simp only [execCurveCheckEnd, hload, hjobs, Bool.false_eq_true, if_false, ← hu]

end

/-! ### Signer slots (R564) -/

section
variable {f : Nat}

theorem signerWrite_of_locked (h : signerLocked s f = true) : signerWrite s f slot = regSetFld s 0xA001C 0 0 1 := by
  simp only [signerWrite, h, if_true]

theorem signerClear_of_locked (h : signerLocked s f = true) : signerClear s f slot = regSetFld s 0xA001C 0 0 1 := by
  simp only [signerClear, h, if_true]

theorem signerWrite_of_open (h : signerLocked s f = false) (halg : algOk (regFld s 0xA0014 7 0) = true) (hf : f < 64) (hslot : slot < 4) :
    signerWrite s f slot = setSigner s f slot (some (regFld s 0xA0014 7 0,
      (List.range 12).flatMap fun w => leBytes 4 (regGet s (0xA0040 + 4 * w)).toNat)) := by
  simp only [signerWrite, h, halg, Nat.not_le.2 hf, Nat.not_le.2 hslot, Bool.not_true, Bool.false_eq_true, or_self, if_false]

theorem signerClear_of_open (h : signerLocked s f = false) (hf : f < 64) (hslot : slot < 4) :
    signerClear s f slot = setSigner s f slot none := by
  simp only [signerClear, h, Nat.not_le.2 hf, Nat.not_le.2 hslot, Bool.false_eq_true, or_self, if_false]

/-- A read shows the algorithm, that the slot holds a key, and its digest. -/
theorem signerRead_shows {a k : Nat} {d : List Byte} (hkey : tget none (getFn s f).signers slot = some (a, d)) (hk : k < 12) (hi : s.Inv) :
    regFld (signerRead s f slot) 0xA0014 7 0 = a % 256 ∧ regFld (signerRead s f slot) 0xA001C 31 31 = 1 ∧
      regGet (signerRead s f slot) (0xA0040 + 4 * k) = BitVec.ofNat 32 (fieldAt d (4 * k) 4) := by
  have halg : (regSetFld s 0xA0014 7 0 a).Inv := inv_regSetFld hi ..
  have hread : signerRead s f slot = (List.range 12).foldl (fun st w => regSet st (0xA0040 + 4 * w)
      (BitVec.ofNat 32 (fieldAt d (4 * w) 4))) (regSetFld (regSetFld s 0xA0014 7 0 a) 0xA001C 31 31 1) := by
    simp only [signerRead, hkey, Option.getD_some, Option.isSome_some, if_true]
  have houtside (o : Nat) (ho : o < 0xA0040) := regGet_foldl_regSet_outside (s := regSetFld (regSetFld s 0xA0014 7 0 a) 0xA001C 31 31 1)
    (o := fun w => 0xA0040 + 4 * w) (l := List.range 12) (p := o) (fun w _ => by omega) fun w => BitVec.ofNat 32 (fieldAt d (4 * w) 4)
  rw [hread]
  refine ⟨?alg, ?valid, regGet_foldl_regSet_run (inv_regSetFld halg ..) 0xA0040 _ hk⟩
  case alg =>
    rw [regFld, houtside _ (by decide), regSetFld, regGet_regSet_ne _ (by decide)]
    exact regFld_regSetFld hi (by decide)
  case valid =>
    rw [regFld, houtside _ (by decide)]
    exact regFld_regSetFld halg (by decide)

end

end

/-- Settles O56: one rule per outcome of each row. -/
theorem curvesAndSignersComplete : Obligations.CurvesAndSignersComplete := by
  refine ⟨fun slot s hidle hlo hhi huse =>
      ⟨congrArg _ (curveLoad_of_in_use hidle hlo hhi huse), congrArg _ (curveClear_of_in_use hidle hlo hhi huse)⟩,
    fun slot s h => ⟨congrArg _ (curveLoad_of_builtin h), congrArg _ (curveClear_of_builtin h)⟩,
    fun slot s hidle hlo hhi huse hdrbg => congrArg _ (curveLoad_of_free hidle hlo hhi huse hdrbg),
    fun slot s hidle hlo hhi huse => congrArg _ (curveClear_of_free hidle hlo hhi huse),
    fun slot k s hidle hhi hk hinv => ⟨_, rfl, ?read⟩,
    fun slot ws s u hload hended hu => ⟨fun hok => (execCurveCheckEnd_of_ended hload hended hu).trans (congrArg _ (if_pos hok)),
      fun hbad => (execCurveCheckEnd_of_ended hload hended hu).trans (congrArg _ (if_neg (ne_true_of_eq_false hbad)))⟩,
    fun f slot s h => ⟨congrArg _ (signerWrite_of_locked h), congrArg _ (signerClear_of_locked h)⟩,
    fun f slot s h halg hf hslot => congrArg _ (signerWrite_of_open h halg hf hslot),
    fun f slot s h hf hslot => congrArg _ (signerClear_of_open h hf hslot),
    fun f slot a k d s hkey hk hinv => ⟨_, rfl, signerRead_shows hkey hk hinv⟩⟩
  case read =>
    rw [curveRead_of_idle hidle hhi]
    exact regGet_foldl_regSet_run hinv 0x90100 _ hk

/-! ### Hardware checks and fence commands (R584, R585, R589, R601) -/

theorem not_nTiles_le {g : Nat} (hg : g < 26112) : ¬nTiles ≤ g / 64 := by simp only [nTiles]; omega

section
variable {s : State}

section
variable {g : Nat} (hphase : s.start.phase = 8) (hg : g < 26112) (htile : tileFenced s (g / 64) = false) (hcore : coreFenced s g = false)
include hphase hg htile hcore

/-- A second check of a core in one start fences it with cause 4. -/
theorem execHardwareCheck_of_second (hseen : g ∈ s.start.hwChecked) : execHardwareCheck g 0 s =
    .next (fenceCore (bump (raiseSrc s (dieOfTile (g / 64)) (2 + g / 64 % 34)) 0xC0F04) g 4) := by
  simp only [execHardwareCheck, tileOfCore, hphase, not_nTiles_le hg, htile, hcore, List.contains_iff_mem.2 hseen, ne_eq,
    not_true_eq_false, Bool.false_eq_true, and_false, or_self, if_false, if_true]

/-- The first asks for a test of its tile, which here is of no sector. -/
theorem execHardwareCheck_of_first {u : State} (hnew : g ∉ s.start.hwChecked)
    (hu : u = bump (raiseSrc s (dieOfTile (g / 64)) (2 + g / 64 % 34)) 0xC0F04)
    (hnone : sectorsWith { u with start := { u.start with hwChecked := s.start.hwChecked ++ [g] } } (g / 64) = []) :
    execHardwareCheck g 0 s =
      .next (mntNeed { u with start := { u.start with hwChecked := s.start.hwChecked ++ [g] } } 2 (2 ^ 20 + g / 64)) := by
  have hseen : s.start.hwChecked.contains g = false := by simpa using hnew
  have hchecked : u.start.hwChecked = s.start.hwChecked := by rw [hu, bump_start, raiseSrc_start]
  simp only [execHardwareCheck, tileOfCore, hphase, not_nTiles_le hg, htile, hcore, hseen, ← hu, hchecked, hnone, List.foldl_nil, ne_eq,
    not_true_eq_false, Bool.false_eq_true, and_false, or_self, if_false, if_true]

end

/-- A check of a tile's shared parts fences the tile with cause 6. -/
theorem execHardwareCheck_of_shared {t unit : Nat} (hphase : s.start.phase = 8) (ht : t < 408) (hunit : unit ≠ 0)
    (htile : tileFenced s t = false) : execHardwareCheck t unit s =
      .next (fenceTile (bump (raiseSrc s (dieOfTile t) (2 + t % 34)) 0xC0F04) t 6) := by
  have hlt : ¬nTiles ≤ t := Nat.not_le.2 ht
  simp only [execHardwareCheck, hphase, hlt, htile, hunit, ne_eq, not_true_eq_false, not_false_eq_true, Bool.false_eq_true,
    false_and, or_self, if_false, if_true]

theorem fenValid_of_unit {n : Nat} {tile : Bool} (hunit : fenUnit s = (tile, n)) (hn : n < if tile then 408 else 26112) :
    fenValid s = true := by
  simp only [fenValid, hunit]
  exact decide_eq_true hn

section
variable {n : Nat} (hphase : s.start.phase = 8)
include hphase

theorem execFenCmdFence_of_tile (hunit : fenUnit s = (true, n)) : execFenCmdFence s = .next (fenceTile s n 8) := by
  simp only [execFenCmdFence, hphase, hunit, ne_eq, not_true_eq_false, if_false, if_true]

theorem execFenCmdFence_of_core (hunit : fenUnit s = (false, n)) : execFenCmdFence s = .next (fenceCore s n 8) := by
  simp only [execFenCmdFence, hphase, hunit, ne_eq, not_true_eq_false, Bool.false_eq_true, if_false]

theorem execFenCmdUnfence_of_unit {tile : Bool} (hunit : fenUnit s = (tile, n)) (hn : n < if tile then 408 else 26112) :
    execFenCmdUnfence s = .next (if fenState s tile n = 1 ∨ fenState s tile n = 3 then regSetFld s 0xC000C 16 16 1
      else if tile then
        (if s.start.field.tiles.contains n then writeField s fun m => { m with tiles := m.tiles.filter (· != n) } else s)
      else if s.start.field.cores.contains n then writeField s fun m => { m with cores := m.cores.filter (· != n) }
      else s) := by
  simp only [execFenCmdUnfence, hunit, fenValid_of_unit hunit hn, hphase, ne_eq, not_true_eq_false, Bool.not_true,
    Bool.false_eq_true, or_self, if_false]

theorem execFenCmdRead_of_unit {tile : Bool} (hunit : fenUnit s = (tile, n)) (hn : n < if tile then 408 else 26112) :
    execFenCmdRead s = .next (regSetFld s 0xC000C 31 30 (fenState s tile n)) := by
  simp only [execFenCmdRead, hunit, fenValid_of_unit hunit hn, hphase, ne_eq, not_true_eq_false, Bool.not_true, Bool.false_eq_true,
    or_self, if_false]

end

theorem fenState_lt (tile : Bool) (n : Nat) : fenState s tile n < 4 := by
  unfold fenState
  dsimp only
  repeat' split
  all_goals decide

end

/-- Settles O54: one rule per outcome of each row. -/
theorem fencingCommandsComplete : Obligations.FencingCommandsComplete := by
  refine ⟨fun g s hphase hg htile hcore hseen => execHardwareCheck_of_second hphase hg htile hcore hseen,
    fun t unit s hphase ht hunit htile => execHardwareCheck_of_shared hphase ht hunit htile,
    fun g s u hphase hg htile hcore hnew hu hnone => execHardwareCheck_of_first hphase hg htile hcore hnew hu hnone,
    fun n s hphase hunit => execFenCmdFence_of_tile hphase hunit, fun n s hphase hunit => execFenCmdFence_of_core hphase hunit,
    fun n s hphase hunit hn hst => (execFenCmdUnfence_of_unit hphase hunit hn).trans (congrArg _ (if_pos hst)),
    fun n s hphase hunit hn hst hmem => ?tile, fun n s hphase hunit hn hst hmem => ?core,
    fun tile n s hphase hunit hn hinv => ⟨_, execFenCmdRead_of_unit hphase hunit hn, ?read, rfl⟩⟩
  case tile =>
    refine (execFenCmdUnfence_of_unit hphase hunit hn).trans (congrArg _ ?_)
    rw [hst, if_neg (by decide), if_pos rfl, if_pos (List.contains_iff_mem.2 hmem)]
  case core =>
    refine (execFenCmdUnfence_of_unit hphase hunit hn).trans (congrArg _ ?_)
    rw [hst, if_neg (by decide), if_neg (by decide), if_pos (List.contains_iff_mem.2 hmem)]
  case read => exact (regFld_regSetFld hinv (by decide)).trans (Nat.mod_eq_of_lt (fenState_lt tile n))

end Sys2Proof.Machine
